-- ==== Sys2Proof/Word.lean ====
section
/-! DEFINITION. The word types of the block: bytes and the 32-bit words of the configuration window (R5, R8). -/
namespace Sys2Proof

/-- One byte. -/
abbrev Byte := BitVec 8

/-- One register word of the configuration window. -/
abbrev Word := BitVec 32

end Sys2Proof
end

