-- ==== Sys2Proof/Config.lean ====
section
/-! DEFINITION. The free values of the model: constants without a body, which no proof can evaluate. -/
namespace Sys2Proof.Config

/-- The 16-byte challenge that a port draws on its k-th entry to TRAINING (R358 asks only that it be fresh). -/
opaque freshChallenge : Nat → BitVec 128

/-- The status with which event number k is logged, where the spec says that the event is logged and names no status. -/
opaque openStatus : Nat → BitVec 4

/-- The additional authenticated data of an admission answer, from the peer's challenge, the sender's chip and its port: R358
names the three and gives no layout. -/
opaque admitData : BitVec 128 → BitVec 12 → BitVec 7 → BitVec 152

/-- The 40 bits of the alignment marker that carries a lane number: R339 gives its length alone. -/
opaque laneMarker : Nat → BitVec 40

/-- A word that the spec leaves open: use number k, and what it may depend on. -/
opaque openWord : Nat → Nat → BitVec 32

end Sys2Proof.Config
end

