-- ==== Sys2Proof/Syntax.lean ====
section
/-! DEFINITION. The commands of the block: one constructor for each row of spec/opcode_table.json, with the row's
operands. A row that a unit of the block performs on something it already holds (a packet that has arrived, a command
that a ring has fetched, a timer that runs) names the unit; what it acts on is in the State. -/
namespace Sys2Proof

/-- A clock or reset crossing of R414 at which one side can be reset alone. -/
inductive Crossing where
  /-- The seam; `eastSide` names the half on the far side. -/
  | seam (eastSide : Bool)
  /-- TAP t, whose far side is core k. -/
  | tap (t : Nat)
  /-- MAP m, whose far side is the memory controller. -/
  | map (m : Nat)
  /-- One NKP lane of a Nuoka Link port block. -/
  | nkp (port lane : Nat)
  /-- A D2D module, whose far side is the UCIe adapter. -/
  | d2d (port : Nat)
  /-- The Spindle source. -/
  | spx
  /-- The CFG host. -/
  | cfg
  /-- The maintenance port, whose far side is the JTAG clock. -/
  | dbg
  deriving DecidableEq, Repr

/-- What one physical lane of a link carries for one frame (R339): by how many symbols it lags, the lane number of the alignment
marker before the frame where there is one, and its symbols. The 40 bits of a marker are not in the spec: it stands by its number
(DESIGN CHOICE, log 39). -/
structure LaneSyms where
  delay : Nat
  mark : Option Nat
  syms : List (BitVec 10)
  deriving DecidableEq, Repr

/-- The commands, in the order of the table. -/
inductive Instr where
  /-- CFG_WRITE (R453). A host write through the CFG handshake to a register that has no row of its own takes effect under its field rules and reports a status. -/
  | cfgWrite (addr : BitVec 28) (data : Word)
  /-- CFG_TIMEOUT (R454). A CFG access to a node or port block that gets no CFG_RSP within 65,536 cycles completes with status TIMEOUT. -/
  | cfgTimeout (k : Nat)
  /-- DBG_REG (R438). A DBG_REG access from the test access port performs a register access like CFG, and can also reach CLM_REVOKE. -/
  | dbgReg (write : Bool) (addr : BitVec 28) (data : Word)
  /-- NOTCH_EDGE (R37). A rising edge of SPX_NCLK begins a notch, is distributed to every unit and advances Spindle time. -/
  | notchEdge
  /-- SYNTH_NOTCH (R46). In beacon mode the block makes a notch every 8 cycles, adjusted by trim. -/
  | synthNotch
  /-- TURN_EDGE (R38). A notch edge that begins notch 0 starts a turn and runs the events placed at that edge. -/
  | turnEdge
  /-- TCNT_ACCEPT (R38). The double sampling of SPX_TCNT after a turn edge accepts a count, or takes the previous count + 1, or accepts nothing. -/
  | tcntAccept (s1 s2 s3 s4 s5 : BitVec 40)
  /-- STALL_DETECT (R53). The watchdog expires after 64 cycles without a notch, so the block enters STALLED, freezes time and suspends the Lathe plane. -/
  | stallDetect
  /-- BEACON_TIMEOUT (R47). Two turns without a valid beacon cause a failover to RPORT2, and four turns cause entry to STALLED. -/
  | beaconTimeout
  /-- SPN_CTL_WRITE (R56). A write of SPN_CTL enters ACQUIRE, returns the block to OFF or changes the source ports under its timing rules. -/
  | spnCtlWrite (data : Word)
  /-- SPN_NOW_READ (R56). A read of SPN_NOW_LO captures the whole Spindle time into SPN_NOW_HI. -/
  | spnNowRead
  /-- FLIT_RECEIVE (R101). A router writes an arriving flit, decodes and corrects it, and computes the route of flit 0. -/
  | flitReceive (node plane port : Nat) (upset : BitVec 544) (sbp : Bool)
  /-- CREDIT_RECEIVE (R74). Credits returned on CR update the sender's counter, which saturates at the buffer size. -/
  | creditReceive (node plane port : Nat) (upset : BitVec 16) (crp : Bool)
  /-- PACKET_LAUNCH (R96). An output grants a candidate head packet by two-level round-robin, and its flit 0 launches in the next cycle. -/
  | packetLaunch (node plane port : Nat)
  /-- REFLECT (R111). The reflector builds a NACK for a request routed into an output that is not OPEN, and waits while its queue is full. -/
  | reflect (node plane port vc : Nat)
  /-- BURL_ABSORB (R229). An eligible REDUCE packet merges into a partner entry, takes a free entry or passes uncombined. -/
  | burlAbsorb (node port vc : Nat)
  /-- BURL_HOLD_EXPIRY (R231). A held entry whose hold runs out is released and becomes a candidate at the Burl position. -/
  | burlHoldExpiry (node k : Nat)
  /-- LATHE_FLIT_SWITCH (R157). A reserved flit is copied onto every output whose window names its input, without buffer, credit or arbitration. -/
  | latheFlitSwitch (node port : Nat) (upset : BitVec 544)
  /-- HEADSTOCK_STATION_RECEIVE (R469). The Headstock station takes its replies, answers route-store READs and NACKs or discards every other packet. -/
  | headstockStationReceive
  /-- NI_LAUNCH (R148). An NI launches a formed packet once its class bucket holds enough tokens and an outstanding entry is free. -/
  | niLaunch (ep : Nat)
  /-- THROTTLE_UPDATE (R148). At each notch edge the level of each class bucket rises or falls with the backlog. -/
  | throttleUpdate (ep : Nat)
  /-- GOV_WINDOW_END (R151). At the end of each window the governor computes the power estimate and updates the budget B. -/
  | govWindowEnd
  /-- WRITE (R135). A destination NI receives a WRITE and performs, holds, reorders or refuses it under its receive slot. -/
  | write (ep : Nat)
  /-- READ (R135). A destination NI receives a READ and answers it with RDATA under its receive-slot order. -/
  | read (ep : Nat)
  /-- SEND (R327). A receiving NI checks a SEND against its receive queue, writes it to the ring and answers with a CREDIT. -/
  | send (ep : Nat)
  /-- RSLOT_HOLE_TIMEOUT (R136). The oldest held packet reaches the HOLE time, so the receive slot becomes BROKEN and an RSLOT record is posted. -/
  | rslotHoleTimeout (ep src ctx chan : Nat)
  /-- CFG_RD (R68). A node or port block performs a register read carried on CQ and answers with a CFG_RSP. -/
  | cfgRd (isPort : Bool) (k : Nat)
  /-- CFG_WR (R68). A node or port block performs a register write carried on CQ and answers with a CFG_RSP. -/
  | cfgWr (isPort : Bool) (k : Nat)
  /-- CFG_RSP (R454). The Headstock takes the response to a CFG access and completes the access. -/
  | cfgRsp
  /-- RDATA (R146). An initiator takes read data that answers an outstanding READ and writes it to its destination. -/
  | rdata (ep : Nat)
  /-- WACK (R146). An initiator takes a write acknowledgement that answers an outstanding WRITE. -/
  | wack (ep : Nat)
  /-- NACK (R146). An initiator takes a NACK and retries the request or fails it with the NACK's status. -/
  | nack (ep : Nat)
  /-- CREDIT (R329). A send queue accepts a CREDIT's HEAD into HEADK when it lies in range, and completes the outstanding SEND. -/
  | credit (ep : Nat)
  /-- NI_REQUEST_TIMEOUT (R146). An outstanding packet reaches its TMO and is retried or failed. -/
  | niRequestTimeout (ep idx : Nat)
  /-- NI_RETRY (R147). After its backoff a failed packet is re-sent with the same SEQ, a new generation and the next valid path. -/
  | niRetry (ep idx : Nat)
  /-- BLK_FREE (R143). A write of a buffer handle frees that buffer, or records a double free or a range error. -/
  | blkFree (ep : Nat) (data : Word)
  /-- BLK_POOL_ENABLE (R144). Setting BLK_POOLn_CFG.EN marks every buffer of the pool free. -/
  | blkPoolEnable (ep pool : Nat) (data : Word)
  /-- NOP (R379). A Headstock command that does nothing and completes OK. -/
  | nop (ring : Nat)
  /-- RING_ABORT (R386). A command that squashes every unreleased command of a ring and halts it. -/
  | ringAbort (ring : Nat)
  /-- JOB_KILL (R387). A command that stops, squashes and cancels all work of a job and disables its rings. -/
  | jobKill (ring : Nat)
  /-- XFER (R379). A command that writes or reads a buffer to or from a rank as bulk or glint packets. -/
  | xfer (ring : Nat)
  /-- XFER_MC (R181). A command that sends a deposit-window or queue-targeted multicast, optionally with relay. -/
  | xferMc (ring : Nat)
  /-- XFER_RED (R225). A command that sends a REDUCE contribution as ACC or BOWL packets. -/
  | xferRed (ring : Nat)
  /-- RANK_BIND (R122). A command that writes rank-table entries after checking the GOOD bits of the cores they name. -/
  | rankBind (ring : Nat)
  /-- TABLE_WRITE (R126). A command that writes path sets into the shadow bank of a table set. -/
  | tableWrite (ring : Nat)
  /-- TSET_SWAP (R127). A command that schedules the swap of a table set's route bank at a named turn. -/
  | tsetSwap (ring : Nat)
  /-- TSET_SWAP_EDGE (R127). At the named turn edge the route bank and epoch flip if every bound context is stopped with nothing outstanding. -/
  | tsetSwapEdge (ring : Nat)
  /-- INJ_STOP (R127). A command that stops injection on the contexts of a table set or a job. -/
  | injStop (ring : Nat)
  /-- INJ_RESUME (R127). A command that resumes injection on the contexts of a table set or a job. -/
  | injResume (ring : Nat)
  /-- CHAN_OPEN (R131). A command that opens a send or receive channel slot. -/
  | chanOpen (ring : Nat)
  /-- CHAN_CLOSE (R137). A command that closes a channel slot, or every slot toward a departed chip. -/
  | chanClose (ring : Nat)
  /-- RTR_DRAIN (R114). A command that holds the inputs of a router, drains it and fences it. -/
  | rtrDrain (ring : Nat)
  /-- RTR_DRAIN_DONE (R114). When the drained router shows empty, its outputs and the outputs facing it are fenced. -/
  | rtrDrainDone
  /-- RTR_DRAIN_TIMEOUT (R114). A drain that is not empty within its timeout completes TIMEOUT, or fences anyway and discards under FORCE. -/
  | rtrDrainTimeout
  /-- RTR_REOPEN (R117). A command that rejoins the links of a fenced router and opens its outputs. -/
  | rtrReopen (ring : Nat)
  /-- DOM_DOWN (R399). A command that checks a domain and moves it into Penumbra on the way to its target state. -/
  | domDown (ring : Nat)
  /-- DOM_UP (R404). A command that powers up, initialises and lights a domain. -/
  | domUp (ring : Nat)
  /-- SEM_INIT (R281). A command that enables a semaphore with a job and a starting value. -/
  | semInit (ring : Nat)
  /-- SEM_FREE (R281). A command that disables a semaphore, squashing its watches under FORCE. -/
  | semFree (ring : Nat)
  /-- SEM_SET (R311). A privileged command that sets a semaphore's value by sending a SET. -/
  | semSet (ring : Nat)
  /-- SEM_READ (R379). A command that returns a semaphore's VALUE. -/
  | semRead (ring : Nat)
  /-- SYNC_BIND (R284). A command that writes checked sync-map entries and removes them from NI caches. -/
  | syncBind (ring : Nat)
  /-- BAR_INIT (R301). A command that creates a barrier instance and writes its mask slices into the units. -/
  | barInit (ring : Nat)
  /-- BAR_FREE (R301). A command that removes a barrier instance. -/
  | barFree (ring : Nat)
  /-- REALIGN_SET (R309). A command that writes a realign slot of a sync unit. -/
  | realignSet (ring : Nat)
  /-- LTH_LOAD (R170). A command that takes the plan-writer claim, writes a plan image into the shadow banks and checks it. -/
  | lthLoad (ring : Nat)
  /-- LTH_LOAD_DONE (R170). The load of a plan image ends, sets SHADOW_V or reports a check failure, and drops the plan writer. -/
  | lthLoadDone
  /-- LTH_SWAP (R171). A command that schedules the plan swap at a named turn. -/
  | lthSwap (ring : Nat)
  /-- LTH_SWAP_EDGE (R171). At the named turn edge every router and NI flips its active Lathe bank, or the swap completes DENIED. -/
  | lthSwapEdge
  /-- LTH_RESUME (R174). A command that ends the Lathe stall hold at the second turn edge after acceptance. -/
  | lthResume (ring : Nat)
  /-- LATHE_RESUME_EDGE (R174). At the second turn edge after entry to RUN, or after LTH_RESUME, the Lathe plane resumes when no hold remains. -/
  | latheResumeEdge
  /-- PLAN_COMPLETE (R172). At its ending turn edge a plan completes and a PLAN record is written with its status. -/
  | planComplete
  /-- LATHE_STAGE (R167). An NI reads the bytes of a coming launch ahead of the launch cycle. -/
  | latheStage (ep k : Nat)
  /-- LATHE_LAUNCH (R166). At a launch window an NI sends staged packets of its stream as reserved flits, or the launch is void. -/
  | latheLaunch (ep k : Nat)
  /-- LATHE_DEPOSIT (R168). A receiving NI writes a reserved-flit packet as a deposit, with no reply. -/
  | latheDeposit (ep : Nat)
  /-- COL_GROUP_SET (R257). A command that writes a collective group record. -/
  | colGroupSet (ring : Nat)
  /-- COL_ISSUE (R259). A command that queues a collective with its descriptor. -/
  | colIssue (ring : Nat)
  /-- COL_PEER_GONE (R276). A command that marks a chip departed and fails or diverts the collectives it affects. -/
  | colPeerGone (ring : Nat)
  /-- LINK_ADMIT (R359). A command that admits an ISOLATED link to UP with an admission epoch. -/
  | linkAdmit (ring : Nat)
  /-- LINK_DOWN (R360). A command that takes a link down with reason COMMAND. -/
  | linkDown (ring : Nat)
  /-- LINK_SWAP (R352). A command that swaps a named lane with the spare. -/
  | linkSwap (ring : Nat)
  /-- LINK_REKEY (R356). A command that installs a new key and salt in the idle phase of a link direction. -/
  | linkRekey (ring : Nat)
  /-- KEY_LOAD (R434). A command that unwraps a key blob into a Key Store slot. -/
  | keyLoad (ring : Nat)
  /-- KEY_ERASE (R434). A command that zeroes a Key Store slot. -/
  | keyErase (ring : Nat)
  /-- REG_READ (R379). A command that reads a register and returns its data. -/
  | regRead (ring : Nat)
  /-- REG_WRITE (R379). A command that writes a register with the effect of a CFG write. -/
  | regWrite (ring : Nat)
  /-- MIR_SNAP (R424). A command that takes a snapshot at the next notch edge. -/
  | mirSnap (ring : Nat)
  /-- DOORBELL (R372). A write of TAIL to HDS_RINGr_DB makes the commands up to TAIL ready. -/
  | doorbell (ring : Nat) (data : Word)
  /-- RING_RESUME (R388). A write of RESUME to HDS_RINGr_DB returns a HALTED ring to RUN from HEAD. -/
  | ringResume (ring : Nat)
  /-- RING_ENABLE (R394). Setting HDS_RINGr_CTL.EN resets HEAD and TAIL and puts the ring in RUN. -/
  | ringEnable (ring : Nat) (data : Word)
  /-- HDS_RUN (R392). A write of HDS_CTL.RUN starts or stops the starting of commands. -/
  | hdsRun (data : Word)
  /-- COMMAND_FETCH (R373). A fetch of a command completes, and a failed fetch halts the ring. -/
  | commandFetch (ring : Nat)
  /-- STATUS_REPLY (R374). The reply to a command is written, and a failed write halts the ring. -/
  | statusReply (ring : Nat)
  /-- GUARD_NOTIFY (R382). A SYNC_NTF for a Headstock guard releases the guarded command, or squashes the ring when its status is not OK. -/
  | guardNotify
  /-- GUARD_EXPIRY (R383). A Headstock watch slot's guard runs out after the wait timeout plus 8,192 notches. -/
  | guardExpiry (slot : Nat)
  /-- MC_TARGET_RECEIVE (R184). A target NI checks a multicast packet and deposits it, lands it or records a miss. -/
  | mcTargetReceive (ep : Nat)
  /-- MC_RELAY (R195). A target NI launches a relayed column multicast for a relay packet. -/
  | mcRelay (ep : Nat)
  /-- PER_TARGET_NACK (R192). A source NI takes a per-target NACK and schedules a unicast retry or posts a failure record. -/
  | perTargetNack (ep : Nat)
  /-- MC_UNICAST_RETRY (R192). After its backoff a multicast packet is retried to one target. -/
  | mcUnicastRetry (ep k : Nat)
  /-- MC_HOLD_EXPIRY (R191). The hold of a queue-targeted multicast packet ends and its buffer is freed. -/
  | mcHoldExpiry (ep k : Nat)
  /-- REDUCE_ACC (R234). An NI adds an ACC packet into its accumulate window and posts a chunk record when the chunk is done. -/
  | reduceAcc (ep : Nat)
  /-- CLAIM (R239). A Bowl control write that claims a chunk, creating, joining or answering its directory entry. -/
  | claim (port : Nat)
  /-- COMMIT (R239). A Bowl control write that commits a chunk and waits for the slot's outcome. -/
  | commit (port : Nat)
  /-- REDUCE_BOWL (R240). A BOWL contribution is added into its open slot. -/
  | reduceBowl (port : Nat)
  /-- BOWL_RESULT_DONE (R241). When every result WRITE is answered OK, held COMMITs are answered and the entry becomes DONE. -/
  | bowlResultDone (slot : Nat)
  /-- BOWL_SLOT_TIMEOUT (R242). A slot not answered within STMO falls back and answers its claims and commits with CLAIM. -/
  | bowlSlotTimeout (slot : Nat)
  /-- BOWL_ENTRY_EXPIRE (R239). A DONE or FALLBACK entry is freed MARK notches after it entered that state. -/
  | bowlEntryExpire (entry : Nat)
  /-- CLAIM_ATTEMPT (R244). A claim requester attempts a grant after its backoff, and fails after LIMIT lost attempts. -/
  | claimAttempt (who : Nat)
  /-- CLM_COMMIT (R246). A write of CLM_COMMIT.GO makes the shadow priorities take effect. -/
  | clmCommit (data : Word)
  /-- CLM_REVOKE (R248). A maintenance write revokes a slot or the plan writer. -/
  | clmRevoke (dbg : Bool) (data : Word)
  /-- READY (R264). An engine stores a READY record and answers with a WACK. -/
  | ready (port : Nat)
  /-- GDONE (R271). An engine records that a peer has finished writing its gather block. -/
  | gdone (port : Nat)
  /-- COL_STAGE_START (R263). An owner zeroes its window, enables it and sends READY to begin a stage. -/
  | colStageStart (port g : Nat)
  /-- COL_CHUNK_SEND (R266). A contributor's chunk advances through claim, send, commit or fallback as its answers arrive. -/
  | colChunkSend (port g part chunk : Nat)
  /-- COL_PROGRESS_TIMEOUT (R268). A collective that makes no progress for PTMO notches fails with TIMEOUT. -/
  | colProgressTimeout (port g : Nat)
  /-- ADD (R290). A sync operation that adds to a semaphore unless it would overflow. -/
  | add (unit : Nat)
  /-- SUB (R290). A sync operation that subtracts from a semaphore unless it would underflow. -/
  | sub (unit : Nat)
  /-- WAIT (R292). A sync operation that registers a watch firing when VALUE reaches N. -/
  | wait (unit : Nat)
  /-- WAIT_TAKE (R292). A sync operation that registers a watch which takes N when it fires. -/
  | waitTake (unit : Nat)
  /-- SYNC_READ (R288). The READ sync operation notifies at once with the semaphore's value. -/
  | syncRead (unit : Nat)
  /-- CANCEL (R296). A sync operation that fires a live matching watch with SQUASHED. -/
  | cancel (unit : Nat)
  /-- BAR_ARRIVE (R303). A sync operation that counts a member's arrival and reports to the root when the slice is complete. -/
  | barArrive (unit : Nat)
  /-- BAR_WAIT (R307). A sync operation that registers a watch firing when an epoch is released. -/
  | barWait (unit : Nat)
  /-- BAR_UP (R304). A unit-to-unit report that the root counts toward completing a barrier. -/
  | barUp (unit : Nat)
  /-- BAR_DOWN (R306). A unit-to-unit message that releases a barrier epoch at once or schedules it for a turn. -/
  | barDown (unit : Nat)
  /-- SET (R311). A sync operation of JOB 0x3FF that sets VALUE as an ADD of the difference. -/
  | set (unit : Nat)
  /-- BAR_TIMED_RELEASE (R306). At the named turn edge a unit releases a timed barrier epoch. -/
  | barTimedRelease (unit inst : Nat)
  /-- REALIGN (R310). At each K-th turn edge a realign slot rebases two semaphores and reports drift. -/
  | realign (unit slot : Nat)
  /-- WATCH_TIMEOUT (R295). A watch that has not fired by its DEADLINE fires with TIMEOUT. -/
  | watchTimeout (unit watch : Nat)
  /-- NOTIFICATION_LAUNCH (R293). A unit launches the next SYNC_NTF from its notification queue. -/
  | notificationLaunch (unit : Nat)
  /-- SYNC_NTF (R297). An NI takes a notification into its armed watch slot, or discards a stale one. -/
  | syncNtf (ep : Nat)
  /-- WSLOT_GUARD_EXPIRY (R298). An armed watch slot's guard expires and the slot becomes DONE with TIMEOUT. -/
  | wslotGuardExpiry (ep slot : Nat)
  /-- WSLOT_FREE (R297). A write of NI_WSLOT.FREE frees a DONE slot. -/
  | wslotFree (ep slot : Nat)
  /-- DESC (R446). A TAP request carrying a transfer command that the NI runs and ends in a watch slot. -/
  | desc (tap : Nat) (data : BitVec 512)
  /-- SYNC (R286). A TAP request for a sync operation, which the NI checks, translates and sends as a SYNC_OP. -/
  | sync (tap : Nat) (data : BitVec 512)
  /-- QSUBMIT (R323). A TAP request that submits a message to a send queue. -/
  | qsubmit (tap : Nat) (data : BitVec 512)
  /-- REG (R447). A TAP request that reads or writes one of the core's own NI registers. -/
  | reg (tap : Nat) (data : BitVec 512)
  /-- CQ_MESSAGE_START (R324). The head message of a send queue starts once its credit covers its charge. -/
  | cqMessageStart (ep sq : Nat)
  /-- CQ_STALL_TIMEOUT (R332). A message that waited too long for credit completes with TIMEOUT. -/
  | cqStallTimeout (ep sq : Nat)
  /-- CQU_HEAD_WRITE (R330). A receiving core writes HEAD past the records it has consumed. -/
  | cquHeadWrite (ep rq : Nat) (head : Word)
  /-- CREDIT_UPDATE (R330). Within LAZY notches of a HEAD advance, the NI sends a credit update. -/
  | creditUpdate (ep rq : Nat)
  /-- CQU_SEL_READ (R331). A read of CQU_SELk names a ready queue and moves the rotation pointer. -/
  | cquSelRead (ep core : Nat)
  /-- CQU_ENABLE (R322). Setting EN on a queue end checks it, creates the queue and zeroes TAIL and HEAD. -/
  | cquEnable (ep : Nat) (isSend : Bool) (q : Nat) (data : Word)
  /-- FRAME_RECEIVE (R339). A port decodes a frame of two RS codewords and passes on its five cells. -/
  | frameReceive (port : Nat) (lanes : List LaneSyms)
  /-- REPLAY_TIMEOUT (R344). The oldest held cell reaches RTMO and a replay starts, or the link goes down after MAXREPLAY. -/
  | replayTimeout (port : Nat)
  /-- ADMIT_SEND (R358). A training or isolated port sends an ADMIT cell every 1,024 cycles. -/
  | admitSend (port : Nat)
  /-- TRAINING_TIMEOUT (R350). A port not ISOLATED within 2,048 turns idles and restarts training. -/
  | trainingTimeout (port : Nat)
  /-- LANE_FAIL (R353). A lane loses lock or misses its marker, and the spare is swapped in or the link goes down. -/
  | laneFail (port lane : Nat)
  /-- SPARE_ROTATE (R352). Every ROT × 1,024 turns a port swaps a lane with the spare. -/
  | spareRotate (port : Nat)
  /-- SPARE_CALIBRATE (R351). A calibration of the spare over 2^20 symbols ends and sets SPARE_V. `count`: symbols of
  the copy that the way upset beyond those that the frames show. -/
  | spareCalibrate (port count : Nat)
  /-- LINK_DEAD (R360). No good frame for DEAD notches takes the link down. -/
  | linkDead (port : Nat)
  /-- LINK_IDLE_END (R360). After 1,024 notches of electrical idle a down port restarts training. -/
  | linkIdleEnd (port : Nat)
  /-- NKL_CTL_WRITE (R350). A write of NKL_CTL.EN starts bringing the link up or takes it down. -/
  | nklCtlWrite (port : Nat) (data : Word)
  /-- FDI_ERROR (R452). A D2D adapter state other than Active, or pl_error, takes the link down with SIGNAL. -/
  | fdiError (port : Nat)
  /-- SCALEOUT_EXIT (R82). An exit port block that holds every segment transmits the scale-out packet. -/
  | scaleoutExit (port : Nat)
  /-- SCALEOUT_ENTRY (R84). An entry port block checks a whole scale-out packet and injects its segments or answers a bad route. -/
  | scaleoutEntry (port : Nat)
  /-- FILTER_EXPIRE (R365). An arrival-filter entry leaves after KEEP notches. -/
  | filterExpire (k : Nat)
  /-- E2E_ACK (R364). An origin takes an E2E acknowledgement and frees the retransmit entry. -/
  | e2eAck (port : Nat)
  /-- E2E_RETRANSMIT (R366). An origin re-sends a held packet on the next valid path when no acknowledgement has arrived. -/
  | e2eRetransmit (port entry : Nat)
  /-- E2E_ABANDON (R366). An origin abandons a held packet at its age limit or with no valid path. -/
  | e2eAbandon (port entry : Nat)
  /-- DOMAIN_QUIESCENT (R401). A domain in Penumbra becomes quiescent and goes on toward Umbra, or stays. -/
  | domainQuiescent
  /-- DOM_DOWN_TIMEOUT (R401). A domain not quiescent within TMO completes TIMEOUT, or goes on to Umbra under FORCE. -/
  | domDownTimeout
  /-- STEP_BOUNDARY (R407). At a step boundary one domain's power switch is changed. -/
  | stepBoundary
  /-- PSW_ACK_FALL (R403). PSW_ACK falls after PSW_EN was lowered, and the domain becomes Dark. -/
  | pswAckFall (dom : Nat)
  /-- PSW_ACK_RISE (R404). PSW_ACK rises and the domain's reset is released after 16 cycles. -/
  | pswAckRise (dom : Nat)
  /-- PSW_ACK_TIMEOUT (R404). PSW_ACK does not follow PSW_EN within ACKTMO and the transition completes TIMEOUT. -/
  | pswAckTimeout (dom : Nat)
  /-- PSW_ACK_LOST (R406). PSW_ACK falls while PSW_EN is high, and the domain is treated as Dark at once. -/
  | pswAckLost (dom : Nat)
  /-- DOMAIN_INIT_DONE (R404). A domain finishes its initialisation after reset release and goes from Umbra toward Lit. -/
  | domainInitDone (dom : Nat)
  /-- DOMAIN_LIT (R405). The rejoins of a domain complete and the domain becomes Lit with its outputs set. -/
  | domainLit (dom : Nat)
  /-- RST_N_ASSERT (R413). Assertion of the whole-block reset loses all state and drives the reset output values. -/
  | rstNAssert
  /-- RST_N_RELEASE (R417). Release of the whole-block reset starts the initialisation of the configuration/Headstock domain. -/
  | rstNRelease (fuseKey : BitVec 256) (fusePar : BitVec 32) (fuseValid : Bool)
  /-- CFG_INIT_DONE (R417). Initialisation ends after 40,960 cycles and automatic power-up starts when AUTOUP is 1. -/
  | cfgInitDone
  /-- HALF_RESET (R416). Assertion of RST_W_N or RST_E_N resets one half and fences the seam. -/
  | halfReset (east : Bool)
  /-- HALF_RESET_RELEASE (R416). A half leaves reset, the seam rejoins and its domains come up when AUTOUP is 1. -/
  | halfResetRelease (east : Bool)
  /-- CROSSING_FAR_RESET (R414). The far side of a crossing signals reset, and the running side flushes, counts and holds the crossing. -/
  | crossingFarReset (x : Crossing)
  /-- JOIN (R415). A crossing's far side signals JOIN and the crossing rejoins. -/
  | join (x : Crossing)
  /-- JOIN_TIMEOUT (R415). A JOIN not answered within XTMO sets PWR_ERR.REJOIN and is repeated. -/
  | joinTimeout (x : Crossing)
  /-- CLOCK_STOP (R412). A crossing sees its far-side clock stop for XTMO cycles and treats the far side as reset. -/
  | clockStop (x : Crossing)
  /-- ERROR_REPORT (R429). The error log takes a unit's report into an entry, a repeat count or a lost counter. -/
  | errorReport (cls src : Nat)
  /-- ERR_POP (R429). A write of ERR_POP frees the oldest log entry. -/
  | errPop
  /-- TLM_LO_READ (R421). A read of a telemetry counter's LO word captures its HI word and OVF. -/
  | tlmLoRead (addr : BitVec 28)
  /-- TRIG_CLEAR (R427). A write of 1 to MIR_STAT.TRIG clears the trigger and restarts the trace. -/
  | trigClear
  /-- KEY_LOCK (R435). A write of 1 to KEY_LOCK freezes every RWL field until RST_N. -/
  | keyLock
  /-- SEC_TAMPER (R437). The tamper input raises a TAMPER violation and applies its policy, up to erase and seal. -/
  | secTamper
  /-- MAP_WRITE_RESPONSE (R450). A memory write response completes a write with the status of its error code. -/
  | mapWriteResponse (map tag err : Nat)
  /-- MAP_READ_DATA (R450). Memory read data completes a read with its data and its poison or error status. -/
  | mapReadData (map tag : Nat) (data : BitVec 512) (poison : Bool) (err : Nat)
  /-- MAP_TIMEOUT (R450). A memory request with no response within 65,536 cycles completes TIMEOUT. -/
  | mapTimeout (map : Nat) (write : Bool) (tag : Nat)
  /-- TAP_READ_DATA (R448). Core memory returns read data, poison or an address error for a TAP read. -/
  | tapReadData (tap tag : Nat) (data : BitVec 512) (poison err : Bool)
  /-- PHY_LOCK (R350). The PHYs report lock on enough lanes, or a D2D adapter reports Active, so a port with EN set proceeds to alignment and training. -/
  | phyLock (port : Nat) (lanes : BitVec 8)
  /-- CELL_BOUNDARY (R346). At each cell boundary the link transmitter chooses and sends the next cell: BEACON, ADMIT, LANE, replayed, glint, due CTRL, bulk, CTRL or IDLE. -/
  | cellBoundary (port : Nat)
  /-- EAST_CLOCK_RESTART (R412). After the East fclk has run again for 64 cycles, the block releases the East half that it held after the clock stopped. -/
  | eastClockRestart
  /-- FUSE_V_FALL (R436). SEC_FK_VALID falls, which raises a FUSE violation whose policy may erase every key. -/
  | fuseVFall
  /-- ERROR_PACING_TURN (R430). While the Spindle is not in RUN, 16,384 cycles after the last turn edge count as a turn, so HELD moves into PEND. -/
  | errorPacingTurn
  /-- HDS_RESERVED_OPCODE (R376). A fetched Headstock command with a reserved opcode completes with status BADCMD and does not halt the ring. -/
  | hdsReservedOpcode (ring : Nat)
  /-- TAP_RESERVED_OP (R444). A TAP request with a reserved TAP_REQ_OP is answered with status BADCMD, or with DENIED when the core is not good. -/
  | tapReservedOp (tap op : Nat) (data : BitVec 512)
  /-- SYNC_OP_RESERVED (R288). A sync unit that receives a SYNC_OP with a reserved OP sets BADOP, logs BADCMD, and fires a watch with BADCMD when ACK is 1. -/
  | syncOpReserved (unit : Nat)
  deriving DecidableEq, Repr

end Sys2Proof
end

