-- ==== Sys2Proof/Decode.lean ====
section
/-! DEFINITION. The decoder over the rows of spec/opcode_table.json that give bits. No row of the table gives any: the
commands of the block are operations and events at its ports (R1), so no word spells a command. -/
namespace Sys2Proof

/-- The command that a word of the table's bits spells: none, for every row of the table has no bits. -/
def decodeTableWord (_nbits _w : Nat) : Option Instr := none

end Sys2Proof
end

