-- ==== Sys2Proof/Machine/Util.lean ====
section
/-! DEFINITION. Bit fields, little-endian bytes (R5) and finite maps by rising key, the plain helpers that every other
machine file uses. -/
namespace Sys2Proof.Machine

/-- Bits [lo + w - 1 : lo] of a number. -/
def bitsOf (x lo w : Nat) : Nat := x / 2 ^ lo % 2 ^ w

/-- A number with bits [lo + w - 1 : lo] replaced by the low `w` bits of `v`. -/
def putBits (x lo w v : Nat) : Nat := x - bitsOf x lo w * 2 ^ lo + v % 2 ^ w * 2 ^ lo

/-- One bit as a truth value. -/
def bitAt (x i : Nat) : Bool := x / 2 ^ i % 2 == 1

/-- A truth value as a bit. -/
def bit (b : Bool) : Nat := if b then 1 else 0

/-- A field of a register word. -/
def wordField (x : Word) (lo w : Nat) : Nat := bitsOf x.toNat lo w

/-- A register word with one field replaced. -/
def setWordField (x : Word) (lo w v : Nat) : Word := BitVec.ofNat 32 (putBits x.toNat lo w v)

/-- Fields given as (width, value), packed from bit 0 upward. -/
def packFields : List (Nat × Nat) → Nat
  | [] => 0
  | (w, v) :: r => v % 2 ^ w + 2 ^ w * packFields r

/-- The little-endian value of a run of bytes (R5). -/
def leNat : List Byte → Nat
  | [] => 0
  | b :: r => b.toNat + 256 * leNat r

/-- The first `n` little-endian bytes of a number (R5). -/
def leBytes (x : Nat) : Nat → List Byte
  | 0 => []
  | n + 1 => BitVec.ofNat 8 (x % 256) :: leBytes (x / 256) n

/-- A 2's-complement reading of the low `w` bits. -/
def signed (w x : Nat) : Int := if x % 2 ^ w < 2 ^ (w - 1) then (x % 2 ^ w : Int) else (x % 2 ^ w : Int) - 2 ^ w

/-- The low `w` bits of an integer. -/
def unsigned (w : Nat) (i : Int) : Nat := (i % 2 ^ w).toNat

/-- `a - b` modulo `2 ^ w`. -/
def subMod (w a b : Nat) : Nat := (a % 2 ^ w + (2 ^ w - b % 2 ^ w)) % 2 ^ w

/-- `a` lies after `b` in the half-range window of R42 within `w` bits. -/
def liesAfter (w a b : Nat) : Bool := 1 ≤ subMod w a b && subMod w a b ≤ 2 ^ (w - 1) - 1

/-- `⌈a / b⌉`. -/
def ceilDiv (a b : Nat) : Nat := (a + b - 1) / b

/-- Even parity of the low `n` bits. -/
def parity (x : Nat) : Nat → Bool
  | 0 => false
  | n + 1 => (bitAt x n).xor (parity x n)

/-! ### Finite maps: association lists with strictly rising keys -/

/-- The value a map gives a key. -/
def mapGet {α : Type} : List (Nat × α) → Nat → Option α
  | [], _ => none
  | (k', v) :: r, k => if k' = k then some v else mapGet r k

/-- The map with a key's value put in, keys kept rising. -/
def mapPut {α : Type} : List (Nat × α) → Nat → α → List (Nat × α)
  | [], k, v => [(k, v)]
  | (k', v') :: r, k, v =>
    if k < k' then (k, v) :: (k', v') :: r
    else if k' = k then (k, v) :: r
    else (k', v') :: mapPut r k v

/-- The map without a key. -/
def mapDel {α : Type} : List (Nat × α) → Nat → List (Nat × α)
  | [], _ => []
  | (k', v') :: r, k => if k' = k then mapDel r k else (k', v') :: mapDel r k

/-- A map whose unlisted keys read as `d`: writing `d` removes the entry, so that equal contents are equal lists. -/
def mapSet {α : Type} [DecidableEq α] (m : List (Nat × α)) (d : α) (k : Nat) (v : α) : List (Nat × α) :=
  if v = d then mapDel m k else mapPut m k v

/-- A map from numbers to numbers. -/
abbrev NMap := List (Nat × Nat)

/-- The number a map holds, `d` where it lists none. -/
def nget (m : NMap) (d k : Nat) : Nat := (mapGet m k).getD d

/-- Replace the first element that `p` accepts. -/
def updFirst {α : Type} (p : α → Bool) (f : α → α) : List α → List α
  | [] => []
  | a :: r => if p a then f a :: r else a :: updFirst p f r

/-- Remove the first element that `p` accepts. -/
def delFirst {α : Type} (p : α → Bool) : List α → List α
  | [] => []
  | a :: r => if p a then r else a :: delFirst p r

/-- Fold over 0, 1, …, n - 1. -/
def natFold {α : Type} (f : α → Nat → α) (a : α) : Nat → α
  | 0 => a
  | n + 1 => f (natFold f a n) n

/-- `init`, `init + 1`, …, `n` numbers. -/
def upFrom (init : Nat) : Nat → List Nat
  | 0 => []
  | n + 1 => init :: upFrom (init + 1) n

end Sys2Proof.Machine
end

