-- ==== Sys2Proof/Machine/Codec.lean ====
section
/-! DEFINITION. The check codes of the flits: RS(68,64) over GF(2^8) (R58), the extended Hamming code (72,64) (R60), and
poison as inverted check bits (R59, R102). -/
namespace Sys2Proof.Machine

/-! ### Binary fields -/

/-- `a * b` in GF(2^w) with reduction polynomial `poly` (bit w included), by `n` bits of `b`. -/
def gfMulN (w poly : Nat) (a b : Nat) : Nat → Nat
  | 0 => 0
  | n + 1 =>
    let hi := gfMulN w poly a (b / 2) n
    let dbl := hi * 2
    let red := if bitAt dbl w then Nat.xor dbl poly else dbl
    if b % 2 == 1 then Nat.xor red a else red

/-- Multiplication in a binary field of `w` bits. -/
def gfMul (w poly a b : Nat) : Nat := gfMulN w poly a b w

/-- Powers in a binary field. -/
def gfPow (w poly a : Nat) : Nat → Nat
  | 0 => 1
  | n + 1 => gfMul w poly a (gfPow w poly a n)

/-- The inverse, as a^(2^w - 2): the product of a^2, a^4, …, a^(2^(w-1)). -/
def gfInv (w poly a : Nat) : Nat :=
  (natFold (fun (acc : Nat × Nat) _ =>
    let sq := gfMul w poly acc.2 acc.2
    (gfMul w poly acc.1 sq, sq)) (1, a) (w - 1)).1

/-- A polynomial, highest coefficient first, evaluated at a point. -/
def gfEval (w poly : Nat) (cs : List Nat) (x : Nat) : Nat :=
  cs.foldl (fun acc c => Nat.xor (gfMul w poly acc x) c) 0

/-- One step of the division of d(x) · x^k by a monic generator: the register holds the remainder so far, highest
coefficient first; `g` is the generator without its leading 1. -/
def rsShift (w poly : Nat) (g rem : List Nat) (d : Nat) : List Nat :=
  let fb := Nat.xor d (rem.headD 0)
  let sh := rem.drop 1 ++ [0]
  List.zipWith (fun r c => Nat.xor r (gfMul w poly fb c)) sh g

/-- The check symbols of a data word, highest coefficient first. -/
def rsCheck (w poly : Nat) (g data : List Nat) : List Nat :=
  data.foldl (fun rem d => rsShift w poly g rem d) (List.replicate g.length 0)

/-- The generator (x + α^0) … (x + α^(k-1)) with α = 2, highest coefficient first. -/
def rsGen (w poly : Nat) : Nat → List Nat
  | 0 => [1]
  | k + 1 =>
    let g := rsGen w poly k
    let r := gfPow w poly 2 k
    List.zipWith Nat.xor (g ++ [0]) (0 :: g.map (fun c => gfMul w poly c r))

/-! ### RS(68,64) (R58) -/

/-- The field polynomial x^8 + x^4 + x^3 + x^2 + 1. -/
def poly8 : Nat := 0x11D

/-- The generator of R58 without its leading coefficient. -/
def gen68 : List Nat := (rsGen 8 poly8 4).drop 1

/-- The 64 data bytes of a 512-bit value, byte 0 first. -/
def bytes64 (x : Nat) : List Nat := (upFrom 0 64).map (fun b => bitsOf x (8 * b) 8)

/-- The check bytes of R58 of 512 data bits, as 32 bits with check byte j at [8j + 7:8j]. -/
def check68 (x : Nat) : Nat := packFields ((rsCheck 8 poly8 gen68 (bytes64 x)).map (fun c => (8, c)))

/-- The field power α^n for the four syndromes and the positions. -/
def alpha8 (n : Nat) : Nat := gfPow 8 poly8 2 n

/-- Every α^p for p = 0 … 67, by rising p. -/
def alphas68 : List Nat := (natFold (fun (acc : List Nat × Nat) _ => (acc.2 :: acc.1, gfMul 8 poly8 acc.2 2)) ([], 1) 68).1.reverse

/-- What a decoder finds: clean, corrected, or uncorrectable. -/
inductive Decoded where
  | clean (data : Nat)
  | fixed (data : Nat)
  | poison (data : Nat)
  | bad
  deriving DecidableEq, Repr

/-- Adds the error value `y` at the coefficient of x^p of a 68-byte word. -/
def fix68 (cs : List Nat) (p y : Nat) : List Nat :=
  let i := 67 - p
  cs.take i ++ (match cs.drop i with | [] => [] | c :: r => Nat.xor c y :: r)

/-- The decoder of R58 on 68 bytes, highest coefficient first: any two erroneous bytes are corrected. -/
def decode68 (cs : List Nat) : Decoded :=
  let m := gfMul 8 poly8
  let s0 := gfEval 8 poly8 cs 1
  let s1 := gfEval 8 poly8 cs 2
  let s2 := gfEval 8 poly8 cs 4
  let s3 := gfEval 8 poly8 cs 8
  let data := fun (l : List Nat) => packFields ((l.take 64).map (fun c => (8, c)))
  if s0 == 0 && s1 == 0 && s2 == 0 && s3 == 0 then .clean (data cs)
  else
    let pos := (upFrom 0 68).zip alphas68
    match pos.find? (fun px => s0 != 0 && m s0 px.2 == s1 && m s1 px.2 == s2 && m s2 px.2 == s3) with
    | some px => .fixed (data (fix68 cs px.1 s0))
    | none =>
      let det := Nat.xor (m s0 s2) (m s1 s1)
      if det == 0 then .bad
      else
        let di := gfInv 8 poly8 det
        let c1 := m di (Nat.xor (m s0 s3) (m s1 s2))
        let c2 := m di (Nat.xor (m s1 s3) (m s2 s2))
        match pos.filter (fun px => Nat.xor (Nat.xor (m px.2 px.2) (m c1 px.2)) c2 == 0) with
        | [a, b] =>
          let y1 := m (gfInv 8 poly8 (Nat.xor a.2 b.2)) (Nat.xor (m s0 b.2) s1)
          let y2 := Nat.xor s0 y1
          .fixed (data (fix68 (fix68 cs a.1 y1) b.1 y2))
        | _ => .bad

/-- A wide flit on the wires: 512 data bits and 32 check bits, inverted where poisoned (R57, R59). -/
def encodeWide (data : Nat) (bad : Bool) : Nat :=
  let c := check68 data
  data + 2 ^ 512 * (if bad then 2 ^ 32 - 1 - c else c)

/-- What a receiver makes of 544 wire bits: poison is tested first (R59). -/
def decodeWide (x : Nat) : Decoded :=
  let d := bitsOf x 0 512
  let c := bitsOf x 512 32
  if c == 2 ^ 32 - 1 - check68 d then .poison d
  else decode68 (bytes64 d ++ (upFrom 0 4).map (fun j => bitsOf c (8 * j) 8))

/-! ### Hamming (72,64) (R60) -/

/-- The positions 1-71 that hold data bits, ascending: those that are no power of two. -/
def dataPos : List Nat :=
  (upFrom 1 71).filter (fun p => !(p == 1 || p == 2 || p == 4 || p == 8 || p == 16 || p == 32 || p == 64))

/-- XOR of the positions of the set data bits: check bit i is bit i of it (R60). -/
def hammingSyn (x : Nat) : Nat :=
  ((upFrom 0 64).zip dataPos).foldl (fun acc ip => if bitAt x ip.1 then Nat.xor acc ip.2 else acc) 0

/-- The check byte of 64 data bits (R60): check bit 7 is the even parity of the 71 positions. -/
def check72 (x : Nat) : Nat :=
  let c := hammingSyn x
  c + 128 * bit ((parity x 64).xor (parity c 7))

/-- A narrow flit on the wires: 64 data bits and 8 check bits, inverted where poisoned (R102). -/
def encodeNarrow (data : Nat) (bad : Bool) : Nat :=
  let c := check72 data
  data + 2 ^ 64 * (if bad then 255 - c else c)

/-- What a receiver makes of 72 wire bits (R60, R102). -/
def decodeNarrow (x : Nat) : Decoded :=
  let d := bitsOf x 0 64
  let c := bitsOf x 64 8
  if c == 255 - check72 d then .poison d
  else
    let syn := Nat.xor (hammingSyn d) (c % 128)
    let par := (parity d 64).xor (parity c 8)
    if syn == 0 && !par then .clean d
    else if !par then .bad
    else if syn == 0 then .fixed d
    else match ((upFrom 0 64).zip dataPos).find? (fun ip => ip.2 == syn) with
      | some ip => .fixed (Nat.xor d (2 ^ ip.1))
      | none => if syn == 1 || syn == 2 || syn == 4 || syn == 8 || syn == 16 || syn == 32 || syn == 64 then .fixed d
                else .bad

end Sys2Proof.Machine
end

