-- ==== Sys2Proof/Machine/Kerf.lean ====
section
/-! DEFINITION. Narrow arithmetic: the element formats (R202-R211), binary32 addition (R204, R205), the choice of scales
(R212-R215) and the encoders (R216). A binary32 value is its 32-bit pattern; finite values are computed with as exact
integers in units of 2^-149. -/
namespace Sys2Proof.Machine

/-! ### binary32 -/

/-- Number of bits of a natural number. -/
def bitLen (n : Nat) : Nat := if n == 0 then 0 else Nat.log2 n + 1

/-- The canonical NaN (R205). -/
def f32NaN : Nat := 0x7FC00000
/-- +Inf. -/
def f32Inf : Nat := 0x7F800000
/-- The sign bit. -/
def f32Neg (x : Nat) : Bool := bitAt x 31
/-- The magnitude bits. -/
def f32Abs (x : Nat) : Nat := x % 2 ^ 31
/-- A NaN pattern. -/
def f32IsNaN (x : Nat) : Bool := f32Abs x > f32Inf
/-- An infinity. -/
def f32IsInf (x : Nat) : Bool := f32Abs x == f32Inf
/-- Neither NaN nor Inf. -/
def f32Finite (x : Nat) : Bool := f32Abs x < f32Inf

/-- The magnitude of a finite pattern in units of 2^-149. -/
def f32Mag (x : Nat) : Nat :=
  let e := bitsOf x 23 8
  let m := bitsOf x 0 23
  if e == 0 then m else (m + 2 ^ 23) * 2 ^ (e - 1)

/-- A number of units shifted right by `sh` bits, to nearest with ties to even. -/
def rneShift (n sh : Nat) : Nat :=
  if sh == 0 then n
  else
    let q := n / 2 ^ sh
    let r := n % 2 ^ sh
    let half := 2 ^ (sh - 1)
    if r > half || (r == half && q % 2 == 1) then q + 1 else q

/-- The pattern nearest to a magnitude in units of 2^-149, with its sign (R204). -/
def f32OfMag (neg : Bool) (n : Nat) : Nat :=
  let p := if n < 2 ^ 24 then n else
    let sh := bitLen n - 24
    sh * 2 ^ 23 + rneShift n sh
  (if p ≥ f32Inf then f32Inf else p) + 2 ^ 31 * bit neg

/-- binary32 addition with round to nearest even (R204, R205). -/
def f32Add (x y : Nat) : Nat :=
  if f32IsNaN x || f32IsNaN y then f32NaN
  else if f32IsInf x then (if f32IsInf y && f32Neg x != f32Neg y then f32NaN else x)
  else if f32IsInf y then y
  else
    let sx : Int := if f32Neg x then -(f32Mag x : Int) else f32Mag x
    let sy : Int := if f32Neg y then -(f32Mag y : Int) else f32Mag y
    let r := sx + sy
    if r == 0 then (if f32Neg x && f32Neg y then 2 ^ 31 else 0)
    else f32OfMag (r < 0) r.natAbs

/-- Encoding to BF16; a zero magnitude has sign 0 (R205). -/
def toBf16 (x : Nat) : Nat :=
  if f32IsNaN x then 0x7FC0
  else if f32IsInf x then x / 2 ^ 16
  else
    let v := (x + 0x7FFF + bitsOf x 16 1) / 2 ^ 16
    if v % 2 ^ 15 == 0 then 0 else v

/-- Encoding to binary32; a zero magnitude has sign 0 (R205). -/
def toF32 (x : Nat) : Nat := if f32IsNaN x then f32NaN else if f32Abs x == 0 then 0 else x

/-! ### Formats (R202) -/

/-- Bytes of a group of 64 elements; 0 for a reserved code. -/
def groupBytes (fmt : Nat) : Nat :=
  match fmt with
  | 0 => 256 | 1 => 128 | 2 => 34 | 3 => 26 | 4 => 15 | 5 => 34 | 6 => 50 | 7 => 66 | 8 => 66 | _ => 0

/-- A Kerf format (KF4, KF3, KT2). -/
def isKerf (fmt : Nat) : Bool := 2 ≤ fmt && fmt ≤ 4

/-- Element grid of a narrow format: mantissa bits, exponent of the smallest step, largest code (R206-R210). -/
def grid (fmt : Nat) : Nat × Int × Nat :=
  match fmt with
  | 2 => (1, -1, 7) | 3 => (1, -1, 3) | 4 => (0, 0, 1) | 5 => (1, -1, 7) | 6 => (2, -4, 31) | 7 => (3, -9, 126)
  | _ => (8, -6, 127)

/-- Four times the saturation threshold T of a Kerf format (R212). -/
def thresh4 (fmt : Nat) : Nat := if fmt == 2 then 28 else if fmt == 3 then 7 else 6

/-- The fit of a magnitude in units of 2^-149 (R212). -/
def fit (fmt n : Nat) : Int := (bitLen (64 * n / thresh4 fmt) : Int) - 153

/-- The largest exponent of an MX element format (R215). -/
def mxEmax (fmt : Nat) : Int := if fmt == 5 then 2 else if fmt == 6 then 4 else if fmt == 7 then 8 else 0

/-! ### Decoding -/

/-- A decoded group: 64 binary32 patterns, the placeholder and undecodable marks, and the NaN count of FAB_KERF_NAN. -/
structure Group where
  vals : List Nat
  placeholder : Bool
  undecodable : Bool
  nans : Nat
  deriving DecidableEq, Repr

/-- The magnitude of an element code at block scale 2^sc, in units of 2^-149. -/
def codeMag (fmt code : Nat) (sc : Int) : Nat :=
  let g := grid fmt
  let m := g.1
  let top := code / 2 ^ m
  let r := if top == 0 then code else code % 2 ^ m + 2 ^ m
  let q : Int := g.2.1 + (if top == 0 then 0 else (top : Int) - 1)
  r * 2 ^ (q + sc + 149).toNat

/-- A list of n numbers of w bits from a packed value. -/
def unpackN (x w : Nat) (n : Nat) : List Nat := (upFrom 0 n).map (fun i => bitsOf x (w * i) w)

/-- Signs and codes of the 64 elements of a Kerf group, from its element bytes; none where a trit byte is reserved. -/
def kerfCodes (fmt : Nat) (body : List Byte) : Option (List (Bool × Nat)) :=
  if fmt == 2 then some ((unpackN (leNat body) 4 64).map (fun c => (bitAt c 3, c % 8)))
  else if fmt == 3 then some ((unpackN (leNat body) 3 64).map (fun c => (bitAt c 2, c % 4)))
  else if body.any (fun b => b.toNat ≥ 243) then none
  else some ((upFrom 0 64).map (fun i =>
    let v := ((body[i / 5]?).getD 0).toNat
    let d := v / 3 ^ (i % 5) % 3
    (d == 0, if d == 1 then 0 else 1)))

/-- One MX block: scale byte and 32 signs and codes. -/
def mxBlock (fmt : Nat) (bs : List Byte) : List Nat × Nat :=
  match bs with
  | [] => ([], 0)
  | sb :: body =>
    if sb.toNat == 255 then (List.replicate 32 f32NaN, 1)
    else
      let sc : Int := (sb.toNat : Int) - 127
      let x := leNat body
      let w := if fmt == 5 then 4 else if fmt == 6 then 6 else 8
      ((unpackN x w 32).map (fun c =>
        if fmt == 8 then
          let i := signed 8 c
          f32OfMag (i < 0) (i.natAbs * 2 ^ (sc + 143).toNat)
        else
          let neg := bitAt c (w - 1)
          let code := c % 2 ^ (w - 1)
          if fmt == 7 && code == 127 then f32NaN else f32OfMag neg (codeMag fmt code sc)), 0)

/-- One group decoded (R202-R211). -/
def decodeGroup (fmt : Nat) (g : List Byte) : Group :=
  if fmt == 0 then ⟨unpackN (leNat g) 32 64, false, false, 0⟩
  else if fmt == 1 then ⟨(unpackN (leNat g) 16 64).map (· * 2 ^ 16), false, false, 0⟩
  else if isKerf fmt then
    let x := ((g[0]?).getD 0).toNat
    let sub := ((g[1]?).getD 0).toNat
    if x == 255 then
      (if sub == 255 then ⟨List.replicate 64 0, true, false, 0⟩ else ⟨List.replicate 64 f32NaN, false, false, 1⟩)
    else match kerfCodes fmt (g.drop 2) with
      | none => ⟨List.replicate 64 f32NaN, false, true, 0⟩
      | some cs =>
        ⟨((upFrom 0 64).zip cs).map (fun ic =>
          f32OfMag ic.2.1 (codeMag fmt ic.2.2 ((x : Int) - 127 - (bitsOf sub (2 * (ic.1 / 16)) 2 : Int)))), false, false, 0⟩
  else
    let h := groupBytes fmt / 2
    let a := mxBlock fmt (g.take h)
    let b := mxBlock fmt (g.drop h)
    ⟨a.1 ++ b.1, false, false, a.2 + b.2⟩

/-! ### Encoding -/

/-- An element rounded to the grid at scale 2^sc: code and whether it saturated (R216). -/
def roundCode (fmt n : Nat) (sc : Int) : Nat × Bool :=
  if n == 0 then (0, false)
  else
    let g := grid fmt
    let lg : Int := (Nat.log2 n : Int) - 149 - sc
    let q : Int := max g.2.1 (lg - g.1)
    let t : Int := -149 - sc - q
    let r := if 0 ≤ t then n * 2 ^ t.toNat else rneShift n (-t).toNat
    let code := (q - g.2.1).toNat * 2 ^ g.1 + r
    if code > g.2.2 then (g.2.2, true) else (code, false)

/-- An encoded group: bytes, saturated elements, NaN count. -/
structure Encoded where
  bytes : List Byte
  sat : Nat
  nans : Nat
  deriving DecidableEq, Repr

/-- The largest magnitude of a list of finite patterns. -/
def amax (vs : List Nat) : Nat := vs.foldl (fun m v => max m (f32Mag v)) 0

/-- An integer held between two bounds. -/
def clampInt (lo hi x : Int) : Int := if x < lo then lo else if x > hi then hi else x

/-- The bytes of a list of (width, value) fields. -/
def packBytes (fs : List (Nat × Nat)) (n : Nat) : List Byte := leBytes (packFields fs) n

/-- A Kerf group encoded with reference exponent `ref`, or in own mode (R213, R216). -/
def encodeKerf (fmt : Nat) (vs : List Nat) (ref : Option Int) : Encoded :=
  let n := groupBytes fmt
  let a := amax vs
  if vs.any (fun v => !f32Finite v) then
    ⟨[0xFF, 0x00] ++ List.replicate (n - 2) 0, 0, 1⟩
  else
    let x : Int := match ref with
      | some e => clampInt 0 254 (127 + e)
      | none => if a == 0 then 0 else clampInt 0 254 (127 + fit fmt a)
    let us := (upFrom 0 4).map (fun j =>
      let aj := amax ((vs.drop (16 * j)).take 16)
      if aj == 0 then (3 : Int) else clampInt 0 3 (x - 127 - fit fmt aj))
    let cs := ((upFrom 0 64).zip vs).map (fun iv =>
      let u := (us[iv.1 / 16]?).getD 0
      let r := roundCode fmt (f32Mag iv.2) (x - 127 - u)
      (f32Neg iv.2 && r.1 != 0, r.1, r.2))
    let body :=
      if fmt == 4 then
        (upFrom 0 13).map (fun k =>
          BitVec.ofNat 8 ((upFrom 0 5).foldl (fun acc j =>
            let d := match cs[5 * k + j]? with
              | some c => if c.2.1 == 0 then 1 else if c.1 then 0 else 2
              | none => 1
            acc + d * 3 ^ j) 0))
      else
        let w := if fmt == 2 then 4 else 3
        packBytes (cs.map (fun c => (w, c.2.1 + 2 ^ (w - 1) * bit c.1))) (n - 2)
    ⟨[BitVec.ofNat 8 x.toNat, BitVec.ofNat 8 (packFields (us.map (fun u => (2, u.toNat))))] ++ body,
     (cs.filter (fun c => c.2.2)).length, 0⟩

/-- One MX block of 32 elements encoded (R215, R216). -/
def encodeMx (fmt : Nat) (vs : List Nat) : List Byte × Nat :=
  let a := amax vs
  let sc : Int := if a == 0 then 0 else clampInt 0 254 ((Nat.log2 a : Int) - 149 - mxEmax fmt + 127)
  let w := if fmt == 5 then 4 else if fmt == 6 then 6 else 8
  let cs := vs.map (fun v =>
    let r := roundCode fmt (f32Mag v) (sc - 127)
    let neg := f32Neg v && r.1 != 0
    (if fmt == 8 then (if neg then 256 - r.1 else r.1) else r.1 + 2 ^ (w - 1) * bit neg, r.2))
  (BitVec.ofNat 8 sc.toNat :: packBytes (cs.map (fun c => (w, c.1))) (groupBytes fmt / 2 - 1),
   (cs.filter (fun c => c.2)).length)

/-- 64 binary32 values encoded in a format; `ref` is the tracked reference exponent (R213, R214). -/
def encodeGroup (fmt : Nat) (vs : List Nat) (ref : Option Int) : Encoded :=
  if fmt == 0 then ⟨packBytes (vs.map (fun v => (32, toF32 v))) 256, 0, 0⟩
  else if fmt == 1 then ⟨packBytes (vs.map (fun v => (16, toBf16 v))) 128, 0, 0⟩
  else if isKerf fmt then encodeKerf fmt vs ref
  else if vs.any (fun v => !f32Finite v) then
    let h := groupBytes fmt / 2 - 1
    ⟨[0xFF] ++ List.replicate h 0 ++ [0xFF] ++ List.replicate h 0, 0, 2⟩
  else
    let a := encodeMx fmt (vs.take 32)
    let b := encodeMx fmt (vs.drop 32)
    ⟨a.1 ++ b.1, a.2 + b.2, 0⟩

/-- The placeholder of an escalated group (R220). -/
def placeholder (fmt : Nat) : List Byte := [0xFF, 0xFF] ++ List.replicate (groupBytes fmt - 2) 0

/-- A payload cut into whole groups of `sz` bytes, at most `n` of them. -/
def chunksOf (sz : Nat) : Nat → List Byte → List (List Byte)
  | 0, _ => []
  | n + 1, l => if l.isEmpty || sz == 0 then [] else l.take sz :: chunksOf sz n (l.drop sz)

/-- Which of `n` groups of `sz` bytes hold a byte of a poisoned 64-byte unit. -/
def badGroups (sz n : Nat) (bad : List Nat) : List Nat :=
  (upFrom 0 n).filter (fun k => bad.any (fun u => 64 * u < sz * (k + 1) && sz * k < 64 * u + 64))

/-- The 64-byte units that hold bytes of the given groups of `sz` bytes. -/
def unitsOfGroups (sz : Nat) (ks : List Nat) : List Nat :=
  (ks.flatMap (fun k => upFrom (sz * k / 64) (ceilDiv (sz * (k + 1)) 64 - sz * k / 64))).eraseDups

/-- The groups of a payload in a format. -/
def groupsOf (fmt : Nat) (pay : List Byte) : List (List Byte) := chunksOf (groupBytes fmt) pay.length pay

end Sys2Proof.Machine
end

