-- ==== Sys2Proof/Machine/RegTable.lean ====
section
/-! DEFINITION. The register map of spec/, table by table: every register's block kind, offset, array stride and
count, and its fields (place, width, access type, reset value). Rule numbers: R8, R18, R56, R118, R153, R158, R164,
R177, R201, R223, R253, R279, R318, R335, R370, R394, R420, R421-R423, R441, R459, R462. Reset values that depend on
the build are given by `Sys2Proof.Machine.resetWord`. -/
namespace Sys2Proof.Machine

/-- The access types of 00_scope.md ("Register access types"); `CLR` is a counter under the clearing rule of R118 and
`TLM` the LO word of a telemetry counter (R421). -/
inductive RTy where
  | RW | RO | WO | W1C | RWS | RWL | CLR | TLM
  deriving DecidableEq, Repr

/-- Where a register lies (R8, R18): `np` in node blocks and port blocks, `nodeZ` in node blocks and read as zero in
port blocks (R153, R321). -/
inductive RKind where
  | glob | node | port | np | nodeZ
  deriving DecidableEq, Repr

/-- One field of a register: least bit, width, access type, reset value. -/
structure RegFld where
  lo : Nat
  w : Nat
  ty : RTy
  rst : Nat
  deriving DecidableEq, Repr

/-- One row of the register map. -/
structure RegRow where
  kind : RKind
  off : Nat
  stride : Nat
  cnt : Nat
  flds : List RegFld
  deriving DecidableEq, Repr

/-- A named field: offset of its register in its block (of entry 0 of an array), least bit, width. -/
structure Fld where
  off : Nat
  lo : Nat
  w : Nat
  deriving DecidableEq, Repr


/-- Part 0 of the register map. -/
def regTable0 : List RegRow := [
  ⟨.glob, 0x0, 4, 1, [⟨16, 16, .RO, 0x4846⟩, ⟨8, 8, .RO, 2⟩, ⟨0, 8, .RO, 3⟩]⟩,
  ⟨.glob, 0x4, 4, 1, [⟨0, 7, .RO, 0⟩, ⟨7, 7, .RO, 0⟩, ⟨14, 1, .RO, 0⟩, ⟨15, 1, .RO, 0⟩]⟩,
  ⟨.node, 0x0, 4, 1, [⟨0, 7, .RO, 0⟩, ⟨7, 6, .RO, 0⟩, ⟨13, 1, .RO, 0⟩, ⟨14, 7, .RO, 0⟩]⟩,
  ⟨.port, 0x0, 4, 1, [⟨0, 7, .RO, 0⟩, ⟨7, 6, .RO, 0⟩, ⟨13, 2, .RO, 0⟩, ⟨15, 1, .RO, 0⟩, ⟨16, 4, .RO, 0⟩, ⟨20, 7, .RO, 0⟩]⟩,
  ⟨.nodeZ, 0x1000, 4, 1, [⟨0, 4, .RWL, 0⟩]⟩,
  ⟨.glob, 0x8, 4, 1, [⟨0, 15, .RO, 0⟩]⟩,
  ⟨.glob, 0xC, 4, 1, [⟨0, 12, .RWL, 0xFFF⟩]⟩,
  ⟨.glob, 0x100, 4, 1, [⟨0, 1, .RW, 0⟩, ⟨1, 1, .RW, 0⟩, ⟨2, 1, .RW, 0⟩, ⟨3, 1, .RW, 1⟩, ⟨4, 7, .RW, 0x7F⟩, ⟨11, 7, .RW, 0x7F⟩]⟩,
  ⟨.glob, 0x104, 4, 1, [⟨0, 3, .RO, 0⟩, ⟨3, 1, .RO, 0⟩, ⟨4, 2, .RO, 3⟩, ⟨6, 4, .RO, 0xF⟩, ⟨10, 1, .RO, 1⟩]⟩,
  ⟨.glob, 0x108, 4, 1, [⟨0, 1, .W1C, 0⟩, ⟨1, 1, .W1C, 0⟩, ⟨2, 1, .W1C, 0⟩, ⟨3, 1, .W1C, 0⟩, ⟨4, 1, .W1C, 0⟩, ⟨5, 1, .W1C, 0⟩, ⟨6, 1, .W1C, 0⟩, ⟨7, 1, .W1C, 0⟩]⟩,
  ⟨.glob, 0x110, 4, 1, [⟨0, 32, .RO, 0⟩]⟩,
  ⟨.glob, 0x114, 4, 1, [⟨0, 8, .RO, 0⟩, ⟨8, 11, .RO, 0⟩, ⟨19, 3, .RO, 0⟩]⟩,
  ⟨.glob, 0x118, 4, 1, [⟨0, 16, .RO, 0⟩]⟩,
  ⟨.glob, 0x120, 4, 1, [⟨0, 8, .RW, 0x40⟩, ⟨8, 8, .RW, 0⟩]⟩,
  ⟨.glob, 0x124, 4, 1, [⟨0, 16, .RO, 0⟩, ⟨16, 8, .RO, 0⟩]⟩,
  ⟨.glob, 0x128, 4, 1, [⟨0, 16, .RO, 0⟩]⟩,
  ⟨.glob, 0x12C, 4, 1, [⟨0, 20, .RO, 0⟩]⟩,
  ⟨.glob, 0x130, 4, 1, [⟨0, 32, .RO, 0⟩]⟩,
  ⟨.glob, 0x134, 4, 1, [⟨0, 16, .RO, 0⟩]⟩,
  ⟨.node, 0x4, 4, 1, [⟨0, 2, .RO, 0⟩]⟩,
  ⟨.node, 0x8, 4, 1, [⟨0, 3, .RO, 0⟩, ⟨3, 3, .RO, 0⟩, ⟨6, 3, .RO, 0⟩, ⟨9, 3, .RO, 0⟩, ⟨12, 3, .RO, 0⟩]⟩,
  ⟨.node, 0xC, 4, 1, [⟨0, 5, .RO, 0x1F⟩, ⟨5, 1, .RO, 1⟩, ⟨6, 1, .RO, 1⟩, ⟨7, 1, .RO, 0⟩]⟩,
  ⟨.node, 0x10, 4, 1, [⟨0, 7, .RO, 0⟩, ⟨7, 7, .RO, 0⟩, ⟨14, 7, .RO, 0⟩, ⟨21, 7, .RO, 0⟩]⟩,
  ⟨.node, 0x14, 4, 1, [⟨0, 1, .W1C, 0⟩, ⟨1, 1, .W1C, 0⟩, ⟨2, 1, .W1C, 0⟩, ⟨3, 1, .W1C, 0⟩, ⟨4, 1, .W1C, 0⟩, ⟨5, 1, .W1C, 0⟩, ⟨6, 1, .W1C, 0⟩, ⟨7, 1, .W1C, 0⟩]⟩,
  ⟨.node, 0x18, 4, 1, [⟨0, 25, .RO, 0⟩]⟩,
  ⟨.node, 0x1C, 4, 1, [⟨0, 25, .RO, 0⟩]⟩,
  ⟨.node, 0x20, 4, 1, [⟨0, 32, .CLR, 0⟩]⟩,
  ⟨.node, 0x24, 4, 1, [⟨0, 32, .CLR, 0⟩]⟩,
  ⟨.node, 0x28, 4, 1, [⟨0, 32, .CLR, 0⟩]⟩,
  ⟨.node, 0x2C, 4, 1, [⟨0, 32, .CLR, 0⟩]⟩,
  ⟨.glob, 0x200, 4, 4, [⟨0, 32, .RW, 0⟩]⟩,
  ⟨.glob, 0x210, 4, 1, [⟨0, 24, .RW, 0⟩, ⟨31, 1, .RW, 0⟩]⟩,
  ⟨.glob, 0x214, 4, 1, [⟨0, 32, .RW, 0⟩]⟩,
  ⟨.glob, 0x218, 4, 1, [⟨0, 19, .RW, 0⟩]⟩,
  ⟨.glob, 0x21C, 4, 1, [⟨0, 19, .RO, 0⟩]⟩,
  ⟨.glob, 0x280, 8, 16, [⟨0, 32, .RW, 0⟩]⟩,
  ⟨.glob, 0x284, 8, 16, [⟨0, 1, .RW, 0⟩, ⟨1, 1, .RW, 0⟩, ⟨2, 7, .RW, 0⟩, ⟨9, 1, .RO, 0⟩, ⟨16, 16, .RO, 0⟩]⟩,
  ⟨.np, 0x1004, 4, 1, [⟨0, 16, .RW, 0⟩, ⟨16, 16, .RO, 0⟩]⟩,
  ⟨.np, 0x1008, 4, 1, [⟨0, 20, .RW, 0x8000⟩]⟩,
  ⟨.np, 0x100C, 4, 1, [⟨0, 8, .RW, 0x10⟩, ⟨8, 8, .RW, 4⟩, ⟨16, 8, .RW, 0x20⟩, ⟨24, 1, .RW, 0⟩]⟩]

/-- Part 1 of the register map. -/
def regTable1 : List RegRow := [
  ⟨.np, 0x1010, 4, 1, [⟨0, 3, .RO, 0⟩, ⟨3, 3, .RO, 0⟩, ⟨6, 3, .RO, 0⟩, ⟨9, 3, .RO, 0⟩]⟩,
  ⟨.np, 0x1014, 4, 1, [⟨0, 13, .RO, 0⟩]⟩,
  ⟨.np, 0x1018, 4, 1, [⟨0, 32, .CLR, 0⟩]⟩,
  ⟨.np, 0x101C, 4, 1, [⟨0, 1, .W1C, 0⟩, ⟨1, 1, .W1C, 0⟩, ⟨2, 1, .W1C, 0⟩, ⟨3, 1, .W1C, 0⟩, ⟨4, 1, .W1C, 0⟩, ⟨5, 1, .W1C, 0⟩, ⟨6, 1, .W1C, 0⟩, ⟨7, 1, .W1C, 0⟩]⟩,
  ⟨.np, 0x1100, 16, 16, [⟨0, 1, .RW, 0⟩, ⟨1, 10, .RW, 0⟩, ⟨11, 4, .RW, 0⟩, ⟨15, 1, .RO, 0⟩]⟩,
  ⟨.np, 0x1104, 16, 16, [⟨0, 20, .RW, 0x2000⟩, ⟨20, 2, .RW, 2⟩]⟩,
  ⟨.np, 0x1108, 16, 16, [⟨0, 13, .RO, 0⟩]⟩,
  ⟨.np, 0x1200, 8, 4, [⟨0, 32, .RW, 0⟩]⟩,
  ⟨.np, 0x1204, 8, 4, [⟨0, 13, .RW, 0⟩, ⟨13, 2, .RW, 0⟩, ⟨15, 1, .RW, 0⟩]⟩,
  ⟨.np, 0x1220, 4, 1, [⟨0, 16, .WO, 0⟩]⟩,
  ⟨.np, 0x1224, 4, 1, [⟨0, 13, .RO, 0⟩, ⟨16, 13, .RO, 0⟩]⟩,
  ⟨.np, 0x1228, 4, 1, [⟨0, 13, .RO, 0⟩, ⟨16, 13, .RO, 0⟩]⟩,
  ⟨.np, 0x122C, 4, 1, [⟨0, 1, .W1C, 0⟩, ⟨1, 1, .W1C, 0⟩, ⟨2, 1, .W1C, 0⟩]⟩,
  ⟨.glob, 0x300, 4, 1, [⟨0, 1, .RW, 1⟩, ⟨1, 10, .RW, 0x40⟩]⟩,
  ⟨.glob, 0x304, 4, 1, [⟨0, 8, .RW, 0x96⟩]⟩,
  ⟨.glob, 0x308, 4, 1, [⟨0, 16, .RW, 0⟩, ⟨16, 16, .RW, 0⟩]⟩,
  ⟨.glob, 0x30C, 4, 1, [⟨0, 8, .RW, 0⟩]⟩,
  ⟨.glob, 0x310, 4, 1, [⟨0, 16, .RO, 0⟩, ⟨16, 7, .RO, 0x40⟩]⟩,
  ⟨.glob, 0x314, 4, 1, [⟨0, 1, .W1C, 0⟩, ⟨1, 1, .W1C, 0⟩]⟩,
  ⟨.glob, 0x400, 4, 1, [⟨0, 4, .RW, 8⟩]⟩,
  ⟨.glob, 0x404, 4, 1, [⟨0, 2, .RO, 0⟩, ⟨2, 1, .RO, 0⟩, ⟨3, 1, .RO, 0⟩, ⟨4, 1, .RO, 0⟩, ⟨5, 1, .RO, 0⟩, ⟨8, 4, .RO, 0⟩]⟩,
  ⟨.glob, 0x408, 4, 1, [⟨0, 32, .RO, 0⟩]⟩,
  ⟨.glob, 0x40C, 4, 1, [⟨0, 16, .RO, 0⟩]⟩,
  ⟨.glob, 0x410, 4, 1, [⟨0, 32, .CLR, 0⟩]⟩,
  ⟨.glob, 0x414, 4, 1, [⟨0, 32, .CLR, 0⟩]⟩,
  ⟨.glob, 0x418, 4, 1, [⟨0, 32, .CLR, 0⟩]⟩,
  ⟨.np, 0x3000, 4, 1, [⟨0, 32, .CLR, 0⟩]⟩,
  ⟨.node, 0x30, 4, 1, [⟨0, 1, .RW, 0⟩, ⟨1, 1, .RW, 0⟩, ⟨2, 1, .RW, 0⟩, ⟨3, 1, .RW, 0⟩]⟩,
  ⟨.node, 0x34, 4, 1, [⟨0, 32, .CLR, 0⟩]⟩,
  ⟨.node, 0x1300, 8, 4, [⟨0, 30, .RW, 0⟩]⟩,
  ⟨.node, 0x1304, 8, 4, [⟨0, 16, .RW, 0⟩, ⟨16, 2, .RW, 0⟩, ⟨18, 10, .RW, 0⟩, ⟨28, 1, .RW, 0⟩, ⟨31, 1, .RW, 0⟩]⟩,
  ⟨.np, 0x1320, 4, 1, [⟨0, 16, .RW, 0x200⟩, ⟨16, 2, .RW, 3⟩]⟩,
  ⟨.np, 0x1324, 4, 1, [⟨0, 2, .RO, 0⟩, ⟨4, 4, .RO, 0⟩, ⟨8, 13, .RO, 0⟩]⟩,
  ⟨.node, 0x1328, 4, 1, [⟨0, 32, .CLR, 0⟩]⟩,
  ⟨.np, 0x132C, 4, 1, [⟨0, 32, .CLR, 0⟩]⟩,
  ⟨.np, 0x1330, 4, 1, [⟨0, 1, .W1C, 0⟩, ⟨1, 1, .W1C, 0⟩, ⟨2, 1, .W1C, 0⟩, ⟨3, 1, .W1C, 0⟩, ⟨4, 1, .W1C, 0⟩, ⟨5, 1, .W1C, 0⟩, ⟨6, 1, .W1C, 0⟩]⟩,
  ⟨.glob, 0x500, 4, 1, [⟨0, 7, .RW, 2⟩, ⟨7, 2, .RW, 1⟩, ⟨9, 1, .RW, 1⟩]⟩,
  ⟨.glob, 0x504, 4, 1, [⟨0, 32, .CLR, 0⟩]⟩,
  ⟨.glob, 0x508, 4, 1, [⟨0, 32, .CLR, 0⟩]⟩,
  ⟨.glob, 0x50C, 4, 1, [⟨0, 32, .CLR, 0⟩]⟩]

/-- Part 2 of the register map. -/
def regTable2 : List RegRow := [
  ⟨.glob, 0x510, 4, 1, [⟨0, 32, .CLR, 0⟩]⟩,
  ⟨.node, 0x40, 4, 1, [⟨0, 1, .RW, 0⟩, ⟨1, 8, .RW, 8⟩, ⟨9, 3, .RW, 0⟩]⟩,
  ⟨.node, 0x44, 4, 1, [⟨0, 6, .RO, 0⟩]⟩,
  ⟨.node, 0x48, 4, 1, [⟨0, 32, .CLR, 0⟩]⟩,
  ⟨.node, 0x4C, 4, 1, [⟨0, 32, .CLR, 0⟩]⟩,
  ⟨.np, 0x1340, 16, 4, [⟨0, 32, .RW, 0⟩]⟩,
  ⟨.np, 0x1344, 16, 4, [⟨0, 12, .RW, 0⟩, ⟨12, 12, .RW, 0⟩]⟩,
  ⟨.np, 0x1348, 16, 4, [⟨0, 16, .RW, 0⟩, ⟨16, 13, .RW, 0⟩, ⟨29, 2, .RW, 0⟩, ⟨31, 1, .RW, 0⟩]⟩,
  ⟨.np, 0x134C, 16, 4, [⟨0, 10, .RW, 0⟩, ⟨10, 7, .RW, 0⟩]⟩,
  ⟨.np, 0x1380, 4, 1, [⟨0, 1, .W1C, 0⟩, ⟨1, 1, .W1C, 0⟩, ⟨2, 1, .W1C, 0⟩, ⟨3, 1, .W1C, 0⟩]⟩,
  ⟨.np, 0x1384, 4, 1, [⟨0, 32, .CLR, 0⟩]⟩,
  ⟨.glob, 0x600, 4, 1, [⟨0, 16, .RW, 0x1000⟩, ⟨16, 16, .RW, 0x1000⟩]⟩,
  ⟨.glob, 0x604, 4, 1, [⟨0, 11, .RO, 0⟩, ⟨16, 13, .RO, 0⟩]⟩,
  ⟨.glob, 0x608, 4, 1, [⟨0, 16, .RO, 0⟩, ⟨16, 16, .RO, 0⟩]⟩,
  ⟨.glob, 0x60C, 4, 1, [⟨0, 32, .CLR, 0⟩]⟩,
  ⟨.glob, 0x610, 4, 1, [⟨0, 32, .CLR, 0⟩]⟩,
  ⟨.glob, 0x614, 4, 1, [⟨0, 32, .CLR, 0⟩]⟩,
  ⟨.glob, 0x618, 4, 1, [⟨0, 1, .W1C, 0⟩, ⟨1, 1, .W1C, 0⟩, ⟨2, 1, .W1C, 0⟩, ⟨3, 1, .W1C, 0⟩, ⟨4, 1, .W1C, 0⟩]⟩,
  ⟨.glob, 0x700, 4, 1, [⟨0, 1, .RW, 0⟩, ⟨1, 1, .RW, 0⟩, ⟨2, 4, .RW, 8⟩]⟩,
  ⟨.glob, 0x710, 4, 8, [⟨0, 32, .RWS, 0x55555555⟩]⟩,
  ⟨.glob, 0x730, 4, 1, [⟨0, 2, .RWS, 2⟩]⟩,
  ⟨.glob, 0x734, 4, 1, [⟨0, 1, .WO, 0⟩]⟩,
  ⟨.glob, 0x738, 4, 1, [⟨0, 13, .RO, 0⟩, ⟨13, 1, .RO, 0⟩, ⟨14, 1, .RO, 1⟩]⟩,
  ⟨.glob, 0x73C, 4, 1, [⟨0, 11, .WO, 0⟩, ⟨11, 1, .WO, 0⟩]⟩,
  ⟨.glob, 0x740, 4, 1, [⟨0, 32, .CLR, 0⟩]⟩,
  ⟨.glob, 0x744, 4, 1, [⟨0, 32, .CLR, 0⟩]⟩,
  ⟨.port, 0x4000, 4, 1, [⟨0, 4, .RW, 4⟩, ⟨4, 24, .RW, 0x40000⟩]⟩,
  ⟨.port, 0x4004, 4, 1, [⟨0, 7, .RO, 0⟩, ⟨7, 9, .RO, 0⟩, ⟨16, 11, .RO, 0⟩]⟩,
  ⟨.port, 0x4008, 4, 1, [⟨0, 1, .W1C, 0⟩, ⟨1, 1, .W1C, 0⟩, ⟨2, 1, .W1C, 0⟩, ⟨3, 1, .W1C, 0⟩, ⟨4, 1, .W1C, 0⟩]⟩,
  ⟨.port, 0x400C, 4, 1, [⟨0, 32, .CLR, 0⟩]⟩,
  ⟨.port, 0x4010, 4, 1, [⟨0, 32, .CLR, 0⟩]⟩,
  ⟨.port, 0x4014, 4, 1, [⟨0, 32, .CLR, 0⟩]⟩,
  ⟨.port, 0x4018, 4, 1, [⟨0, 32, .CLR, 0⟩]⟩,
  ⟨.glob, 0x800, 4, 1, [⟨0, 20, .RW, 0x4000⟩]⟩,
  ⟨.glob, 0x880, 8, 16, [⟨0, 32, .RW, 0⟩]⟩,
  ⟨.glob, 0x884, 8, 16, [⟨0, 1, .RW, 0⟩, ⟨1, 1, .RW, 0⟩, ⟨2, 7, .RW, 0⟩, ⟨9, 9, .RW, 0⟩, ⟨18, 10, .RW, 0⟩]⟩,
  ⟨.glob, 0x2000, 64, 64, [⟨0, 12, .RO, 0⟩, ⟨12, 11, .RO, 0⟩, ⟨23, 9, .RO, 0⟩]⟩,
  ⟨.glob, 0x2004, 64, 64, [⟨0, 1, .W1C, 0⟩, ⟨1, 1, .W1C, 0⟩, ⟨2, 1, .W1C, 0⟩, ⟨3, 1, .W1C, 0⟩, ⟨4, 1, .W1C, 0⟩, ⟨5, 1, .W1C, 0⟩, ⟨6, 1, .W1C, 0⟩, ⟨7, 1, .W1C, 0⟩, ⟨8, 1, .W1C, 0⟩]⟩,
  ⟨.glob, 0x2008, 64, 64, [⟨0, 32, .CLR, 0⟩]⟩,
  ⟨.glob, 0x200C, 64, 64, [⟨0, 32, .CLR, 0⟩]⟩]

/-- Part 3 of the register map. -/
def regTable3 : List RegRow := [
  ⟨.glob, 0x2010, 64, 64, [⟨0, 32, .CLR, 0⟩]⟩,
  ⟨.glob, 0x2014, 64, 64, [⟨0, 32, .CLR, 0⟩]⟩,
  ⟨.glob, 0x2018, 64, 64, [⟨0, 32, .CLR, 0⟩]⟩,
  ⟨.node, 0x110C, 16, 16, [⟨0, 4, .RW, 0⟩, ⟨4, 1, .RW, 0⟩]⟩,
  ⟨.node, 0x1600, 8, 64, [⟨0, 32, .RO, 0⟩]⟩,
  ⟨.node, 0x1604, 8, 64, [⟨0, 8, .RO, 0⟩, ⟨8, 4, .RO, 0⟩, ⟨12, 2, .RO, 0⟩, ⟨14, 12, .RO, 0⟩, ⟨31, 1, .WO, 0⟩]⟩,
  ⟨.node, 0x1D00, 4, 1, [⟨0, 32, .CLR, 0⟩]⟩,
  ⟨.node, 0x1D04, 4, 1, [⟨0, 32, .CLR, 0⟩]⟩,
  ⟨.node, 0x1D08, 4, 1, [⟨0, 32, .CLR, 0⟩]⟩,
  ⟨.nodeZ, 0x1800, 32, 16, [⟨0, 32, .RW, 0⟩]⟩,
  ⟨.nodeZ, 0x1804, 32, 16, [⟨0, 1, .RW, 0⟩, ⟨1, 5, .RW, 0xC⟩, ⟨6, 2, .RW, 0⟩, ⟨8, 2, .RW, 0⟩, ⟨10, 10, .RW, 0⟩, ⟨20, 4, .RW, 0⟩]⟩,
  ⟨.nodeZ, 0x1808, 32, 16, [⟨0, 24, .RW, 0⟩, ⟨24, 4, .RW, 0⟩]⟩,
  ⟨.nodeZ, 0x180C, 32, 16, [⟨0, 10, .RW, 0⟩, ⟨10, 18, .RW, 0⟩]⟩,
  ⟨.nodeZ, 0x1810, 32, 16, [⟨0, 32, .RW, 0⟩]⟩,
  ⟨.nodeZ, 0x1814, 32, 16, [⟨0, 32, .RO, 0⟩]⟩,
  ⟨.nodeZ, 0x1A00, 32, 16, [⟨0, 1, .RW, 0⟩, ⟨1, 5, .RW, 0xC⟩, ⟨6, 4, .RW, 0⟩, ⟨10, 10, .RW, 0⟩, ⟨20, 1, .RW, 0⟩]⟩,
  ⟨.nodeZ, 0x1A04, 32, 16, [⟨0, 16, .RW, 0⟩, ⟨16, 4, .RW, 0⟩]⟩,
  ⟨.nodeZ, 0x1A08, 32, 16, [⟨0, 18, .RW, 0⟩]⟩,
  ⟨.nodeZ, 0x1A0C, 32, 16, [⟨0, 20, .RW, 0x1000⟩]⟩,
  ⟨.nodeZ, 0x1A10, 32, 16, [⟨0, 32, .RO, 0⟩]⟩,
  ⟨.nodeZ, 0x1A14, 32, 16, [⟨0, 32, .RO, 0⟩]⟩,
  ⟨.nodeZ, 0x1A18, 32, 16, [⟨0, 4, .RO, 0⟩, ⟨4, 1, .RO, 0⟩, ⟨5, 1, .RO, 0⟩]⟩,
  ⟨.nodeZ, 0x1C00, 4, 1, [⟨0, 8, .RW, 0x10⟩, ⟨8, 4, .RW, 0⟩]⟩,
  ⟨.nodeZ, 0x1C04, 4, 1, [⟨0, 1, .W1C, 0⟩, ⟨1, 1, .W1C, 0⟩, ⟨2, 1, .W1C, 0⟩, ⟨3, 1, .W1C, 0⟩]⟩,
  ⟨.nodeZ, 0x1C08, 4, 1, [⟨0, 32, .CLR, 0⟩]⟩,
  ⟨.nodeZ, 0x1C10, 4, 4, [⟨0, 4, .RO, 0⟩, ⟨4, 1, .RO, 0⟩]⟩,
  ⟨.port, 0x6000, 4, 1, [⟨0, 1, .RW, 0⟩, ⟨1, 1, .RW, 0⟩, ⟨2, 1, .RW, 0⟩, ⟨3, 1, .RW, 0⟩, ⟨4, 4, .RW, 0⟩, ⟨8, 8, .RW, 0⟩, ⟨16, 5, .RW, 4⟩, ⟨21, 6, .RW, 0x18⟩]⟩,
  ⟨.port, 0x6004, 4, 1, [⟨0, 2, .RO, 0⟩, ⟨2, 4, .RO, 0⟩, ⟨6, 3, .RO, 0⟩, ⟨9, 1, .RO, 0⟩, ⟨10, 1, .RO, 0⟩, ⟨11, 4, .RO, 0xF⟩, ⟨15, 1, .RO, 0⟩, ⟨16, 1, .RO, 0⟩, ⟨17, 3, .RO, 0⟩]⟩,
  ⟨.port, 0x6008, 4, 1, [⟨0, 12, .RO, 0xFFF⟩, ⟨12, 7, .RO, 0x7F⟩]⟩,
  ⟨.port, 0x600C, 4, 1, [⟨0, 16, .RO, 0⟩]⟩,
  ⟨.port, 0x6010, 4, 1, [⟨0, 12, .RW, 0x800⟩, ⟨12, 4, .RW, 8⟩, ⟨16, 10, .RW, 0x100⟩]⟩,
  ⟨.port, 0x6014, 4, 1, [⟨0, 4, .RWL, 0⟩, ⟨4, 4, .RWL, 0⟩, ⟨8, 4, .RWL, 0⟩, ⟨12, 4, .RWL, 0⟩]⟩,
  ⟨.port, 0x6018, 4, 1, [⟨0, 12, .RW, 0x400⟩, ⟨12, 4, .RW, 0⟩, ⟨16, 7, .RW, 0⟩, ⟨23, 6, .RW, 0x10⟩]⟩,
  ⟨.port, 0x601C, 4, 1, [⟨0, 32, .RW, 0⟩]⟩,
  ⟨.port, 0x6020, 4, 1, [⟨0, 13, .RO, 0⟩, ⟨13, 13, .RO, 0⟩]⟩,
  ⟨.port, 0x6024, 4, 1, [⟨0, 1, .W1C, 0⟩, ⟨1, 1, .W1C, 0⟩, ⟨2, 1, .W1C, 0⟩, ⟨3, 1, .W1C, 0⟩, ⟨4, 1, .W1C, 0⟩, ⟨5, 1, .W1C, 0⟩]⟩,
  ⟨.port, 0x6028, 4, 1, [⟨0, 1, .W1C, 0⟩, ⟨1, 1, .W1C, 0⟩, ⟨2, 1, .W1C, 0⟩, ⟨3, 1, .W1C, 0⟩, ⟨4, 1, .W1C, 0⟩, ⟨5, 1, .W1C, 0⟩, ⟨6, 1, .W1C, 0⟩, ⟨7, 1, .W1C, 0⟩]⟩,
  ⟨.port, 0x602C, 4, 1, [⟨0, 21, .RO, 0⟩]⟩,
  ⟨.port, 0x6030, 4, 1, [⟨0, 32, .CLR, 0⟩]⟩,
  ⟨.port, 0x6034, 4, 1, [⟨0, 32, .CLR, 0⟩]⟩]

/-- Part 4 of the register map. -/
def regTable4 : List RegRow := [
  ⟨.port, 0x6038, 4, 1, [⟨0, 32, .CLR, 0⟩]⟩,
  ⟨.port, 0x603C, 4, 1, [⟨0, 32, .CLR, 0⟩]⟩,
  ⟨.port, 0x6040, 4, 1, [⟨0, 32, .CLR, 0⟩]⟩,
  ⟨.port, 0x6044, 4, 1, [⟨0, 32, .CLR, 0⟩]⟩,
  ⟨.port, 0x6048, 4, 1, [⟨0, 32, .CLR, 0⟩]⟩,
  ⟨.port, 0x604C, 4, 1, [⟨0, 32, .CLR, 0⟩]⟩,
  ⟨.glob, 0x900, 4, 1, [⟨0, 14, .RW, 0x2000⟩]⟩,
  ⟨.glob, 0x904, 4, 1, [⟨0, 17, .RO, 0⟩]⟩,
  ⟨.glob, 0x100000, 4, 1, [⟨0, 1, .RW, 0⟩, ⟨1, 7, .RW, 0x40⟩]⟩,
  ⟨.glob, 0x100004, 4, 1, [⟨0, 1, .RO, 1⟩, ⟨1, 9, .RO, 0⟩, ⟨10, 1, .RO, 0⟩]⟩,
  ⟨.glob, 0x100008, 4, 1, [⟨0, 16, .RO, 0x203⟩, ⟨16, 16, .RWL, 0⟩]⟩,
  ⟨.glob, 0x100100, 4, 32, [⟨0, 14, .RWL, 0⟩, ⟨14, 12, .RWL, 0⟩, ⟨26, 1, .RWL, 0⟩]⟩,
  ⟨.glob, 0x101000, 32, 16, [⟨0, 32, .RW, 0⟩]⟩,
  ⟨.glob, 0x101004, 32, 16, [⟨0, 32, .RW, 0⟩]⟩,
  ⟨.glob, 0x101008, 32, 16, [⟨0, 1, .RW, 0⟩, ⟨1, 1, .RWL, 0⟩, ⟨2, 1, .RW, 0⟩, ⟨3, 4, .RW, 4⟩, ⟨7, 7, .RW, 0⟩, ⟨14, 10, .RW, 0⟩, ⟨24, 4, .RW, 0⟩]⟩,
  ⟨.glob, 0x10100C, 32, 16, [⟨0, 16, .WO, 0⟩, ⟨16, 1, .WO, 0⟩]⟩,
  ⟨.glob, 0x101010, 32, 16, [⟨0, 16, .RO, 0⟩, ⟨16, 2, .RO, 0⟩, ⟨18, 7, .RO, 0⟩, ⟨25, 4, .RO, 0⟩]⟩,
  ⟨.glob, 0x101014, 32, 16, [⟨0, 16, .RO, 0⟩]⟩,
  ⟨.np, 0x1400, 16, 16, [⟨0, 32, .RW, 0⟩]⟩,
  ⟨.np, 0x1404, 16, 16, [⟨0, 1, .RW, 0⟩, ⟨1, 1, .RW, 0⟩, ⟨2, 5, .RW, 6⟩, ⟨7, 2, .RW, 0⟩, ⟨9, 7, .RW, 0⟩]⟩,
  ⟨.np, 0x1408, 16, 16, [⟨0, 32, .RW, 0⟩]⟩,
  ⟨.np, 0x140C, 16, 16, [⟨0, 32, .RO, 0⟩]⟩,
  ⟨.np, 0x1500, 4, 1, [⟨0, 32, .CLR, 0⟩]⟩,
  ⟨.glob, 0xA00, 4, 1, [⟨0, 1, .RW, 1⟩, ⟨1, 11, .RW, 0x100⟩, ⟨12, 11, .RW, 0x100⟩]⟩,
  ⟨.glob, 0xA04, 4, 1, [⟨0, 16, .RW, 0x1F4⟩, ⟨16, 16, .RW, 0⟩]⟩,
  ⟨.glob, 0xA08, 4, 1, [⟨0, 1, .RO, 0⟩, ⟨1, 7, .RO, 0⟩, ⟨8, 1, .RO, 0⟩, ⟨9, 1, .RO, 0⟩, ⟨10, 1, .RO, 0⟩, ⟨11, 4, .RO, 0⟩]⟩,
  ⟨.glob, 0xA10, 4, 5, [⟨0, 32, .RO, 0⟩]⟩,
  ⟨.glob, 0xA30, 4, 1, [⟨0, 1, .W1C, 0⟩, ⟨1, 1, .W1C, 0⟩, ⟨2, 1, .W1C, 0⟩, ⟨3, 1, .W1C, 0⟩, ⟨4, 1, .W1C, 0⟩, ⟨5, 1, .W1C, 0⟩]⟩,
  ⟨.glob, 0xA34, 4, 1, [⟨0, 32, .CLR, 0⟩]⟩,
  ⟨.glob, 0xC00, 4, 1, [⟨0, 1, .RW, 0⟩, ⟨1, 2, .RW, 0⟩, ⟨3, 12, .RW, 0⟩]⟩,
  ⟨.glob, 0xC04, 4, 1, [⟨0, 12, .RO, 0⟩, ⟨12, 1, .RO, 0⟩, ⟨13, 1, .RO, 0⟩, ⟨14, 1, .W1C, 0⟩, ⟨15, 12, .RO, 0⟩]⟩,
  ⟨.glob, 0xC08, 4, 1, [⟨0, 32, .CLR, 0⟩]⟩,
  ⟨.glob, 0xC0C, 4, 1, [⟨0, 16, .RW, 0⟩]⟩,
  ⟨.glob, 0xC10, 4, 1, [⟨0, 32, .RO, 0⟩]⟩,
  ⟨.glob, 0xC14, 4, 1, [⟨0, 16, .RO, 0⟩]⟩,
  ⟨.glob, 0xE00, 32, 16, [⟨0, 13, .RW, 0⟩, ⟨13, 3, .RW, 0⟩, ⟨16, 3, .RW, 0⟩, ⟨19, 1, .RW, 0⟩, ⟨20, 1, .RW, 0⟩, ⟨21, 1, .RW, 0⟩, ⟨22, 1, .RW, 0⟩]⟩,
  ⟨.glob, 0xB00, 4, 1, [⟨0, 1, .RW, 1⟩, ⟨1, 1, .RW, 0⟩]⟩,
  ⟨.glob, 0xB04, 4, 1, [⟨0, 7, .RO, 0⟩, ⟨7, 6, .RO, 0⟩, ⟨13, 1, .W1C, 0⟩, ⟨14, 1, .RO, 0⟩, ⟨15, 1, .W1C, 0⟩]⟩,
  ⟨.glob, 0xB08, 4, 1, [⟨0, 1, .WO, 0⟩]⟩,
  ⟨.glob, 0xB80, 4, 32, [⟨0, 32, .CLR, 0⟩]⟩]

/-- Part 5 of the register map. -/
def regTable5 : List RegRow := [
  ⟨.glob, 0xD00, 4, 1, [⟨0, 1, .RWL, 0⟩, ⟨1, 1, .RWL, 1⟩]⟩,
  ⟨.glob, 0xD04, 4, 1, [⟨0, 1, .RW, 0⟩]⟩,
  ⟨.glob, 0xD08, 4, 1, [⟨0, 16, .RWL, 0x455A⟩]⟩,
  ⟨.glob, 0xD0C, 4, 1, [⟨0, 32, .RO, 0⟩]⟩,
  ⟨.glob, 0xD10, 4, 1, [⟨0, 8, .W1C, 0⟩]⟩,
  ⟨.glob, 0xD14, 4, 1, [⟨0, 1, .RO, 0⟩, ⟨1, 1, .RO, 0⟩, ⟨2, 1, .RO, 0⟩, ⟨3, 1, .RO, 0⟩]⟩,
  ⟨.glob, 0x10000C, 4, 1, [⟨0, 16, .W1C, 0⟩]⟩,
  ⟨.glob, 0x10, 4, 1, [⟨0, 7, .RO, 0⟩, ⟨7, 7, .RO, 0⟩, ⟨14, 4, .RO, 0⟩, ⟨18, 1, .RO, 0⟩, ⟨19, 2, .RO, 0⟩]⟩,
  ⟨.glob, 0x14, 4, 1, [⟨0, 5, .RO, 0⟩, ⟨5, 5, .RO, 0⟩, ⟨10, 7, .RO, 0⟩, ⟨17, 6, .RO, 0⟩]⟩,
  ⟨.node, 0x2000, 16, 256, [⟨0, 10, .RW, 7⟩, ⟨16, 10, .RW, 7⟩]⟩,
  ⟨.node, 0x2004, 16, 256, [⟨0, 10, .RW, 7⟩, ⟨16, 10, .RW, 7⟩]⟩,
  ⟨.node, 0x2008, 16, 256, [⟨0, 10, .RW, 7⟩]⟩,
  ⟨.node, 0x200C, 16, 256, []⟩,
  ⟨.np, 0x3200, 4, 128, [⟨0, 32, .RO, 0⟩]⟩,
  ⟨.np, 0x3400, 4, 96, [⟨0, 32, .RO, 0⟩]⟩,
  ⟨.np, 0x3800, 4, 96, [⟨0, 32, .RO, 0⟩]⟩,
  ⟨.glob, 0xE04, 32, 16, [⟨0, 32, .RW, 0⟩]⟩,
  ⟨.glob, 0xE08, 32, 16, [⟨0, 32, .RW, 0⟩]⟩,
  ⟨.glob, 0xE0C, 32, 16, [⟨0, 32, .RW, 0⟩]⟩,
  ⟨.glob, 0xE10, 32, 16, [⟨0, 32, .RW, 0⟩]⟩,
  ⟨.glob, 0xE14, 32, 16, [⟨0, 32, .TLM, 0⟩]⟩,
  ⟨.glob, 0xE18, 32, 16, [⟨0, 16, .RO, 0⟩, ⟨31, 1, .RO, 0⟩]⟩,
  ⟨.glob, 0xB10, 4, 1, [⟨0, 32, .CLR, 0⟩]⟩,
  ⟨.glob, 0xB14, 4, 1, [⟨0, 32, .CLR, 0⟩]⟩,
  ⟨.glob, 0xB18, 4, 1, [⟨0, 32, .CLR, 0⟩]⟩,
  ⟨.node, 0x1F00, 4, 1, [⟨0, 32, .CLR, 0⟩]⟩,
  ⟨.port, 0x7000, 4, 1, [⟨0, 32, .CLR, 0⟩]⟩,
  ⟨.node, 0x800, 16, 25, [⟨0, 32, .TLM, 0⟩]⟩,
  ⟨.node, 0x804, 16, 25, [⟨0, 16, .RO, 0⟩, ⟨31, 1, .RO, 0⟩]⟩,
  ⟨.node, 0x808, 16, 25, [⟨0, 32, .TLM, 0⟩]⟩,
  ⟨.node, 0x80C, 16, 25, [⟨0, 16, .RO, 0⟩, ⟨31, 1, .RO, 0⟩]⟩,
  ⟨.node, 0xA00, 8, 80, [⟨0, 32, .TLM, 0⟩]⟩,
  ⟨.node, 0xA04, 8, 80, [⟨0, 16, .RO, 0⟩, ⟨31, 1, .RO, 0⟩]⟩,
  ⟨.node, 0xC80, 8, 15, [⟨0, 32, .TLM, 0⟩]⟩,
  ⟨.node, 0xC84, 8, 15, [⟨0, 16, .RO, 0⟩, ⟨31, 1, .RO, 0⟩]⟩,
  ⟨.node, 0xD00, 4, 50, [⟨0, 32, .RO, 0⟩]⟩,
  ⟨.node, 0xE00, 4, 50, [⟨0, 32, .CLR, 0⟩]⟩,
  ⟨.port, 0x5000, 4, 1024, [⟨0, 32, .RO, 0⟩]⟩,
  ⟨.glob, 0x4000, 4, 512, [⟨0, 32, .RO, 0⟩]⟩,
  ⟨.glob, 0x80000, 4, 65536, [⟨0, 32, .RO, 0⟩]⟩,
  ⟨.glob, 0x108000, 4, 4096, [⟨0, 32, .RWL, 0⟩]⟩]

/-- Part 6 of the register map. -/
def regTable6 : List RegRow := [
  ⟨.glob, 0x110000, 4, 16384, [⟨0, 32, .RW, 0⟩]⟩]

/-- The register map. -/
def regTable : List RegRow :=
  regTable0 ++ regTable1 ++ regTable2 ++ regTable3 ++ regTable4 ++ regTable5 ++ regTable6

namespace F

/-! FAB_ID -/
def FAB_ID_VENDOR : Fld := ⟨0x0, 16, 16⟩
def FAB_ID_MAJOR : Fld := ⟨0x0, 8, 8⟩
def FAB_ID_MINOR : Fld := ⟨0x0, 0, 8⟩

/-! FAB_CAP -/
def FAB_CAP_COLS : Fld := ⟨0x4, 0, 7⟩
def FAB_CAP_ROWS : Fld := ⟨0x4, 7, 7⟩
def FAB_CAP_HALVES : Fld := ⟨0x4, 14, 1⟩
def FAB_CAP_CONFIG : Fld := ⟨0x4, 15, 1⟩

/-! RTR_NODE_ID -/
def RTR_NODE_ID_COL : Fld := ⟨0x0, 0, 7⟩
def RTR_NODE_ID_ROW : Fld := ⟨0x0, 7, 6⟩
def RTR_NODE_ID_HALF : Fld := ⟨0x0, 13, 1⟩
def RTR_NODE_ID_DOMAIN : Fld := ⟨0x0, 14, 7⟩

/-! NI_PORT_ID -/
def NI_PORT_ID_COL : Fld := ⟨0x0, 0, 7⟩
def NI_PORT_ID_ROW : Fld := ⟨0x0, 7, 6⟩
def NI_PORT_ID_SIDE : Fld := ⟨0x0, 13, 2⟩
def NI_PORT_ID_PAIR : Fld := ⟨0x0, 15, 1⟩
def NI_PORT_ID_KIND : Fld := ⟨0x0, 16, 4⟩
def NI_PORT_ID_INDEX : Fld := ⟨0x0, 20, 7⟩

/-! NI_CORE_GOOD -/
def NI_CORE_GOOD_GOOD : Fld := ⟨0x1000, 0, 4⟩

/-! FAB_CORES_GOOD -/
def FAB_CORES_GOOD_COUNT : Fld := ⟨0x8, 0, 15⟩

/-! FAB_CHIP -/
def FAB_CHIP_CHIP_ID : Fld := ⟨0xC, 0, 12⟩

/-! SPN_CTL -/
def SPN_CTL_EN : Fld := ⟨0x100, 0, 1⟩
def SPN_CTL_SRC : Fld := ⟨0x100, 1, 1⟩
def SPN_CTL_ROLE : Fld := ⟨0x100, 2, 1⟩
def SPN_CTL_LATHE_AUTO : Fld := ⟨0x100, 3, 1⟩
def SPN_CTL_RPORT : Fld := ⟨0x100, 4, 7⟩
def SPN_CTL_RPORT2 : Fld := ⟨0x100, 11, 7⟩

/-! SPN_STAT -/
def SPN_STAT_STATE : Fld := ⟨0x104, 0, 3⟩
def SPN_STAT_LOCKED : Fld := ⟨0x104, 3, 1⟩
def SPN_STAT_SOURCE : Fld := ⟨0x104, 4, 2⟩
def SPN_STAT_STRATUM : Fld := ⟨0x104, 6, 4⟩
def SPN_STAT_LATHE_SUSP : Fld := ⟨0x104, 10, 1⟩

/-! SPN_EVT -/
def SPN_EVT_STALL : Fld := ⟨0x108, 0, 1⟩
def SPN_EVT_JUMP : Fld := ⟨0x108, 1, 1⟩
def SPN_EVT_TCNT : Fld := ⟨0x108, 2, 1⟩
def SPN_EVT_ALIGN : Fld := ⟨0x108, 3, 1⟩
def SPN_EVT_RATE : Fld := ⟨0x108, 4, 1⟩
def SPN_EVT_WRAP : Fld := ⟨0x108, 5, 1⟩
def SPN_EVT_RESUME : Fld := ⟨0x108, 6, 1⟩
def SPN_EVT_FAILOVER : Fld := ⟨0x108, 7, 1⟩

/-! SPN_NOW_LO -/
def SPN_NOW_LO_TURN_LO : Fld := ⟨0x110, 0, 32⟩

/-! SPN_NOW_HI -/
def SPN_NOW_HI_TURN_HI : Fld := ⟨0x114, 0, 8⟩
def SPN_NOW_HI_NOTCH : Fld := ⟨0x114, 8, 11⟩
def SPN_NOW_HI_PHASE : Fld := ⟨0x114, 19, 3⟩

/-! SPN_TURN_ERA -/
def SPN_TURN_ERA_ERA : Fld := ⟨0x118, 0, 16⟩

/-! SPN_ALIGN -/
def SPN_ALIGN_LIMIT : Fld := ⟨0x120, 0, 8⟩
def SPN_ALIGN_SKEW : Fld := ⟨0x120, 8, 8⟩

/-! SPN_OFFSET -/
def SPN_OFFSET_EST : Fld := ⟨0x124, 0, 16⟩
def SPN_OFFSET_TRIM : Fld := ⟨0x124, 16, 8⟩

/-! SPN_CORR -/
def SPN_CORR_SUM : Fld := ⟨0x128, 0, 16⟩

/-! SPN_CPT -/
def SPN_CPT_CYCLES : Fld := ⟨0x12C, 0, 20⟩

/-! SPN_MISSED -/
def SPN_MISSED_NOTCHES : Fld := ⟨0x130, 0, 32⟩

/-! SPN_STALLS -/
def SPN_STALLS_COUNT : Fld := ⟨0x134, 0, 16⟩

/-! RTR_STATE -/
def RTR_STATE_STATE : Fld := ⟨0x4, 0, 2⟩

/-! RTR_OUT -/
def RTR_OUT_LOCAL : Fld := ⟨0x8, 0, 3⟩
def RTR_OUT_NORTH : Fld := ⟨0x8, 3, 3⟩
def RTR_OUT_EAST : Fld := ⟨0x8, 6, 3⟩
def RTR_OUT_SOUTH : Fld := ⟨0x8, 9, 3⟩
def RTR_OUT_WEST : Fld := ⟨0x8, 12, 3⟩

/-! RTR_STAT -/
def RTR_STAT_EMPTY : Fld := ⟨0xC, 0, 5⟩
def RTR_STAT_BURL_EMPTY : Fld := ⟨0xC, 5, 1⟩
def RTR_STAT_REFL_EMPTY : Fld := ⟨0xC, 6, 1⟩
def RTR_STAT_SEAMF : Fld := ⟨0xC, 7, 1⟩

/-! RTR_STATION -/
def RTR_STATION_PORT_N : Fld := ⟨0x10, 0, 7⟩
def RTR_STATION_PORT_E : Fld := ⟨0x10, 7, 7⟩
def RTR_STATION_PORT_S : Fld := ⟨0x10, 14, 7⟩
def RTR_STATION_PORT_W : Fld := ⟨0x10, 21, 7⟩

/-! RTR_ERR -/
def RTR_ERR_CORR : Fld := ⟨0x14, 0, 1⟩
def RTR_ERR_UNCOR_DATA : Fld := ⟨0x14, 1, 1⟩
def RTR_ERR_UNCOR_HEAD : Fld := ⟨0x14, 2, 1⟩
def RTR_ERR_SBP : Fld := ⟨0x14, 3, 1⟩
def RTR_ERR_CRP : Fld := ⟨0x14, 4, 1⟩
def RTR_ERR_ROUTE_CHK : Fld := ⟨0x14, 5, 1⟩
def RTR_ERR_CRED_OVF : Fld := ⟨0x14, 6, 1⟩
def RTR_ERR_BADTYPE : Fld := ⟨0x14, 7, 1⟩

/-! RTR_FAIL_IN -/
def RTR_FAIL_IN_FAIL : Fld := ⟨0x18, 0, 25⟩

/-! RTR_FAIL_OUT -/
def RTR_FAIL_OUT_FAIL : Fld := ⟨0x1C, 0, 25⟩

/-! RTR_CORR_CNT -/
def RTR_CORR_CNT_COUNT : Fld := ⟨0x20, 0, 32⟩

/-! RTR_UNCOR_CNT -/
def RTR_UNCOR_CNT_COUNT : Fld := ⟨0x24, 0, 32⟩

/-! RTR_DISC_CNT -/
def RTR_DISC_CNT_COUNT : Fld := ⟨0x28, 0, 32⟩

/-! RTR_REFL_CNT -/
def RTR_REFL_CNT_COUNT : Fld := ⟨0x2C, 0, 32⟩

/-! NI_PORT_MASKi -/
def NI_PORT_MASKi_MASK : Fld := ⟨0x200, 0, 32⟩

/-! NI_SPILL_DEST -/
def NI_SPILL_DEST_EP : Fld := ⟨0x210, 0, 24⟩
def NI_SPILL_DEST_EN : Fld := ⟨0x210, 31, 1⟩

/-! NI_SPILL_BASE -/
def NI_SPILL_BASE_BASE : Fld := ⟨0x214, 0, 32⟩

/-! NI_SPILL_SLOTS -/
def NI_SPILL_SLOTS_N : Fld := ⟨0x218, 0, 19⟩

/-! NI_SPILL_USED -/
def NI_SPILL_USED_USED : Fld := ⟨0x21C, 0, 19⟩

/-! NI_TSET_BASE -/
def NI_TSET_BASE_BASE : Fld := ⟨0x280, 0, 32⟩

/-! NI_TSET_CTL -/
def NI_TSET_CTL_V : Fld := ⟨0x284, 0, 1⟩
def NI_TSET_CTL_LOC : Fld := ⟨0x284, 1, 1⟩
def NI_TSET_CTL_MAPP : Fld := ⟨0x284, 2, 7⟩
def NI_TSET_CTL_ACTIVE : Fld := ⟨0x284, 9, 1⟩
def NI_TSET_CTL_EPOCH : Fld := ⟨0x284, 16, 16⟩

/-! NI_RO_QUOTA -/
def NI_RO_QUOTA_QUOTA : Fld := ⟨0x1004, 0, 16⟩
def NI_RO_QUOTA_USED : Fld := ⟨0x1004, 16, 16⟩

/-! NI_RO_CTL -/
def NI_RO_CTL_HOLE : Fld := ⟨0x1008, 0, 20⟩

/-! NI_THR -/
def NI_THR_HIGH : Fld := ⟨0x100C, 0, 8⟩
def NI_THR_LOW : Fld := ⟨0x100C, 8, 8⟩
def NI_THR_RECOVER : Fld := ⟨0x100C, 16, 8⟩
def NI_THR_GLINT_EN : Fld := ⟨0x100C, 24, 1⟩

/-! NI_THR_STAT -/
def NI_THR_STAT_BULK : Fld := ⟨0x1010, 0, 3⟩
def NI_THR_STAT_MCAST : Fld := ⟨0x1010, 3, 3⟩
def NI_THR_STAT_REDUCE : Fld := ⟨0x1010, 6, 3⟩
def NI_THR_STAT_GLINT : Fld := ⟨0x1010, 9, 3⟩

/-! NI_OUTST -/
def NI_OUTST_OUT : Fld := ⟨0x1014, 0, 13⟩

/-! NI_LATE_CNT -/
def NI_LATE_CNT_COUNT : Fld := ⟨0x1018, 0, 32⟩

/-! NI_ERR -/
def NI_ERR_LATE : Fld := ⟨0x101C, 0, 1⟩
def NI_ERR_SEQ_BEYOND : Fld := ⟨0x101C, 1, 1⟩
def NI_ERR_SEQ_OUT : Fld := ⟨0x101C, 2, 1⟩
def NI_ERR_EPOCH_REJ : Fld := ⟨0x101C, 3, 1⟩
def NI_ERR_HOLE : Fld := ⟨0x101C, 4, 1⟩
def NI_ERR_SPILL_FAIL : Fld := ⟨0x101C, 5, 1⟩
def NI_ERR_NOTGOOD : Fld := ⟨0x101C, 6, 1⟩
def NI_ERR_TBL_READ : Fld := ⟨0x101C, 7, 1⟩

/-! NI_CTX_CTL -/
def NI_CTX_CTL_EN : Fld := ⟨0x1100, 0, 1⟩
def NI_CTX_CTL_JOB : Fld := ⟨0x1100, 1, 10⟩
def NI_CTX_CTL_TSET : Fld := ⟨0x1100, 11, 4⟩
def NI_CTX_CTL_STOPPED : Fld := ⟨0x1100, 15, 1⟩

/-! NI_CTX_TMO -/
def NI_CTX_TMO_TMO : Fld := ⟨0x1104, 0, 20⟩
def NI_CTX_TMO_RETRY : Fld := ⟨0x1104, 20, 2⟩

/-! NI_CTX_STAT -/
def NI_CTX_STAT_OUT : Fld := ⟨0x1108, 0, 13⟩

/-! BLK_POOLn_BASE -/
def BLK_POOLn_BASE_BASE : Fld := ⟨0x1200, 0, 32⟩

/-! BLK_POOLn_CFG -/
def BLK_POOLn_CFG_COUNT : Fld := ⟨0x1204, 0, 13⟩
def BLK_POOLn_CFG_CORE : Fld := ⟨0x1204, 13, 2⟩
def BLK_POOLn_CFG_EN : Fld := ⟨0x1204, 15, 1⟩

/-! BLK_FREE -/
def BLK_FREE_HANDLE : Fld := ⟨0x1220, 0, 16⟩

/-! BLK_AVAIL01 -/
def BLK_AVAIL01_FREE0 : Fld := ⟨0x1224, 0, 13⟩
def BLK_AVAIL01_FREE1 : Fld := ⟨0x1224, 16, 13⟩

/-! BLK_AVAIL23 -/
def BLK_AVAIL23_FREE2 : Fld := ⟨0x1228, 0, 13⟩
def BLK_AVAIL23_FREE3 : Fld := ⟨0x1228, 16, 13⟩

/-! BLK_ERR -/
def BLK_ERR_DFREE : Fld := ⟨0x122C, 0, 1⟩
def BLK_ERR_RANGE : Fld := ⟨0x122C, 1, 1⟩
def BLK_ERR_NOPOOL : Fld := ⟨0x122C, 2, 1⟩

/-! GOV_CTL -/
def GOV_CTL_EN : Fld := ⟨0x300, 0, 1⟩
def GOV_CTL_WIN : Fld := ⟨0x300, 1, 10⟩

/-! GOV_CEIL -/
def GOV_CEIL_CEIL : Fld := ⟨0x304, 0, 8⟩

/-! GOV_EPF -/
def GOV_EPF_WIDE : Fld := ⟨0x308, 0, 16⟩
def GOV_EPF_NARROW : Fld := ⟨0x308, 16, 16⟩

/-! GOV_FIXED -/
def GOV_FIXED_FIXED : Fld := ⟨0x30C, 0, 8⟩

/-! GOV_STAT -/
def GOV_STAT_PEST : Fld := ⟨0x310, 0, 16⟩
def GOV_STAT_B : Fld := ⟨0x310, 16, 7⟩

/-! GOV_EVT -/
def GOV_EVT_OVER : Fld := ⟨0x314, 0, 1⟩
def GOV_EVT_LIMITING : Fld := ⟨0x314, 1, 1⟩

/-! LTH_CTL -/
def LTH_CTL_LEAD : Fld := ⟨0x400, 0, 4⟩

/-! LTH_STAT -/
def LTH_STAT_STATE : Fld := ⟨0x404, 0, 2⟩
def LTH_STAT_BANK : Fld := ⟨0x404, 2, 1⟩
def LTH_STAT_SHADOW_V : Fld := ⟨0x404, 3, 1⟩
def LTH_STAT_SWAP_PEND : Fld := ⟨0x404, 4, 1⟩
def LTH_STAT_LOADING : Fld := ⟨0x404, 5, 1⟩
def LTH_STAT_PSTAT : Fld := ⟨0x404, 8, 4⟩

/-! LTH_PLAN -/
def LTH_PLAN_PLANID : Fld := ⟨0x408, 0, 32⟩

/-! LTH_END -/
def LTH_END_TURNS_LEFT : Fld := ⟨0x40C, 0, 16⟩

/-! LTH_VOID_CNT -/
def LTH_VOID_CNT_COUNT : Fld := ⟨0x410, 0, 32⟩

/-! LTH_PREEMPT_CNT -/
def LTH_PREEMPT_CNT_COUNT : Fld := ⟨0x414, 0, 32⟩

/-! LTH_DISC_CNT -/
def LTH_DISC_CNT_COUNT : Fld := ⟨0x418, 0, 32⟩

/-! LTH_NDISC -/
def LTH_NDISC_COUNT : Fld := ⟨0x3000, 0, 32⟩

/-! RTR_MCAST -/
def RTR_MCAST_BLK_N : Fld := ⟨0x30, 0, 1⟩
def RTR_MCAST_BLK_E : Fld := ⟨0x30, 1, 1⟩
def RTR_MCAST_BLK_S : Fld := ⟨0x30, 2, 1⟩
def RTR_MCAST_BLK_W : Fld := ⟨0x30, 3, 1⟩

/-! RTR_MC_CUT_CNT -/
def RTR_MC_CUT_CNT_COUNT : Fld := ⟨0x34, 0, 32⟩

/-! NI_DWINw_BASE -/
def NI_DWINw_BASE_BASE : Fld := ⟨0x1300, 0, 30⟩

/-! NI_DWINw_CTL -/
def NI_DWINw_CTL_SIZE : Fld := ⟨0x1304, 0, 16⟩
def NI_DWINw_CTL_CORE : Fld := ⟨0x1304, 16, 2⟩
def NI_DWINw_CTL_JOB : Fld := ⟨0x1304, 18, 10⟩
def NI_DWINw_CTL_NOTIFY : Fld := ⟨0x1304, 28, 1⟩
def NI_DWINw_CTL_EN : Fld := ⟨0x1304, 31, 1⟩

/-! NI_MC_CTL -/
def NI_MC_CTL_HOLD : Fld := ⟨0x1320, 0, 16⟩
def NI_MC_CTL_RETRY : Fld := ⟨0x1320, 16, 2⟩

/-! NI_MC_STAT -/
def NI_MC_STAT_RELAYQ : Fld := ⟨0x1324, 0, 2⟩
def NI_MC_STAT_NACKQ : Fld := ⟨0x1324, 4, 4⟩
def NI_MC_STAT_HOLDS : Fld := ⟨0x1324, 8, 13⟩

/-! NI_MC_MISS_CNT -/
def NI_MC_MISS_CNT_COUNT : Fld := ⟨0x1328, 0, 32⟩

/-! NI_MC_LOST_CNT -/
def NI_MC_LOST_CNT_COUNT : Fld := ⟨0x132C, 0, 32⟩

/-! NI_MC_ERR -/
def NI_MC_ERR_DWIN : Fld := ⟨0x1330, 0, 1⟩
def NI_MC_ERR_NOCTX : Fld := ⟨0x1330, 1, 1⟩
def NI_MC_ERR_NOPOOL : Fld := ⟨0x1330, 2, 1⟩
def NI_MC_ERR_POISON : Fld := ⟨0x1330, 3, 1⟩
def NI_MC_ERR_REC_LOST : Fld := ⟨0x1330, 4, 1⟩
def NI_MC_ERR_XV_RELAY : Fld := ⟨0x1330, 5, 1⟩
def NI_MC_ERR_HOLD_LATE : Fld := ⟨0x1330, 6, 1⟩

/-! FAB_KERF_CTL -/
def FAB_KERF_CTL_ESC_TH : Fld := ⟨0x500, 0, 7⟩
def FAB_KERF_CTL_HEAD : Fld := ⟨0x500, 7, 2⟩
def FAB_KERF_CTL_TRK_EN : Fld := ⟨0x500, 9, 1⟩

/-! FAB_KERF_SAT -/
def FAB_KERF_SAT_COUNT : Fld := ⟨0x504, 0, 32⟩

/-! FAB_KERF_ESC -/
def FAB_KERF_ESC_COUNT : Fld := ⟨0x508, 0, 32⟩

/-! FAB_KERF_NAN -/
def FAB_KERF_NAN_COUNT : Fld := ⟨0x50C, 0, 32⟩

/-! FAB_KERF_BADCODE -/
def FAB_KERF_BADCODE_COUNT : Fld := ⟨0x510, 0, 32⟩

/-! BRL_CTL -/
def BRL_CTL_EN : Fld := ⟨0x40, 0, 1⟩
def BRL_CTL_HOLD : Fld := ⟨0x40, 1, 8⟩
def BRL_CTL_FANIN : Fld := ⟨0x40, 9, 3⟩

/-! BRL_STAT -/
def BRL_STAT_HELD : Fld := ⟨0x44, 0, 6⟩

/-! BRL_COMB_CNT -/
def BRL_COMB_CNT_COUNT : Fld := ⟨0x48, 0, 32⟩

/-! BRL_PASS_CNT -/
def BRL_PASS_CNT_COUNT : Fld := ⟨0x4C, 0, 32⟩

/-! NI_AWINw_BASE -/
def NI_AWINw_BASE_BASE : Fld := ⟨0x1340, 0, 32⟩

/-! NI_AWINw_KEY -/
def NI_AWINw_KEY_GROUP : Fld := ⟨0x1344, 0, 12⟩
def NI_AWINw_KEY_CSEQ : Fld := ⟨0x1344, 12, 12⟩

/-! NI_AWINw_CTL -/
def NI_AWINw_CTL_CHUNKS : Fld := ⟨0x1348, 0, 16⟩
def NI_AWINw_CTL_W : Fld := ⟨0x1348, 16, 13⟩
def NI_AWINw_CTL_CORE : Fld := ⟨0x1348, 29, 2⟩
def NI_AWINw_CTL_EN : Fld := ⟨0x1348, 31, 1⟩

/-! NI_AWINw_JOB -/
def NI_AWINw_JOB_JOB : Fld := ⟨0x134C, 0, 10⟩
def NI_AWINw_JOB_MAPP : Fld := ⟨0x134C, 10, 7⟩

/-! NI_RED_ERR -/
def NI_RED_ERR_NACK : Fld := ⟨0x1380, 0, 1⟩
def NI_RED_ERR_NOWIN : Fld := ⟨0x1380, 1, 1⟩
def NI_RED_ERR_OVERW : Fld := ⟨0x1380, 2, 1⟩
def NI_RED_ERR_REC_LOST : Fld := ⟨0x1380, 3, 1⟩

/-! NI_RED_DISC_CNT -/
def NI_RED_DISC_CNT_COUNT : Fld := ⟨0x1384, 0, 32⟩

/-! BWL_CTL -/
def BWL_CTL_STMO : Fld := ⟨0x600, 0, 16⟩
def BWL_CTL_MARK : Fld := ⟨0x600, 16, 16⟩

/-! BWL_STAT -/
def BWL_STAT_FREE : Fld := ⟨0x604, 0, 11⟩
def BWL_STAT_DIRUSED : Fld := ⟨0x604, 16, 13⟩

/-! BWL_RREC -/
def BWL_RREC_TOTAL : Fld := ⟨0x608, 0, 16⟩
def BWL_RREC_FREE : Fld := ⟨0x608, 16, 16⟩

/-! BWL_DONE_CNT -/
def BWL_DONE_CNT_COUNT : Fld := ⟨0x60C, 0, 32⟩

/-! BWL_FALL_CNT -/
def BWL_FALL_CNT_COUNT : Fld := ⟨0x610, 0, 32⟩

/-! BWL_DISC_CNT -/
def BWL_DISC_CNT_COUNT : Fld := ⟨0x614, 0, 32⟩

/-! BWL_ERR -/
def BWL_ERR_LATE : Fld := ⟨0x618, 0, 1⟩
def BWL_ERR_BADDATA : Fld := ⟨0x618, 1, 1⟩
def BWL_ERR_OVERW : Fld := ⟨0x618, 2, 1⟩
def BWL_ERR_DIRFULL : Fld := ⟨0x618, 3, 1⟩
def BWL_ERR_RRFULL : Fld := ⟨0x618, 4, 1⟩

/-! CLM_CTL -/
def CLM_CTL_MODE : Fld := ⟨0x700, 0, 1⟩
def CLM_CTL_FREEZE : Fld := ⟨0x700, 1, 1⟩
def CLM_CTL_LIMIT : Fld := ⟨0x700, 2, 4⟩

/-! CLM_PRIOi -/
def CLM_PRIOi_PRIO : Fld := ⟨0x710, 0, 32⟩

/-! CLM_PRIO_PW -/
def CLM_PRIO_PW_PRIO : Fld := ⟨0x730, 0, 2⟩

/-! CLM_COMMIT -/
def CLM_COMMIT_GO : Fld := ⟨0x734, 0, 1⟩

/-! CLM_STAT -/
def CLM_STAT_PEND : Fld := ⟨0x738, 0, 13⟩
def CLM_STAT_PW_HELD : Fld := ⟨0x738, 13, 1⟩
def CLM_STAT_FROZEN_EMPTY : Fld := ⟨0x738, 14, 1⟩

/-! CLM_REVOKE -/
def CLM_REVOKE_SLOT : Fld := ⟨0x73C, 0, 11⟩
def CLM_REVOKE_PW : Fld := ⟨0x73C, 11, 1⟩

/-! CLM_LOSS_CNT -/
def CLM_LOSS_CNT_COUNT : Fld := ⟨0x740, 0, 32⟩

/-! CLM_FAIL_CNT -/
def CLM_FAIL_CNT_COUNT : Fld := ⟨0x744, 0, 32⟩

/-! COL_CTL -/
def COL_CTL_INFLIGHT : Fld := ⟨0x4000, 0, 4⟩
def COL_CTL_PTMO : Fld := ⟨0x4000, 4, 24⟩

/-! COL_STAT -/
def COL_STAT_RUN : Fld := ⟨0x4004, 0, 7⟩
def COL_STAT_QUEUED : Fld := ⟨0x4004, 7, 9⟩
def COL_STAT_READY : Fld := ⟨0x4004, 16, 11⟩

/-! COL_ERR -/
def COL_ERR_EPOCH_REJ : Fld := ⟨0x4008, 0, 1⟩
def COL_ERR_READY_FULL : Fld := ⟨0x4008, 1, 1⟩
def COL_ERR_LATE : Fld := ⟨0x4008, 2, 1⟩
def COL_ERR_MLIST : Fld := ⟨0x4008, 3, 1⟩
def COL_ERR_BADCTL : Fld := ⟨0x4008, 4, 1⟩

/-! COL_DONE_CNT -/
def COL_DONE_CNT_COUNT : Fld := ⟨0x400C, 0, 32⟩

/-! COL_FAIL_CNT -/
def COL_FAIL_CNT_COUNT : Fld := ⟨0x4010, 0, 32⟩

/-! COL_FB_CNT -/
def COL_FB_CNT_COUNT : Fld := ⟨0x4014, 0, 32⟩

/-! COL_DISC_CNT -/
def COL_DISC_CNT_COUNT : Fld := ⟨0x4018, 0, 32⟩

/-! SYN_CTL -/
def SYN_CTL_WTMO : Fld := ⟨0x800, 0, 20⟩

/-! SYN_MAPm_BASE -/
def SYN_MAPm_BASE_BASE : Fld := ⟨0x880, 0, 32⟩

/-! SYN_MAPm_CTL -/
def SYN_MAPm_CTL_V : Fld := ⟨0x884, 0, 1⟩
def SYN_MAPm_CTL_LOC : Fld := ⟨0x884, 1, 1⟩
def SYN_MAPm_CTL_MAPP : Fld := ⟨0x884, 2, 7⟩
def SYN_MAPm_CTL_LIMIT : Fld := ⟨0x884, 9, 9⟩
def SYN_MAPm_CTL_JOB : Fld := ⟨0x884, 18, 10⟩

/-! SYN_USTAT -/
def SYN_USTAT_WATCHES : Fld := ⟨0x2000, 0, 12⟩
def SYN_USTAT_SEMS : Fld := ⟨0x2000, 12, 11⟩
def SYN_USTAT_BARS : Fld := ⟨0x2000, 23, 9⟩

/-! SYN_ERR -/
def SYN_ERR_UNDERFLOW : Fld := ⟨0x2004, 0, 1⟩
def SYN_ERR_OVERFLOW : Fld := ⟨0x2004, 1, 1⟩
def SYN_ERR_WTMO : Fld := ⟨0x2004, 2, 1⟩
def SYN_ERR_WFULL : Fld := ⟨0x2004, 3, 1⟩
def SYN_ERR_DENIED : Fld := ⟨0x2004, 4, 1⟩
def SYN_ERR_BADOP : Fld := ⟨0x2004, 5, 1⟩
def SYN_ERR_EPOCH : Fld := ⟨0x2004, 6, 1⟩
def SYN_ERR_LATEREL : Fld := ⟨0x2004, 7, 1⟩
def SYN_ERR_DRIFT : Fld := ⟨0x2004, 8, 1⟩

/-! SYN_OPS_CNT -/
def SYN_OPS_CNT_COUNT : Fld := ⟨0x2008, 0, 32⟩

/-! SYN_FIRE_CNT -/
def SYN_FIRE_CNT_COUNT : Fld := ⟨0x200C, 0, 32⟩

/-! SYN_TMO_CNT -/
def SYN_TMO_CNT_COUNT : Fld := ⟨0x2010, 0, 32⟩

/-! SYN_REJ_CNT -/
def SYN_REJ_CNT_COUNT : Fld := ⟨0x2014, 0, 32⟩

/-! SYN_RAL_CNT -/
def SYN_RAL_CNT_COUNT : Fld := ⟨0x2018, 0, 32⟩

/-! NI_CTX_SYN -/
def NI_CTX_SYN_MAP : Fld := ⟨0x110C, 0, 4⟩
def NI_CTX_SYN_EN : Fld := ⟨0x110C, 4, 1⟩

/-! NI_WSLOTs_LO -/
def NI_WSLOTs_LO_VALUE_LO : Fld := ⟨0x1600, 0, 32⟩

/-! NI_WSLOTs_HI -/
def NI_WSLOTs_HI_VALUE_HI : Fld := ⟨0x1604, 0, 8⟩
def NI_WSLOTs_HI_STATUS : Fld := ⟨0x1604, 8, 4⟩
def NI_WSLOTs_HI_STATE : Fld := ⟨0x1604, 12, 2⟩
def NI_WSLOTs_HI_GEN : Fld := ⟨0x1604, 14, 12⟩
def NI_WSLOTs_HI_FREE : Fld := ⟨0x1604, 31, 1⟩

/-! NI_SYN_STALE_CNT -/
def NI_SYN_STALE_CNT_COUNT : Fld := ⟨0x1D00, 0, 32⟩

/-! NI_SYN_GUARD_CNT -/
def NI_SYN_GUARD_CNT_COUNT : Fld := ⟨0x1D04, 0, 32⟩

/-! NI_SYN_LOCAL_CNT -/
def NI_SYN_LOCAL_CNT_COUNT : Fld := ⟨0x1D08, 0, 32⟩

/-! CQU_RQq_BASE -/
def CQU_RQq_BASE_BASE : Fld := ⟨0x1800, 0, 32⟩

/-! CQU_RQq_CTL -/
def CQU_RQq_CTL_EN : Fld := ⟨0x1804, 0, 1⟩
def CQU_RQq_CTL_LOG2SZ : Fld := ⟨0x1804, 1, 5⟩
def CQU_RQq_CTL_CORE : Fld := ⟨0x1804, 6, 2⟩
def CQU_RQq_CTL_PRIO : Fld := ⟨0x1804, 8, 2⟩
def CQU_RQq_CTL_JOB : Fld := ⟨0x1804, 10, 10⟩
def CQU_RQq_CTL_CTX : Fld := ⟨0x1804, 20, 4⟩

/-! CQU_RQq_FEED -/
def CQU_RQq_FEED_EP : Fld := ⟨0x1808, 0, 24⟩
def CQU_RQq_FEED_FCTX : Fld := ⟨0x1808, 24, 4⟩

/-! CQU_RQq_CHAN -/
def CQU_RQq_CHAN_FCHAN : Fld := ⟨0x180C, 0, 10⟩
def CQU_RQq_CHAN_MAXMSG : Fld := ⟨0x180C, 10, 18⟩

/-! CQU_RQq_HEAD -/
def CQU_RQq_HEAD_HEAD : Fld := ⟨0x1810, 0, 32⟩

/-! CQU_RQq_TAIL -/
def CQU_RQq_TAIL_TAIL : Fld := ⟨0x1814, 0, 32⟩

/-! CQU_SQs_CTL -/
def CQU_SQs_CTL_EN : Fld := ⟨0x1A00, 0, 1⟩
def CQU_SQs_CTL_LOG2SZ : Fld := ⟨0x1A00, 1, 5⟩
def CQU_SQs_CTL_CTX : Fld := ⟨0x1A00, 6, 4⟩
def CQU_SQs_CTL_CHAN : Fld := ⟨0x1A00, 10, 10⟩
def CQU_SQs_CTL_GLINT : Fld := ⟨0x1A00, 20, 1⟩

/-! CQU_SQs_DEST -/
def CQU_SQs_DEST_RANK : Fld := ⟨0x1A04, 0, 16⟩
def CQU_SQs_DEST_QUEUE : Fld := ⟨0x1A04, 16, 4⟩

/-! CQU_SQs_LIM -/
def CQU_SQs_LIM_MAXMSG : Fld := ⟨0x1A08, 0, 18⟩

/-! CQU_SQs_TMO -/
def CQU_SQs_TMO_TMO : Fld := ⟨0x1A0C, 0, 20⟩

/-! CQU_SQs_TAIL -/
def CQU_SQs_TAIL_TAIL : Fld := ⟨0x1A10, 0, 32⟩

/-! CQU_SQs_HEADK -/
def CQU_SQs_HEADK_HEADK : Fld := ⟨0x1A14, 0, 32⟩

/-! CQU_SQs_STAT -/
def CQU_SQs_STAT_PEND : Fld := ⟨0x1A18, 0, 4⟩
def CQU_SQs_STAT_WAITING : Fld := ⟨0x1A18, 4, 1⟩
def CQU_SQs_STAT_BROKEN : Fld := ⟨0x1A18, 5, 1⟩

/-! CQU_CTL -/
def CQU_CTL_LAZY : Fld := ⟨0x1C00, 0, 8⟩
def CQU_CTL_ROT : Fld := ⟨0x1C00, 8, 4⟩

/-! CQU_ERR -/
def CQU_ERR_NOQ : Fld := ⟨0x1C04, 0, 1⟩
def CQU_ERR_FEEDER : Fld := ⟨0x1C04, 1, 1⟩
def CQU_ERR_OVERRUN : Fld := ⟨0x1C04, 2, 1⟩
def CQU_ERR_STALL : Fld := ⟨0x1C04, 3, 1⟩

/-! CQU_STALL_CNT -/
def CQU_STALL_CNT_COUNT : Fld := ⟨0x1C08, 0, 32⟩

/-! CQU_SELk -/
def CQU_SELk_QUEUE : Fld := ⟨0x1C10, 0, 4⟩
def CQU_SELk_V : Fld := ⟨0x1C10, 4, 1⟩

/-! NKL_CTL -/
def NKL_CTL_EN : Fld := ⟨0x6000, 0, 1⟩
def NKL_CTL_SPARE : Fld := ⟨0x6000, 1, 1⟩
def NKL_CTL_ENC : Fld := ⟨0x6000, 2, 1⟩
def NKL_CTL_AUTH : Fld := ⟨0x6000, 3, 1⟩
def NKL_CTL_KSLOT : Fld := ⟨0x6000, 4, 4⟩
def NKL_CTL_ROT : Fld := ⟨0x6000, 8, 8⟩
def NKL_CTL_GBUF : Fld := ⟨0x6000, 16, 5⟩
def NKL_CTL_BBUF : Fld := ⟨0x6000, 21, 6⟩

/-! NKL_STAT -/
def NKL_STAT_STATE : Fld := ⟨0x6004, 0, 2⟩
def NKL_STAT_LANES : Fld := ⟨0x6004, 2, 4⟩
def NKL_STAT_SPARE_LANE : Fld := ⟨0x6004, 6, 3⟩
def NKL_STAT_SPARE_V : Fld := ⟨0x6004, 9, 1⟩
def NKL_STAT_PEER_LOCKED : Fld := ⟨0x6004, 10, 1⟩
def NKL_STAT_PEER_STRATUM : Fld := ⟨0x6004, 11, 4⟩
def NKL_STAT_KPH_TX : Fld := ⟨0x6004, 15, 1⟩
def NKL_STAT_KPH_RX : Fld := ⟨0x6004, 16, 1⟩
def NKL_STAT_DOWN_WHY : Fld := ⟨0x6004, 17, 3⟩

/-! NKL_PEER -/
def NKL_PEER_CHIP_ID : Fld := ⟨0x6008, 0, 12⟩
def NKL_PEER_PORT : Fld := ⟨0x6008, 12, 7⟩

/-! NKL_LEPOCH -/
def NKL_LEPOCH_EPOCH : Fld := ⟨0x600C, 0, 16⟩

/-! NKL_LINK -/
def NKL_LINK_RTMO : Fld := ⟨0x6010, 0, 12⟩
def NKL_LINK_MAXREPLAY : Fld := ⟨0x6010, 12, 4⟩
def NKL_LINK_DEAD : Fld := ⟨0x6010, 16, 10⟩

/-! NKL_KEY -/
def NKL_KEY_TX0 : Fld := ⟨0x6014, 0, 4⟩
def NKL_KEY_TX1 : Fld := ⟨0x6014, 4, 4⟩
def NKL_KEY_RX0 : Fld := ⟨0x6014, 8, 4⟩
def NKL_KEY_RX1 : Fld := ⟨0x6014, 12, 4⟩

/-! NKL_RTX_CTL -/
def NKL_RTX_CTL_RTO : Fld := ⟨0x6018, 0, 12⟩
def NKL_RTX_CTL_TSET : Fld := ⟨0x6018, 12, 4⟩
def NKL_RTX_CTL_MAPP : Fld := ⟨0x6018, 16, 7⟩
def NKL_RTX_CTL_LOW : Fld := ⟨0x6018, 23, 6⟩

/-! NKL_RTX_BASE -/
def NKL_RTX_BASE_BASE : Fld := ⟨0x601C, 0, 32⟩

/-! NKL_RTX_STAT -/
def NKL_RTX_STAT_HELD : Fld := ⟨0x6020, 0, 13⟩
def NKL_RTX_STAT_INREG : Fld := ⟨0x6020, 13, 13⟩

/-! NKL_EVT -/
def NKL_EVT_PEER_UP : Fld := ⟨0x6024, 0, 1⟩
def NKL_EVT_PEER_GONE : Fld := ⟨0x6024, 1, 1⟩
def NKL_EVT_ADMITTED : Fld := ⟨0x6024, 2, 1⟩
def NKL_EVT_SWAP : Fld := ⟨0x6024, 3, 1⟩
def NKL_EVT_LANE_FAIL : Fld := ⟨0x6024, 4, 1⟩
def NKL_EVT_REKEY : Fld := ⟨0x6024, 5, 1⟩

/-! NKL_ERR -/
def NKL_ERR_CRC : Fld := ⟨0x6028, 0, 1⟩
def NKL_ERR_FEC_UNCOR : Fld := ⟨0x6028, 1, 1⟩
def NKL_ERR_TAG : Fld := ⟨0x6028, 2, 1⟩
def NKL_ERR_STALE : Fld := ⟨0x6028, 3, 1⟩
def NKL_ERR_FILT_FULL : Fld := ⟨0x6028, 4, 1⟩
def NKL_ERR_AUTH : Fld := ⟨0x6028, 5, 1⟩
def NKL_ERR_UNACK : Fld := ⟨0x6028, 6, 1⟩
def NKL_ERR_CREDIT : Fld := ⟨0x6028, 7, 1⟩

/-! NKL_SPARE_ERR -/
def NKL_SPARE_ERR_COUNT : Fld := ⟨0x602C, 0, 21⟩

/-! NKL_CORR_CNT -/
def NKL_CORR_CNT_COUNT : Fld := ⟨0x6030, 0, 32⟩

/-! NKL_UNCOR_CNT -/
def NKL_UNCOR_CNT_COUNT : Fld := ⟨0x6034, 0, 32⟩

/-! NKL_REPLAY_CNT -/
def NKL_REPLAY_CNT_COUNT : Fld := ⟨0x6038, 0, 32⟩

/-! NKL_TAG_CNT -/
def NKL_TAG_CNT_COUNT : Fld := ⟨0x603C, 0, 32⟩

/-! NKL_RETX_CNT -/
def NKL_RETX_CNT_COUNT : Fld := ⟨0x6040, 0, 32⟩

/-! NKL_ABANDON_CNT -/
def NKL_ABANDON_CNT_COUNT : Fld := ⟨0x6044, 0, 32⟩

/-! NKL_DUP_CNT -/
def NKL_DUP_CNT_COUNT : Fld := ⟨0x6048, 0, 32⟩

/-! NKL_DISC_CNT -/
def NKL_DISC_CNT_COUNT : Fld := ⟨0x604C, 0, 32⟩

/-! NKL_E2E_CTL -/
def NKL_E2E_CTL_KEEP : Fld := ⟨0x900, 0, 14⟩

/-! NKL_FILT_STAT -/
def NKL_FILT_STAT_USED : Fld := ⟨0x904, 0, 17⟩

/-! HDS_CTL -/
def HDS_CTL_RUN : Fld := ⟨0x100000, 0, 1⟩
def HDS_CTL_AHEAD : Fld := ⟨0x100000, 1, 7⟩

/-! HDS_STAT -/
def HDS_STAT_IDLE : Fld := ⟨0x100004, 0, 1⟩
def HDS_STAT_WUSED : Fld := ⟨0x100004, 1, 9⟩
def HDS_STAT_DRAINING : Fld := ⟨0x100004, 10, 1⟩

/-! HDS_UCVER -/
def HDS_UCVER_ROM : Fld := ⟨0x100008, 0, 16⟩
def HDS_UCVER_PATCH : Fld := ⟨0x100008, 16, 16⟩

/-! HDS_TRAPt -/
def HDS_TRAPt_ROMA : Fld := ⟨0x100100, 0, 14⟩
def HDS_TRAPt_PATA : Fld := ⟨0x100100, 14, 12⟩
def HDS_TRAPt_EN : Fld := ⟨0x100100, 26, 1⟩

/-! HDS_RINGr_BASE -/
def HDS_RINGr_BASE_BASE : Fld := ⟨0x101000, 0, 32⟩

/-! HDS_RINGr_SBASE -/
def HDS_RINGr_SBASE_SBASE : Fld := ⟨0x101004, 0, 32⟩

/-! HDS_RINGr_CTL -/
def HDS_RINGr_CTL_EN : Fld := ⟨0x101008, 0, 1⟩
def HDS_RINGr_CTL_PRIV : Fld := ⟨0x101008, 1, 1⟩
def HDS_RINGr_CTL_LOC : Fld := ⟨0x101008, 2, 1⟩
def HDS_RINGr_CTL_LOG2N : Fld := ⟨0x101008, 3, 4⟩
def HDS_RINGr_CTL_MAPP : Fld := ⟨0x101008, 7, 7⟩
def HDS_RINGr_CTL_JOB : Fld := ⟨0x101008, 14, 10⟩
def HDS_RINGr_CTL_SMAP : Fld := ⟨0x101008, 24, 4⟩

/-! HDS_RINGr_DB -/
def HDS_RINGr_DB_TAIL : Fld := ⟨0x10100C, 0, 16⟩
def HDS_RINGr_DB_RESUME : Fld := ⟨0x10100C, 16, 1⟩

/-! HDS_RINGr_STAT -/
def HDS_RINGr_STAT_HEAD : Fld := ⟨0x101010, 0, 16⟩
def HDS_RINGr_STAT_STATE : Fld := ⟨0x101010, 16, 2⟩
def HDS_RINGr_STAT_AHEAD : Fld := ⟨0x101010, 18, 7⟩
def HDS_RINGr_STAT_WHY : Fld := ⟨0x101010, 25, 4⟩

/-! HDS_RINGr_TAIL -/
def HDS_RINGr_TAIL_TAIL : Fld := ⟨0x101014, 0, 16⟩

/-! NI_CQc_BASE -/
def NI_CQc_BASE_BASE : Fld := ⟨0x1400, 0, 32⟩

/-! NI_CQc_CTL -/
def NI_CQc_CTL_EN : Fld := ⟨0x1404, 0, 1⟩
def NI_CQc_CTL_LOC : Fld := ⟨0x1404, 1, 1⟩
def NI_CQc_CTL_LOG2N : Fld := ⟨0x1404, 2, 5⟩
def NI_CQc_CTL_CORE : Fld := ⟨0x1404, 7, 2⟩
def NI_CQc_CTL_MAPP : Fld := ⟨0x1404, 9, 7⟩

/-! NI_CQc_HEAD -/
def NI_CQc_HEAD_HEAD : Fld := ⟨0x1408, 0, 32⟩

/-! NI_CQc_TAIL -/
def NI_CQc_TAIL_TAIL : Fld := ⟨0x140C, 0, 32⟩

/-! NI_CQ_LOST_CNT -/
def NI_CQ_LOST_CNT_COUNT : Fld := ⟨0x1500, 0, 32⟩

/-! PWR_CTL -/
def PWR_CTL_AUTOUP : Fld := ⟨0xA00, 0, 1⟩
def PWR_CTL_ACKTMO : Fld := ⟨0xA00, 1, 11⟩
def PWR_CTL_XTMO : Fld := ⟨0xA00, 12, 11⟩

/-! PWR_STEP -/
def PWR_STEP_STEP : Fld := ⟨0xA04, 0, 16⟩
def PWR_STEP_PHASE : Fld := ⟨0xA04, 16, 16⟩

/-! PWR_STAT -/
def PWR_STAT_BUSY : Fld := ⟨0xA08, 0, 1⟩
def PWR_STAT_DOM : Fld := ⟨0xA08, 1, 7⟩
def PWR_STAT_UPSEQ : Fld := ⟨0xA08, 8, 1⟩
def PWR_STAT_WRST : Fld := ⟨0xA08, 9, 1⟩
def PWR_STAT_ERST : Fld := ⟨0xA08, 10, 1⟩
def PWR_STAT_LAST : Fld := ⟨0xA08, 11, 4⟩

/-! PWR_DSTATEi -/
def PWR_DSTATEi_STATE : Fld := ⟨0xA10, 0, 32⟩

/-! PWR_ERR -/
def PWR_ERR_ACK : Fld := ⟨0xA30, 0, 1⟩
def PWR_ERR_ACKLOST : Fld := ⟨0xA30, 1, 1⟩
def PWR_ERR_CLKSTOP : Fld := ⟨0xA30, 2, 1⟩
def PWR_ERR_XRESET : Fld := ⟨0xA30, 3, 1⟩
def PWR_ERR_REJOIN : Fld := ⟨0xA30, 4, 1⟩
def PWR_ERR_FORCED : Fld := ⟨0xA30, 5, 1⟩

/-! PWR_SEAM_DROP -/
def PWR_SEAM_DROP_COUNT : Fld := ⟨0xA34, 0, 32⟩

/-! MIR_CTL -/
def MIR_CTL_VIEW : Fld := ⟨0xC00, 0, 1⟩
def MIR_CTL_TRMODE : Fld := ⟨0xC00, 1, 2⟩
def MIR_CTL_POST : Fld := ⟨0xC00, 3, 12⟩

/-! MIR_STAT -/
def MIR_STAT_WR : Fld := ⟨0xC04, 0, 12⟩
def MIR_STAT_FULL : Fld := ⟨0xC04, 12, 1⟩
def MIR_STAT_STOPPED : Fld := ⟨0xC04, 13, 1⟩
def MIR_STAT_TRIG : Fld := ⟨0xC04, 14, 1⟩
def MIR_STAT_TRIGREC : Fld := ⟨0xC04, 15, 12⟩

/-! MIR_DROP -/
def MIR_DROP_COUNT : Fld := ⟨0xC08, 0, 32⟩

/-! MIR_SNAP_CTL -/
def MIR_SNAP_CTL_EVERY : Fld := ⟨0xC0C, 0, 16⟩

/-! MIR_SNAP_STAT -/
def MIR_SNAP_STAT_TURN : Fld := ⟨0xC10, 0, 32⟩

/-! MIR_SNAP_SKIP -/
def MIR_SNAP_SKIP_SKIPPED : Fld := ⟨0xC14, 0, 16⟩

/-! MIR_Pp_LOC -/
def MIR_Pp_LOC_NODE : Fld := ⟨0xE00, 0, 13⟩
def MIR_Pp_LOC_PLANE : Fld := ⟨0xE00, 13, 3⟩
def MIR_Pp_LOC_PORT : Fld := ⟨0xE00, 16, 3⟩
def MIR_Pp_LOC_EN : Fld := ⟨0xE00, 19, 1⟩
def MIR_Pp_LOC_TRACE : Fld := ⟨0xE00, 20, 1⟩
def MIR_Pp_LOC_TRIG : Fld := ⟨0xE00, 21, 1⟩
def MIR_Pp_LOC_LT : Fld := ⟨0xE00, 22, 1⟩

/-! ERR_CTL -/
def ERR_CTL_IRQ_EN : Fld := ⟨0xB00, 0, 1⟩
def ERR_CTL_INFO_IRQ : Fld := ⟨0xB00, 1, 1⟩

/-! ERR_STAT -/
def ERR_STAT_COUNT : Fld := ⟨0xB04, 0, 7⟩
def ERR_STAT_OLDEST : Fld := ⟨0xB04, 7, 6⟩
def ERR_STAT_PEND : Fld := ⟨0xB04, 13, 1⟩
def ERR_STAT_HELD : Fld := ⟨0xB04, 14, 1⟩
def ERR_STAT_FATAL : Fld := ⟨0xB04, 15, 1⟩

/-! ERR_POP -/
def ERR_POP_POP : Fld := ⟨0xB08, 0, 1⟩

/-! ERR_LOSTc -/
def ERR_LOSTc_COUNT : Fld := ⟨0xB80, 0, 32⟩

/-! KEY_CTL -/
def KEY_CTL_PLAIN : Fld := ⟨0xD00, 0, 1⟩
def KEY_CTL_DBG_EN : Fld := ⟨0xD00, 1, 1⟩

/-! KEY_LOCK -/
def KEY_LOCK_LOCK : Fld := ⟨0xD04, 0, 1⟩

/-! KEY_POLICY -/
def KEY_POLICY_POL : Fld := ⟨0xD08, 0, 16⟩

/-! KEY_SLOTS -/
def KEY_SLOTS_KIND : Fld := ⟨0xD0C, 0, 32⟩

/-! KEY_VIOL -/
def KEY_VIOL_CLASS : Fld := ⟨0xD10, 0, 8⟩

/-! KEY_STAT -/
def KEY_STAT_FUSE_V : Fld := ⟨0xD14, 0, 1⟩
def KEY_STAT_ERASED : Fld := ⟨0xD14, 1, 1⟩
def KEY_STAT_SEALED : Fld := ⟨0xD14, 2, 1⟩
def KEY_STAT_TAMPER : Fld := ⟨0xD14, 3, 1⟩

/-! HDS_IRQ -/
def HDS_IRQ_RING : Fld := ⟨0x10000C, 0, 16⟩

/-! FAB_CAP_PORTS -/
def FAB_CAP_PORTS_NMAP : Fld := ⟨0x10, 0, 7⟩
def FAB_CAP_PORTS_NNKL : Fld := ⟨0x10, 7, 7⟩
def FAB_CAP_PORTS_ND2D : Fld := ⟨0x10, 14, 4⟩
def FAB_CAP_PORTS_D2DSIDE : Fld := ⟨0x10, 18, 1⟩
def FAB_CAP_PORTS_PBMEM : Fld := ⟨0x10, 19, 2⟩

/-! FAB_CAP_DOM -/
def FAB_CAP_DOM_DOMW : Fld := ⟨0x14, 0, 5⟩
def FAB_CAP_DOM_DOMH : Fld := ⟨0x14, 5, 5⟩
def FAB_CAP_DOM_NDOM : Fld := ⟨0x14, 10, 7⟩
def FAB_CAP_DOM_NLG : Fld := ⟨0x14, 17, 6⟩

/-! LTH_SLOT_W0 -/
def LTH_SLOT_W0_ENT_L : Fld := ⟨0x2000, 0, 10⟩
def LTH_SLOT_W0_ENT_N : Fld := ⟨0x2000, 16, 10⟩

/-! LTH_SLOT_W1 -/
def LTH_SLOT_W1_ENT_E : Fld := ⟨0x2004, 0, 10⟩
def LTH_SLOT_W1_ENT_S : Fld := ⟨0x2004, 16, 10⟩

/-! LTH_SLOT_W2 -/
def LTH_SLOT_W2_ENT_W : Fld := ⟨0x2008, 0, 10⟩

/-! LTH_STREAM -/
def LTH_STREAM_WORD : Fld := ⟨0x3200, 0, 32⟩

/-! LTH_LAUNCH -/
def LTH_LAUNCH_WORD : Fld := ⟨0x3400, 0, 32⟩

/-! MIR_Pp_VLO -/
def MIR_Pp_VLO_WORD : Fld := ⟨0xE04, 0, 32⟩

/-! MIR_Pp_VHI -/
def MIR_Pp_VHI_WORD : Fld := ⟨0xE08, 0, 32⟩

/-! MIR_Pp_MLO -/
def MIR_Pp_MLO_WORD : Fld := ⟨0xE0C, 0, 32⟩

/-! MIR_Pp_MHI -/
def MIR_Pp_MHI_WORD : Fld := ⟨0xE10, 0, 32⟩

/-! MIR_Pp_CNT_LO -/
def MIR_Pp_CNT_LO_COUNT_LO : Fld := ⟨0xE14, 0, 32⟩

/-! MIR_Pp_CNT_HI -/
def MIR_Pp_CNT_HI_COUNT_HI : Fld := ⟨0xE18, 0, 16⟩
def MIR_Pp_CNT_HI_OVF : Fld := ⟨0xE18, 31, 1⟩

/-! ERR_CE_CNT -/
def ERR_CE_CNT_COUNT : Fld := ⟨0xB10, 0, 32⟩

/-! ERR_UCE_CNT -/
def ERR_UCE_CNT_COUNT : Fld := ⟨0xB14, 0, 32⟩

/-! ERR_FATAL_CNT -/
def ERR_FATAL_CNT_COUNT : Fld := ⟨0xB18, 0, 32⟩

/-! PWR_XDROP -/
def PWR_XDROP_COUNT : Fld := ⟨0x1F00, 0, 32⟩

/-! PWR_XDROP_P -/
def PWR_XDROP_P_COUNT : Fld := ⟨0x7000, 0, 32⟩

/-! RTR_TLM_FLITS_LO -/
def RTR_TLM_FLITS_LO_COUNT_LO : Fld := ⟨0x800, 0, 32⟩

/-! RTR_TLM_FLITS_HI -/
def RTR_TLM_FLITS_HI_COUNT_HI : Fld := ⟨0x804, 0, 16⟩
def RTR_TLM_FLITS_HI_OVF : Fld := ⟨0x804, 31, 1⟩

/-! RTR_TLM_PKTS_LO -/
def RTR_TLM_PKTS_LO_COUNT_LO : Fld := ⟨0x808, 0, 32⟩

/-! RTR_TLM_PKTS_HI -/
def RTR_TLM_PKTS_HI_COUNT_HI : Fld := ⟨0x80C, 0, 16⟩
def RTR_TLM_PKTS_HI_OVF : Fld := ⟨0x80C, 31, 1⟩

/-! RTR_TLM_STALL_LO -/
def RTR_TLM_STALL_LO_COUNT_LO : Fld := ⟨0xA00, 0, 32⟩

/-! RTR_TLM_STALL_HI -/
def RTR_TLM_STALL_HI_COUNT_HI : Fld := ⟨0xA04, 0, 16⟩
def RTR_TLM_STALL_HI_OVF : Fld := ⟨0xA04, 31, 1⟩

/-! RTR_TLM_STALLN_LO -/
def RTR_TLM_STALLN_LO_COUNT_LO : Fld := ⟨0xC80, 0, 32⟩

/-! RTR_TLM_STALLN_HI -/
def RTR_TLM_STALLN_HI_COUNT_HI : Fld := ⟨0xC84, 0, 16⟩
def RTR_TLM_STALLN_HI_OVF : Fld := ⟨0xC84, 31, 1⟩

/-! RTR_QDEPTH -/
def RTR_QDEPTH_WORD : Fld := ⟨0xD00, 0, 32⟩

/-! RTR_QPEAK -/
def RTR_QPEAK_WORD : Fld := ⟨0xE00, 0, 32⟩

/-! COL_GREC -/
def COL_GREC_WORD : Fld := ⟨0x5000, 0, 32⟩

/-! ERR_LOGW -/
def ERR_LOGW_WORD : Fld := ⟨0x4000, 0, 32⟩

/-! MIR_TRACEW -/
def MIR_TRACEW_WORD : Fld := ⟨0x80000, 0, 32⟩

/-! HDS_PATCHW -/
def HDS_PATCHW_WORD : Fld := ⟨0x108000, 0, 32⟩

/-! HDS_CMEMW -/
def HDS_CMEMW_WORD : Fld := ⟨0x110000, 0, 32⟩
end F

end Sys2Proof.Machine
end

