-- ==== Sys2Proof/Machine/Build.lean ====
section
/-! DEFINITION. The build parameters (R460-R462) and the geometry they fix: nodes, ring stations, exit ports, power
domains, halves, and what stands at the far end of each router port (R15-R26, R280, R283, R461). -/
namespace Sys2Proof.Machine

/-- A built port block: its exit port number, kind (1 MAP, 2 Nuoka Link, 3 D2D), index within the kind, side
(0 North, 1 East, 2 South, 3 West), first attach node, and whether it uses two stations (R25). -/
structure Station where
  port : Nat
  kind : Nat
  index : Nat
  side : Nat
  col : Nat
  row : Nat
  pair : Bool
  deriving DecidableEq, Repr

/-- The build parameters of R460. -/
structure Build where
  isS : Bool
  cols : Nat
  rows : Nat
  halves : Bool
  domw : Nat
  domh : Nat
  nmap : Nat
  nnkl : Nat
  nd2d : Nat
  d2dWest : Bool
  bowlMB : Nat
  pbmem : Nat
  stations : List Station
  deriving DecidableEq, Repr

namespace Build

/-- Mesh nodes of the build. -/
def nodes (b : Build) : Nat := b.cols * b.rows
/-- Column of node n (R17). -/
def col (b : Build) (n : Nat) : Nat := n % b.cols
/-- Row of node n (R17). -/
def row (b : Build) (n : Nat) : Nat := n / b.cols
/-- The node at a column and row (R8). -/
def node (b : Build) (c r : Nat) : Nat := r * b.cols + c
/-- Built port blocks (R461). -/
def nports (b : Build) : Nat := b.nmap + b.nnkl + b.nd2d
/-- The station record of port block p. -/
def station (b : Build) (p : Nat) : Option Station := b.stations.find? (fun s => s.port == p)
/-- Kind of port block p: 1 MAP, 2 Nuoka Link, 3 D2D, 0 not built. -/
def portKind (b : Build) (p : Nat) : Nat := ((b.station p).map (·.kind)).getD 0
/-- Port block p is a Nuoka Link or D2D port. -/
def isLink (b : Build) (p : Nat) : Bool := b.portKind p == 2 || b.portKind p == 3
/-- A Bowl port block (R237). -/
def isBowlPort (b : Build) (p : Nat) : Bool := if b.isS then b.portKind p != 0 else b.isLink p
/-- The column is in the East half (R20). -/
def east (b : Build) (c : Nat) : Bool := b.halves && b.cols / 2 ≤ c
/-- I/O-ring quadrant of an attach position (R26). -/
def quadrant (b : Build) (c r : Nat) : Nat :=
  if c < b.cols / 2 then (if r < b.rows / 2 then 0 else 3) else (if r < b.rows / 2 then 1 else 2)
/-- Mesh domains per row of domains. -/
def domCols (b : Build) : Nat := b.cols / b.domw
/-- Mesh domains (R26, R280). -/
def nmesh (b : Build) : Nat := b.domCols * (b.rows / b.domh)
/-- Mesh power domain of a position (R26). -/
def meshDom (b : Build) (c r : Nat) : Nat := r / b.domh * b.domCols + c / b.domw
/-- Nuoka Link groups (R461). -/
def nklGroups (b : Build) : Nat := if b.isS then ceilDiv b.nnkl 4 else ceilDiv b.nnkl 6
/-- Link groups (R461). -/
def nlg (b : Build) : Nat := b.nklGroups + (if b.nd2d == 0 then 0 else 1)
/-- All domains, the configuration/Headstock domain included (R461). -/
def ndom (b : Build) : Nat := b.nmesh + 4 + b.nlg + (if b.isS then 1 else 0) + 1
/-- The configuration/Headstock domain (R26). -/
def cfgDom (b : Build) : Nat := b.ndom - 1
/-- Quadrant domain q. -/
def quadDom (b : Build) (q : Nat) : Nat := b.nmesh + q
/-- The Bowl store domain of Configuration S. -/
def bowlDom (b : Build) : Nat := b.nmesh + 4 + b.nlg
/-- Mesh domain of node n. -/
def nodeDom (b : Build) (n : Nat) : Nat := b.meshDom (b.col n) (b.row n)
/-- Quadrant domain of port block p: that of its first attach node (R370). -/
def portDom (b : Build) (p : Nat) : Nat :=
  match b.station p with
  | some s => b.quadDom (b.quadrant s.col s.row)
  | none => b.cfgDom
/-- Link-group domain that holds the link layer of port block p (R26, R370, R461). -/
def linkDom (b : Build) (p : Nat) : Nat :=
  match b.station p with
  | some s =>
    if s.kind == 2 then b.nmesh + 4 + (if b.isS then s.index / 4 else s.index / 6)
    else if s.kind == 3 then b.nmesh + 4 + b.nklGroups
    else b.portDom p
  | none => b.cfgDom
/-- Power domain of the NI of an endpoint. -/
def epDom (b : Build) (ep : Nat) : Nat :=
  if ep < 0xF00 then b.nodeDom ep else if ep < 0xF7E then b.portDom (ep - 0xF00) else if ep == 0xF7E then b.cfgDom else ep - 0xF80
/-- Sync units built: one per mesh domain (R280). -/
def units (b : Build) : Nat := b.nmesh
/-- North-west node of domain d, where its sync unit attaches (R280). -/
def unitNode (b : Build) (u : Nat) : Nat :=
  b.node (b.domw * (u % b.domCols)) (b.domh * (u / b.domCols))
/-- The sync unit at node n, where one attaches. -/
def unitAt (b : Build) (n : Nat) : Option Nat :=
  if b.unitNode (b.nodeDom n) == n then some (b.nodeDom n) else none
/-- Bowl slots (R236). -/
def bowlSlots (b : Build) : Nat := b.bowlMB * 16
/-- Directory entries (R236). -/
def dirSize (b : Build) : Nat := if b.isS then 4096 else 1024
/-- Reply records (R239). -/
def replyRecs (b : Build) : Nat := if b.isS then 32768 else 8192
/-- A mesh side (1 North, 2 East, 3 South, 4 West, R118) of node n leads to this neighbour, if there is one. -/
def neighbour (b : Build) (n port : Nat) : Option Nat :=
  let c := b.col n
  let r := b.row n
  if port == 1 then (if r == 0 then none else some (n - b.cols))
  else if port == 2 then (if c + 1 == b.cols then none else some (n + 1))
  else if port == 3 then (if r + 1 == b.rows then none else some (n + b.cols))
  else if port == 4 then (if c == 0 then none else some (n - 1))
  else none
/-- The port at the far end of a mesh port. -/
def opposite (port : Nat) : Nat :=
  if port == 1 then 3 else if port == 3 then 1 else if port == 2 then 4 else if port == 4 then 2 else port
/-- The exit port whose ring station sits on an outward side of node n: a built port block, 126 for the Headstock
station on the West port of node (0, 0), or 127 (R22, R23). -/
def stationOn (b : Build) (n port : Nat) : Nat :=
  if (b.neighbour n port).isSome || port == 0 || 4 < port then 127
  else if n == 0 && port == 4 then 126
  else
    match b.stations.find? (fun s => s.side + 1 == port &&
        (b.node s.col s.row == n ||
         (s.pair && n == (if s.side == 1 || s.side == 3 then b.node s.col (s.row + 1) else b.node (s.col + 1) s.row)))) with
    | some s => s.port
    | none => 127
/-- The first attach node of an exit port: column and row. -/
def attach (b : Build) (p : Nat) : Option (Nat × Nat) :=
  if p == 126 then some (0, 0) else (b.station p).map (fun s => (s.col, s.row))
/-- The router input port by which an endpoint injects: node and port (R15, R22, R280). A port block with two stations injects at the
first (DESIGN CHOICE, log 35). -/
def injection (b : Build) (ep : Nat) : Option (Nat × Nat) :=
  if ep < 0xF00 then some (ep, 0)
  else if ep < 0xF80 then
    if ep == 0xF7E then some (0, 4)
    else (b.station (ep - 0xF00)).map (fun s => (b.node s.col s.row, s.side + 1))
  else if ep - 0xF80 < b.units then some (b.unitNode (ep - 0xF80), 5) else none
/-- Seam links: the two nodes lie in different halves (R20). -/
def seam (b : Build) (n m : Nat) : Bool := b.east (b.col n) != b.east (b.col m)
/-- Reorder bank of an NI and the bank's capacity in entries (R138). -/
def roBank (b : Build) (ep : Nat) : Nat × Nat :=
  if ep < 0xF00 then (b.nodeDom ep, 1792) else (b.portDom (ep - 0xF00), if b.isS then 32768 else 4096)
/-- Pool memory of port block p in bytes (R141, R460). -/
def poolMem (b : Build) (p : Nat) : Nat :=
  if b.portKind p == 1 then 65536 else 262144 * 2 ^ b.pbmem
/-- The endpoint is built. -/
def epBuilt (b : Build) (ep : Nat) : Bool :=
  if ep < 0xF00 then !b.isS && ep < b.nodes
  else if ep < 0xF7E then b.portKind (ep - 0xF00) != 0
  else ep == 0xF7E

end Build

/-- Ring stations of the MAPs of reference A (R24). -/
def refMaps : List Station :=
  (upFrom 0 32).map (fun m => ⟨m, 1, m, 0, 2 * m, 0, false⟩) ++
  (upFrom 32 16).map (fun m => ⟨m, 1, m, 2, 4 * (m - 32) + 2, 39, false⟩)

/-- The reference Configuration A build, die 0 or die 1 (R24, R460). -/
def referenceA (die1 : Bool) : Build :=
  { isS := false, cols := 64, rows := 40, halves := true, domw := 8, domh := 5, nmap := 48, nnkl := 12, nd2d := 8,
    d2dWest := die1, bowlMB := 16, pbmem := 1,
    stations := refMaps ++
      (upFrom 0 12).map (fun k => ⟨48 + k, 2, k, if die1 then 1 else 3, if die1 then 63 else 0, 3 * k + 1, true⟩) ++
      (upFrom 0 8).map (fun j => ⟨60 + j, 3, j, if die1 then 3 else 1, if die1 then 0 else 63, 5 * j + 1, true⟩) }

/-- The reference Configuration S build (R24, R460). -/
def referenceS : Build :=
  { isS := true, cols := 24, rows := 24, halves := false, domw := 6, domh := 6, nmap := 0, nnkl := 72, nd2d := 0,
    d2dWest := false, bowlMB := 64, pbmem := 1,
    stations := (upFrom 0 72).map (fun k =>
      let t := 3 + k % 18
      if k / 18 == 0 then ⟨k, 2, k, 0, t, 0, false⟩
      else if k / 18 == 1 then ⟨k, 2, k, 1, 23, t, false⟩
      else if k / 18 == 2 then ⟨k, 2, k, 2, t, 23, false⟩
      else ⟨k, 2, k, 3, 0, t, false⟩) }

/-! ### The configuration window -/

/-- First address of node block n (R8). -/
def nodeBase (n : Nat) : Nat := 0x2000000 + n * 0x4000
/-- First address of port block p (R8). -/
def portBase (p : Nat) : Nat := 0x1000000 + p * 0x10000
/-- Block base of the NI of an endpoint (R17, R153). -/
def niBase (ep : Nat) : Nat := if ep < 0xF00 then nodeBase ep else portBase (ep - 0xF00)

/-- Where an address of the configuration window lies (R8). -/
inductive Loc where
  | glob (off : Nat)
  | node (n off : Nat)
  | port (p off : Nat)
  | syncWin (off : Nat)
  | bowlWin (off : Nat)
  | unmapped
  deriving DecidableEq, Repr

/-- The address decode of R8. -/
def locate (b : Build) (a : Nat) : Loc :=
  if a < 0x200000 then .glob a
  else if a < 0x1000000 then .unmapped
  else if a < 0x1800000 then
    let p := (a - 0x1000000) / 0x10000
    if p < b.nports then .port p ((a - 0x1000000) % 0x10000) else .unmapped
  else if a < 0x2000000 then .unmapped
  else if a < 0x8000000 then
    let n := (a - 0x2000000) / 0x4000
    if n < b.nodes then .node n ((a - 0x2000000) % 0x4000) else .unmapped
  else if a < 0xC000000 then .syncWin (a - 0x8000000)
  else if a < 0x10000000 then .bowlWin (a - 0xC000000)
  else .unmapped

/-- A row of the register map holds this offset. -/
def RegRow.holds (r : RegRow) (off : Nat) : Bool :=
  r.off ≤ off && (off - r.off) % r.stride == 0 && (off - r.off) / r.stride < r.cnt

/-- The row of a register in a block of the given kind. -/
def rowIn (ks : List RKind) (off : Nat) : Option RegRow :=
  regTable.find? (fun r => ks.contains r.kind && r.holds off)

/-- What kind of register an address names: the row and whether the row reads as zero here (R3, R153, R254, R321,
R370, R465, R467): in Configuration S also the registers of multicast and of accumulate windows. PWR_XDROP stays readable in every
node block, since R420 places it there for each build, though R18 has the NI range read zero (DESIGN CHOICE, log 35). -/
def rowAt (b : Build) (a : Nat) : Option (RegRow × Bool) :=
  match locate b a with
  | .glob off => (rowIn [.glob] off).bind (fun r =>
      if 0x2000 ≤ off && off < 0x3000 then
        (if (off - 0x2000) / 64 < b.units then some (r, false) else none)
      else if 0x400 ≤ off && off < 0x500 then some (r, b.isS)
      else some (r, false))
  | .node _ off => (rowIn [.node, .np, .nodeZ] off).map (fun r =>
      (r, b.isS && (off == 0x30 || (0x1000 ≤ off && off != 0x1F00))))
  | .port p off =>
    match rowIn [.port, .np, .nodeZ] off with
    | none => none
    | some r =>
      if 0x4000 ≤ off && off < 0x6000 then (if b.isS then some (r, true) else if b.isLink p then some (r, false) else none)
      else if 0x6000 ≤ off && off < 0x7000 then some (r, !b.isLink p)
      else if 0x3200 ≤ off && off < 0x4000 then (if b.isS then some (r, true) else if b.portKind p == 1 then some (r, false) else none)
      else if (0x1320 ≤ off && off < 0x1334) || (0x1340 ≤ off && off < 0x1388) then some (r, b.isS)
      else some (r, r.kind == .nodeZ)
  | _ => none

/-- The reset values that depend on the build (R12, R19, R24, R25, R138, R153, R253, R370, R420, R462). `none` where
the register map's own values hold. -/
def buildReset (b : Build) (a : Nat) : Option Nat :=
  match locate b a with
  | .glob off =>
    if off == 0x4 then some (packFields [(7, b.cols), (7, b.rows), (1, bit b.halves), (1, bit b.isS)])
    else if off == 0x10 then
      some (packFields [(7, b.nmap), (7, b.nnkl), (4, b.nd2d), (1, bit b.d2dWest), (2, b.pbmem)])
    else if off == 0x14 then some (packFields [(5, b.domw), (5, b.domh), (7, b.ndom), (6, b.nlg)])
    else if off == 0x100 then some (8 + 0x7F * 16 + 0x7F * 2048 + (if b.isS then 2 else 0))
    else if off == 0x308 then some (if b.isS then 0x4002000 else 0x5002800)
    else if 0xA10 ≤ off && off ≤ 0xA20 then
      some (if b.cfgDom / 16 == (off - 0xA10) / 4 then 3 * 4 ^ (b.cfgDom % 16) else 0)
    else none
  | .node n off =>
    if off == 0 then
      some (packFields [(7, b.col n), (6, b.row n), (1, bit (b.east (b.col n))), (7, b.nodeDom n)])
    else if off == 8 then
      let st := fun p => if (b.neighbour n p).isNone && b.stationOn n p == 127 then 4 else 0
      some (packFields [(3, if b.isS then 4 else 0), (3, st 1), (3, st 2), (3, st 3), (3, st 4)])
    else if off == 0x10 then
      some (packFields [(7, b.stationOn n 1), (7, b.stationOn n 2), (7, b.stationOn n 3), (7, b.stationOn n 4)])
    else if off == 0x1004 then some 44
    else none
  | .port p off =>
    if off == 0 then
      (b.station p).map (fun s => packFields
        [(7, s.col), (6, s.row), (2, s.side), (1, bit s.pair), (4, s.kind), (7, s.index)])
    else if off == 0x1004 then some (if b.isS then 1820 else 0)
    else if off == 0x6000 then some ((if b.portKind p == 2 then 8 else 0) + 4 * 2 ^ 16 + 0x18 * 2 ^ 21)
    else none
  | _ => none

/-- The reset value of the register word at an address; zero where the address names no register (R9, R3). -/
def resetWord (b : Build) (a : Nat) : Word :=
  match rowAt b a with
  | none => 0
  | some (r, z) =>
    if z then 0
    else BitVec.ofNat 32 ((buildReset b a).getD (r.flds.foldl (fun acc f => acc + f.rst * 2 ^ f.lo) 0))

end Sys2Proof.Machine
end

