-- ==== Sys2Proof/Machine/Packet.lean ====
section
/-! DEFINITION. Packets: the header unit (R62), the peer extension (R77), the scale-out header (R79), the packet-type
and class tables (R67, R70), and the flits that carry a packet (R57, R68, R69). -/
namespace Sys2Proof.Machine

/-- The fields of the on-die header unit (R62). -/
structure Hdr where
  ptype : Nat
  vcn : Nat
  ord : Nat
  dcol : Nat
  drow : Nat
  exitp : Nat
  scol : Nat
  srow : Nat
  len : Nat
  job : Nat
  ctx : Nat
  chan : Nat
  seq : Nat
  flg : Nat
  span : Nat
  opc : Nat
  tag : Nat
  addr : Nat
  aux : Nat
  ts : Nat
  deriving DecidableEq, Repr

/-- The fields of the peer extension (R77). -/
structure Ext where
  xv : Nat
  ford : Nat
  seg : Nat
  hcnt : Nat
  port : Nat
  hops : Nat
  dest : Nat
  src : Nat
  psn : Nat
  mepoch : Nat
  slen : Nat
  deriving DecidableEq, Repr

/-- A whole packet: header, extension, payload bytes, and the numbers of its poisoned 64-byte payload units (R59). -/
structure Pkt where
  hdr : Hdr
  ext : Ext
  pay : List Byte
  bad : List Nat
  deriving DecidableEq, Repr

/-- A header with every field zero. -/
def Hdr.zero : Hdr := ⟨0, 0, 0, 0, 0, 0, 0, 0, 0, 0, 0, 0, 0, 0, 0, 0, 0, 0, 0, 0⟩
/-- The extension of a packet with XV = 0: every bit zero (R77). -/
def Ext.none : Ext := ⟨0, 0, 0, 0, 0, 0, 0, 0, 0, 0, 0⟩

/-- The widths and values of a header unit, bit 0 first (R62). -/
def Hdr.fields (h : Hdr) : List (Nat × Nat) :=
  [(4, h.ptype), (3, h.vcn), (1, h.ord), (7, h.dcol), (6, h.drow), (7, h.exitp), (7, h.scol), (6, h.srow), (12, h.len),
   (10, h.job), (4, h.ctx), (10, h.chan), (16, h.seq), (8, h.flg), (7, h.span), (8, h.opc), (24, h.tag), (48, h.addr),
   (32, h.aux), (16, h.ts)]

/-- The 256-bit header unit (R62). -/
def Hdr.toBits (h : Hdr) : Nat := packFields h.fields

/-- The header unit read from its 256 bits (R62). -/
def Hdr.ofBits (x : Nat) : Hdr :=
  ⟨bitsOf x 0 4, bitsOf x 4 3, bitsOf x 7 1, bitsOf x 8 7, bitsOf x 15 6, bitsOf x 21 7, bitsOf x 28 7, bitsOf x 35 6,
   bitsOf x 41 12, bitsOf x 53 10, bitsOf x 63 4, bitsOf x 67 10, bitsOf x 77 16, bitsOf x 93 8, bitsOf x 101 7,
   bitsOf x 108 8, bitsOf x 116 24, bitsOf x 140 48, bitsOf x 188 32, bitsOf x 220 16⟩

/-- Every field fits its width (R62). -/
def Hdr.fits (h : Hdr) : Bool := h.fields.all (fun f => f.2 < 2 ^ f.1)

/-- The 256-bit peer extension (R77). -/
def Ext.toBits (e : Ext) : Nat :=
  if e.xv == 0 then 0
  else packFields [(1, e.xv), (1, e.ford), (2, e.seg), (3, e.hcnt), (7, e.port), (42, e.hops), (24, e.dest), (24, e.src),
    (24, e.psn), (16, e.mepoch), (14, e.slen)]

/-- The peer extension read from its bits; ignored where XV is 0 (R77). -/
def Ext.ofBits (x : Nat) : Ext :=
  if bitsOf x 0 1 == 0 then Ext.none
  else ⟨1, bitsOf x 1 1, bitsOf x 2 2, bitsOf x 4 3, bitsOf x 7 7, bitsOf x 14 42, bitsOf x 56 24, bitsOf x 80 24,
    bitsOf x 104 24, bitsOf x 128 16, bitsOf x 144 14⟩

/-! ### Flags (R62): bit numbers within FLG -/

/-- FLG bit of FENCE. -/
def fFENCE : Nat := 0
/-- FLG bit of RELAY. -/
def fRELAY : Nat := 1
/-- FLG bit of LAST. -/
def fLAST : Nat := 2
/-- FLG bit of EPOCH. -/
def fEPOCH : Nat := 3
/-- FLG bit of POISON. -/
def fPOISON : Nat := 4
/-- FLG bit of ESC. -/
def fESC : Nat := 5
/-- FLG bit of SPEC. -/
def fSPEC : Nat := 6

/-- A flag of a header. -/
def Hdr.flag (h : Hdr) (f : Nat) : Bool := bitAt h.flg f
/-- A header with one flag set to a value. -/
def Hdr.setFlag (h : Hdr) (f : Nat) (v : Bool) : Hdr := { h with flg := putBits h.flg f 1 (bit v) }

/-! ### Packet types (R67) -/

def tWRITE : Nat := 1
def tREAD : Nat := 2
def tSEND : Nat := 3
def tREDUCE : Nat := 4
def tSYNC_OP : Nat := 6
def tSYNC_NTF : Nat := 7
def tRDATA : Nat := 8
def tWACK : Nat := 9
def tCREDIT : Nat := 10
def tNACK : Nat := 11
def tCFG_RD : Nat := 12
def tCFG_WR : Nat := 13
def tCFG_RSP : Nat := 14

/-- Planes as R118 numbers them. -/
def pQB : Nat := 0
def pPB : Nat := 1
def pCQ : Nat := 2
def pCP : Nat := 3
def pSN : Nat := 4

/-- The plane that PTYPE fixes; none for a reserved type (R67). -/
def planeOf (ptype : Nat) : Option Nat :=
  if 1 ≤ ptype && ptype ≤ 4 then some pQB
  else if ptype == 6 || ptype == 7 then some pSN
  else if 8 ≤ ptype && ptype ≤ 11 then some pPB
  else if ptype == 12 || ptype == 13 then some pCQ
  else if ptype == 14 then some pCP
  else none

/-- Class of a VC: 0 bulk, 1 multicast, 2 reduce, 3 glint (R70). -/
def classOf (vcn : Nat) : Nat := vcn / 2
/-- Largest payload of a class (R70). -/
def classMax (cls : Nat) : Nat :=
  if cls == 0 then 2048 else if cls == 1 then 1024 else if cls == 2 then 512 else 256
/-- Flits of the input buffer of a VC on a plane (R70). -/
def bufSize (plane vc : Nat) : Nat :=
  if plane ≤ 1 then 1 + classMax (classOf vc) / 64 else 8

/-- The classes that a packet type may travel in (R67). -/
def classAllowed (ptype cls : Nat) : Bool :=
  if ptype == tWRITE || ptype == tSEND then cls == 0 || cls == 1 || cls == 3
  else if ptype == tREAD || ptype == tCREDIT then cls == 0 || cls == 3
  else if ptype == tREDUCE then cls == 2
  else if ptype == tRDATA then cls == 0 || cls == 3
  else if ptype == tWACK then cls == 0 || cls == 3
  else true

/-- Flits of a packet (R68, R69). -/
def flitsOf (plane len : Nat) : Nat :=
  if plane ≤ 1 then 1 + ceilDiv len 64 else if len == 0 then 4 else 8

/-- A request type (R67). -/
def isRequest (ptype : Nat) : Bool :=
  ptype == tWRITE || ptype == tREAD || ptype == tSEND || ptype == tREDUCE || ptype == tCFG_RD || ptype == tCFG_WR

/-- A packet with no payload. -/
def Pkt.bare (h : Hdr) (e : Ext) : Pkt := ⟨h, e, [], []⟩
/-- Any poison in a packet: a poisoned unit or FLG.POISON (R62, R59). -/
def Pkt.poisoned (p : Pkt) : Bool := !p.bad.isEmpty || p.hdr.flag fPOISON

/-! ### Flits -/

/-- The data of flit i of a packet on a plane: 512 bits on QB and PB, 64 on the narrow planes (R62, R68, R69). -/
def Pkt.flitData (p : Pkt) (plane i : Nat) : Nat :=
  if plane ≤ 1 then
    (if i == 0 then p.hdr.toBits + 2 ^ 256 * p.ext.toBits else leNat ((p.pay.drop (64 * (i - 1))).take 64))
  else bitsOf (p.hdr.toBits + 2 ^ 256 * p.ext.toBits) (64 * i) 64

/-- Flit i of a packet is sent poisoned (R59, R431). -/
def Pkt.flitBad (p : Pkt) (plane i : Nat) : Bool :=
  if plane ≤ 1 then i != 0 && p.bad.contains (i - 1) else p.bad.contains i

/-- A packet put together again from the data of its flits and their poison (R62, R68, R69). -/
def Pkt.ofFlits (plane : Nat) (fl : List (Nat × Bool)) : Pkt :=
  if plane ≤ 1 then
    let d := (fl.head?.map (·.1)).getD 0
    let h := Hdr.ofBits d
    let rest := fl.drop 1
    { hdr := h
      ext := Ext.ofBits (d / 2 ^ 256)
      pay := ((rest.map (fun f => leBytes f.1 64)).flatten).take h.len
      -- a poisoned flit 0, which only a reserved flit can be (R159), stands after the units of the payload
      bad := (upFrom 0 rest.length).filter (fun i => ((rest[i]?).map (·.2)).getD false) ++
        (if (fl.head?.map (·.2)).getD false then [rest.length] else []) }
  else
    let d := (upFrom 0 fl.length).foldl (fun acc i => acc + 2 ^ (64 * i) * ((fl[i]?).map (·.1)).getD 0) 0
    { hdr := Hdr.ofBits (d % 2 ^ 256)
      ext := if fl.length ≤ 4 then Ext.none else Ext.ofBits (d / 2 ^ 256)
      pay := []
      bad := (upFrom 0 fl.length).filter (fun i => ((fl[i]?).map (·.2)).getD false) }

/-! ### The scale-out header (R79, R83) -/

/-- The 48 bytes of the scale-out header of a packet that leaves the die (R79, R83). -/
def scaleOutHeader (p : Pkt) (enc : Bool) : List Byte :=
  let h := p.hdr
  let e := p.ext
  leBytes (packFields
    [(4, h.ptype), (2, if h.ptype == tSYNC_OP || h.ptype == tSYNC_NTF then 3 else classOf h.vcn), (1, bit enc), (1, 0),
     (3, e.hcnt), (42, e.hops), (24, e.dest), (24, e.src), (14, e.slen), (10, h.job), (4, h.ctx), (10, h.chan),
     (16, h.seq), (8, h.flg), (7, h.span), (1, e.ford), (8, h.opc), (24, h.tag), (48, h.addr), (32, h.aux), (16, h.ts),
     (16, e.mepoch), (24, e.psn)]) 48

/-- The packet that an entry port block reads from a scale-out header and payload, before its placement (R79, R83). Its
LEN field holds the whole payload's length and its ext.slen the same. -/
def ofScaleOut (hd : List Byte) (pay : List Byte) : Pkt × Bool :=
  let x := leNat hd
  let pt := bitsOf x 0 4
  let cls := bitsOf x 4 2
  let ord := bitsOf x 170 1
  ({ hdr := ⟨pt, if pt == tSYNC_OP || pt == tSYNC_NTF then 0 else 2 * cls + ord, ord, 0, 0, 127, 0, 0, bitsOf x 101 14,
       bitsOf x 115 10, bitsOf x 125 4, bitsOf x 129 10, bitsOf x 139 16, bitsOf x 155 8, bitsOf x 163 7, bitsOf x 171 8,
       bitsOf x 179 24, bitsOf x 203 48, bitsOf x 251 32, bitsOf x 283 16⟩
     ext := ⟨1, ord, 0, bitsOf x 8 3, 127, bitsOf x 11 42, bitsOf x 53 24, bitsOf x 77 24, bitsOf x 315 24,
       bitsOf x 299 16, bitsOf x 101 14⟩
     pay := pay
     bad := [] }, bitsOf x 6 1 == 1)

/-- An endpoint's NI index (R16). -/
def epIndex (e : Nat) : Nat := e % 4096
/-- An endpoint's chip ID (R16). -/
def epChip (e : Nat) : Nat := e / 4096

end Sys2Proof.Machine
end

