-- ==== Sys2Proof/Machine/Types.lean ====
section
/-! DEFINITION. The records that the network interfaces, the memory ports and the Headstock keep (R120-R149, R371-R389,
R444-R450), as plain data. -/
namespace Sys2Proof.Machine

/-- For whom an NI carries out an operation, and so where its end is told. -/
inductive Who where
  /-- Headstock command `idx` of a ring. -/
  | cmd (ring idx : Nat)
  /-- A TAP DESC whose end goes to a watch slot of the NI (R446). -/
  | desc (slot : Nat)
  /-- A message of a send queue: queue, MTAG, rank (R326). -/
  | msg (sq mtag rank : Nat)
  /-- The pad before a message of a send queue (R325). -/
  | pad (sq : Nat)
  /-- The result of a Bowl slot (R241). -/
  | bowl (slot : Nat)
  /-- A step of a collective: group record, part, chunk, and which step (R266). -/
  | col (g part chunk step : Nat)
  /-- Nobody waits. -/
  | nobody
  deriving DecidableEq, Repr

/-- What waits for the end of a memory access or of a packet that the NI sent. -/
inductive Purp where
  | nothing
  /-- The packet of operation `op` at byte offset `off`. -/
  | op (op off : Nat)
  /-- The bytes that a READ of operation `op` brought, written to its destination: their number and the READ's status. -/
  | opWrite (op len st : Nat)
  /-- The source bytes of formed packet `req`. -/
  | source (req : Nat)
  /-- A rank entry or a path set of a table set, asked for in an epoch of the set (R123, R127). -/
  | table (ep tset : Nat) (path : Bool) (key : Nat) (epoch : Nat)
  /-- A sync-map entry (R285): the NI and the key. -/
  | smap (ep map vid : Nat)
  /-- A request being performed at an NI, whose reply is still to be sent. -/
  | serve (ep : Nat) (pk : Pkt)
  /-- A held packet read back from its buffer, or from the spill region (R139, R140). -/
  | unhold (ep src ctx chan seq seg : Nat)
  /-- A packet written to a spill slot (R140). -/
  | spill (ep src ctx chan seq seg : Nat)
  /-- A header read back from a spill slot. -/
  | spillHead (ep src ctx chan seq seg : Nat)
  /-- A step of an accumulate: the NI, and the accumulate in progress (R234). -/
  | acc (ep id step : Nat)
  /-- A fetch of command `idx` of a ring, or its reply's write (R373, R374). -/
  | fetch (ring idx : Nat)
  | reply (ring idx : Nat)
  /-- Bytes that a Headstock command reads (R122, R126, R284, R301, R170, R257, R259, R434). -/
  | param (ring idx step : Nat)
  /-- A packet of the retransmit region of a port (R363). -/
  | rtx (port entry step : Nat)
  /-- A step of collective `n` of a group record that reads or writes memory. -/
  | col (port g n part chunk step : Nat)
  /-- One packet of a longer access, at a byte offset (R64, R70). -/
  | piece (big off : Nat)
  /-- A member-list entry of a group record (R257). -/
  | mlist (port g q : Nat)
  /-- Bytes staged for a Lathe launch (R167). -/
  | stage (ep launch bank : Nat)
  /-- The hold buffer of a multicast packet read for a retry to a target node (R192). -/
  | mcRetry (hold target : Nat)
  /-- A result WRITE of the grant of a directory entry (R241). -/
  | bowlReply (ent : Nat)
  deriving DecidableEq, Repr

/-! ### Memory ports (R448, R450) -/

/-- One 64-byte unit of a memory access: unit address, byte enables, data, poison. -/
structure Unit64 where
  unit : Nat
  be : Nat
  data : Nat
  bad : Bool
  deriving DecidableEq, Repr

/-- A unit request outstanding at a memory port: tag, the unit, the cycle it was made. -/
structure Live where
  tag : Nat
  unit : Nat
  at' : Nat
  deriving DecidableEq, Repr

/-- A memory access through TAP or MAP `port`: the units still to be requested, those outstanding, those read, and the
first status other than OK. -/
structure Txn where
  id : Nat
  map : Bool
  port : Nat
  wr : Bool
  addr : Nat
  len : Nat
  todo : List Unit64
  live : List Live
  got : List Unit64
  st : Nat
  purp : Purp
  deriving DecidableEq, Repr

/-! ### Operations and packets of an NI (R119-R149) -/

/-- Kinds of operation. -/
inductive OpKind where
  | write | read | mc | red | send
  deriving DecidableEq, Repr

/-- An operation that an NI carries out packet by packet. `opc`, `tag`, `aux` and `flg` are what its packets carry there;
`par` is the command it came from; `data` the bytes to send where they do not lie in memory; `next` the byte offset of the
next packet to form, `moved` the bytes of packets answered OK; `resv` the run-ahead state it still holds
and `seqs` the SEQ values that it has taken ahead (R384); `want` the
table entry it waits for (path set or rank entry, and key). -/
structure Op where
  id : Nat
  ep : Nat
  who : Who
  kind : OpKind
  ctx : Nat
  chan : Nat
  glint : Bool
  fence : Bool
  rank : Nat
  dest : Option Nat
  len : Nat
  laddr : Nat
  raddr : Nat
  opc : Nat
  tag : Nat
  aux : Nat
  flg : Nat
  mepoch : Nat
  par : Nat
  data : List Byte
  bad : List Nat
  next : Nat
  formed : Nat
  moved : Nat
  st : Nat
  spec : Bool
  resv : Nat
  seqs : List Nat
  ended : Bool
  want : Option (Bool × Nat)
  deriving DecidableEq, Repr

/-- Where a packet of an NI stands. -/
inductive ReqStage where
  /-- Its source bytes are being read. -/
  | reading
  /-- Formed, not launched (R148). -/
  | formed
  /-- Outstanding, launched in notch `at'` of the timeout clock (R132). -/
  | flying (at' : Nat)
  /-- Waiting for its backoff, which began in notch `at'` (R147). -/
  | backoff (at' : Nat)
  /-- Its backoff has ended; the path set of its retry is being read (R123, R147). -/
  | pathWait
  deriving DecidableEq, Repr

/-- A packet that an NI has formed. -/
structure Req where
  id : Nat
  ep : Nat
  purp : Purp
  pkt : Pkt
  stage : ReqStage
  /-- Channel slot it belongs to; none for what the NI sends on its own behalf. -/
  slot : Bool
  ctx : Nat
  chan : Nat
  /-- Offset of its bytes within its operation. -/
  off : Nat
  path : Nat
  tset : Nat
  /-- It expects a reply, the outstanding-table entry it holds, and the replies still to come. -/
  expects : Bool
  entry : Option Nat
  replies : Nat
  tries : Nat
  /-- Segments of 2,048 bytes that it is sent as (R82), and those still to launch (R148). -/
  segs : Nat
  left : Nat
  deriving DecidableEq, Repr

/-- A send slot (R131): rotor of R129 and packets taken at it, the path taken last, next SEQ, the status that broke it,
and the CHAN_CLOSE that waits for it. -/
structure SendSlot where
  ep : Nat
  ctx : Nat
  chan : Nat
  ord : Bool
  dest : Nat
  next : Nat
  rotor : Option Nat
  taken : Nat
  prev : Nat
  broken : Option Nat
  closing : Option (Nat × Nat)
  deriving DecidableEq, Repr

/-- A packet held in the reorder store (R135, R139): its header, where its payload lies, the spill writes and the reads
still under way, whether its turn has come, what has been read back, and the notch in which it arrived. -/
structure Held where
  seq : Nat
  seg : Nat
  pkt : Pkt
  buf : Option Nat
  spill : Option Nat
  writes : Nat
  reads : Nat
  turn : Bool
  got : List Byte
  gotBad : List Nat
  born : Nat
  deriving DecidableEq, Repr

/-- A receive slot (R134-R136). -/
structure RecvSlot where
  ep : Nat
  src : Nat
  ctx : Nat
  chan : Nat
  job : Nat
  next : Nat
  seg : Nat
  broken : Bool
  held : List Held
  deriving DecidableEq, Repr

/-- The injection throttle of one class (R148): bucket in 1/4,096 flit below full, and the notch edges of the run. -/
structure Bucket where
  spent : Nat
  run : Nat
  deriving DecidableEq, Repr

/-- A packet of an NI that waits for a path set of a table set (R125): its destination endpoint, the index that its rotor
starts from, and what waits for its reply. -/
structure FarReq where
  ep : Nat
  ctx : Nat
  tset : Nat
  dest : Nat
  start : Nat
  pkt : Pkt
  expects : Bool
  purp : Purp
  deriving DecidableEq, Repr

/-! ### The TAP request channel (R444) -/

/-- A request that a TAP has taken and not yet answered: its code and data; answers leave in the order of the requests. -/
structure TapReq where
  tap : Nat
  op : Nat
  data : Nat
  /-- It was taken while the node's domain was in Penumbra, and is answered busy (R400, R468). -/
  busy : Bool
  deriving DecidableEq, Repr

/-! ### Core queues (R319-R334) -/

/-- A message that a send queue holds (R323): the notch in which it became the head, and the operations that send it and its pad
once it has started. -/
structure SMsg where
  ep : Nat
  sq : Nat
  core : Nat
  src : Nat
  len : Nat
  mtag : Nat
  head : Option Nat
  op : Option Nat
  pad : Option Nat
  deriving DecidableEq, Repr

/-- A record being written to a receive queue (R327): its RLEN, whether it is a pad, where it ends and where its next
packet belongs, and whether a packet of it was poisoned. -/
structure RLand where
  ep : Nat
  q : Nat
  rlen : Nat
  pad : Bool
  first : Nat
  next : Nat
  stop : Nat
  kind0 : Nat
  bad : Bool
  deriving DecidableEq, Repr

/-- A credit update that a receive queue owes, since a notch (R330). -/
structure Lazy where
  ep : Nat
  q : Nat
  at' : Nat
  deriving DecidableEq, Repr

/-! ### Reduction (R233-R252) -/

/-- A memory access that an NI makes in several packets: pieces still out, what has been read (offset, bytes, poisoned
units), its length, and the first status other than OK. -/
structure Big where
  id : Nat
  wr : Bool
  left : Nat
  got : List (Nat × List Byte × List Nat)
  len : Nat
  st : Nat
  purp : Purp
  deriving DecidableEq, Repr

/-- The counts of a chunk record or a Bowl slot (R233, R240). -/
structure Tally where
  wsum : Nat
  escx : Nat
  escr : Nat
  sat : Nat
  done : Bool
  poison : Bool
  deriving DecidableEq, Repr

/-- An accumulate in progress or waiting at an NI (R234): window 0-3, or 4 + g for the window of group record g; its
parameters; the packet; whether it has begun; what it has read and computed. -/
structure AccJob where
  id : Nat
  ep : Nat
  win : Nat
  core : Nat
  mapp : Nat
  base : Nat
  chunks : Nat
  w : Nat
  pkt : Pkt
  begun : Bool
  tally : Tally
  finished : Bool
  deriving DecidableEq, Repr

/-- A directory entry (R236, R239): state 0 PENDING, 1 OPEN, 2 DONE, 3 FALLBACK; its key, port block and parameters; the
attempts lost and the notch at which the next is due (R244); the notch it entered DONE or FALLBACK; its claimers, and
the held answers. -/
structure BEnt where
  id : Nat
  port : Nat
  job : Nat
  group : Nat
  cseq : Nat
  chunk : Nat
  state : Nat
  w : Nat
  ng : Nat
  fmt : Nat
  rfmt : Nat
  rmode : Nat
  rdest : Nat
  raddr : Nat
  pos : Nat
  lost : Nat
  due : Nat
  since : Nat
  claimers : List Nat
  claims : List Pkt
  commits : List Pkt
  deriving DecidableEq, Repr

/-- A Bowl slot that is held (R240): its entry, the notch of its grant, its accumulators, its counts, and the result
WRITEs still to be answered once it has completed. -/
structure BSlot where
  slot : Nat
  ent : Nat
  born : Nat
  sums : List Nat
  tally : Tally
  sent : Bool
  left : Nat
  deriving DecidableEq, Repr

/-! ### Collectives (R254-R279) -/

/-- A group record of an engine, its next collective number, the member-list entries cached (R255-R258), and the residual writes that
are still out (R219). -/
structure ColRec where
  port : Nat
  g : Nat
  bits : Nat
  next : Nat
  members : List (Nat × Nat)
  resOut : Nat
  deriving DecidableEq, Repr

/-- A packet of an encoded contribution: where its bytes lie in the buffer, its length, group offset, whether it is an ESC
packet, and its SATC and ESCC. -/
structure EncPkt where
  off : Nat
  len : Nat
  boff : Nat
  esc : Bool
  satc : Nat
  escc : Nat
  deriving DecidableEq, Repr

/-- A chunk that a contributor has begun (R266): state 0 reading, 1 CLAIMING, 2 SENDING, 3 COMMITTING, 4 FALLBACK,
5 SETTLED, 6 FALLBACK with its packets on their way; its buffer; source bytes and residuals as they come; the packets of its contribution; an answer not yet
acted on. -/
structure CChunk where
  part : Nat
  chunk : Nat
  state : Nat
  buf : Nat
  src : Option (List Byte)
  res : Option (List Byte)
  bad : Bool
  /-- Packets of the source read, 2,048 bytes each, that came poisoned (R209). -/
  poi : List Nat
  enc : List EncPkt
  ans : Option Nat
  deriving DecidableEq, Repr

/-- A collective queued or running (R259, R261): its descriptor; the stage reached, the step within it and how far that
step has come; the peer it writes to; the engine's memory accesses and writes out; chunks; own chunks complete; peers to
which GDONE has gone; counts; the first failing status; the notch of its last progress. -/
structure Coll where
  port : Nat
  g : Nat
  n : Nat
  desc : Nat
  running : Bool
  stage : Nat
  step : Nat
  pos : Nat
  peer : Nat
  out : Nat
  chunks : List CChunk
  own : List Nat
  gsent : List Nat
  sat : Nat
  esc : Nat
  fb : Nat
  st : Nat
  last : Nat
  deriving DecidableEq, Repr

/-- An event for a collective engine: a chunk of its own window is DONE (R234, R267): port block, group record, chunk, status, SAT
and ESCX. -/
structure ColEv where
  port : Nat
  g : Nat
  chunk : Nat
  st : Nat
  sat : Nat
  esc : Nat
  deriving DecidableEq, Repr

/-- A READY or GDONE record held (R264, R271). -/
structure Ready where
  port : Nat
  gdone : Bool
  group : Nat
  cseq : Nat
  gath : Nat
  q : Nat
  rdest : Nat
  raddr : Nat
  deriving DecidableEq, Repr

/-- A member list being read to see whether a chip is a member (R276), and the command that waits for it. -/
structure Scan where
  port : Nat
  g : Nat
  chip : Nat
  cmd : Option (Nat × Nat)
  deriving DecidableEq, Repr

/-- A tracker entry (R214): its group, whether it is valid, A, and the largest magnitude of the present turn. -/
structure Tracker where
  port : Nat
  group : Nat
  valid : Bool
  a : Nat
  cur : Option Nat
  deriving DecidableEq, Repr

/-! ### The Lathe plane (R154-R177) -/

/-- A plan image being loaded (R170): the command, the MAP and address, its timeout and start; whether the plan writer is
granted, the attempts lost and when the next is due; the image and the status of its read, once it is here. -/
structure LthLoad where
  ring : Nat
  idx : Nat
  mapp : Nat
  addr : Nat
  tmo : Nat
  born : Nat
  granted : Bool
  lost : Nat
  due : Nat
  img : Option (List Byte × Nat)
  deriving DecidableEq, Repr

/-- A staged launch (R167): NI, launch and bank, its stream, where in the stream its bytes begin, their number, and the bytes
with their poison once they have been read. -/
structure Staged where
  ep : Nat
  k : Nat
  bank : Nat
  stream : Nat
  start : Nat
  len : Nat
  got : Option (List Byte × List Nat)
  deriving DecidableEq, Repr

/-- A flit on a link: its data, whether its check bytes are inverted (R59, R102), and its sideband HD, TL, VC, LT and FV (R72). -/
structure Flit where
  data : Nat
  bad : Bool
  hd : Bool
  tl : Bool
  vc : Nat
  lt : Bool
  /-- Of a reserved flit: the cycle of the turn, as the unit that launched it counts, in which it was launched (R157). -/
  lat : Nat
  /-- Carried by the upper 544 bits of its cycle (R61). -/
  up : Bool
  /-- Its bit of FV: 0 in the idle flit of a packet with an odd number of flits (R61, R72). -/
  valid : Bool
  deriving DecidableEq, Repr

/-- A reserved flit of a launch window in progress (R166): NI, bank and stream, the injection link, the cycle in which it is
launched, the flit, and the payload bytes by which SENT advances with it, which are those of its packet where it is the last. -/
structure Going where
  ep : Nat
  bank : Nat
  stream : Nat
  link : Nat
  at' : Nat
  flit : Flit
  len : Nat
  deriving DecidableEq, Repr

/-- What the Lathe plane keeps beside its registers and tables: a load; whether a plan is active and whether its ending
edge has passed; the turn at which TURNS ends it; the NIs with streams, of the active and of the shadow bank; TURNS and
PLANID of the shadow plan; the NI and context of its PLAN record; launches made in the present turn; SEQ by NI and stream;
NIs that have discarded a packet since the plan became active; staged launches; flits of launch windows in progress; the cycle of the
last suspension; and the last
unbroken run of reserved flits of this turn, first cycle and the cycle after its last, by 2 * link at the router that the link feeds
and by 2 * link + 1 at the NI that launches on it (R161). -/
structure Lathe where
  load : Option LthLoad
  active : Bool
  past : Bool
  half : Bool
  endTurn : Option Nat
  nis : List Nat
  shNis : List Nat
  shTurns : Nat
  shPlan : Nat
  recNi : Nat
  recCtx : Nat
  fired : List Nat
  seqs : NMap
  discs : List Nat
  staged : List Staged
  going : List Going
  susp : Nat
  runs : List (Nat × Nat × Nat)
  deriving DecidableEq, Repr

/-- No plan. -/
def Lathe.reset : Lathe := ⟨none, false, false, false, none, [], [], 0, 0, 0, 0, [], [], [], [], [], 0, []⟩

/-! ### Nuoka Link and die-to-die ports (R336-R370) -/

/-- A DATA cell of a packet being sent: SOP, EOP, FILL, key phase, payload (R340, R341). -/
structure TxCell where
  sop : Bool
  eop : Bool
  fill : Nat
  kph : Bool
  pay : List Byte
  deriving DecidableEq, Repr

/-- A DATA cell in the replay buffer (R342): SEQ, header bits but for ACK, AV and NAK, payload, the cycle it was last sent. -/
structure HeldCell where
  seq : Nat
  head : Nat
  pay : List Byte
  at' : Nat
  deriving DecidableEq, Repr

/-- A packet that waits at a port to be sent on its link, with the buffer it occupies. -/
structure TxPkt where
  pkt : Pkt
  buf : Option Nat
  deriving DecidableEq, Repr

/-- A packet being received, or received whole: its stream, key phase, bytes, buffer, and invocation counter (R354). -/
structure RxPkt where
  glint : Bool
  kph : Bool
  bytes : List Byte
  buf : Option Nat
  ctr : Nat
  deriving DecidableEq, Repr

/-- A swap of a lane with the spare in one direction (R352): the lanes, the frame, whether the receiver reads the spare in place of
the lane, whether a LANE cell is due, and the command that waits for it. -/
structure LaneSwap where
  lane : Nat
  spare : Nat
  frame : Nat
  read : Bool
  due : Bool
  cmd : Option (Nat × Nat)
  deriving DecidableEq, Repr

/-- What a link keeps beside its registers (R339-R360). Receiving: the next SEQ, whether a NAK may be asked for and is due,
good frames in training, the notch of the last good frame, packets in assembly and whole, buffers granted, grants. Sending:
next SEQ, replay buffer, SEQs to be replayed, replays without progress, packets started and the peer's grants, cells of the
packets in progress, packets waiting, cells and notches since the last CTRL, what is due. Frames: FNUM and the cells of the
frame being filled. Alignment: the peer's last TTX and its arrival. Admission: own challenge, the peer's, what its ADMIT
said, authentication. Training: PHY lock, the notch it began, electrical idle since. Tag failures; invocation counters and
salts given apart from the key, by 2 * direction + phase; the receive spare, the next lane in rotation, the notch of the
last rotation; the cycle of the last ADMIT, and whether one has been sent. Lanes (R339, R350-R352): the active lanes of each
direction as their numbers with the physical lanes, the lane that takes the next symbol, the physical lane copied onto the
spare with the symbols copied since a marker, the frame expected next, markers missed by each physical lane, the lane that the
spare is compared with, the symbols compared and those that differed, and the swap of each direction. -/
structure LinkPort where
  exp : Nat
  nakOk : Bool
  nakDue : Bool
  good : Nat
  lastGood : Nat
  rxB : Option RxPkt
  rxG : Option RxPkt
  whole : List RxPkt
  bufB : List Nat
  bufG : List Nat
  grB : Nat
  grG : Nat
  seq : Nat
  held : List HeldCell
  replay : List Nat
  tries : Nat
  stB : Nat
  stG : Nat
  pgB : Nat
  pgG : Nat
  txB : List TxCell
  txG : List TxCell
  qB : List TxPkt
  qG : List TxPkt
  sinceCtrl : Nat
  ctrlAt : Nat
  ctrlDue : Bool
  beacon : Bool
  admDue : Bool
  fnum : Nat
  cells : List (List Byte)
  peerTtx : Nat
  peerArr : Nat
  chal : Nat
  pChal : Option Nat
  pEpoch : Nat
  pFlags : Nat
  pTxic : Nat
  authOk : Bool
  lock : Bool
  began : Nat
  idle : Option Nat
  tags : Nat
  ctrs : NMap
  salts : NMap
  swapTx : Option LaneSwap
  swapRx : Option LaneSwap
  txLanes : List (Nat × Nat)
  txPtr : Nat
  txCopy : Nat
  txCalN : Nat
  rxLanes : List (Nat × Nat)
  rxPtr : Nat
  rxNum : Nat
  rxMiss : NMap
  calC : Option Nat
  calSyms : Nat
  calDiff : Nat
  admSent : Bool
  rxSpare : Nat
  rotNext : Nat
  rotAt : Nat
  admitAt : Nat
  /-- The port goes down once the packets that are being sent under a key that has been erased are out (R440). -/
  downDue : Bool
  /-- Symbols of each physical lane that have still to fill a word of NKP_TXD (R451). -/
  txOver : List (List (BitVec 10))
  deriving DecidableEq, Repr

/-- A link that is DOWN and has been since reset. -/
def LinkPort.reset : LinkPort :=
  { exp := 0, nakOk := false, nakDue := false, good := 0, lastGood := 0, rxB := none, rxG := none, whole := [], bufB := []
    bufG := [], grB := 0, grG := 0, seq := 0, held := [], replay := [], tries := 0, stB := 0, stG := 0, pgB := 0, pgG := 0
    txB := [], txG := [], qB := [], qG := [], sinceCtrl := 0, ctrlAt := 0, ctrlDue := false, beacon := false
    admDue := false, fnum := 0, cells := [], peerTtx := 0, peerArr := 0, chal := 0, pChal := none, pEpoch := 0, pFlags := 0
    pTxic := 0, authOk := false, lock := false, began := 0, idle := none, tags := 0, ctrs := [], salts := [], swapTx := none
    swapRx := none, txLanes := [], txPtr := 0, txCopy := 0, txCalN := 0, rxLanes := [], rxPtr := 0, rxNum := 0, rxMiss := []
    calC := none, calSyms := 0, calDiff := 0, admSent := false, rxSpare := 0, rotNext := 0, rotAt := 0, admitAt := 0
    downDue := false, txOver := [] }

/-- A packet being put together at an exit port block (R82): its key, its segments so far, its buffer. -/
structure Asm where
  port : Nat
  src : Nat
  psn : Nat
  segs : List Pkt
  buf : Option Nat
  deriving DecidableEq, Repr

/-- A packet at an exit port block that waits for its hop list (R78). -/
structure ExitPkt where
  port : Nat
  pkt : Pkt
  buf : Option Nat
  deriving DecidableEq, Repr

/-- A packet of a link that is being injected (R345, R364): port, stream, key, the buffer that it occupies until then, and
whether an E2E acknowledgement is sent once it has been injected whole. -/
structure InjPkt where
  port : Nat
  glint : Bool
  src : Nat
  psn : Nat
  buf : Option Nat
  ack : Bool
  deriving DecidableEq, Repr

/-- A retransmit entry (R363): port and number, key, the packet (its payload while it lies in a buffer), the buffer;
region 0 none, 1 being written, 2 there, 3 being read back, 4 read back, 5 not writable; exit port of the path last used and that
path's index, sends, the next k of R366, the notch of the first send; whether a copy waits for a path set. -/
structure RtxEnt where
  port : Nat
  num : Nat
  src : Nat
  psn : Nat
  pkt : Pkt
  buf : Option Nat
  region : Nat
  exit : Nat
  path : Option Nat
  sends : Nat
  k : Nat
  first : Nat
  want : Bool
  deriving DecidableEq, Repr

/-- An arrival-filter entry (R365): key, and the notch it was recorded in. -/
structure FiltEnt where
  src : Nat
  psn : Nat
  at' : Nat
  deriving DecidableEq, Repr

/-! ### The Key Store (R433-R437) -/

/-- A key slot that is not empty: number, KIND, KEY, SALT. -/
structure KeySlot where
  slot : Nat
  kind : Nat
  key : Nat
  salt : Nat
  deriving DecidableEq, Repr

/-! ### The Headstock (R371-R394) -/

/-- Where a fetched command stands. -/
inductive CmdStage where
  /-- Fetched, not started. -/
  | ready
  /-- Started, not complete. -/
  | running
  /-- Complete with a status; its reply is not yet written. -/
  | done
  /-- Its reply has been written. -/
  | replied
  deriving DecidableEq, Repr

/-- A guard (R382): unsent, sent on a Headstock watch slot, satisfied. -/
inductive Guard where
  | unsent
  | sent (slot : Nat)
  | met
  deriving DecidableEq, Repr

/-- A command of a ring that the Headstock has fetched. -/
structure Cmd where
  idx : Nat
  bits : Nat
  stage : CmdStage
  guard : Guard
  /-- It has taken run-ahead state (R384); it has been squashed (R386). -/
  ahead : Bool
  squashed : Bool
  /-- Its ring was aborted when it was released: it runs to completion (R386). -/
  go : Bool
  st : Nat
  result : Nat
  /-- The notch in which it started, how far it has come, and what it keeps on the way. -/
  born : Nat
  work : Nat
  data : List Nat
  deriving DecidableEq, Repr

/-- A Headstock watch slot in use (R383): slot, generation, ring, command, the semaphore it watches, and the notch in
which its guard started. -/
structure HWatch where
  slot : Nat
  gen : Nat
  ring : Nat
  idx : Nat
  unit : Nat
  sem : Nat
  born : Nat
  wtmo : Nat
  deriving DecidableEq, Repr

/-- A register access that waits for its CFG_RSP (R454): who asked (CFG, DBG, or a command), and when. -/
inductive Asker where
  | cfg
  | cmd (ring idx : Nat)
  deriving DecidableEq, Repr

/-- What a probe waits with while a packet passes on a narrow plane (R425): the notch count and cycle phase of the launch of its
flit 0, how many flits it needs, and those that have left. -/
structure Probing where
  notch : Nat
  phase : Nat
  need : Nat
  seen : List (Nat × Bool)
  deriving DecidableEq, Repr

/-- A record in a probe's queue of four (R426): the probe, the cycle of the match, the record, and whether it is to trigger (R427). -/
structure TraceEnt where
  probe : Nat
  at' : Nat
  rec' : List Byte
  trig : Bool
  deriving DecidableEq, Repr

/-- An access to a node or port block on its way. -/
structure CfgAcc where
  id : Nat
  asker : Asker
  write : Bool
  addr : Nat
  at' : Nat
  data : Nat
  deriving DecidableEq, Repr

/-- A hold buffer of a queue-targeted multicast packet (R191): the packet, its operation, its buffer, and the notch of
its last launch; retries scheduled as target node, number and the notch its NACK came; retries made, by target; and whether it has
ended, which a late per-target NACK asks (R192, R193). -/
structure Hold where
  id : Nat
  ep : Nat
  op : Nat
  pkt : Pkt
  buf : Nat
  launched : Option Nat
  due : List (Nat × Nat × Nat)
  made : List (Nat × Nat)
  past : Bool
  deriving DecidableEq, Repr

/-! ### Sync units (R280-R313) -/

/-- A watch entry of a sync unit (R291): its number, and the fields of the debug window; `due` is the notch of the
timeout clock at which its DEADLINE passes, `value` the value its notification will carry. -/
structure Watch where
  unit : Nat
  ent : Nat
  fired : Bool
  kind : Nat
  index : Nat
  n : Nat
  tag : Nat
  job : Nat
  ctx : Nat
  scol : Nat
  srow : Nat
  port : Nat
  src : Nat
  psn : Nat
  mepoch : Nat
  deadline : Nat
  due : Nat
  status : Nat
  value : Nat
  deriving DecidableEq, Repr

/-- The root of a barrier instance (R304): what BAR_INIT gave it, the domains and children that have reported in the
present epoch, and the children recorded. -/
structure BarRoot where
  timed : Bool
  lead : Nat
  parv : Bool
  pinst : Nat
  parent : Nat
  nrem : Nat
  ndom : Nat
  epoch : Nat
  doms : List Nat
  ups : List Nat
  kids : List Nat
  deriving DecidableEq, Repr

/-- A barrier instance on a unit (R301-R306): its slice as the numbers of its member TAPs, who has arrived, the unit's
epoch, a release scheduled for a turn, and the root's state where this unit is the root. -/
structure Bar where
  unit : Nat
  inst : Nat
  job : Nat
  slice : List Nat
  arrived : List Nat
  epoch : Nat
  due : Option (Nat × Nat)
  root : Option BarRoot
  deriving DecidableEq, Repr

/-- A realign slot (R309, R310). -/
structure Realign where
  unit : Nat
  slot : Nat
  en : Bool
  a : Nat
  b : Nat
  k : Nat
  tol : Nat
  ra : Nat
  rb : Nat
  turn : Nat
  drift : Int
  delta : Int
  status : Nat
  deriving DecidableEq, Repr

/-- A watch slot of an NI that is ARMED (R297): the notch in which it was armed, its guard in notches, whether a DESC
holds it (R446), and the index and watch kind of its operation. -/
structure Armed where
  ep : Nat
  slot : Nat
  born : Nat
  wait : Nat
  desc : Bool
  index : Nat
  kind : Nat
  deriving DecidableEq, Repr

/-! ### The governor, domain transitions, drains (R114, R150, R397) -/

/-- The governor's window: flits launched so far on the wide and narrow planes, the notch it began, its length. -/
structure Gov where
  wide : Nat
  narrow : Nat
  at' : Nat
  win : Nat
  deriving DecidableEq, Repr

/-- A domain transition in progress (R397): its domain, direction, TARGET, TMO and FORCE, the command that waits for it
(none for automatic power-up), and the notch or cycle its phase began. Phases: 0 Penumbra, draining; 1 Umbra, waiting for a
step to switch off; 2 waiting for PSW_ACK to fall; 3 waiting for a step to switch on; 4 waiting for PSW_ACK to rise;
5 reset held or initialising; 6 rejoining; 7 waiting for a step to switch off after a missing acknowledge; 8 the checks of R399,
route tables being read. -/
structure Trans where
  dom : Nat
  up : Bool
  target : Nat
  tmo : Nat
  force : Bool
  cmd : Option (Nat × Nat)
  phase : Nat
  born : Nat
  deriving DecidableEq, Repr

/-- A router drain in progress (R114): node, timeout, FORCE, its command, the notch it began, and whether its route tables
are still being read (R115). -/
structure Drain where
  node : Nat
  tmo : Nat
  force : Bool
  ring : Nat
  idx : Nat
  born : Nat
  checking : Bool
  deriving DecidableEq, Repr

end Sys2Proof.Machine
end

