-- ==== Sys2Proof/Machine/State.lean ====
section
/-! DEFINITION. The state of the block: everything spec/ gives it, as plain data; the faults and refusals; the state
right after the whole-block reset. -/
namespace Sys2Proof.Machine

/-- Why a step can stop. A command of a part that another configuration has does nothing here (R3, log 35); only a ring number
that no configuration has stops a step. -/
inductive Fault where
  /-- Raised by commands of a command ring beyond the sixteen (R371): there is no such ring in any build. Safe. -/
  | noSuchRing
  deriving DecidableEq, Repr

/-- Why a step can refuse a command. -/
inductive Refusal where
  /-- Raised by `exec` for a command of the table that has no meaning yet. Safe. -/
  | notModelled (mnemonic : String)
  deriving DecidableEq, Repr

/-! ### The Spindle (R36-R56) -/

/-- Spindle time and what the Spindle unit remembers between edges. -/
structure Spindle where
  /-- Turn count, 40 bits. -/
  turn : Nat
  /-- Notch index, 11 bits. -/
  notch : Nat
  /-- Cycle within the notch, 3 bits. -/
  phase : Nat
  /-- A cycle has passed by itself, in a step on an empty queue, since the last notch edge (R41). -/
  ticked : Bool
  /-- `cyc` at the last notch edge (the watchdog of R53). -/
  edge : Nat
  /-- `cyc` at the last turn edge. -/
  turnEdge : Nat
  /-- Trim cycles inserted in the turn so far, to be left out of SPN_CPT. -/
  trimmed : Int
  /-- The turn edge whose SPX_TCNT samples are still to be compared: the turn count before it (R38). -/
  sample : Option Nat
  /-- Notch edges since that turn edge. -/
  sampleNotches : Nat
  /-- The notch count frozen at the last entry to STALLED (R53). -/
  frozen : Nat
  /-- Trim planned for the present turn (R49). -/
  trim : Int
  /-- Sum of twice the offset samples of the present turn, and their number (R48). -/
  offSum : Int
  offNum : Nat
  /-- Consecutive turns with |E| at most 4 (R50). -/
  good : Nat
  /-- Consecutive turns without a valid beacon from RPORT, and whether one came in the present turn (R47). -/
  missed : Nat
  seen : Bool
  /-- The same of RPORT2. -/
  missed2 : Nat
  seen2 : Bool
  /-- ROLE, RPORT and RPORT2 in effect (R56). -/
  role : Nat
  rport : Nat
  rport2 : Nat
  /-- Holds on the Lathe plane: not in RUN or waiting after entry to RUN, and a turn out of range (R41, R53, R55). -/
  stallHold : Bool
  rateHold : Bool
  /-- Turn edges still to come before a stall hold ends by itself or after LTH_RESUME (R54, R174). -/
  resumeIn : Option Nat
  deriving DecidableEq, Repr

/-- The Spindle after reset: OFF, time zero, the Lathe plane held (R55). -/
def Spindle.reset : Spindle :=
  ⟨0, 0, 0, false, 0, 0, 0, none, 0, 0, 0, 0, 0, 0, 0, false, 0, false, 0, 127, 127, true, false, none⟩

/-! ### Observation (R421-R432) -/

/-- A telemetry counter: 48-bit COUNT and OVF (R421). -/
structure Tlm where
  cnt : Nat
  ovf : Bool
  deriving DecidableEq, Repr

/-- A pending report of a unit (R428): key, status, event count, first and last notch counts, DETAIL. -/
structure Report where
  cls : Nat
  src : Nat
  status : Nat
  count : Nat
  first : Nat
  last : Nat
  detail : Nat
  at' : Nat
  deriving DecidableEq, Repr

/-- An entry of the error log (R428). -/
structure LogEntry where
  cls : Nat
  status : Nat
  src : Nat
  rep : Nat
  first : Nat
  last : Nat
  detail : Nat
  deriving DecidableEq, Repr

/-! ### The mesh (R57-R118) -/

/-- A flit held in an input VC buffer, with the output ports that have still to launch it (R98) and, on flit 0, whether
the Burl combiner has let it pass (R229). -/
structure BFlit where
  flit : Flit
  todo : List Nat
  pass : Bool
  /-- A filler flit (R105), for which no credit is owed to the sender. -/
  fill : Bool
  deriving DecidableEq, Repr

/-- The packet whose flits are entering an input VC: the outputs its route feeds, whether it is being discarded, and the
flits still to come. -/
structure Entering where
  outs : List Nat
  drop : Bool
  left : Nat
  deriving DecidableEq, Repr

/-- The packet in progress on an output or an injection link (R71): the input port and VC whose buffer feeds it, or the
flits themselves where it comes from a Burl entry, the reflector or an endpoint; the flits still to launch; SRC and PSN of a
scale-out packet that is being injected (R345). -/
structure Progress where
  fromBuf : Bool
  port : Nat
  vc : Nat
  left : Nat
  rest : List Flit
  burl : Option Nat
  key : Option (Nat × Nat)
  deriving DecidableEq, Repr

/-- An entry of a Burl combiner (R229-R231). -/
structure BurlEnt where
  id : Nat
  node : Nat
  pkt : Pkt
  merged : Nat
  born : Nat
  released : Bool
  deriving DecidableEq, Repr

/-- A packet received whole at an endpoint and not yet taken: the link that delivered it, plane, VC, whether it came as
reserved flits (LT), the packet, and the cycle in which its last flit was written. -/
structure Arrival where
  link : Nat
  plane : Nat
  vc : Nat
  lt : Bool
  pkt : Pkt
  at' : Nat
  deriving DecidableEq, Repr

/-! ### The ports (R442-R459) -/

/-- A crossing whose far side is in reset or has stopped (R412, R414): whether JOIN has been signalled and in which cycle,
whether it was the far clock that stopped, and the cycle in which the block saw it (R419). -/
structure XHold where
  x : Crossing
  joined : Bool
  at' : Nat
  stopped : Bool
  seen : Nat
  deriving DecidableEq, Repr

/-- The block's 1149.1 segment (R438, R457): the instruction register, the last access that has come over the crossing (write,
address, data), and the half of the data register that is captured: read data, status and DONE. -/
structure Jtag where
  ir : Nat
  access : Bool × Nat × Nat
  data : Word
  status : Nat
  done : Bool
  deriving DecidableEq, Repr

/-- The segment after TRST_N: its instruction is BYPASS (R457), and nothing has been accessed. -/
def Jtag.reset : Jtag := ⟨0xFF, (false, 0, 0), 0, 0, false⟩

/-- What the block has driven at its ports. -/
inductive PortOut where
  /-- CFG_ACK with CFG_RDATA and CFG_STATUS (R453). -/
  | cfgAck (rdata : Word) (status : Nat)
  /-- The captured DBG_REG access: read data and status (R438). -/
  | dbgDone (rdata : Word) (status : Nat)
  /-- A TAP response (R444). -/
  | tapRsp (tap : Nat) (busy : Bool) (status : Nat) (rdata : Word)
  /-- TAP_MW: one 64-byte unit with byte enables (R448). -/
  | tapWrite (tap unit be data : Nat) (poison : Bool)
  /-- TAP_MR (R448). -/
  | tapRead (tap unit tag : Nat)
  /-- A TAP_EV pulse on the given line (R449). -/
  | tapEv (tap line : Nat)
  /-- MAP_WQ (R450). -/
  | mapWrite (map unit tag be data : Nat) (poison : Bool)
  /-- MAP_RQ (R450). -/
  | mapRead (map unit tag : Nat)
  /-- A transfer at a die-to-die port: lp_data, with lp_valid and lp_irdy at 1. A link cell is four of them (R346, R368, R452). -/
  | lpData (port : Nat) (beat : List Byte)
  /-- NKP_TXD of a physical lane of a Nuoka Link port in a cycle of NKP_TXCLK: sixteen symbols (R339, R451). -/
  | nkpTx (port lane : Nat) (word : BitVec 160)
  /-- A record on the Mirror trace output (R458). -/
  | traceBeat (data : List Byte) (last : Bool)
  /-- SEC_ERASED driven (R437). -/
  | secErased
  deriving DecidableEq, Repr

/-- What waits in the write buffer of a TAP (R448): the write of a unit, or a pulse that follows the writes before it, and the cycle in
which it goes out; whether it is of a packet that came as reserved flits. -/
structure TapOut where
  tap : Nat
  out : PortOut
  unit : Option Nat
  at' : Nat
  lathe : Bool
  deriving DecidableEq, Repr

/-! ### The state -/

/-- The whole block. -/
structure State where
  /-- Build parameters (R460). -/
  build : Build
  /-- Register words that differ from their reset values, by window address (R8). -/
  regs : List (Nat × Word)
  /-- fclk cycles counted by the model. -/
  cyc : Nat
  /-- The notch count in which timeouts run (R45, R52), and the cycles into its notch while not in RUN. -/
  tmo : Nat
  sub : Nat
  spn : Spindle
  /-- Telemetry counters that are not zero, by the address of their LO word (R421). -/
  tlm : List (Nat × Tlm)
  /-- Snapshot copies of the counters and of the depth words (R424). -/
  snapTlm : List (Nat × Tlm)
  snapDepth : List (Nat × Nat)
  /-- Trace records, oldest first, 64 bytes each (R426). -/
  trace : List (List Byte)
  /-- Records in the probes' queues, oldest first, and the first cycle in which the buffer can take one (R426). -/
  traceq : List TraceEnt
  /-- Packets on a narrow output whose probes wait for their header unit, by 8 * output + VC (R425). -/
  probing : List (Nat × Probing)
  /-- The cycle from which the trace output is free for its next record (R458). -/
  mirAt : Nat
  /-- The cycle in which the East units copy for a snapshot that the West units have taken (R40, R424). -/
  snapDue : Option Nat
  traceAt : Nat
  /-- Records still to be written after a trigger (R427). -/
  postLeft : Option Nat
  /-- Reports not yet taken by the log, and the log, oldest entry first (R428, R429). -/
  reports : List Report
  log : List LogEntry
  /-- PEND has been set during the current turn, and the cycle of the last pacing turn edge (R430). -/
  pendTurn : Bool
  paceEdge : Nat
  /-- Flits in flight on each link, oldest first (R94). -/
  wires : List (Nat × List Flit)
  /-- Input VC buffers (R70), and the packets entering them. -/
  buf : List (Nat × List BFlit)
  cur : List (Nat × Entering)
  /-- Packets in progress, by link (R71). -/
  own : List (Nat × Progress)
  /-- Credit counters that are below the buffer size: credits missing, by link and VC (R74, R75). -/
  owed : NMap
  /-- Credits on their way back, by link and VC (R73). -/
  crw : NMap
  /-- Round-robin pointers, by link and level (R97). -/
  rr : NMap
  /-- Reflector queues, by node (R112). -/
  refl : List (Nat × List Pkt)
  burl : List BurlEnt
  /-- States of injection links (R114), and of the Local outputs toward sync units (R15, R114); absent is OPEN. -/
  injSt : NMap
  /-- Packets waiting at the head of an injection link (R148). -/
  sendq : List (Nat × List Pkt)
  /-- Flits received at an endpoint whose packet is not yet whole, by link, VC and LT; and whole packets. -/
  rx : List (Nat × List Flit)
  arrivals : List (Nat × List Arrival)
  /-- On-chip memories, by byte: the command memory (R371), the route store (R123) and the pool memories (R141), each in
  its own range; bytes not listed are zero. -/
  ram : List (Nat × Byte)
  /-- Poisoned 64-byte units of those memories (R431). -/
  ramBad : List Nat
  /-- Memory accesses in progress at the ports, oldest first; the next number; MAP tags that wait for a late response
  (R450). -/
  txns : List Txn
  nextId : Nat
  deadTags : List (Nat × Bool × Nat)
  /-- Write buffers of the TAPs, oldest first, and the first cycle in which a TAP takes another unit (R448). -/
  tapw : List TapOut
  mwNext : NMap
  /-- The Lathe plane (R154-R177). -/
  lathe : Lathe
  /-- Operations, packets, channel slots of the NIs (R119-R149). -/
  ops : List Op
  reqs : List Req
  sslots : List SendSlot
  rslots : List RecvSlot
  /-- Generation counters of outstanding-table entries (R145), by endpoint * 4096 + entry. -/
  gens : NMap
  /-- Caches of rank entries and path sets, and of sync-map entries (R123, R285), by endpoint, newest first. -/
  rankC : List (Nat × List (Nat × Nat))
  pathC : List (Nat × List (Nat × Nat))
  smapC : List (Nat × List (Nat × Nat))
  /-- Blank-pool buffers in use, by endpoint * 4 + pool (R141). -/
  blank : List (Nat × List Nat)
  /-- Spill slots in use (R140). -/
  spills : List Nat
  /-- Hold buffers of queue-targeted multicasts (R191). -/
  holds : List Hold
  /-- Relay queues, oldest first, as endpoint and relayed packet (R196); hold numbers whose retry is being read, with the
  target. -/
  relayq : List (Nat × Pkt)
  /-- Packets that wait for a path set (R125). -/
  farq : List FarReq
  /-- Requests at the TAPs that are not answered (R444). -/
  tapq : List TapReq
  /-- Core queues: messages, records being landed, credit updates owed, rotation pointers by endpoint * 4 + core (R331). -/
  smsgs : List SMsg
  rlands : List RLand
  lazies : List Lazy
  selPtr : NMap
  /-- Accesses made in several packets, and accumulates (R234). -/
  bigs : List Big
  accJobs : List AccJob
  /-- The Bowl store: directory and slots (R236-R242); events for collective engines; the plan-writer request: ring, command, attempts lost, notch of the next; the
  grant pointers (R245), by bank, 4 for the plan writer. -/
  bents : List BEnt
  bslots : List BSlot
  ownAns : List ColEv
  pwReq : Option (Nat × Nat × Nat × Nat)
  clmPtr : NMap
  /-- The last grant of each pool, as cycle and notch (R243). -/
  clmLast : List (Nat × Nat × Nat)
  /-- Priorities in effect where a shadow copy differs (R246), by address. -/
  clmEff : List (Nat × Word)
  /-- Collectives (R254-R277): group records, collectives in queue order, READY and GDONE records, member lists being
  searched for a chip, trackers in order of
  use, oldest first, and result WRITEs with counts seen at MAP NIs, as MAP, address and AUX (R267). -/
  colrecs : List ColRec
  colls : List Coll
  readys : List Ready
  scans : List Scan
  trackers : List Tracker
  auxSeen : List (Nat × Nat × Nat)
  /-- Token buckets that are not full or in a run, by endpoint * 4 + class (R148). -/
  buckets : List (Nat × Bucket)
  /-- Next PSN of an endpoint (R363). -/
  psns : NMap
  /-- Commands fetched by the Headstock, by ring (R373); its watch slots in use and their generations (R383). -/
  rings : List (Nat × List Cmd)
  /-- TAIL of a ring when its commands were squashed: those not fetched by then are squashed as they come (R386). -/
  squashTo : NMap
  hwatch : List HWatch
  hgens : NMap
  /-- Accesses on their way to node and port blocks (R454). -/
  accs : List CfgAcc
  /-- The access that the host has raised while RST_N was low or the block initialised: write, address and data (R454). -/
  cfgWait : Option (Bool × Nat × Nat)
  /-- The last access that has come over the CFG crossing: write, address and data (R410); the maintenance port (R438, R457). -/
  cfgVal : Bool × Nat × Nat
  jtag : Jtag
  /-- CFG_RDATA and CFG_STATUS while CFG_ACK is 1 (R453). -/
  cfgAck : Option (Word × Nat)
  /-- Semaphores that are not all zero, by unit * 1024 + index (R281); watches in registration order; notification
  queues (R293); barriers and realign slots. -/
  sems : NMap
  watches : List Watch
  ntfq : List (Nat × Nat)
  bars : List Bar
  realigns : List Realign
  /-- ARMED watch slots of the NIs (R297). -/
  armed : List Armed
  /-- Links, by exit port; packets at exit port blocks; retransmit entries; the arrival filter (R336-R370). -/
  links : List (Nat × LinkPort)
  asms : List Asm
  exits : List ExitPkt
  rtx : List RtxEnt
  /-- Packets of a link that are being injected (R345, R364). -/
  injecting : List InjPkt
  filt : List FiltEnt
  /-- The Key Store and the fuse key (R433, R434). -/
  keys : List KeySlot
  fuse : Nat
  /-- Start-up (R412, R413, R417): 0 in service, 1 RST_N low, 2 initialising, 3 stopped with the clock of the
  configuration/Headstock domain. -/
  boot : Nat
  gov : Gov
  /-- The domain transition of a command and the router drain that run, commands of either kind that wait, in order, and of
automatic power-up the transitions under way and the domains it has still to bring up (R397, R416, R417). -/
  trans : Option Trans
  autos : List Trans
  drain : Option Drain
  transq : List (Nat × Nat)
  upq : List Nat
  /-- The notch of the last switch change; domains whose PSW_EN is high, and domains whose ISO_EN is low (R402-R407). -/
  lastSw : Option Nat
  pswEn : List Nat
  isoLow : List Nat
  /-- Valid rank entries that name a core of this die, by 4 * node + core (R122). -/
  rankCnt : NMap
  /-- Crossings held (R412, R414). -/
  xheld : List XHold
  /-- What has been driven at the ports, oldest first. -/
  out : List PortOut
  /-- Free values drawn so far. -/
  free : Nat
  /-- Commands waiting, first in first out. -/
  pending : List Instr
  deriving DecidableEq, Repr

/-- The block of a given build right after RST_N has been released: its configuration domain initialises (R417). -/
def State.resetOf (b : Build) : State :=
  { build := b
    regs := []
    cyc := 0
    tmo := 0
    sub := 0
    spn := Spindle.reset
    tlm := []
    snapTlm := []
    snapDepth := []
    trace := []
    traceq := []
    probing := []
    mirAt := 0
    snapDue := none
    traceAt := 0
    postLeft := none
    reports := []
    log := []
    pendTurn := false
    paceEdge := 0
    wires := []
    buf := []
    cur := []
    own := []
    owed := []
    crw := []
    rr := []
    refl := []
    burl := []
    -- QB, PB and SN of the Headstock station face node (0, 0), whose domain is Dark: OFF (R395)
    injSt := [(0x100004, 3), (0x10000A, 3), (0x10001C, 3)]
    sendq := []
    rx := []
    arrivals := []
    ram := []
    ramBad := []
    txns := []
    nextId := 0
    deadTags := []
    tapw := []
    mwNext := []
    lathe := Lathe.reset
    ops := []
    reqs := []
    sslots := []
    rslots := []
    gens := []
    rankC := []
    pathC := []
    smapC := []
    blank := []
    spills := []
    holds := []
    relayq := []
    farq := []
    tapq := []
    smsgs := []
    rlands := []
    lazies := []
    selPtr := []
    bigs := []
    accJobs := []
    bents := []
    bslots := []
    ownAns := []
    pwReq := none
    clmPtr := []
    clmLast := []
    clmEff := []
    colrecs := []
    colls := []
    readys := []
    scans := []
    trackers := []
    auxSeen := []
    buckets := []
    psns := []
    rings := []
    squashTo := []
    hwatch := []
    hgens := []
    accs := []
    cfgWait := none
    cfgVal := (false, 0, 0)
    jtag := Jtag.reset
    cfgAck := none
    sems := []
    watches := []
    ntfq := []
    bars := []
    realigns := []
    armed := []
    links := []
    asms := []
    exits := []
    rtx := []
    injecting := []
    filt := []
    keys := []
    fuse := 0
    boot := 2
    gov := ⟨0, 0, 0, 64⟩
    trans := none
    autos := []
    drain := none
    transq := []
    upq := []
    lastSw := none
    pswEn := []
    isoLow := []
    rankCnt := []
    xheld := []
    out := []
    free := 0
    pending := [] }

/-- The machine right after reset: the reference Configuration A die 0 (R24, R460). -/
def State.reset : State := State.resetOf (referenceA false)

end Sys2Proof.Machine
end

