-- ==== Sys2Proof/Machine/Ops.lean ====
section
/-! DEFINITION. The shared operations over the register file, the clocks, the error log and the ports. -/
namespace Sys2Proof.Machine

/-! ### Status codes (R7) -/

def stOK : Nat := 0
def stTIMEOUT : Nat := 1
def stROUTE : Nat := 2
def stDOMAIN_OFF : Nat := 3
def stPOISON : Nat := 4
def stNOPOOL : Nat := 5
def stEPOCH : Nat := 6
def stDENIED : Nat := 7
def stPEER_GONE : Nat := 8
def stUNDERFLOW : Nat := 9
def stOVERFLOW : Nat := 10
def stCLAIM : Nat := 11
def stSQUASHED : Nat := 12
def stSPINDLE : Nat := 13
def stBADCMD : Nat := 14
def stINTERNAL : Nat := 15

/-- The status of an event that the spec has logged without naming a status: a free value (log 15). -/
def openSt (k : Nat) : Nat := (Config.openStatus k).toNat

namespace State

/-! ### Register words and fields -/

/-- The stored word of a register. -/
def word (s : State) (a : Nat) : Word := (mapGet s.regs a).getD (resetWord s.build a)

/-- The state with a register word stored. -/
def setWord (s : State) (a : Nat) (w : Word) : State :=
  { s with regs := mapSet s.regs (resetWord s.build a) a w }

/-- A field of the register at `base + f.off`. -/
def get (s : State) (base : Nat) (f : Fld) : Nat := wordField (s.word (base + f.off)) f.lo f.w

/-- The state with that field holding `v`. -/
def set (s : State) (base : Nat) (f : Fld) (v : Nat) : State :=
  s.setWord (base + f.off) (setWordField (s.word (base + f.off)) f.lo f.w v)

/-- A one-bit field as a truth value. -/
def flag (s : State) (base : Nat) (f : Fld) : Bool := s.get base f == 1

/-- A counter raised by `n`, saturating at all ones (R118). -/
def bump (s : State) (base : Nat) (f : Fld) (n : Nat) : State :=
  s.set base f (min (s.get base f + n) (2 ^ f.w - 1))

/-! ### Time -/

/-- The notch count of R36. -/
def notchCount (s : State) : Nat := s.spn.turn * 2048 + s.spn.notch

/-- The TS field of a packet injected now (R45). -/
def ts (s : State) : Nat := s.notchCount % 65536

/-- The Spindle is in RUN. -/
def running (s : State) : Bool := s.get 0 F.SPN_STAT_STATE == 2

/-- The notch count at which a timer of `t` notches started now expires (R45). -/
def deadline (s : State) (t : Nat) : Nat := s.tmo + t + 1

/-- The level L of a class at an NI (NI_THR_STAT). The station has no throttle register; its level is 0. -/
def thrLevel (s : State) (ep cls : Nat) : Nat := wordField (s.word (niBase ep + 0x1010)) (3 * cls) 3

/-- What every token bucket gains in `n` cycles: at most up to full (R148). -/
def fillBuckets (s : State) (n : Nat) : State :=
  let gain := fun (k : Nat) => n * (64 * s.get 0 F.GOV_STAT_B / 2 ^ s.thrLevel (k / 4) (k % 4))
  { s with buckets := (s.buckets.map (fun e => (e.1, { e.2 with spent := e.2.spent - gain e.1 }))).filter (fun e => e.2 != ⟨0, 0⟩) }

/-- RTR_QDEPTH words that are not zero, by address; filler flits are no flits held (R105, R423). -/
def depthWords (s : State) : NMap :=
  s.buf.foldl (fun m kb =>
    let o := kb.1 / 8
    let vc := kb.1 % 8
    if 5 ≤ o % 6 then m
    else
      let a := nodeBase (o / 30) + 0xD00 + 8 * (5 * (o / 6 % 5) + o % 6) + 4 * (vc / 4)
      mapSet m 0 a (nget m 0 a + (kb.2.filter (fun f => !f.fill)).length * 256 ^ (vc % 4))) []

/-- The snapshot copies of the units of one half are taken (R424). -/
def snapUnits (s : State) (east : Bool) : State :=
  let there := fun (a : Nat) => (match locate s.build a with
    | .node n _ => s.build.east (s.build.col n)
    | _ => false) == east
  { s with
    snapTlm := (s.tlm.filter (fun e => there e.1)).foldl (fun m e => mapPut m e.1 e.2) (s.snapTlm.filter (fun e => !there e.1))
    snapDepth := (s.depthWords.filter (fun e => there e.1)).foldl (fun m e => mapPut m e.1 e.2) (s.snapDepth.filter (fun e => !there e.1)) }

/-- The East units take their copies when the cycle after the edge is over (R40, R424). -/
def snapEast (s : State) (c : Nat) : State :=
  match s.snapDue with
  | none => s
  | some d => if d < c then { s.snapUnits true with snapDue := none } else s

/-- Time has come to cycle `c`: the token buckets fill. While the Spindle is not in RUN, eight cycles count as a notch for timeouts (R4, R45, R52); the
cycle within the notch reads zero while EN is 0 (R55). -/
def passCyc (s : State) (c : Nat) : State :=
  let n := c - s.cyc
  let s := (s.snapEast c).fillBuckets n
  let s := { s with
    cyc := s.cyc + n
    spn := { s.spn with phase := if s.flag 0 F.SPN_CTL_EN then min 7 (s.spn.phase + n) else 0 } }
  if s.running then { s with sub := 0 } else { s with sub := (s.sub + n) % 8, tmo := s.tmo + (s.sub + n) / 8 }

/-- Time has come to notch `d` of the timeout clock, of 8 cycles each (R36); while the Spindle is not in RUN the cycle count moves
with it (R4). -/
def passTo (s : State) (d : Nat) : State :=
  if s.running then { s.fillBuckets (8 * (d - s.tmo)) with tmo := max s.tmo d }
  else if d ≤ s.tmo then s else { s.passCyc (s.cyc + (8 * (d - s.tmo) - s.sub)) with tmo := d, sub := 0 }

/-- A fresh number for the model's free values. -/
def drawFree (s : State) : State := { s with free := s.free + 1 }

/-! ### Ports -/

/-- The state with one more thing driven at a port. -/
def drive (s : State) (o : PortOut) : State := { s with out := s.out ++ [o] }

/-! ### Domains and halves (R26, R395) -/

/-- RST_N is low, or the clock of the configuration/Headstock domain has stopped: nothing but the reset acts (R412, R413). -/
def stopped (s : State) : Bool := s.boot == 1 || s.boot == 3

/-- State of a power domain: 0 Dark, 1 Umbra, 2 Penumbra, 3 Lit (R420). -/
def dom (s : State) (d : Nat) : Nat := bitsOf (s.word (0xA10 + 4 * (d / 16))).toNat (2 * (d % 16)) 2

/-- The state with a domain's state set. -/
def setDom (s : State) (d v : Nat) : State :=
  let a := 0xA10 + 4 * (d / 16)
  s.setWord a (setWordField (s.word a) (2 * (d % 16)) 2 v)

/-- The domain's logic runs: Lit or Penumbra (R395). -/
def domOn (s : State) (d : Nat) : Bool := 2 ≤ s.dom d

/-- The router and NI of a node run. -/
def nodeOn (s : State) (n : Nat) : Bool := n < s.build.nodes && s.domOn (s.build.nodeDom n)

/-- A port block's station side runs. -/
def portOn (s : State) (p : Nat) : Bool := s.build.portKind p != 0 && s.domOn (s.build.portDom p)

/-- A sync unit runs. -/
def unitOn (s : State) (u : Nat) : Bool := u < s.build.units && s.domOn u

/-- The NI of an endpoint runs. The Headstock station is in the configuration domain. -/
def epOn (s : State) (ep : Nat) : Bool :=
  if ep < 0xF00 then s.build.epBuilt ep && s.nodeOn ep
  else if ep == 0xF7E then true
  else if ep < 0xF7E then s.portOn (ep - 0xF00)
  else s.unitOn (ep - 0xF80)

/-- The half that holds a column is in reset (R416). -/
def halfReset (s : State) (east : Bool) : Bool :=
  s.flag 0 (if east then F.PWR_STAT_ERST else F.PWR_STAT_WRST)

/-! ### Reports (R428, R432) -/

/-- The RAS severity counters of R432: 1 corrected, 2 contained, 3 fatal, 0 none. -/
def severity (cls status detail : Nat) : Nat :=
  if cls == 3 || cls == 0x1A || (cls == 0x16 && (detail % 256 == 1 || detail % 256 == 2)) then 3
  else if cls == 1 then 1
  else if cls == 2 || cls == 7 || status == stPOISON then 2
  else 0

/-- The event's severity counted, and a fatal event raised at once (R432). -/
def countSeverity (s : State) (sev n : Nat) : State :=
  if sev == 1 then s.bump 0 F.ERR_CE_CNT_COUNT n
  else if sev == 2 then s.bump 0 F.ERR_UCE_CNT_COUNT n
  else if sev == 3 then (s.bump 0 F.ERR_FATAL_CNT_COUNT n).set 0 F.ERR_STAT_FATAL 1
  else s

/-- A completion with status POISON is a contained event (R432). -/
def completion (s : State) (st : Nat) : State := if st == stPOISON then s.countSeverity 2 1 else s

/-- A unit reports an event: a pending report of the same class and source takes it in (R428). `src` is kind * 8192 +
index. -/
def report (s : State) (cls src status detail : Nat) : State :=
  let now := s.notchCount
  let s := s.countSeverity (severity cls status detail) 1
  let mine := fun (r : Report) => r.cls == cls && r.src == src
  if s.reports.any mine then
    { s with reports := updFirst mine (fun r => { r with count := r.count + 1, last := now }) s.reports }
  else { s with reports := s.reports ++ [⟨cls, src, status, 1, now, now, detail, s.cyc⟩] }


end State

/-! ### Sources of reports (R428) -/

/-- Node block n. -/
def srcNode (n : Nat) : Nat := n
/-- Port block p. -/
def srcPort (p : Nat) : Nat := 0x2000 + p
/-- Sync unit u. -/
def srcUnit (u : Nat) : Nat := 0x4000 + u
/-- A global unit. -/
def srcGlob (g : Nat) : Nat := 0x6000 + g
/-- Headstock ring r. -/
def srcRing (r : Nat) : Nat := 0x8000 + r
/-- A CFG (0) or DBG (1) access. -/
def srcAcc (d : Nat) : Nat := 0xA000 + d
/-- The NI of an endpoint. -/
def srcEp (ep : Nat) : Nat := if ep < 0xF00 then srcNode ep else srcPort (ep - 0xF00)

namespace State

/-- An error bit of a unit set, and the event reported with the bit's number in DETAIL (R428). -/
def errBit (s : State) (base : Nat) (f : Fld) (cls src status obj : Nat) : State :=
  (s.set base f 1).report cls src status (f.lo + 256 * obj)

end State
/-- A state reached from `s`: the commands that wait and what the block is built of are outside every command's effect. -/
def State.within (s t : State) : State := { t with pending := s.pending, build := s.build }

/-- The outcome of an effect at a part of the block: a part that cannot act leaves everything as it is. -/
def act (on : Bool) (s : State) (f : State → State) : Host.Outcome State Fault Refusal := .next (if on then s.within (f s) else s)

end Sys2Proof.Machine
end

