-- ==== Sys2Proof/Machine/Mesh.lean ====
section
/-! DEFINITION. The mesh between the rows of the table: links and their ends, source routes (R87-R92, R178-R180), output
states (R109), credits (R73-R75), the launching of flits, and delivery at endpoints. -/
namespace Sys2Proof.Machine

/-! ### Names of links and buffers -/

/-- The output (n, plane, port) of a router, which is also the name of the link it drives. Port 5 is the second Local
output toward a sync unit (R15). -/
def outKey (n pl port : Nat) : Nat := (n * 5 + pl) * 6 + port

/-- The link by which an endpoint injects into the input (n, plane, port). -/
def epLink (n pl port : Nat) : Nat := 0x100000 + outKey n pl port

/-- The VC buffer of an input. -/
def inKey (n pl port vc : Nat) : Nat := outKey n pl port * 8 + vc

/-- The name under which CFG packets reach the registers of node block n (R68). -/
def blockEp (n : Nat) : Nat := 0x10000 + n

/-- The state of the Local output toward sync unit u is kept under this name. -/
def unitOut (u : Nat) : Nat := 0x200000 + u

/-- The failure of the Local input or output of sync unit u is kept under this name (log 19). -/
def unitFail (u : Nat) (out : Bool) : Nat := 0x300000 + 2 * u + bit out

/-- The plane of a link. -/
def linkPlane (link : Nat) : Nat := (if 0x100000 ≤ link then link - 0x100000 else link) / 6 % 5

/-- Flits that a link carries in one cycle (R57, R61). -/
def perCycle (b : Build) (link : Nat) : Nat := if b.isS && linkPlane link ≤ 1 then 2 else 1

/-- The link that feeds a router input. -/
def feed (b : Build) (n pl port : Nat) : Nat :=
  if 1 ≤ port && port ≤ 4 then
    match b.neighbour n port with
    | some m => outKey m pl (Build.opposite port)
    | none => epLink n pl port
  else epLink n pl port

/-- What stands at the far end of an output. -/
inductive Dest where
  | router (n port : Nat)
  | ep (e : Nat)
  | nowhere
  deriving DecidableEq, Repr

/-- The far end of output (n, plane, port). -/
def outDest (b : Build) (n pl port : Nat) : Dest :=
  if port == 0 then (if pl == pCQ then .ep (blockEp n) else if b.isS then .nowhere else .ep n)
  else if port == 5 then (match b.unitAt n with | some u => .ep (0xF80 + u) | none => .nowhere)
  else match b.neighbour n port with
    | some m => .router m (Build.opposite port)
    | none =>
      let p := b.stationOn n port
      if p == 127 then .nowhere else .ep (0xF00 + p)

/-! ### Routes (R87-R92, R178-R180) -/

/-- The route moves in X first: XY order (R87), or a column multicast (R92). -/
def xFirst (pl vc : Nat) : Bool := 2 ≤ pl || vc == 0 || vc == 4 || vc == 6 || vc == 3

/-- The pseudo-port of R88 that every bad exit names: a disabled port. -/
def noPort : Nat := 6

/-- The output at the destination node (R88, R89). -/
def exitAt (b : Build) (n pl : Nat) (h : Hdr) : Nat :=
  if h.exitp == 127 then
    (if pl == pSN then
      (if h.ptype == tSYNC_OP then (if (b.unitAt n).isSome then 5 else noPort)
       else if b.isS then noPort else 0)
     else if b.isS && pl ≤ 1 then noPort else 0)
  else if h.exitp == 126 && n == 0 then 4
  else if h.exitp == b.stationOn n 1 then 1
  else if h.exitp == b.stationOn n 2 then 2
  else if h.exitp == b.stationOn n 3 then 3
  else if h.exitp == b.stationOn n 4 then 4
  else noPort

/-- The next output of a unicast route at node n (R87, R88, R180). -/
def unicastOut (b : Build) (n pl : Nat) (h : Hdr) : Nat :=
  let c := b.col n
  let r := b.row n
  let x := if h.dcol > c then some 2 else if h.dcol < c then some 4 else none
  let y := if h.drow > r then some 3 else if h.drow < r then some 1 else none
  match (if xFirst pl h.vcn then x.orElse (fun _ => y) else y.orElse (fun _ => x)) with
  | some p => p
  | none => exitAt b n pl h

/-- The packet branches (R178). -/
def branching (pl : Nat) (h : Hdr) : Bool := pl ≤ 1 && (h.vcn == 2 || h.vcn == 3) && h.exitp == 127

/-- The outputs that a branching packet feeds at node n from an input (R179). -/
def branchOuts (b : Build) (n : Nat) (h : Hdr) (inp : Nat) : List Nat :=
  let rowMc := h.vcn == 2
  let pos := if rowMc then b.col n else b.row n
  let off := if rowMc then b.row n else b.col n
  let lo := if rowMc then h.dcol else h.drow
  let line := if rowMc then h.drow else h.dcol
  let hi := lo + h.span
  let up := if rowMc then 2 else 3      -- toward higher positions
  let down := if rowMc then 4 else 1
  if off != line then
    (if rowMc then (if line > off then [3] else [1]) else (if line > off then [2] else [4]))
  else
    let loc := if lo ≤ pos && pos ≤ hi && inp != 0 then [0] else []
    let u := if pos < hi && inp != up then [up] else []
    let d := if lo < pos && inp != down then [down] else []
    (loc ++ u ++ d).filter (fun p => p == 0 || (b.neighbour n p).isSome)

/-- The route of R91 is legal from the input the packet came in by. At an input that faces a ring station a packet has
made no turn, and only a reversal breaks the rule (DEDUCED, log 9). -/
def routeLegal (b : Build) (n pl inp : Nat) (h : Hdr) (out : Nat) : Bool :=
  if inp == 0 || 4 < inp then true
  else if out == inp then false
  else if (b.neighbour n inp).isNone then true
  else if (inp == 1 || inp == 3) && xFirst pl h.vcn && h.dcol != b.col n then false
  else if (inp == 2 || inp == 4) && !xFirst pl h.vcn && h.drow != b.row n then false
  else true

/-- The format and length rules of a REDUCE packet with `len` payload bytes (R202, R203, R224); others have none. -/
def reduceLegal (h : Hdr) (len : Nat) : Bool :=
  if h.ptype == tREDUCE then h.opc < 32 && h.opc % 16 ≤ 8 &&
    (if h.flag fESC then len == 128 else len % groupBytes (h.opc % 16) == 0) else true

/-- The type, plane, class and length rules that a first receiver checks (R67, R68, R224). A packet whose LEN exceeds the limit of its
class, which no source may inject (R70), counts as one of a bad type (DESIGN CHOICE, log 37). -/
def typeLegal (pl : Nat) (h : Hdr) : Bool :=
  planeOf h.ptype == some pl &&
  (if 2 ≤ pl then h.len == 0 || h.len == 32
   else classAllowed h.ptype (classOf h.vcn) && h.len ≤ classMax (classOf h.vcn)) && reduceLegal h h.len

/-- What a router does with flit 0. -/
inductive RouteRes where
  | badType
  | badRoute
  | outs (ps : List Nat)
  deriving DecidableEq, Repr

/-- The route of a packet at node n from an input. -/
def routeOf (b : Build) (n pl inp : Nat) (h : Hdr) : RouteRes :=
  if !typeLegal pl h then .badType
  else if branching pl h then
    let os := branchOuts b n h inp
    if os.all (fun o => routeLegal b n pl inp h o) then .outs os else .badRoute
  else
    let o := unicastOut b n pl h
    if routeLegal b n pl inp h o then .outs [o] else .badRoute

/-- Word address of a stream entry, and of a launch entry (R164). -/
def streamAt (ep bk i : Nat) : Nat := niBase ep + 0x3200 + 0x100 * bk + 0x20 * i
def launchAt (ep bk k : Nat) : Nat := niBase ep + 0x3400 + 0x400 * bk + 4 * k

namespace State

/-! ### Telemetry counters (R421) -/

/-- A telemetry counter raised by one; it wraps and sets OVF. -/
def tlmBump (s : State) (a : Nat) : State :=
  let t := (mapGet s.tlm a).getD ⟨0, false⟩
  let c := t.cnt + 1
  { s with tlm := mapSet s.tlm ⟨0, false⟩ a (if c == 2 ^ 48 then ⟨0, true⟩ else ⟨c, t.ovf⟩) }

/-! ### Output states (R109) and credits (R73-R75) -/

/-- The state field of an output in RTR_OUT. -/
def rtrOut (s : State) (n port : Nat) : Nat := wordField (s.word (nodeBase n + 8)) (3 * port) 3

/-- RTR_OUT with one output's state set. -/
def setRtrOut (s : State) (n port v : Nat) : State :=
  s.setWord (nodeBase n + 8) (setWordField (s.word (nodeBase n + 8)) (3 * port) 3 v)

/-- The far side of a mesh port lies in a half in reset (R21). -/
def seamFenced (s : State) (n port : Nat) : Bool :=
  match s.build.neighbour n port with
  | some m => s.build.seam n m && s.halfReset (s.build.east (s.build.col m))
  | none => false

/-- An input or output of a router has failed (R106, R107): its bit of RTR_FAIL_IN or RTR_FAIL_OUT. The second Local port of SN
has no bit there (R118), and its failure is kept beside them (DESIGN CHOICE, log 19). -/
def failed (s : State) (out : Bool) (n pl port : Nat) : Bool :=
  if port == 5 then (match s.build.unitAt n with | some u => nget s.injSt 0 (unitFail u out) == 1 | none => false)
  else bitAt (s.get (nodeBase n) (if out then F.RTR_FAIL_OUT_FAIL else F.RTR_FAIL_IN_FAIL)) (5 * pl + port)

/-- An input or output of a router marked as failed. -/
def markFailed (s : State) (out : Bool) (n pl port : Nat) : State :=
  if port == 5 then
    (match s.build.unitAt n with
     | some u => { s with injSt := mapSet s.injSt 0 (unitFail u out) 1 }
     | none => s)
  else
    let f := if out then F.RTR_FAIL_OUT_FAIL else F.RTR_FAIL_IN_FAIL
    s.set (nodeBase n) f (putBits (s.get (nodeBase n) f) (5 * pl + port) 1 1)

/-- The state an output is in for a plane (R109): CQ and CP follow only DISABLED and the seam fence, and the Local output of CQ
leads to the node block itself. -/
def outState (s : State) (n pl port : Nat) : Nat :=
  if port == noPort then 4
  else if s.failed true n pl port then 2
  else if port == 5 then
    (match s.build.unitAt n with | some u => nget s.injSt 0 (unitOut u) | none => 4)
  else if s.seamFenced n port then 2
  else
    let v := s.rtrOut n port
    if pl == pCQ || pl == pCP then (if v == 4 && !(pl == pCQ && port == 0) then 4 else 0) else v

/-- Credits a link holds for a VC. -/
def credits (s : State) (link pl vc : Nat) : Nat := bufSize pl vc - nget s.owed 0 (link * 8 + vc)

/-- Credits taken by launched flits. -/
def takeCredit (s : State) (link vc : Nat) : State :=
  let k := link * 8 + vc
  { s with owed := mapSet s.owed 0 k (nget s.owed 0 k + 1) }

/-- Credits put back on the way to the sender of a link (R73); an endpoint's own injection link takes them at once. -/
def giveCredit (s : State) (link vc n : Nat) : State :=
  let k := link * 8 + vc
  if 0x100000 ≤ link then { s with owed := mapSet s.owed 0 k (nget s.owed 0 k - n) }
  else { s with crw := mapSet s.crw 0 k (nget s.crw 0 k + n) }

/-! ### Buffers -/

/-- Flits held in a VC buffer. -/
def bufOf (s : State) (k : Nat) : List BFlit := (mapGet s.buf k).getD []

/-- The state with a VC buffer replaced. -/
def setBuf (s : State) (k : Nat) (l : List BFlit) : State := { s with buf := mapSet s.buf [] k l }

/-- The router planes' input that a buffer name belongs to, as the link that feeds it. -/
def feedOf (s : State) (k : Nat) : Nat :=
  let o := k / 8
  feed s.build (o / 30) (o / 6 % 5) (o % 6)

/-- Flits at the front of a buffer that every branch has launched leave it and return their credits (R98, R73). -/
def drainFront (s : State) (k : Nat) : State :=
  let l := s.bufOf k
  let gone := (l.takeWhile (fun f => f.todo.isEmpty)).length
  if gone == 0 then s
  else (s.setBuf k (l.drop gone)).giveCredit (s.feedOf k) (k % 8) ((l.take gone).filter (fun f => !f.fill)).length

/-- RTR_QPEAK raised to the depth of a buffer (R423). -/
def notePeak (s : State) (k : Nat) : State :=
  let o := k / 8
  let n := o / 30
  let pl := o / 6 % 5
  let port := o % 6
  let vc := k % 8
  if 5 ≤ port then s
  else
    let a := nodeBase n + 0xE00 + 8 * (5 * pl + port) + 4 * (vc / 4)
    let d := ((s.bufOf k).filter (fun f => !f.fill)).length
    let w := s.word a
    if wordField w (8 * (vc % 4)) 8 < d then s.setWord a (setWordField w (8 * (vc % 4)) 8 d) else s

/-! ### Mirror probes (R425-R427, R458) -/

/-- The 64-bit key of a header unit (R425). -/
def probeKey (h : Hdr) (xv : Nat) : Nat :=
  packFields [(4, h.ptype), (3, h.vcn), (10, h.job), (4, h.ctx), (10, h.chan), (8, h.opc), (8, h.flg), (7, h.exitp), (1, xv)]

/-- The 64-byte trace record of R426, for a launch in the given notch and cycle phase. -/
def traceRecord (notch phase p n pl port : Nat) (pk : Pkt) : List Byte :=
  leBytes (pk.hdr.toBits) 32 ++ leBytes notch 4 ++
  leBytes (packFields [(3, phase), (4, p)]) 1 ++ leBytes (packFields [(13, n), (3, pl)]) 2 ++
  leBytes (port % 8) 1 ++
  (if pk.ext.xv == 1 then leBytes pk.ext.toBits 24 else (pk.pay ++ List.replicate 24 0).take 24)

/-- A trace record written to the buffer under MIR_CTL.TRMODE, with the index it took (R426, R427, R458). -/
def writeTrace (s : State) (r : List Byte) : State :=
  let mode := s.get 0 F.MIR_CTL_TRMODE
  if mode == 0 || s.flag 0 F.MIR_STAT_STOPPED then s
  else
    let full := s.trace.length == 4096
    if full && mode == 3 then s.bump 0 F.MIR_DROP_COUNT 1
    else if full && mode == 2 then s
    else
      let wr := s.get 0 F.MIR_STAT_WR
      let t := if full then s.trace.drop 1 ++ [r] else s.trace ++ [r]
      let s := { s with trace := t, mirAt := if s.trace.isEmpty then max s.mirAt s.cyc else s.mirAt }
      let s := s.set 0 F.MIR_STAT_WR ((wr + 1) % 4096)
      let s := s.set 0 F.MIR_STAT_FULL (bit (t.length == 4096))
      let s := if mode == 2 && t.length == 4096 then s.set 0 F.MIR_STAT_STOPPED 1 else s
      match s.postLeft with
      | none => s
      | some 0 => s
      | some (k + 1) =>
        let s := { s with postLeft := some k }
        if k == 0 then s.set 0 F.MIR_STAT_STOPPED 1 else s

/-- A probe's trigger (R427): further triggers have no effect until TRIG is cleared. -/
def trigger (s : State) (p idx : Nat) : State :=
  if s.flag 0 F.MIR_STAT_TRIG then s
  else
    let s := s.set 0 F.MIR_STAT_TRIG 1
    let s := s.set 0 F.MIR_STAT_TRIGREC idx
    let post := s.get 0 F.MIR_CTL_POST
    let s := { s with postLeft := some post }
    let s := if post == 0 then s.set 0 F.MIR_STAT_STOPPED 1 else s
    s.report 0x19 (srcGlob 6) stOK (0xFF + 256 * p)

/-- The trace buffer takes the oldest record of the lowest-numbered probe that has one (R426); a record that triggers does so
with the index that it took. -/
def traceTake (s : State) : State :=
  match s.traceq.foldl (fun (m : Option TraceEnt) e => match m with
      | some x => if e.probe < x.probe then some e else m
      | none => some e) none with
  | none => s
  | some e =>
    let idx := s.get 0 F.MIR_STAT_WR
    let s := { s with traceq := delFirst (fun x => x == e) s.traceq, traceAt := max s.traceAt (e.at' + 1) + 1 }
    let s := s.writeTrace e.rec'
    if e.trig then s.trigger e.probe idx else s

/-- In mode 3 the trace output sends the oldest record of the FIFO as eight beats, one a cycle, while MIR_TREADY is high, as the model
takes it to be (DESIGN CHOICE, log 42): record by record up to the present cycle; `k` bounds how many (R426, R458). -/
def streamRun (s : State) : Nat → State
  | 0 => s
  | k + 1 =>
    match s.trace with
    | [] => s
    | r :: rest =>
      if s.get 0 F.MIR_CTL_TRMODE != 3 || s.cyc < s.mirAt then s
      else
        let beats := (upFrom 0 8).map (fun i => PortOut.traceBeat ((r.drop (8 * i)).take 8) (i == 7))
        State.streamRun (State.set { s with trace := rest, mirAt := s.mirAt + 8, out := s.out ++ beats } 0 F.MIR_STAT_FULL 0) k

/-- The trace buffer has taken one record in each cycle since; `k` bounds how many. A record is taken in a cycle after the one of its match
(DESIGN CHOICE within the 256 cycles of R426, log 20). -/
def traceRun (s : State) : Nat → State
  | 0 => s
  | k + 1 =>
    if s.traceq.any (fun e => e.at' < s.cyc) && s.traceAt ≤ s.cyc then s.traceTake.traceRun k else s

/-- The trace path and the trace output up to the present cycle. -/
def traceGo (s : State) : State :=
  let s := if s.traceq.isEmpty then s else s.traceRun 64
  if s.trace.isEmpty then s else s.streamRun 4096

/-- A record enters its probe's queue of four, or is dropped and counted (R426). A probe matches once in a cycle: a second record of it
in one cycle of the model comes in a cycle of its own, before which the buffer has taken one (DESIGN CHOICE, log 20). -/
def traceIn (s : State) (e : TraceEnt) : State :=
  let s := s.traceRun 64
  let s := if s.traceq.any (fun x => x.probe == e.probe && x.at' == e.at') then s.traceTake else s
  if 4 ≤ (s.traceq.filter (fun x => x.probe == e.probe)).length then
    -- the match triggers even though its record is lost (R425)
    let s := s.bump 0 F.MIR_DROP_COUNT 1
    if e.trig then s.trigger e.probe (s.get 0 F.MIR_STAT_WR) else s
  else { s with traceq := s.traceq ++ [e] }

/-- Probe p watches the dynamic packets of an output (R425). -/
def probeOn (s : State) (n pl port p : Nat) : Bool :=
  let loc := s.word (0xE00 + 0x20 * p)
  wordField loc 19 1 == 1 && wordField loc 22 1 == 0 && wordField loc 0 13 == n && wordField loc 13 3 == pl && wordField loc 16 3 == port

/-- Probe p tests a packet whose flit 0 was launched on an output in the given notch and phase (R425). -/
def probeOne (n pl port notch phase : Nat) (pk : Pkt) (s : State) (p : Nat) : State :=
  let base := 0x20 * p
  let loc := s.word (0xE00 + base)
  if !s.probeOn n pl port p then s
  else
    let v := (s.word (0xE04 + base)).toNat + 2 ^ 32 * (s.word (0xE08 + base)).toNat
    let m := (s.word (0xE0C + base)).toNat + 2 ^ 32 * (s.word (0xE10 + base)).toNat
    if Nat.land (Nat.xor (probeKey pk.hdr pk.ext.xv) v) m != 0 then s
    else
      let s := s.tlmBump (0xE14 + base)
      let trig := wordField loc 21 1 == 1
      if wordField loc 20 1 == 1 then s.traceIn ⟨p, s.cyc, traceRecord notch phase p n pl port pk, trig⟩
      else if trig then s.trigger p (s.get 0 F.MIR_STAT_WR) else s

/-- All sixteen probes. -/
def probe (s : State) (n pl port notch phase : Nat) (pk : Pkt) : State :=
  (upFrom 0 16).foldl (probeOne n pl port notch phase pk) s

/-- A packet of `flits` flits launches its flit 0 on an output. On the wide planes that flit holds the header unit; on the narrow
planes the probes wait for it, and for the bytes that a record shows, as the flits follow (R58, R425). -/
def probeLaunch (s : State) (n pl port vc : Nat) (pk : Pkt) (flits : Nat) : State :=
  if pl ≤ 1 then s.probe n pl port s.notchCount s.spn.phase pk
  else if (upFrom 0 16).any (s.probeOn n pl port) then
    { s with probing := mapPut s.probing (8 * outKey n pl port + vc) ⟨s.notchCount, s.spn.phase, min 7 flits, []⟩ }
  else s

/-- A flit of a packet on a narrow plane has left on an output whose probes wait for it (R425). -/
def probeFlit (s : State) (link : Nat) (f : Flit) : State :=
  let k := 8 * link + f.vc
  match mapGet s.probing k with
  | none => s
  | some w =>
    let seen := w.seen ++ [(f.data, f.bad)]
    if seen.length < w.need then { s with probing := mapPut s.probing k { w with seen := seen } }
    else
      let pl := link / 6 % 5
      ({ s with probing := mapDel s.probing k }).probe (link / 30) pl (link % 6) w.notch w.phase (Pkt.ofFlits pl seen)

/-- Probes with LT = 1 count a reserved flit on their output (R425). -/
def probeLt (s : State) (n port : Nat) : State :=
  (upFrom 0 16).foldl (fun s p =>
    let loc := s.word (0xE00 + 0x20 * p)
    if wordField loc 19 1 == 1 && wordField loc 22 1 == 1 && wordField loc 0 13 == n && wordField loc 13 3 == pQB &&
        wordField loc 16 3 == port then s.tlmBump (0xE14 + 0x20 * p) else s) s

/-! ### Delivery at endpoints -/

/-- Arrivals of an endpoint. -/
def arrived (s : State) (e : Nat) : List Arrival := (mapGet s.arrivals e).getD []

/-- The state with an endpoint's arrivals replaced. -/
def setArrived (s : State) (e : Nat) (l : List Arrival) : State := { s with arrivals := mapSet s.arrivals [] e l }

/-- The domain that holds an endpoint, or a node block under its name. -/
def destDom (s : State) (e : Nat) : Nat := if 0x10000 ≤ e then s.build.nodeDom (e - 0x10000) else s.build.epDom e

/-- Items discarded at an isolated domain: counted in PWR_XDROP of the block that holds the place, while the domain keeps its
state (R402). -/
def xdrop (s : State) (e k : Nat) : State :=
  if s.dom (s.destDom e) != 1 then s
  else if 0x10000 ≤ e then s.bump (nodeBase (e - 0x10000)) F.PWR_XDROP_COUNT k
  else if e < 0xF00 then s.bump (nodeBase e) F.PWR_XDROP_COUNT k
  else if e < 0xF80 then s.bump (portBase (e - 0xF00)) F.PWR_XDROP_P_COUNT k
  else s.bump (nodeBase (s.build.unitNode (e - 0xF80))) F.PWR_XDROP_COUNT k

/-- A packet handed whole to an endpoint; at a domain that does not run its flits are discarded and counted (R402). -/
def arrive (s : State) (e : Nat) (a : Arrival) : State :=
  if s.domOn (s.destDom e) then s.setArrived e (s.arrived e ++ [{ a with at' := s.cyc }]) else s.xdrop e (flitsOf a.plane a.pkt.hdr.len)

/-- The packet that reserved flits up to TL, or up to the next HD, have brought (R168): where its head is lost, a packet that lacks its
payload, so that it is not written (DESIGN CHOICE, log 38). -/
def lathPkt (got : List Flit) : Pkt :=
  if (got.head?.map (·.hd)).getD false then Pkt.ofFlits pQB (got.map (fun g => (g.data, g.bad)))
  else ⟨{ Hdr.zero with len := 1 }, Ext.none, [], []⟩

/-- A reserved flit reaches an endpoint: HD begins a packet and TL ends it, apart from the framing of dynamic packets (R168). A packet
whose tail is lost ends at the next HD. -/
def deliverLt (s : State) (e link : Nat) (f : Flit) : State :=
  let k := link * 16 + f.vc * 2 + 1
  let had := (mapGet s.rx k).getD []
  let whole := fun (s : State) (got : List Flit) => s.arrive e ⟨link, pQB, f.vc, true, lathPkt got, 0⟩
  let s := if f.hd && !had.isEmpty then whole s had else s
  let got := if f.hd then [f] else had ++ [f]
  if f.tl then whole { s with rx := mapDel s.rx k } got else { s with rx := mapSet s.rx [] k got }

/-- A flit reaches an endpoint (R93): its packet is whole at TL. A narrow packet with a poisoned flit is discarded and
logged (R102). -/
def deliver (s : State) (e link pl : Nat) (f : Flit) : State :=
  if f.lt then s.deliverLt e link f else
  let k := link * 16 + f.vc * 2
  let got := (mapGet s.rx k).getD [] ++ [f]
  if !f.tl then { s with rx := mapSet s.rx [] k got }
  else
    let s := { s with rx := mapDel s.rx k }
    let pk := Pkt.ofFlits pl (got.map (fun g => (g.data, g.bad)))
    if 2 ≤ pl && !pk.bad.isEmpty then
      (s.giveCredit link f.vc got.length).report 2 (if e < 0xF00 || 0x10000 ≤ e then srcNode (e % 0x10000) else
        if 0xF80 ≤ e then srcUnit (e - 0xF80) else srcPort (e - 0xF00)) stPOISON (0xFF + 256 * pl)
    else s.arrive e ⟨link, pl, f.vc, false, pk, 0⟩

/-- An arrival that `p` accepts and that stands at the head of its own link and VC, taken with its credits returned. -/
def takeArrival (s : State) (e : Nat) (p : Arrival → Bool) : Option (Arrival × State) :=
  let l := s.arrived e
  let head := fun (a : Arrival) => match l.find? (fun x => x.link == a.link && x.vc == a.vc && x.lt == a.lt) with
    | some x => x == a
    | none => false
  match l.find? (fun a => p a && head a) with
  | none => none
  | some a =>
    let s := s.setArrived e (delFirst (fun x => x == a) l)
    some (a, if a.lt || 0x100000 ≤ a.link then s else s.giveCredit a.link a.vc (flitsOf a.plane a.pkt.hdr.len))

/-! ### Launching flits -/

/-- The flits of a packet on a plane. -/
def flitsOfPkt (pk : Pkt) (pl vc : Nat) (lt : Bool) : List Flit :=
  let n := flitsOf pl pk.hdr.len
  (upFrom 0 n).map (fun i => ⟨pk.flitData pl i, pk.flitBad pl i, i == 0, i + 1 == n, vc, lt, 0, false, true⟩)

/-- A flit put on an output or injection link. -/
def putFlit (s : State) (link : Nat) (f : Flit) : State :=
  let s := if f.lt then s else s.takeCredit link f.vc
  if 0x100000 ≤ link then { s with wires := mapSet s.wires [] link ((mapGet s.wires link).getD [] ++ [f]) }
  else
    let n := link / 30
    let pl := link / 6 % 5
    let port := link % 6
    let i := 5 * pl + port
    -- the governor counts every flit launched (R150)
    let s := { s with gov := if pl ≤ 1 then { s.gov with wide := s.gov.wide + 1 } else { s.gov with narrow := s.gov.narrow + 1 } }
    let s := if port == 5 then s else s.tlmBump (nodeBase n + 0x800 + 0x10 * i)
    let s := if f.hd && !f.lt && port != 5 then s.tlmBump (nodeBase n + 0x808 + 0x10 * i) else s
    let s := s.probeFlit link f
    match outDest s.build n pl port with
    | .router _ _ => { s with wires := mapSet s.wires [] link ((mapGet s.wires link).getD [] ++ [f]) }
    | .ep e => s.deliver e link pl f
    | .nowhere => s

/-- The next flit of the packet in progress on a link (R71), where it is there to send. -/
def nextFlit (s : State) (link : Nat) : Option (Flit × State) :=
  match mapGet s.own link with
  | none => none
  | some p =>
    if p.fromBuf then
      let n := link / 30
      let port := link % 6
      let k := inKey n (link / 6 % 5) p.port p.vc
      let l := s.bufOf k
      match l.find? (fun f => f.todo.contains port) with
      | none => none
      | some f =>
        let s := s.setBuf k (updFirst (fun (g : BFlit) => g.todo.contains port)
          (fun g => { g with todo := g.todo.filter (· != port) }) l)
        some (f.flit, s.drainFront k)
    else match p.rest with
      | [] => none
      | f :: _ => some (f, s)

/-- One flit more of the packet in progress on a link, in the upper or lower half of its cycle; the last one frees the link, and
a Burl entry with it (R231). -/
def advanceFlit (s : State) (link : Nat) (up : Bool) : State :=
  match mapGet s.own link, s.nextFlit link with
  | some p, some (f, s1) =>
    let s2 := s1.putFlit link { f with up := up }
    if p.left ≤ 1 then
      { s2 with
        own := mapDel s2.own link
        burl := match p.burl with
          | some id => s2.burl.filter (fun e => e.id != id)
          | none => s2.burl }
    else { s2 with own := mapPut s2.own link { p with left := p.left - 1, rest := p.rest.drop 1 } }
  | _, _ => s

/-- Flits that a packet in progress has ready for its link. -/
def flitsReady (s : State) (link : Nat) (p : Progress) : Nat :=
  if p.fromBuf then
    ((s.bufOf (inKey (link / 30) (link / 6 % 5) p.port p.vc)).filter (fun f => f.todo.contains (link % 6))).length
  else p.rest.length

/-- The idle flit of R61 in the upper half of a cycle, toward a receiver that decodes flits: zero data, whose check bytes are zero
too; it uses no credit. -/
def putIdle (s : State) (link vc : Nat) : State :=
  let idle : Flit := ⟨0, false, false, false, vc, false, 0, true, false⟩
  let put := { s with wires := mapSet s.wires [] link ((mapGet s.wires link).getD [] ++ [idle]) }
  if 0x100000 ≤ link then put
  else match outDest s.build (link / 30) (link / 6 % 5) (link % 6) with
    | .router _ _ => put
    | _ => s

/-- One cycle of the packet in progress on a link: its next flit, or in Configuration S on QB and PB its next two, the lower half
carrying flit 2i and the upper half flit 2i + 1 or an idle flit (R61). -/
def advanceOwned (s : State) (link : Nat) : State :=
  match mapGet s.own link with
  | none => s
  | some p =>
    let n := perCycle s.build link
    if s.flitsReady link p < min n p.left then s
    else
      let s := s.advanceFlit link false
      if n == 1 then s else if 2 ≤ p.left then s.advanceFlit link true else s.putIdle link p.vc

/-- The packet entered this die through a port block, so that its replies leave by that port (R78). -/
def entered (pk : Pkt) : Bool := pk.ext.xv == 1 && pk.ext.port < 127

/-- The extension of a reply (R78): DEST and SRC exchanged, with the request's PSN and MEPOCH; it began on this die, so that PORT
is 127 (R77), and the hop list is filled by the exit port block from its own route table. -/
def replyExt (pk : Pkt) : Ext :=
  if entered pk then
    { pk.ext with dest := pk.ext.src, src := pk.ext.dest, seg := 0, hcnt := 0, hops := 2 ^ 42 - 1, slen := 0, port := 127 }
  else Ext.none

/-- The exit port of a reply that stays on the die (R66, R90): 126 for a request of the Headstock, and 127 toward the NI of a node. A
request that is outstanding at the NI of a port block is answered by way of that exit port, where R90 has 127: the table of R145, the
retransmit region of R363 and Configuration S need the reply at the port block, and no field of the header names it (DEDUCED, log 17). -/
def backExit (s : State) (h : Hdr) : Nat :=
  if h.job == 0x3FF && h.scol == 0 && h.srow == 0 then 126
  else match s.reqs.find? (fun q => 0xF00 ≤ q.ep && q.ep < 0xF7E && q.entry.isSome && q.pkt.hdr.tag == h.tag && q.pkt.hdr.ptype == h.ptype &&
      q.pkt.hdr.addr == h.addr && q.pkt.hdr.job == h.job && q.pkt.hdr.ctx == h.ctx && q.pkt.hdr.chan == h.chan &&
      q.pkt.hdr.scol == h.scol && q.pkt.hdr.srow == h.srow) with
    | some q => q.ep - 0xF00
    | none => 127

/-- The NACK of R111 for a request: status `st`, from the given position, on VC and order of the request. -/
def nackFor (s : State) (pk : Pkt) (st n : Nat) : Pkt :=
  let h := pk.hdr
  let b := s.build
  let xvBack := entered pk
  let at' := (b.attach pk.ext.port).getD (0, 0)
  let cq := planeOf h.ptype == some pCQ
  { hdr := { Hdr.zero with
      ptype := tNACK
      vcn := if cq then 0 else h.vcn
      ord := if cq then 0 else h.ord
      dcol := if xvBack then at'.1 else h.scol
      drow := if xvBack then at'.2 else h.srow
      exitp := if xvBack then pk.ext.port else s.backExit h
      scol := b.col n
      srow := b.row n
      job := h.job
      ctx := h.ctx
      chan := h.chan
      seq := h.seq
      opc := st
      tag := h.tag
      addr := h.addr
      aux := h.aux
      ts := s.ts }
    ext := replyExt pk
    pay := []
    bad := [] }

/-- The reflector answers this packet (R110). -/
def reflectable (pl : Nat) (h : Hdr) : Bool :=
  isRequest h.ptype && !(pl ≤ 1 && classOf h.vcn == 1)

/-- NACKs at the head of a reflector's queue whose own route leads into an output that is not OPEN are discarded and counted like
any other reply (R111). -/
def dropRefl (s : State) (n : Nat) : State :=
  let q := (mapGet s.refl n).getD []
  let keep := q.dropWhile (fun pk => s.outState n pPB (unicastOut s.build n pPB pk.hdr) != 0)
  if keep.length == q.length then s
  else ({ s with refl := mapSet s.refl [] n keep }).bump (nodeBase n) F.RTR_DISC_CNT_COUNT (q.length - keep.length)

/-- The reflector of a node takes a request and queues its NACK (R110, R111). -/
def reflect (s : State) (n : Nat) (pk : Pkt) (st : Nat) : State :=
  let s := { s with refl := mapSet s.refl [] n ((mapGet s.refl n).getD [] ++ [s.nackFor pk st n]) }
  (s.bump (nodeBase n) F.RTR_REFL_CNT_COUNT 1).dropRefl n

/-! ### Lathe windows (R155-R163) -/

/-- The slot-table entry of output `port` in slot `sl` of bank `bk` at node n: IN and OFFSET (R158). -/
def slotEntry (s : State) (n bk sl port : Nat) : Nat × Nat :=
  let w := s.word (nodeBase n + 0x2000 + 0x800 * bk + 0x10 * sl + 4 * (port / 2))
  let e := wordField w (16 * (port % 2)) 16
  (bitsOf e 0 3, bitsOf e 3 7)

/-- The plan is active and not suspended (R173, R177). -/
def latheActive (s : State) : Bool := s.get 0 F.LTH_STAT_STATE == 1 && !s.lathe.past

/-- The cycle of the turn at a node; East units see an edge one cycle later (R40). -/
def turnCycle (s : State) (east : Bool) : Nat :=
  let c := 8 * s.spn.notch + s.spn.phase
  if east then (c + 16383) % 16384 else c

/-- The windows of an output in the active bank: first cycle and named input (R155). -/
def windows (s : State) (n port : Nat) : List (Nat × Nat) :=
  let bk := s.get 0 F.LTH_STAT_BANK
  ((upFrom 0 127).filterMap (fun sl =>
    let e := s.slotEntry n bk sl port
    if e.1 ≤ 4 then some (128 * sl + e.2, e.1) else none))

/-- Field of a stream entry (R164). -/
def streamFld (s : State) (ep bk i lo w : Nat) : Nat :=
  bitsOf (leNat (((upFrom 0 8).map (fun k => leBytes (s.word (streamAt ep bk i + 4 * k)).toNat 4)).flatten)) lo w

def streamV (s : State) (ep bk i : Nat) : Bool := s.streamFld ep bk i 0 1 == 1
def streamLen (s : State) (ep bk i : Nat) : Nat := s.streamFld ep bk i 144 32
def streamSent (s : State) (ep bk i : Nat) : Nat := s.streamFld ep bk i 176 32

/-- A launch entry: slot, offset, V, stream, flits (R164). -/
def launchEnt (s : State) (ep bk k : Nat) : Nat × Nat × Bool × Nat × Nat :=
  let e := (s.word (launchAt ep bk k)).toNat
  (bitsOf e 0 7, bitsOf e 7 7, bitAt e 14, bitsOf e 15 3, bitsOf e 18 8)

/-- The cycle in which a router launches a reserved flit, from the cycle of its launch upstream (R157). -/
def lathHop (s : State) (n port lat : Nat) : Nat :=
  let b := s.build
  let e := b.east (b.col n)
  match b.neighbour n port with
  | some m => lat + (if b.east (b.col m) && !e then 4 else 2)
  | none => lat + 2

/-- Reserved flits of cycles `c` to `d - 1` noted: they extend the run that they follow without a gap, or begin another (R161). -/
def noteRun (s : State) (key c d : Nat) : State :=
  let run := match mapGet s.lathe.runs key with
    | some (a, e) => if e == c then (a, d) else (c, d)
    | none => (c, d)
  { s with lathe := { s.lathe with runs := mapPut s.lathe.runs key run } }

/-- A window from cycle `w` is unspent in cycle `l`: in every cycle from its first a reserved flit has come, or waits on the link
(R161). -/
def unspent (s : State) (key w l : Nat) (wait : List Nat) : Bool :=
  let run := (mapGet s.lathe.runs key).getD (0, 0)
  (upFrom w (l + 1 - w)).all (fun c => (run.1 ≤ c && c < run.2) || wait.contains c)

/-- Launch cycles of the reserved flits that wait on the link into an input. -/
def ltWaits (s : State) (n port : Nat) : List Nat :=
  (((mapGet s.wires (feed s.build n pQB port)).getD []).filter (·.lt)).map (fun f => s.lathHop n port f.lat)

/-- The Lathe plane allows a packet of `fl` flits to start on a QB output in the next cycle (R161): the cycle lies in no
unspent window, and the packet ends before the next window begins. -/
def latheAllows (s : State) (n port fl : Nat) : Bool :=
  if !s.latheActive then true
  else
    let l := s.turnCycle (s.build.east (s.build.col n)) + 1
    let ws := s.windows n port
    ws.all (fun w => !(w.1 ≤ l && l < w.1 + 128 && s.unspent (2 * feed s.build n pQB w.2) w.1 l (s.ltWaits n w.2))) &&
    ws.all (fun w => (if w.1 > l then l + fl ≤ w.1 else l + fl ≤ w.1 + 16384))

/-- Launch k of an NI may still be made in its window, whose first cycle `w` does not lie in a notch that has passed (R166, R167). -/
def launchDue (s : State) (ep bk k w : Nat) : Bool :=
  let i := (s.launchEnt ep bk k).2.2.2.1
  s.spn.notch ≤ w / 8 && !s.lathe.fired.contains (128 * ep + k) && s.streamV ep bk i && s.streamSent ep bk i < s.streamLen ep bk i

/-- The NI injects in the East half. -/
def epEast (s : State) (ep : Nat) : Bool :=
  match s.build.injection ep with | some (n, _) => s.build.east (s.build.col n) | none => false

/-- The same for an injection link of an NI, against its own launch windows (R161, R164). -/
def latheAllowsNi (s : State) (ep link fl : Nat) : Bool :=
  if !s.latheActive || 0xF7E ≤ ep then true
  else
    let bk := s.get 0 F.LTH_STAT_BANK
    let l := s.turnCycle (s.epEast ep) + 1
    let due := (s.lathe.going.filter (fun g => g.link == link)).map (·.flit.lat)
    (upFrom 0 96).all (fun k =>
      let e := s.launchEnt ep bk k
      if !e.2.2.1 then true
      else
        let w := 128 * e.1 + e.2.1
        !(w ≤ l && l < w + e.2.2.2.2 && (s.launchDue ep bk k w || s.unspent (2 * link + 1) w l due)) &&
        if w > l then l + fl ≤ w else l + fl ≤ w + 16384)

/-- The endpoint that injects into input (n, port). -/
def injector (s : State) (n port : Nat) : Nat :=
  if port == 0 then n
  else if port == 5 then 0xF80 + (s.build.unitAt n).getD 0
  else 0xF00 + s.build.stationOn n port

/-- An injection link takes up the first packet of its queue that may start: OPEN (R114), with credits for the whole
packet (R71) and the Lathe permission (R161). At a FENCED injection a request passes to the reflector of the node while its queue
has room (R110, R112, R114); at an OFF one, whose router does not run, the injector itself answers it (DEDUCED, log 19). Anything
else is discarded (R109). -/
def startInjection (s : State) (link : Nat) : State :=
  let q := (mapGet s.sendq link).getD []
  let o := link - 0x100000
  let n := o / 30
  let pl := o / 6 % 5
  let port := o % 6
  let st := nget s.injSt 0 link
  if st == 1 then s
  else if st != 0 then
    match q with
    | [] => s
    | pk :: r =>
      let s' := { s with sendq := mapSet s.sendq [] link r }
      if !reflectable pl pk.hdr then s'.bump (nodeBase n) F.RTR_DISC_CNT_COUNT 1
      else if st == 3 then s'.arrive (s.injector n port) ⟨0x300000, pPB, pk.hdr.vcn, false, s.nackFor pk stDOMAIN_OFF n, 0⟩
      else if 4 ≤ ((mapGet s.refl n).getD []).length then s
      else s'.reflect n pk stROUTE
  else
    let vcOf := fun (pk : Pkt) => if pl ≤ 1 then pk.hdr.vcn else 0
    let head := fun (pk : Pkt) => match q.find? (fun x => vcOf x == vcOf pk) with | some x => x == pk | none => false
    match q.find? (fun pk => head pk && flitsOf pl pk.hdr.len ≤ s.credits link pl (vcOf pk) &&
        (pl != pQB || s.latheAllowsNi (s.injector n port) link (flitsOf pl pk.hdr.len))) with
    | none => s
    | some pk =>
      let fs := flitsOfPkt pk pl (vcOf pk) false
      { s with
        sendq := mapSet s.sendq [] link (delFirst (fun x => x == pk) q)
        own := mapPut s.own link ⟨false, port, vcOf pk, fs.length, fs, none, if pk.ext.xv == 1 then some (pk.ext.src, pk.ext.psn) else none⟩ }

/-- The power domain of the router, NI or station that drives a link. -/
def driverDom (s : State) (link : Nat) : Nat :=
  let b := s.build
  if link < 0x100000 then b.nodeDom (link / 30)
  else
    let o := link - 0x100000
    let port := o % 6
    if port == 0 || port == 5 then b.nodeDom (o / 30)
    else
      let p := b.stationOn (o / 30) port
      if p == 126 then b.cfgDom else b.portDom p

/-- One cycle of a link: the packet in progress sends its next flit; a free injection link takes up a packet. A domain that
does not run sends nothing (R395). -/
def advanceLink (s : State) (link : Nat) : State :=
  if !s.domOn (s.driverDom link) then s else match mapGet s.own link with
  | some _ => s.advanceOwned link
  | none => if 0x100000 ≤ link then (s.startInjection link).advanceOwned link else s

/-- A packet handed to the injection link of an endpoint's station or Local port. -/
def inject (s : State) (link : Nat) (pk : Pkt) : State :=
  { s with sendq := mapSet s.sendq [] link ((mapGet s.sendq link).getD [] ++ [pk]) }

/-- The injection link of an endpoint on a plane (R15, R22, R280). -/
def epInject (s : State) (ep pl : Nat) : Nat :=
  match s.build.injection ep with
  | some (n, port) => epLink n pl port
  | none => epLink 0 pl 4

/-- A packet sent by an endpoint, on the plane its type fixes (R67). One that a port block sends to its own exit port or its
own NI does not enter the mesh, where the check of R91 would discard it: the port block takes it at once (DEDUCED, log 34). -/
def sendFrom (s : State) (ep : Nat) (pk : Pkt) : State :=
  match planeOf pk.hdr.ptype with
  | some pl =>
    if 0xF00 ≤ ep && ep < 0xF7E && pk.hdr.exitp == ep - 0xF00 then s.arrive ep ⟨s.epInject ep pl, pl, if pl ≤ 1 then pk.hdr.vcn else 0, false, pk, 0⟩
    else s.inject (s.epInject ep pl) pk
  | none => s

/-- Endpoint-bound outputs of a node send as many flits as are there. -/
def pump (s : State) (link : Nat) : Nat → State
  | 0 => s
  | k + 1 => match mapGet s.own link with
    | some _ => (s.advanceOwned link).pump link k
    | none => s

end State
end Sys2Proof.Machine
end

