-- ==== Sys2Proof/Machine/Router.lean ====
section
/-! DEFINITION. The router's rows: FLIT_RECEIVE, CREDIT_RECEIVE, PACKET_LAUNCH, REFLECT, BURL_ABSORB and
BURL_HOLD_EXPIRY (R57-R61, R71-R76, R87-R112, R183, R227-R232). -/
namespace Sys2Proof.Machine

namespace State

/-- Ports of a router on a plane: on SN a sync unit has a Local port of its own, numbered 5 here (R89, R293). -/
def portOf (pl port : Nat) : Bool := pl < 5 && (port < 5 || (port == 5 && pl == pSN))

/-- An error bit of RTR_ERR set and reported with its plane and port (R118, R428). -/
def rtrErr (s : State) (n pl port : Nat) (f : Fld) (cls status : Nat) : State :=
  s.errBit (nodeBase n) f cls (srcNode n) status (pl + 8 * port)

/-- Packets discarded at a router (R118). -/
def discarded (s : State) (n k : Nat) : State := s.bump (nodeBase n) F.RTR_DISC_CNT_COUNT k

/-- The front flit of a link taken off it. -/
def takeWire (s : State) (link : Nat) : Option (Flit × State) :=
  match (mapGet s.wires link).getD [] with
  | [] => none
  | f :: r => some (f, { s with wires := mapSet s.wires [] link r })

/-- A flit written into an input VC buffer (R94). -/
def writeBuf (s : State) (k : Nat) (f : BFlit) : State := (s.setBuf k (s.bufOf k ++ [f])).notePeak k

/-- The packet being discarded at an input loses one more flit, whose credit returns (R103, R106). -/
def dropFlit (s : State) (link k : Nat) (f : Flit) : State :=
  let s := s.giveCredit link f.vc 1
  if f.tl then { s with cur := mapDel s.cur k } else { s with cur := mapPut s.cur k ⟨[], true, 0⟩ }

/-- Flit 0 of a packet, decoded: its route is computed and it is written or discarded (R67, R87-R92). A branching packet that feeds
no output is discarded and counted like one that cannot be routed (DESIGN CHOICE, log 37). -/
def headFlit (s : State) (n pl port link : Nat) (f : Flit) : State :=
  let k := inKey n pl port f.vc
  let h := Hdr.ofBits f.data
  match routeOf s.build n pl port h with
  | .badType => ((s.rtrErr n pl port F.RTR_ERR_BADTYPE 3 stBADCMD).discarded n 1).dropFlit link k f
  | .badRoute => ((s.rtrErr n pl port F.RTR_ERR_ROUTE_CHK 3 stINTERNAL).discarded n 1).dropFlit link k f
  | .outs [] => (s.discarded n 1).dropFlit link k f
  | .outs ps =>
    let s := s.writeBuf k ⟨f, ps, false, false⟩
    if f.tl then s else { s with cur := mapPut s.cur k ⟨ps, false, flitsOf pl h.len - 1⟩ }

/-- A later flit of a packet: it follows its head. -/
def bodyFlit (s : State) (n pl port link : Nat) (f : Flit) : State :=
  let k := inKey n pl port f.vc
  match mapGet s.cur k with
  | none => s.dropFlit link k { f with tl := true }
  | some c =>
    if c.drop then s.dropFlit link k f
    else
      let s := s.writeBuf k ⟨f, c.outs, false, false⟩
      let s := s.drainFront k
      if f.tl then { s with cur := mapDel s.cur k } else { s with cur := mapPut s.cur k { c with left := c.left - 1 } }

/-- A flit decoded on arrival (R101-R104). -/
def decodedFlit (s : State) (n pl port link : Nat) (f : Flit) (d : Decoded) (raw : Nat) : State :=
  let go := fun (s : State) (f : Flit) => if f.hd then s.headFlit n pl port link f else s.bodyFlit n pl port link f
  match d with
  | .clean x => go s { f with data := x, bad := false }
  | .fixed x =>
    go ((s.rtrErr n pl port F.RTR_ERR_CORR 1 stOK).bump (nodeBase n) F.RTR_CORR_CNT_COUNT 1) { f with data := x, bad := false }
  | .poison x => go s { f with data := x, bad := true }
  | .bad =>
    let s := s.bump (nodeBase n) F.RTR_UNCOR_CNT_COUNT 1
    if f.hd then
      ((s.rtrErr n pl port F.RTR_ERR_UNCOR_HEAD 2 stPOISON).discarded n 1).dropFlit link (inKey n pl port f.vc) f
    else go (s.rtrErr n pl port F.RTR_ERR_UNCOR_DATA 2 stPOISON) { f with data := raw, bad := true }

/-- The filler flits that complete a packet whose input has failed (R105). -/
def fillers (vc k : Nat) : List Flit :=
  (upFrom 0 k).map (fun i => ⟨0, true, false, i + 1 == k, vc, false, 0, false, true⟩)

/-- Filler flits as an input VC buffer holds them, for the outputs that the packet still feeds. -/
def fillIn (vc : Nat) (c : Entering) : List BFlit := (fillers vc c.left).map (fun f => ⟨f, c.outs, false, true⟩)

/-- Whole packets of a buffer, each as its flits. -/
def splitPackets : List BFlit → List (List BFlit)
  | [] => []
  | f :: r =>
    match splitPackets r with
    | [] => [[f]]
    | p :: ps => match p with
      | g :: _ => if g.flit.hd then [f] :: p :: ps else (f :: p) :: ps
      | [] => [f] :: ps

/-- The first packet of an input VC buffer has started on an output: its flit 0 has left, or an output has granted it. -/
def startedVc (s : State) (n pl port vc : Nat) (p : List BFlit) : Bool :=
  match p.head? with
  | some f => !f.flit.hd || (upFrom 0 6).any (fun o => match mapGet s.own (outKey n pl o) with
      | some g => g.fromBuf && g.port == port && g.vc == vc
      | none => false)
  | none => false

/-- One VC of a failed input: a packet in progress is completed with filler flits, also where all its flits received have left
(R105); every other packet held is discarded (R106). -/
def failVc (n pl port : Nat) (s : State) (vc : Nat) : State :=
  let k := inKey n pl port vc
  let link := feed s.build n pl port
  let fill := match mapGet s.cur k with
    | some c => if c.drop then [] else fillIn vc c
    | none => []
  let s := { s with cur := mapDel s.cur k }
  match splitPackets (s.bufOf k) with
  | [] => s.setBuf k fill
  | p :: rest =>
    let lost := (rest.map List.length).sum
    if s.startedVc n pl port vc p then
      ((s.setBuf k (if rest.isEmpty then p ++ fill else p)).giveCredit link vc lost).discarded n rest.length
    else ((s.setBuf k []).giveCredit link vc (lost + p.length)).discarded n (rest.length + 1)

/-- A flit that a failed input receives is discarded, and its credit returned (R106); a reserved flit has none (R73) and is counted in
LTH_DISC_CNT (R177). -/
def failedFlit (s : State) (link : Nat) (f : Flit) : State :=
  if f.lt then s.bump 0 F.LTH_DISC_CNT_COUNT 1 else if !f.valid then s else s.giveCredit link f.vc 1

/-- A forward sideband parity error (R106). -/
def failInput (s : State) (n pl port : Nat) : State :=
  let link := feed s.build n pl port
  let gone := (mapGet s.wires link).getD []
  let s := gone.foldl (fun s f => s.failedFlit link f) { s with wires := mapDel s.wires link }
  let s := (upFrom 0 8).foldl (failVc n pl port) s
  (s.markFailed false n pl port).rtrErr n pl port F.RTR_ERR_SBP 3 stINTERNAL

/-! ### The lanes into a sync unit (R282) -/

/-- One flit of lane `i` into the sync unit of a node: the front flit of the SN input of that number. A packet starts where the
output is OPEN and the lane holds credits for all of it; `start` says whether one may start now. -/
def laneStep (s : State) (n i : Nat) (start : Bool) : Option State :=
  let k := inKey n pSN i 0
  let link := outKey n pSN 5
  match s.bufOf k with
  | [] => none
  | f :: r =>
    if !f.todo.contains 5 then none
    else
      let pk := Pkt.ofFlits pSN ((f :: r.takeWhile (fun g => !g.flit.hd)).map (fun g => (g.flit.data, g.flit.bad)))
      if f.flit.hd && !(start && s.outState n pSN 5 == 0 && flitsOf pSN pk.hdr.len ≤ s.credits link pSN i) then none
      else
        let s := if f.flit.hd then s.probeLaunch n pSN 5 i pk (flitsOf pSN pk.hdr.len) else s
        some (((s.setBuf k ({ f with todo := [] } :: r)).drainFront k).putFlit link { f.flit with vc := i })

/-- A lane sends what it can of one packet. -/
def laneRun (n i : Nat) (start : Bool) : Nat → State → State
  | 0, s => s
  | k + 1, s => match s.laneStep n i start with
    | none => s
    | some s' => laneRun n i false k s'

/-- The next flit on the link into a router input is received (R101): its wires are the flit's codeword with the bits of
`upset` inverted, and `sbp` says that the sideband parity of its cycle failed. A reserved flit is switched by a row of its own, and
an idle flit, whose bit of FV is 0, is not looked at (R61, R72). -/
def receiveFlit (s : State) (n pl port : Nat) (upset : BitVec 544) (sbp : Bool) : State :=
  let link := feed s.build n pl port
  let s := if ((mapGet s.wires link).getD []).isEmpty then s.advanceLink link else s
  match s.takeWire link with
  | none => if sbp then s.failInput n pl port else s
  | some (f, s1) =>
    if sbp then s.failInput n pl port
    else if f.lt then s
    else if !f.valid || s.failed false n pl port then s1.failedFlit link f
    else
      let s2 := if pl ≤ 1 then
          let x := Nat.xor (encodeWide f.data f.bad) upset.toNat
          s1.decodedFlit n pl port link f (decodeWide x) (bitsOf x 0 512)
        else
          let x := Nat.xor (encodeNarrow f.data f.bad) (upset.toNat % 2 ^ 72)
          s1.decodedFlit n pl port link f (decodeNarrow x) (bitsOf x 0 64)
      let s3 := if pl == pSN then (upFrom 0 5).foldl (fun s i => laneRun n i false 64 s) s2 else s2
      (upFrom 0 5).foldl (fun s o =>
        match outDest s.build n pl o with
        | .ep _ => s.pump (outKey n pl o) 64
        | _ => s) s3

/-- The next flit of a link that leads into an isolated domain is discarded (R402). -/
def isolatedFlit (s : State) (n pl port : Nat) : State :=
  let link := feed s.build n pl port
  let s := if ((mapGet s.wires link).getD []).isEmpty then s.advanceLink link else s
  match s.takeWire link with
  | none => s
  | some (f, s) => if f.valid then s.xdrop (blockEp n) 1 else s

/-! ### Credits (R74, R107) -/

/-- Credits for one VC reach the sender of a link: the counter saturates at the buffer size (R74). -/
def creditVc (n pl port : Nat) (cr : Nat) (s : State) (vc : Nat) : State :=
  let link := outKey n pl port
  let k := link * 8 + vc
  let v := bitsOf cr (2 * vc) 2
  if v == 0 then s
  else
    let miss := nget s.owed 0 k
    let s := { s with owed := mapSet s.owed 0 k (miss - v) }
    if miss < v then s.rtrErr n pl port F.RTR_ERR_CRED_OVF 3 stINTERNAL else s

/-- The CR value on its way back on a link: at most one credit per VC and cycle in A and on the narrow planes, two in S (R72, R73). -/
def crValue (s : State) (link : Nat) : Nat :=
  (upFrom 0 8).foldl (fun acc vc =>
    acc + 4 ^ vc * min (nget s.crw 0 (link * 8 + vc)) (perCycle s.build link)) 0

/-- A cycle of credit return arrives at output (n, plane, port), with the bits of `upset` inverted on the way. -/
def receiveCredit (s : State) (n pl port : Nat) (upset : BitVec 16) (crp : Bool) : State :=
  let link := outKey n pl port
  let cr := s.crValue link
  let s := (upFrom 0 8).foldl (fun s vc =>
    let k := link * 8 + vc
    { s with crw := mapSet s.crw 0 k (nget s.crw 0 k - bitsOf cr (2 * vc) 2) }) s
  if crp then
    (s.markFailed true n pl port).rtrErr n pl port F.RTR_ERR_CRP 3 stINTERNAL
  else if pl ≤ 1 then (upFrom 0 8).foldl (creditVc n pl port (Nat.xor cr upset.toNat)) s
  -- the lanes into a sync unit have a credit wire each (R282)
  else if port == 5 then (upFrom 0 5).foldl (creditVc n pl port (Nat.land (Nat.xor cr upset.toNat) 0x155)) s
  -- the narrow planes have one credit wire (R72)
  else creditVc n pl port (Nat.xor cr upset.toNat % 2) s 0

/-! ### Arbitration (R95-R99) -/

/-- A REDUCE packet the combiner of this node is to see (R227). -/
def burlEligible (s : State) (n pl : Nat) (pk : Pkt) : Bool :=
  pl == pQB && pk.hdr.ptype == tREDUCE && (pk.hdr.vcn == 4 || pk.hdr.vcn == 5) && pk.ext.xv == 0 &&
  !pk.hdr.flag fPOISON && !pk.hdr.flag fESC && s.flag (nodeBase n) F.BRL_CTL_EN &&
  s.get (nodeBase n) F.RTR_STATE_STATE == 0

/-- The flits of the packet at the head of a VC buffer, where its flit 0 is still there. -/
def headFlits (s : State) (k : Nat) : List BFlit :=
  match s.bufOf k with
  | [] => []
  | f :: r => if f.flit.hd then f :: r.takeWhile (fun g => !g.flit.hd) else []

/-- The packet that a list of flits spells. -/
def flitsPkt (pl : Nat) (fs : List BFlit) : Pkt := Pkt.ofFlits pl (fs.map (fun f => (f.flit.data, f.flit.bad)))

/-- A head packet that asks for an output: position, input port, VC, flits. -/
structure Cand where
  pos : Nat
  port : Nat
  vc : Nat
  flits : Nat
  pkt : Pkt
  burl : Option Nat
  deriving DecidableEq, Repr

/-- VCs of a plane. -/
def vcsOf (pl : Nat) : Nat := if pl ≤ 1 then 8 else 1

/-- The head packets that request an output (R95), in position order (R97). -/
def requests (s : State) (n pl port : Nat) : List Cand :=
  let nv := vcsOf pl
  let inputs := if pl == pSN then 6 else 5
  let bufs := ((upFrom 0 inputs).map (fun i => (upFrom 0 nv).filterMap (fun vc =>
    let fs := s.headFlits (inKey n pl i vc)
    match fs with
    | [] => none
    | f :: _ =>
      if !f.todo.contains port then none
      else
        let pk := flitsPkt pl fs
        if !f.pass && s.burlEligible n pl pk then none
        else some ⟨i * nv + vc, i, vc, flitsOf pl pk.hdr.len, pk, none⟩))).flatten
  let burl := if pl == pQB then
      s.burl.filterMap (fun e =>
        if e.node == n && e.released && unicastOut s.build n pl e.pkt.hdr == port then
          some ⟨5 * nv + e.pkt.hdr.vcn, 5, e.pkt.hdr.vcn, flitsOf pl e.pkt.hdr.len, e.pkt, some e.id⟩
        else none)
    else []
  let refl := if pl == pPB then
      match (mapGet s.refl n).getD [] with
      | pk :: _ => if unicastOut s.build n pl pk.hdr == port then [⟨5 * nv + pk.hdr.vcn, 5, pk.hdr.vcn, 1, pk, none⟩] else []
      | [] => []
    else []
  bufs ++ burl ++ refl

/-- A candidate of the upper level (R97). -/
def Cand.glint (pl : Nat) (c : Cand) : Bool := pl ≤ 1 && 6 ≤ c.vc

/-- Round robin over positions from a pointer (R97). -/
def pick (ptr total : Nat) (cs : List Cand) : Option Cand :=
  cs.foldl (fun best c =>
    match best with
    | none => some c
    | some b => if (c.pos + total - ptr) % total < (b.pos + total - ptr) % total then some c else best) none

/-- RTR_TLM_STALL of an output and VC raised (R422). -/
def stallBump (n pl port : Nat) (s : State) (vc : Nat) : State :=
  if 5 ≤ port then s
  else
    let i := 5 * pl + port
    if pl ≤ 1 then s.tlmBump (nodeBase n + 0xA00 + 8 * (8 * i + vc)) else s.tlmBump (nodeBase n + 0xC80 + 8 * (i - 10))

/-- The output blocked for branching multicasts by RTR_MCAST (R183). -/
def mcastBlocked (s : State) (n port : Nat) : Bool :=
  1 ≤ port && port ≤ 4 && bitAt (s.word (nodeBase n + 0x30)).toNat (port - 1)

/-- Branches of head packets toward a blocked output are not fed: counted and logged ROUTE (R183). -/
def cutBranches (s : State) (n pl port : Nat) : State :=
  if !(pl ≤ 1 && s.mcastBlocked n port) then s
  else
    (upFrom 0 5).foldl (fun s i => [2, 3].foldl (fun s vc =>
      let k := inKey n pl i vc
      let fs := s.headFlits k
      match fs with
      | [] => s
      | f :: _ =>
        if !f.todo.contains port || !branching pl (flitsPkt pl fs).hdr then s
        else
          let l := s.bufOf k
          let cut := fun (g : BFlit) => { g with todo := g.todo.filter (· != port) }
          let s := s.setBuf k ((l.take fs.length).map cut ++ l.drop fs.length)
          let s := if fs.length == l.length then
              { s with cur := match mapGet s.cur k with
                | some c => mapPut s.cur k { c with outs := c.outs.filter (· != port) }
                | none => s.cur }
            else s
          let s := (s.drainFront k).bump (nodeBase n) F.RTR_MC_CUT_CNT_COUNT 1
          s.report 5 (srcNode n) stROUTE (0xFF + 256 * port)) s) s

/-- A grant: the candidate owns the output and launches flit 0 (R96, R99). -/
def grant (s : State) (n pl port : Nat) (c : Cand) : State :=
  let link := outKey n pl port
  let pr : Progress :=
    if c.port == 5 && (pl ≤ 1) then ⟨false, 5, c.vc, c.flits, flitsOfPkt c.pkt pl c.vc false, c.burl, none⟩
    else ⟨true, c.port, c.vc, c.flits, [], none, none⟩
  let total := 6 * vcsOf pl
  let lvl := link * 2 + bit (Cand.glint pl c)
  let s := { s with
    own := mapPut s.own link pr
    rr := mapSet s.rr 0 lvl ((c.pos + 1) % total)
    refl := if pl == pPB && c.port == 5 then mapSet s.refl [] n (((mapGet s.refl n).getD []).drop 1) else s.refl }
  (s.probeLaunch n pl port c.vc c.pkt c.flits).advanceOwned link

/-- A cycle of an output in which head packets ask for it and are not granted, whatever the reason: the counter of each VC that
has one goes up by one (R422). -/
def stalled (n pl port : Nat) (s : State) (waiting : List Cand) : State :=
  ((waiting.map (·.vc)).eraseDups).foldl (stallBump n pl port) s

/-- The same for an output that has a packet in progress. -/
def stallOwned (s : State) (link : Nat) : State :=
  if 0x100000 ≤ link then s
  else
    let n := link / 30
    let pl := link / 6 % 5
    let port := link % 6
    stalled n pl port s (s.requests n pl port)

/-- One cycle of an output (R96, R97): a packet in progress goes on; otherwise a candidate is granted. The lanes into a sync unit
are not arbitrated: each takes the next packet of its own input, in the order Local, North, East, South, West (R282). -/
def arbitrate (s : State) (n pl port : Nat) : State :=
  let link := outKey n pl port
  if pl == pSN && port == 5 then (upFrom 0 5).foldl (fun s i => laneRun n i true 64 s) s
  else match mapGet s.own link with
  | some _ => (s.stallOwned link).advanceOwned link
  | none =>
    let s := s.cutBranches n pl port
    let st := s.outState n pl port
    let s := if pl == pPB then s.dropRefl n else s
    let rq := s.requests n pl port
    let total := 6 * vcsOf pl
    let ok := rq.filter (fun c => st == 0 && c.flits ≤ s.credits link pl c.vc &&
      (pl != pQB || s.latheAllows n port c.flits))
    let up := ok.filter (Cand.glint pl)
    let win := match pick (nget s.rr 0 (link * 2 + 1)) total up with
      | some c => some c
      | none => pick (nget s.rr 0 (link * 2)) total (ok.filter (fun c => !Cand.glint pl c))
    let s := stalled n pl port s (rq.filter (fun c => win != some c))
    match win with
    | none => s
    | some c =>
      let s := s.grant n pl port c
      match outDest s.build n pl port with
      | .ep _ => s.pump link 64
      | _ => s

/-! ### The reflector (R109-R112) -/

/-- A branch of the head packet routed into a closed output: its status (R109). -/
def closedBranch (s : State) (n pl : Nat) (f : BFlit) : Option (Nat × Nat) :=
  (f.todo.map (fun o => (o, s.outState n pl o))).find? (fun os => 2 ≤ os.2)

/-- An entry of the combiner whose output is closed before it is granted is reflected like any request (R252). -/
def reflectEntry (s : State) (n vc : Nat) : State :=
  let out := fun (e : BurlEnt) => unicastOut s.build n pQB e.pkt.hdr
  let granted := fun (e : BurlEnt) => match mapGet s.own (outKey n pQB (out e)) with
    | some g => g.burl == some e.id
    | none => false
  match s.burl.find? (fun e => e.node == n && e.pkt.hdr.vcn == vc && 2 ≤ s.outState n pQB (out e) && !granted e) with
  | none => s
  | some e =>
    if 4 ≤ ((mapGet s.refl n).getD []).length then s
    else ({ s with burl := s.burl.filter (fun x => x.id != e.id) }).reflect n e.pkt
      (if s.outState n pQB (out e) == 3 then stDOMAIN_OFF else stROUTE)

/-- The head packet of an input VC, routed into an output that is not OPEN or HOLD, passes whole to the reflector: a
request is answered by a NACK while the queue has room, anything else is discarded and counted (R109-R112). -/
def reflectHead (s : State) (n pl port vc : Nat) : State :=
  let k := inKey n pl port vc
  let fs := s.headFlits k
  match fs with
  | [] => if pl == pQB then s.reflectEntry n vc else s
  | f :: _ =>
    match s.closedBranch n pl f with
    | none => if pl == pQB then s.reflectEntry n vc else s
    | some (o, st) =>
      if !(fs.any (fun g => g.flit.tl)) then s
      -- a branch that RTR_MCAST blocks is cut and logged, not lost silently (R183)
      else if s.mcastBlocked n o && branching pl (flitsPkt pl fs).hdr then s.cutBranches n pl o
      else
        let pk := flitsPkt pl fs
        let l := s.bufOf k
        let drop := fun (s : State) =>
          (s.setBuf k ((l.take fs.length).map (fun (g : BFlit) => { g with todo := g.todo.filter (· != o) }) ++ l.drop fs.length)).drainFront k
        if reflectable pl pk.hdr then
          let q := (mapGet s.refl n).getD []
          if 4 ≤ q.length then s
          else (drop s).reflect n pk (if st == 3 then stDOMAIN_OFF else stROUTE)
        else (drop s).discarded n 1

/-! ### The Burl combiner (R227-R232) -/

/-- Partners (R228). -/
def partners (a b : Pkt) : Bool :=
  let x := a.hdr
  let y := b.hdr
  x.job == y.job && x.vcn == y.vcn && x.dcol == y.dcol && x.drow == y.drow && x.exitp == y.exitp && x.len == y.len &&
  x.opc == y.opc && x.tag == y.tag && x.addr == y.addr && x.flag fEPOCH == y.flag fEPOCH

/-- The counters of narrow arithmetic (R223). -/
def kerfCount (s : State) (sat nans badcode : Nat) : State :=
  let s := if sat == 0 then s else s.bump 0 F.FAB_KERF_SAT_COUNT sat
  let s := if nans == 0 then s else s.bump 0 F.FAB_KERF_NAN_COUNT nans
  if badcode == 0 then s
  else (upFrom 0 badcode).foldl (fun s _ => s.report 7 (srcGlob 7) stPOISON 0xFF) (s.bump 0 F.FAB_KERF_BADCODE_COUNT badcode)

/-- Weight, saturation count and escalation count of a REDUCE packet (R224). -/
def wtOf (h : Hdr) : Nat := bitsOf h.aux 0 12
def satcOf (h : Hdr) : Nat := bitsOf h.aux 12 12
def esccOf (h : Hdr) : Nat := bitsOf h.aux 24 8

/-- Two payloads added group by group and encoded again in own mode: bytes, saturations, NaN count, undecodable groups
(R230). -/
def mergePay (fmt : Nat) (a b : List Byte) : List Byte × Nat × Nat × Nat :=
  let parts := ((groupsOf fmt a).zip (groupsOf fmt b)).map (fun ab =>
    let x := decodeGroup fmt ab.1
    let y := decodeGroup fmt ab.2
    let e := encodeGroup fmt (List.zipWith f32Add x.vals y.vals) none
    (e.bytes, e.sat, x.nans + y.nans + e.nans, bit x.undecodable + bit y.undecodable))
  ((parts.map (·.1)).flatten, (parts.map (·.2.1)).foldl (· + ·) 0, (parts.map (·.2.2.1)).foldl (· + ·) 0,
   (parts.map (·.2.2.2)).foldl (· + ·) 0)

/-- The fan-in condition of R231 holds for an entry; FANIN 0 and 1 mean hold time only (R253). -/
def fanInMet (s : State) (n merged : Nat) : Bool :=
  2 ≤ s.get (nodeBase n) F.BRL_CTL_FANIN && s.get (nodeBase n) F.BRL_CTL_FANIN ≤ merged

/-- The next entry number of the combiners. -/
def burlId (s : State) : Nat := s.burl.foldl (fun m e => max m (e.id + 1)) 0

/-- The head packet marked to pass the combiner uncombined. -/
def markPass (s : State) (k : Nat) : State :=
  s.setBuf k (match s.bufOf k with | [] => [] | f :: r => { f with pass := true } :: r)

/-- The head packet taken whole out of its VC buffer by the combiner. -/
def absorbHead (s : State) (k len : Nat) : State :=
  ((s.setBuf k ((s.bufOf k).drop len)).giveCredit (s.feedOf k) (k % 8) len)

/-- BURL_ABSORB: an eligible head packet merges into a partner entry, takes a free entry, or passes (R229, R230); one with a poisoned
flit is never added, so it passes (R209). -/
def burlAbsorb (s : State) (n port vc : Nat) : State :=
  let k := inKey n pQB port vc
  let fs := s.headFlits k
  let pk := flitsPkt pQB fs
  if !(fs.any (fun g => g.flit.tl)) || !s.burlEligible n pQB pk || fs.any (fun f => f.pass) then s
  else if !pk.bad.isEmpty then s.markPass k
  else
    match s.burl.find? (fun e => e.node == n && !e.released && partners e.pkt pk) with
    | some e =>
      let fmt := pk.hdr.opc % 16
      if wtOf e.pkt.hdr + wtOf pk.hdr > 4095 then (s.markPass k).bump (nodeBase n) F.BRL_PASS_CNT_COUNT 1
      else if esccOf e.pkt.hdr + esccOf pk.hdr > 255 then s.markPass k
      else
        let m := mergePay fmt e.pkt.pay pk.pay
        let h := e.pkt.hdr
        let bad := m.2.2.2 != 0
        let h := { h with aux := packFields [(12, wtOf h + wtOf pk.hdr), (12, min 4095 (satcOf h + satcOf pk.hdr + m.2.1)),
          (8, esccOf h + esccOf pk.hdr)] }
        let h := if bad then h.setFlag fPOISON true else h
        let cnt := e.merged + 1
        let e' := { e with pkt := { e.pkt with hdr := h, pay := m.1 }, merged := cnt, released := bad || s.fanInMet n cnt }
        let s := s.absorbHead k fs.length
        let s := { s with burl := updFirst (fun x => x.id == e.id) (fun _ => e') s.burl }
        (s.kerfCount m.2.1 m.2.2.1 m.2.2.2).bump (nodeBase n) F.BRL_COMB_CNT_COUNT 1
    | none =>
      if (s.burl.filter (fun e => e.node == n)).length < 32 then
        let s := s.absorbHead k fs.length
        { s with burl := s.burl ++ [⟨s.burlId, n, pk, 1, s.tmo, s.fanInMet n 1⟩] }
      else (s.markPass k).bump (nodeBase n) F.BRL_PASS_CNT_COUNT 1

/-- Every held entry of a router released (R231, R232). -/
def burlReleaseAll (s : State) (n : Nat) : State :=
  { s with burl := s.burl.map (fun e => if e.node == n then { e with released := true } else e) }

/-- BURL_HOLD_EXPIRY: the hold of the k-th held entry of a router runs out (R231). -/
def burlExpire (s : State) (n k : Nat) : State :=
  match (s.burl.filter (fun e => e.node == n && !e.released))[k]? with
  | none => s
  | some e =>
    let hold := s.get (nodeBase n) F.BRL_CTL_HOLD
    let s := s.passTo (if hold == 0 then e.born else e.born + hold + 1)
    { s with burl := updFirst (fun x => x.id == e.id) (fun x => { x with released := true }) s.burl }

end State

/-! ### The rows -/

/-- Runs an effect at a built node: nothing happens at a router whose domain does not run (R395). -/
def atNode (n : Nat) (s : State) (f : State → State) : Host.Outcome State Fault Refusal :=
  act (s.nodeOn n) s f

/-- FLIT_RECEIVE (R101); at a router whose domain does not run the flit is discarded (R402). -/
def execFlitReceive (node plane port : Nat) (upset : BitVec 544) (sbp : Bool) (s : State) : Host.Outcome State Fault Refusal :=
  if node < s.build.nodes && !s.nodeOn node && State.portOf plane port then act true s (fun s => s.isolatedFlit node plane port)
  else atNode node s (fun s => if State.portOf plane port then s.receiveFlit node plane port upset sbp else s)

/-- CREDIT_RECEIVE (R74). -/
def execCreditReceive (node plane port : Nat) (upset : BitVec 16) (crp : Bool) (s : State) : Host.Outcome State Fault Refusal :=
  atNode node s (fun s => if State.portOf plane port then s.receiveCredit node plane port upset crp else s)

/-- PACKET_LAUNCH (R96). -/
def execPacketLaunch (node plane port : Nat) (s : State) : Host.Outcome State Fault Refusal :=
  atNode node s (fun s => if State.portOf plane port then s.arbitrate node plane port else s)

/-- REFLECT (R111). -/
def execReflect (node plane port vc : Nat) (s : State) : Host.Outcome State Fault Refusal :=
  atNode node s (fun s => if State.portOf plane port && vc < 8 then s.reflectHead node plane port vc else s)

/-- BURL_ABSORB (R229). -/
def execBurlAbsorb (node port vc : Nat) (s : State) : Host.Outcome State Fault Refusal :=
  atNode node s (fun s => if port < 5 && vc < 8 then s.burlAbsorb node port vc else s)

/-- BURL_HOLD_EXPIRY (R231). -/
def execBurlHoldExpiry (node k : Nat) (s : State) : Host.Outcome State Fault Refusal :=
  atNode node s (fun s => s.burlExpire node k)

end Sys2Proof.Machine
end

