-- ==== Sys2Proof/Machine/Mem.lean ====
section
/-! DEFINITION. Memory: the on-chip memories (command memory R371, route store R123, pool memories R141) and the unit
requests that go out on the TAP and MAP ports (R448, R450). -/
namespace Sys2Proof.Machine

/-- Where bytes lie: the memory of the core behind TAP t, the memory behind MAP m, the pool memory of port block p, the
command memory, the route store. -/
inductive MTgt where
  | tap (t : Nat)
  | map (m : Nat)
  | pool (p : Nat)
  | cmem
  | store
  deriving DecidableEq, Repr

/-- First byte of an on-chip memory in `State.ram`. -/
def ramBase : MTgt → Nat
  | .store => 0x1000000
  | .pool p => 0x10000000 + p * 0x1000000
  | _ => 0

/-- Size of an on-chip memory in bytes. -/
def ramSize (b : Build) : MTgt → Nat
  | .cmem => 65536
  | .store => 2097152
  | .pool p => b.poolMem p
  | _ => 0

/-- A run of bytes at `addr`, cut at 64-byte units, with the poison of the payload units it covers. -/
def unitsOf (addr : Nat) (bytes : List Byte) (bad : List Nat) : List Unit64 :=
  let off := addr % 64
  let u := addr / 64
  (upFrom 0 (ceilDiv (off + bytes.length) 64)).map (fun j =>
    let lo := 64 * j - off            -- first payload byte in this unit
    let cnt := if j == 0 then 64 - off else 64
    let part := (bytes.drop lo).take cnt
    let sh := if j == 0 then off else 0
    { unit := u + j
      be := (2 ^ part.length - 1) * 2 ^ sh
      data := leNat part * 2 ^ (8 * sh)
      bad := bad.any (fun i => 64 * i < lo + part.length && lo < 64 * i + 64) })

/-- The units that a read of `len` bytes at `addr` covers. -/
def unitsRead (addr len : Nat) : List Unit64 :=
  (upFrom (addr / 64) (ceilDiv (addr % 64 + len) 64)).map (fun u => ⟨u, 0, 0, false⟩)

/-- The bytes that a finished read has brought. -/
def Txn.bytes (t : Txn) : List Byte :=
  let byte := fun (a : Nat) => match t.got.find? (fun u => u.unit == a / 64) with
    | some u => BitVec.ofNat 8 (u.data / 2 ^ (8 * (a % 64)))
    | none => 0
  (upFrom t.addr t.len).map byte

/-- The payload units of a finished read that are poisoned. -/
def Txn.poison (t : Txn) : List Nat :=
  (upFrom 0 (ceilDiv t.len 64)).filter (fun i =>
    t.got.any (fun u => u.bad && 64 * u.unit < t.addr + 64 * i + 64 && t.addr + 64 * i < 64 * u.unit + 64))

/-- The canonical form of the memory: addresses strictly rising, and no entry that lists the zero an unlisted byte reads as. -/
def Memory.wf : List (Nat × Byte) → Bool
  | [] => true
  | [e] => e.2 != 0
  | e :: f :: r => e.2 != 0 && e.1 < f.1 && Memory.wf (f :: r)

namespace State

/-! ### On-chip memories -/

/-- One byte of an on-chip memory. -/
def ramByte (s : State) (a : Nat) : Byte := (mapGet s.ram a).getD 0

/-- One byte stored. -/
def ramPut (s : State) (a : Nat) (v : Byte) : State := { s with ram := mapSet s.ram 0 a v }

/-- Bytes read. -/
def ramRead (s : State) (a n : Nat) : List Byte := (upFrom a n).map s.ramByte

/-- Bytes stored from address `a` upward. -/
def ramWrite (s : State) (a : Nat) : List Byte → State
  | [] => s
  | v :: r => (s.ramPut a v).ramWrite (a + 1) r

/-- Bytes stored with their poison: a unit written without poison becomes clean (R431). -/
def ramStore (s : State) (a : Nat) (bytes : List Byte) (bad : List Nat) : State :=
  let us := unitsOf a bytes bad
  let touched := us.map (·.unit)
  let s := s.ramWrite a bytes
  { s with ramBad := s.ramBad.filter (fun u => !touched.contains u) ++ (us.filter (·.bad)).map (·.unit) }

/-- A word of an on-chip memory. -/
def ramWord (s : State) (a : Nat) : Nat := leNat (s.ramRead a 4)

/-! ### Accesses at the memory ports -/

/-- A number for an access or a packet. -/
def fresh (s : State) : Nat × State := (s.nextId, { s with nextId := s.nextId + 1 })

/-- An access added to those in progress. -/
def addTxn (s : State) (map : Bool) (port : Nat) (wr : Bool) (addr len : Nat) (todo got : List Unit64) (st : Nat)
    (p : Purp) : State :=
  { s with
    txns := s.txns ++ [⟨s.nextId, map, port, wr, addr, len, todo, [], got, st, p⟩]
    nextId := s.nextId + 1 }

/-- A free tag of a port: 64 reads of a TAP, 1,024 of each direction of a MAP (R448, R450). -/
def freeTag (s : State) (map : Bool) (port : Nat) (wr : Bool) : Option Nat :=
  let used := (s.txns.filter (fun t => t.map == map && t.port == port && t.wr == wr)).flatMap
      (fun t => t.live.map (·.tag)) ++
    (if map then (s.deadTags.filter (fun d => d.1 == port && d.2.1 == wr)).map (·.2.2) else [])
  (upFrom 0 (used.length + 1)).find? (fun k => !used.contains k && k < (if map then 1024 else 64))

/-- A request to the unit is outstanding at the port that a new one must not overlap (R450), or a write of it waits at the TAP (R448). -/
def unitBusy (s : State) (map : Bool) (port unit : Nat) (wr : Bool) : Bool :=
  if map then s.txns.any (fun t => t.map && t.port == port && (wr || t.wr) && t.live.any (fun l => l.unit == unit))
  else s.tapw.any (fun x => x.tap == port && x.unit == some unit)

/-- The GOOD bit of core k of node n (R30). -/
def coreGood (s : State) (n k : Nat) : Bool := bitAt (s.get (nodeBase n) F.NI_CORE_GOOD_GOOD) k

/-- The TAP of a core whose GOOD bit is 0 is held idle: nothing is delivered to the core or asked of it (R32). -/
def tapIdle (s : State) (t : Nat) : Bool := !s.coreGood (t / 4) (t % 4)

/-- The next unit of an access requested, where a tag is free and the unit is not busy. What is left of an access to a core whose GOOD
bit has been cleared is not asked for, and the access ends DENIED (R32). -/
def issueUnit (s : State) (t : Txn) : Option State :=
  match t.todo with
  | [] => none
  | u :: r =>
    if !t.map && s.tapIdle t.port then
      let l := updFirst (fun (x : Txn) => x.id == t.id)
        (fun x => { x with todo := [], got := x.got ++ x.todo, st := if x.st == stOK then stDENIED else x.st }) s.txns
      some { s with txns := l }
    else if s.unitBusy t.map t.port u.unit t.wr then none
    else match s.freeTag t.map t.port t.wr with
      | none => none
      | some tag =>
        let l := updFirst (fun (x : Txn) => x.id == t.id)
          (fun x => { x with todo := r, live := x.live ++ [⟨tag, u.unit, s.cyc⟩] }) s.txns
        let s := { s with txns := l }
        some (s.drive (if t.map then
          (if t.wr then .mapWrite t.port u.unit tag u.be u.data u.bad else .mapRead t.port u.unit tag)
          else .tapRead t.port u.unit tag))

/-- Requests issued, in the order of the accesses. -/
def issueMem (s : State) : Nat → State
  | 0 => s
  | k + 1 =>
    match s.txns.findSome? (fun t => s.issueUnit t) with
    | some s' => s'.issueMem k
    | none => s

/-- The far side of a memory's crossing is in reset or has stopped: the status that new requests get (R414). -/
def crossHeld (s : State) (g : MTgt) : Option Nat :=
  match g with
  | .tap t => if s.xheld.any (fun x => x.x == .tap t) then some stDOMAIN_OFF else none
  | .map m => if s.xheld.any (fun x => x.x == .map m) then some stTIMEOUT else none
  | _ => none

/-! ### The write buffers of the TAPs (R448) -/

/-- Units that wait in the write buffer of a TAP. -/
def tapWaiting (s : State) (t : Nat) : Nat := (s.tapw.filter (fun x => x.tap == t && x.unit.isSome)).length

/-- Something put into the write buffer of a TAP: one unit goes out in a cycle, since TAP_MW_READY stays high, and a pulse follows
the units before it. -/
def tapPut (s : State) (t : Nat) (o : PortOut) (unit : Option Nat) (lathe : Bool) : State :=
  let next := nget s.mwNext 0 t
  match unit with
  | some _ => { s with
      tapw := s.tapw ++ [⟨t, o, unit, max s.cyc next, lathe⟩]
      mwNext := mapSet s.mwNext 0 t (max s.cyc next + 1) }
  | none => { s with tapw := s.tapw ++ [⟨t, o, none, max s.cyc (next - 1), lathe⟩] }

/-- What has had its cycle goes out; what waits at a TAP that is held idle is lost (R32). -/
def tapDrain (s : State) : State :=
  let go := s.tapw.filter (fun x => x.at' ≤ s.cyc)
  if go.isEmpty then s
  else
    let s := go.foldl (fun s x => if s.tapIdle x.tap then s else s.drive x.out) { s with tapw := s.tapw.filter (fun x => s.cyc < x.at') }
    s.issueMem 64

/-- Something dropped at a TAP or MAP crossing is counted (R414). -/
def crossDrop (s : State) (g : MTgt) (n : Nat) : State :=
  match g with
  | .tap t => s.bump (nodeBase (t / 4)) F.PWR_XDROP_COUNT n
  | .map m => s.bump (portBase m) F.PWR_XDROP_P_COUNT n
  | _ => s

/-- Bytes asked for; `purp` says what waits for them. -/
def readMem (s : State) (g : MTgt) (addr len : Nat) (p : Purp) : State :=
  match s.crossHeld g with
  | some st => s.addTxn false 0 false addr len [] [] st p
  | none => match g with
  | .tap t =>
    if s.tapIdle t then s.addTxn false 0 false addr len [] [] stDENIED p
    else (s.addTxn false t false addr len (unitsRead addr len) [] stOK p).issueMem 64
  | .map m => (s.addTxn true m false addr len (unitsRead addr len) [] stOK p).issueMem 64
  | g =>
    if ramSize s.build g < addr + len then s.addTxn false 0 false addr len [] [] stDENIED p
    else
      let base := ramBase g
      let got := (unitsRead addr len).map (fun u =>
        { u with data := leNat (s.ramRead (base + 64 * u.unit) 64), bad := s.ramBad.contains (base / 64 + u.unit) })
      s.addTxn false 0 false addr len [] got (if got.any (·.bad) then stPOISON else stOK) p

/-- Bytes written; `purp` says what waits for the write. A TAP takes writes in order and answers none (R448). -/
def writeMem (s : State) (g : MTgt) (addr : Nat) (bytes : List Byte) (bad : List Nat) (p : Purp) : State :=
  let done := fun (s : State) (st : Nat) =>
    if p == .nothing then s else s.addTxn false 0 true addr bytes.length [] [] st p
  match s.crossHeld g with
  | some st => done (s.crossDrop g 1) st
  | none => match g with
  | .tap t =>
    if s.tapIdle t then done s stDENIED
    else done ((unitsOf addr bytes bad).foldl (fun s u => s.tapPut t (.tapWrite t u.unit u.be u.data u.bad) (some u.unit) false) s) stOK
  | .map m => (s.addTxn true m true addr bytes.length (unitsOf addr bytes bad) [] stOK p).issueMem 64
  | g => if ramSize s.build g < addr + bytes.length then done s stDENIED else done (s.ramStore (ramBase g + addr) bytes bad) stOK

/-- A pulse to a core on a line of its TAP (R449), after the writes that wait there, unless the TAP is held idle (R32, R414). -/
def tapPulse (s : State) (t line : Nat) : State :=
  if s.tapIdle t || (s.crossHeld (.tap t)).isSome then s
  else if s.tapw.any (fun x => x.tap == t) then s.tapPut t (.tapEv t line) none false
  else s.drive (.tapEv t line)

/-- The first status other than OK stands. -/
def firstSt (a b : Nat) : Nat := if a == stOK then b else a

/-- A unit answered: its data or its error reach the access that asked for it. -/
def unitAnswered (s : State) (map : Bool) (port : Nat) (wr : Bool) (tag data : Nat) (bad : Bool) (st : Nat) : Option State :=
  let mine := fun (t : Txn) => t.map == map && t.port == port && t.wr == wr && t.live.any (fun l => l.tag == tag)
  if !s.txns.any mine then none
  else
    let l := updFirst mine (fun t =>
      { t with
        live := delFirst (fun (l : Live) => l.tag == tag) t.live
        got := t.got ++ (t.live.filter (fun (l : Live) => l.tag == tag)).map (fun (l : Live) => (⟨l.unit, 0, data, bad⟩ : Unit64))
        st := firstSt t.st st }) s.txns
    let s := { s with txns := l }
    some (s.issueMem 64)

/-- The first access that is finished, taken. -/
def takeDone (s : State) : Option (Txn × State) :=
  match s.txns.find? (fun t => t.todo.isEmpty && t.live.isEmpty) with
  | none => none
  | some t => some (t, { s with txns := delFirst (fun (x : Txn) => x.id == t.id) s.txns })

end State
end Sys2Proof.Machine
end

