-- ==== Sys2Proof/Machine/NiCore.lean ====
section
/-! DEFINITION. What the network interfaces share: positions, packets an NI sends on its own behalf (R123), watch slots
(R297), and the completion records of R389 and R390. -/
namespace Sys2Proof.Machine

/-- Column and row that an endpoint puts in SCOL and SROW: its node, its first attach node, or (0, 0) of the station. -/
def srcPos (b : Build) (ep : Nat) : Nat × Nat :=
  if ep < 0xF00 then (b.col ep, b.row ep)
  else if ep == 0xF7E then (0, 0)
  else if ep < 0xF80 then (b.attach (ep - 0xF00)).getD (0, 0)
  else (b.col (b.unitNode (ep - 0xF80)), b.row (b.unitNode (ep - 0xF80)))

/-- Column, row and exit port by which an NI index of this die is reached (R84, R125). -/
def dstPos (b : Build) (i : Nat) : Nat × Nat × Nat :=
  if i < 0xF00 then (i % b.cols, i / b.cols, 127)
  else if i < 0xF80 then
    let a := (b.attach (i - 0xF00)).getD (0, 0)
    (a.1, a.2, i - 0xF00)
  else (b.col (b.unitNode (i - 0xF80)), b.row (b.unitNode (i - 0xF80)), 127)

/-- The memory that addresses of an NI name: a core of a node NI (R121), the memory behind a MAP, the pool memory of a
link port block. -/
def niMem (b : Build) (ep addr : Nat) : MTgt × Nat :=
  if ep < 0xF00 then (.tap (4 * ep + addr / 2 ^ 46 % 4), addr % 2 ^ 46)
  else if b.portKind (ep - 0xF00) == 1 then (.map (ep - 0xF00), addr)
  else (.pool (ep - 0xF00), addr)

namespace State

/-- The chip ID (R35). -/
def chip (s : State) : Nat := s.get 0 F.FAB_CHIP_CHIP_ID

/-- The endpoint ID of an NI of this die (R17). -/
def endpoint (s : State) (ep : Nat) : Nat := s.chip * 4096 + ep

/-- The request timeout of a context, and its retries (R146, R147). The station has no such register (log 12). -/
def ctxTmo (s : State) (ep ctx : Nat) : Nat :=
  if ep == 0xF7E then 8192 else s.get (niBase ep + 0x10 * ctx) F.NI_CTX_TMO_TMO
def ctxRetry (s : State) (ep ctx : Nat) : Nat :=
  if ep == 0xF7E then 0 else s.get (niBase ep + 0x10 * ctx) F.NI_CTX_TMO_RETRY

/-- A context is enabled, and bound to a job (R119). -/
def ctxOn (s : State) (ep ctx : Nat) : Bool := ep != 0xF7E && s.flag (niBase ep + 0x10 * ctx) F.NI_CTX_CTL_EN
def ctxJob (s : State) (ep ctx : Nat) : Nat := s.get (niBase ep + 0x10 * ctx) F.NI_CTX_CTL_JOB
def ctxTset (s : State) (ep ctx : Nat) : Nat := s.get (niBase ep + 0x10 * ctx) F.NI_CTX_CTL_TSET
/-- Injection of a context is stopped: by INJ_STOP (R127), or because its domain is in Penumbra or lower (R400). -/
def ctxStopped (s : State) (ep ctx : Nat) : Bool :=
  s.flag (niBase ep + 0x10 * ctx) F.NI_CTX_CTL_STOPPED || s.dom (s.build.epDom ep) != 3

/-- The lowest-numbered enabled context of an NI bound to a job (R128, R136, R193, R234). -/
def jobCtx (s : State) (ep job : Nat) : Option Nat :=
  if ep == 0xF7E then none
  else (upFrom 0 16).find? (fun c => s.ctxOn ep c && s.ctxJob ep c == job)

/-- An NI_ERR bit set and logged (R153). -/
def niErr (s : State) (ep : Nat) (f : Fld) (st obj : Nat) : State := s.errBit (niBase ep) f 4 (srcEp ep) st obj

/-! ### Packets an NI sends on its own behalf -/

/-- A formed packet added to those of an NI. -/
def addReq (s : State) (q : Req) : State := { s with reqs := s.reqs ++ [{ q with id := s.nextId }], nextId := s.nextId + 1 }

/-- A request of JOB 0x3FE (0x3FF from the station), with its poisoned payload units, to a port block of this die, or to the station. A packet to a port that is not
built is not formed: whoever waits for it learns BADCMD (R64). -/
def ownReq (s : State) (ep ctx port : Nat) (h : Hdr) (pay : List Byte) (p : Purp) (bad : List Nat := []) : State :=
  let b := s.build
  if port != 126 && b.portKind port == 0 then s.addTxn false 0 false 0 0 [] [] stBADCMD p else
  let at' := (b.attach port).getD (0, 0)
  let me := srcPos b ep
  let h := { h with
    vcn := 0, ord := 0, dcol := at'.1, drow := at'.2, exitp := port, scol := me.1, srow := me.2
    job := if ep == 0xF7E then 0x3FF else 0x3FE
    ctx := ctx }
  s.addReq ⟨0, ep, p, ⟨if bad.isEmpty then h else h.setFlag fPOISON true, Ext.none, pay, bad⟩, .formed, false, ctx, 0, 0, 0, 0, true, none, 1, 0, 1, 0⟩

/-- Bytes read from behind MAP `port`, by packet or, at that MAP's own NI, directly. -/
def ownRead (s : State) (ep ctx port addr len : Nat) (p : Purp) : State :=
  if ep == 0xF00 + port && s.build.portKind port == 1 then s.readMem (.map port) addr len p
  else s.ownReq ep ctx port { Hdr.zero with ptype := tREAD, addr := addr, aux := len } [] p

/-- Bytes written behind MAP `port`, with their poisoned units. -/
def ownWrite (s : State) (ep ctx port addr : Nat) (bytes : List Byte) (p : Purp) (bad : List Nat := []) : State :=
  if ep == 0xF00 + port && s.build.portKind port == 1 then s.writeMem (.map port) addr bytes bad p
  else s.ownReq ep ctx port { Hdr.zero with ptype := tWRITE, addr := addr, len := bytes.length } bytes p bad

/-! ### Completion records (R389, R390) -/

/-- A record lost: counted and logged (R389). -/
def recLost (s : State) (ep ctx st : Nat) : State :=
  (s.bump (niBase ep) F.NI_CQ_LOST_CNT_COUNT 1).report 0x15 (srcEp ep) st (0xFF + 256 * ctx)

/-- The completion queue of a context can take a record. -/
def cqReady (s : State) (ep ctx : Nat) : Bool :=
  let b := niBase ep + 0x10 * ctx
  s.flag b F.NI_CQc_CTL_EN &&
  subMod 32 (s.get b F.NI_CQc_TAIL_TAIL) (s.get b F.NI_CQc_HEAD_HEAD) != 2 ^ s.get b F.NI_CQc_CTL_LOG2N

/-- A completion record posted to the queue of a context, or lost. `ws` are words W1 to W7. -/
def postRec (s : State) (ep ctx kind st job : Nat) (ws : List Nat) : State :=
  let b := niBase ep + 0x10 * ctx
  let s := s.completion st
  let tail := s.get b F.NI_CQc_TAIL_TAIL
  let lg := s.get b F.NI_CQc_CTL_LOG2N
  if !s.flag b F.NI_CQc_CTL_EN then s.recLost ep ctx stDENIED
  else if !s.cqReady ep ctx then s.recLost ep ctx stNOPOOL
  else
    let w0 := packFields [(8, kind), (4, st), (4, ctx), (10, job), (5, 0), (1, bit (bitAt tail lg))]
    let bytes := ((w0 :: ws).map (fun w => leBytes w 4)).flatten
    let bytes := bytes ++ List.replicate (32 - bytes.length) 0
    let off := 32 * (tail % 2 ^ lg)
    let s := s.set b F.NI_CQc_TAIL_TAIL ((tail + 1) % 2 ^ 32)
    if !s.flag b F.NI_CQc_CTL_LOC then
      s.writeMem .cmem (s.get b F.NI_CQc_BASE_BASE * 64 + off) bytes [] .nothing
    else if ep < 0xF00 then
      let t := 4 * ep + s.get b F.NI_CQc_CTL_CORE
      (s.writeMem (.tap t) ((s.get b F.NI_CQc_BASE_BASE * 65536 + off) % 2 ^ 46) bytes [] .nothing).tapPulse t 2
    else s.ownWrite ep ctx (s.get b F.NI_CQc_CTL_MAPP) (s.get b F.NI_CQc_BASE_BASE * 65536 + off) bytes .nothing

/-- A record for the lowest-numbered enabled context bound to a job; whether it was posted. -/
def postJobRec (s : State) (ep kind st job : Nat) (ws : List Nat) : Bool × State :=
  match s.jobCtx ep job with
  | none => (false, s)
  | some c => if s.cqReady ep c then (true, s.postRec ep c kind st job ws) else (false, s.postRec ep c kind st job ws)

/-! ### Watch slots (R297) -/

/-- Address of the registers of a watch slot. -/
def wslotBase (ep slot : Nat) : Nat := niBase ep + 8 * slot

/-- State of a watch slot: 0 FREE, 1 ARMED, 2 DONE. -/
def wslotState (s : State) (ep slot : Nat) : Nat := s.get (wslotBase ep slot) F.NI_WSLOTs_HI_STATE

/-- The slot becomes DONE with a status, and with a value where one was observed; the core's TAP_EV bit 0 pulses (R449). -/
def slotDone (s : State) (ep slot st : Nat) (value : Option Nat) : State :=
  let b := wslotBase ep slot
  let s := s.completion st
  let s := match value with
    | some v => (s.set b F.NI_WSLOTs_LO_VALUE_LO (v % 2 ^ 32)).set b F.NI_WSLOTs_HI_VALUE_HI (v / 2 ^ 32)
    | none => s
  let s := s.set b F.NI_WSLOTs_HI_STATUS st
  let s := s.set b F.NI_WSLOTs_HI_STATE 2
  { s with armed := s.armed.filter (fun a => !(a.ep == ep && a.slot == slot)) }
    |>.tapPulse (4 * ep + slot / 16) 0

/-- The slot becomes ARMED with its next generation; `wait` is its guard in notches (R297, R298). -/
def slotArm (s : State) (ep slot wait : Nat) (desc : Bool) (index kind : Nat) : State :=
  let b := wslotBase ep slot
  let s := s.set b F.NI_WSLOTs_HI_GEN (s.get b F.NI_WSLOTs_HI_GEN + 1)
  let s := s.set b F.NI_WSLOTs_HI_STATE 1
  { s with armed := s.armed ++ [⟨ep, slot, s.tmo, wait, desc, index, kind⟩] }

end State
end Sys2Proof.Machine
end

