-- ==== Sys2Proof/Machine/Blank.lean ====
section
/-! DEFINITION. The Blank pools (R141-R144): allocation, freeing by handle, and enabling. -/
namespace Sys2Proof.Machine

/-- Buffer size of pool n (R141). -/
def poolSize (n : Nat) : Nat := if n == 0 then 256 else if n == 1 then 2048 else if n == 2 then 8192 else 65536

namespace State

/-- Buffers of a pool in use. -/
def blankUsed (s : State) (ep n : Nat) : List Nat := (mapGet s.blank (4 * ep + n)).getD []
def setBlank (s : State) (ep n : Nat) (l : List Nat) : State := { s with blank := mapSet s.blank [] (4 * ep + n) l }

def poolOn (s : State) (ep n : Nat) : Bool := s.flag (niBase ep + 8 * n) F.BLK_POOLn_CFG_EN
def poolCount (s : State) (ep n : Nat) : Nat := s.get (niBase ep + 8 * n) F.BLK_POOLn_CFG_COUNT
def poolCore (s : State) (ep n : Nat) : Nat := s.get (niBase ep + 8 * n) F.BLK_POOLn_CFG_CORE

/-- Free buffers of a pool: what BLK_AVAIL shows. -/
def blankFree (s : State) (ep n : Nat) : Nat :=
  if s.poolOn ep n then s.poolCount ep n - (s.blankUsed ep n).length else 0

/-- Where the buffer of a handle lies (R141, R143). -/
def bufAt (s : State) (ep handle : Nat) : MTgt × Nat :=
  let n := handle / 2 ^ 14
  let a := s.get (niBase ep + 8 * n) F.BLK_POOLn_BASE_BASE * 256 + handle % 4096 * poolSize n
  if ep < 0xF00 then (.tap (4 * ep + s.poolCore ep n), a % 2 ^ 46) else (.pool (ep - 0xF00), a)

/-- The smallest enabled pool that holds `b` bytes, of a core where one is named (R142, R186). -/
def poolFor (s : State) (ep b : Nat) (core : Option Nat) : Option Nat :=
  (upFrom 0 4).find? (fun n => s.poolOn ep n && b ≤ poolSize n &&
    (match core with | some k => s.poolCore ep n == k | none => true))

/-- A buffer for `b` bytes: its handle, or the failure of R142. -/
def allocBuf (s : State) (ep b : Nat) (core : Option Nat) : Option Nat × State :=
  let fail := s.errBit (niBase ep) F.BLK_ERR_NOPOOL 4 (srcEp ep) stNOPOOL 0
  match s.poolFor ep b core with
  | none => (none, fail)
  | some n =>
    let used := s.blankUsed ep n
    match (upFrom 0 (used.length + 1)).find? (fun i => !used.contains i && i < s.poolCount ep n) with
    | none => (none, fail)
    | some i => (some (n * 2 ^ 14 + i), s.setBlank ep n (used ++ [i]))

/-- A buffer would be found. -/
def canAlloc (s : State) (ep b : Nat) (core : Option Nat) : Bool := (s.allocBuf ep b core).1.isSome

/-- A buffer of a pool that is chosen by number, as R82 and R85 take pool 2. -/
def allocIn (s : State) (ep n : Nat) : Option Nat × State :=
  let used := s.blankUsed ep n
  if !s.poolOn ep n then (none, s)
  else match (upFrom 0 (used.length + 1)).find? (fun i => !used.contains i && i < s.poolCount ep n) with
    | none => (none, s)
    | some i => (some (n * 2 ^ 14 + i), s.setBlank ep n (used ++ [i]))

/-- A buffer that the NI itself gives back. -/
def freeBuf (s : State) (ep handle : Nat) : State :=
  let n := handle / 2 ^ 14
  s.setBlank ep n ((s.blankUsed ep n).filter (fun i => i != handle % 4096))

/-- A write of BLK_FREE (R143), with the status it is recorded with. -/
def blkFreeWrite (s : State) (ep handle : Nat) : Nat × State :=
  let n := handle / 2 ^ 14 % 4
  let i := handle % 4096
  let obj := handle % 65536
  if !s.poolOn ep n || s.poolCount ep n ≤ i then
    (stBADCMD, s.errBit (niBase ep) F.BLK_ERR_RANGE 4 (srcEp ep) stBADCMD obj)
  else if !(s.blankUsed ep n).contains i then
    (stBADCMD, s.errBit (niBase ep) F.BLK_ERR_DFREE 4 (srcEp ep) stBADCMD obj)
  else (stOK, s.freeBuf ep (n * 2 ^ 14 + i))

/-- A write of BLK_POOLn_CFG (R144). -/
def poolCfgWrite (s : State) (ep n data : Nat) : Nat × State :=
  let b := niBase ep + 8 * n
  let cnt := bitsOf data 0 13
  let core := if ep < 0xF00 then bitsOf data 13 2 else 0
  let en := bitAt data 15
  let on := s.poolOn ep n
  if 4096 < cnt then (stBADCMD, s)
  else if on && (cnt != s.poolCount ep n || core != s.poolCore ep n) then (stDENIED, s)
  else if on && !en && !(s.blankUsed ep n).isEmpty then (stDENIED, s)
  else
    let s := if !on && en then s.setBlank ep n [] else s
    let s := s.set b F.BLK_POOLn_CFG_COUNT cnt
    let s := s.set b F.BLK_POOLn_CFG_CORE core
    (stOK, s.set b F.BLK_POOLn_CFG_EN (bit en))

end State
end Sys2Proof.Machine
end

