-- ==== Sys2Proof/Machine/Hds.lean ====
section
/-! DEFINITION. The Headstock's shared operations: command formats (R376, R377, R379), rings (R371-R374), completion and
halting of commands (R386), and watch slots (R383). -/
namespace Sys2Proof.Machine

/-- Parameters of an opcode, in order, each with its width and whether it starts at a multiple of 64 bits (R377, R379);
none for a reserved opcode. -/
def params (opc : Nat) : Option (List (Nat × Bool)) :=
  let p := fun (l : List Nat) => l.map (fun w => (w, false))
  let a := fun (w : Nat) => (w, true)
  match opc with
  | 0x00 => some []
  | 0x01 => some (p [4])
  | 0x02 => some (p [10])
  | 0x10 => some (p [12, 4, 1, 1, 1, 10, 16, 32] ++ [a 48, a 48])
  | 0x11 => some (p [12, 4, 1, 1, 1, 10, 7, 6, 7, 6, 7, 24, 32] ++ [a 48, a 48])
  | 0x12 => some (p [12, 4, 1, 10, 16, 4, 12, 12, 24, 16, 12, 32] ++ [a 48])
  | 0x20 => some (p [4, 16, 17, 7] ++ [a 48])
  | 0x21 => some (p [4, 1, 12, 13, 7] ++ [a 48])
  | 0x22 => some (p [4] ++ [a 40])
  | 0x23 => some (p [1, 4, 10])
  | 0x24 => some (p [1, 4, 10])
  | 0x25 => some (p [12, 4, 10, 1, 1, 24])
  | 0x26 => some (p [12, 4, 10, 1, 24, 1])
  | 0x30 => some (p [13, 20])
  | 0x31 => some (p [13])
  | 0x38 => some (p [7, 2, 20])
  | 0x39 => some (p [7])
  | 0x40 => some (p [6, 10, 10, 40])
  | 0x41 => some (p [6, 10])
  | 0x42 => some (p [6, 10, 40])
  | 0x43 => some (p [6, 10])
  | 0x44 => some (p [4, 20, 21, 7] ++ [a 48])
  | 0x45 => some (p [7] ++ [a 48])
  | 0x46 => some (p [8])
  | 0x47 => some (p [6, 3, 10, 10, 16, 1, 20] ++ [a 40, a 40, a 40])
  | 0x50 => some (p [7, 20] ++ [a 48])
  | 0x51 => some (p [12, 4] ++ [a 40])
  | 0x52 => some []
  | 0x58 => some (p [7, 6, 7] ++ [a 48])
  | 0x59 => some (p [7, 7] ++ [a 48])
  | 0x5A => some (p [7, 12])
  | 0x60 => some (p [7, 16])
  | 0x61 => some (p [7])
  | 0x62 => some (p [7, 3])
  | 0x63 => some (p [7, 1, 4, 4])
  | 0x68 => some (p [4, 2, 7] ++ [a 48])
  | 0x69 => some (p [4])
  | 0x70 => some (p [28])
  | 0x71 => some (p [28, 32])
  | 0x72 => some []
  | _ => none

/-- Where each parameter lies: first bit and width, the first free bit being `at'` (R377). -/
def places : Nat → List (Nat × Bool) → List (Nat × Nat)
  | _, [] => []
  | at', (w, al) :: r =>
    let lo := if al then ceilDiv at' 64 * 64 else at'
    (lo, w) :: places (lo + w) r

/-- Notes of an opcode: privileged, serialising, may run ahead, Configuration A only, FORCE honoured (R379). -/
structure OpcNotes where
  p : Bool
  s : Bool
  r : Bool
  a : Bool
  f : Bool
  deriving DecidableEq, Repr

/-- The Notes column of R379. -/
def notes (opc : Nat) : OpcNotes :=
  { p := [0x01, 0x02, 0x20, 0x21, 0x22, 0x23, 0x24, 0x30, 0x31, 0x38, 0x39, 0x40, 0x41, 0x42, 0x44, 0x45, 0x46, 0x47,
      0x50, 0x51, 0x52, 0x58, 0x5A, 0x60, 0x61, 0x62, 0x63, 0x68, 0x69, 0x70, 0x71, 0x72].contains opc
    s := [0x01, 0x02, 0x22, 0x23, 0x24, 0x30, 0x31, 0x38, 0x39, 0x42, 0x68, 0x69].contains opc
    r := [0x00, 0x10, 0x11, 0x12].contains opc
    a := [0x11, 0x50, 0x51, 0x52, 0x58, 0x59, 0x5A].contains opc
    f := [0x26, 0x30, 0x38, 0x41, 0x46, 0x58].contains opc }

namespace Cmd

/-- Opcode (R376). -/
def opc (c : Cmd) : Nat := bitsOf c.bits 0 8
def force (c : Cmd) : Bool := bitAt c.bits 8
def fence (c : Cmd) : Bool := bitAt c.bits 9
def gv (c : Cmd) : Bool := bitAt c.bits 10
def gtake (c : Cmd) : Bool := bitAt c.bits 11
def irq (c : Cmd) : Bool := bitAt c.bits 12
def gtmo (c : Cmd) : Nat := bitsOf c.bits 13 19
def cookie (c : Cmd) : Nat := bitsOf c.bits 32 32
def gvid (c : Cmd) : Nat := bitsOf c.bits 64 20
def gn (c : Cmd) : Nat := bitsOf c.bits 84 40

end Cmd

/-- Parameter `i` of a command's 512 bits (R377). -/
def parOf (bits i : Nat) : Nat :=
  match (places 128 ((params (bits % 256)).getD []))[i]? with
  | some (lo, w) => bitsOf bits lo w
  | none => 0

/-- Parameter `i` of a command. -/
def Cmd.par (c : Cmd) (i : Nat) : Nat := parOf c.bits i

/-- A reserved bit of the command is set (R376, R377), FORCE on an opcode that does not honour it included. -/
def reservedSet (bits : Nat) : Bool :=
  let opc := bits % 256
  let used := places 128 ((params opc).getD [])
  bitsOf bits 124 4 != 0 || (bitAt bits 8 && !(notes opc).f) ||
  (upFrom 128 384).any (fun k => bitAt bits k && !(used.any (fun f => f.1 ≤ k && k < f.1 + f.2)))

namespace State

/-! ### Rings -/

def ringHead (s : State) (r : Nat) : Nat := s.get (0x20 * r) F.HDS_RINGr_STAT_HEAD
def ringTail (s : State) (r : Nat) : Nat := s.get (0x20 * r) F.HDS_RINGr_TAIL_TAIL
def ringState (s : State) (r : Nat) : Nat := s.get (0x20 * r) F.HDS_RINGr_STAT_STATE
def ringJob (s : State) (r : Nat) : Nat := s.get (0x20 * r) F.HDS_RINGr_CTL_JOB
def ringPriv (s : State) (r : Nat) : Bool := s.flag (0x20 * r) F.HDS_RINGr_CTL_PRIV
def ringLog (s : State) (r : Nat) : Nat := s.get (0x20 * r) F.HDS_RINGr_CTL_LOG2N

/-- The commands that a ring holds fetched, in index order. -/
def cmds (s : State) (r : Nat) : List Cmd := (mapGet s.rings r).getD []

/-- The commands of a ring replaced. -/
def setCmds (s : State) (r : Nat) (l : List Cmd) : State := { s with rings := mapSet s.rings [] r l }

/-- One command of a ring changed. -/
def updCmd (s : State) (r idx : Nat) (f : Cmd → Cmd) : State :=
  s.setCmds r (updFirst (fun c => c.idx == idx) f (s.cmds r))

/-- The command with an index. -/
def cmdAt (s : State) (r idx : Nat) : Option Cmd := (s.cmds r).find? (fun c => c.idx == idx)

/-- A command completes with a status and a result; its reply is then due (R378). -/
def finishCmd (s : State) (r idx st result : Nat) : State :=
  let s := if (s.cmdAt r idx).any (fun c => !(c.stage == .done || c.stage == .replied)) then s.completion st else s
  s.updCmd r idx (fun c => if c.stage == .done || c.stage == .replied then c
    else { c with stage := .done, st := st, result := result, ahead := false })

/-- The ring halts with a status (R373, R374, R386); logged in class HDS. -/
def haltRing (s : State) (r why : Nat) : State :=
  let s := s.set (0x20 * r) F.HDS_RINGr_STAT_STATE 2
  let s := s.set (0x20 * r) F.HDS_RINGr_STAT_WHY why
  s.report 0x15 (srcRing r) why (0xFF + 256 * r)

/-- A command holds run-ahead state: what a transfer has taken, or the watch of a speculative WAIT guard (R384). -/
def holdsAhead (c : Cmd) : Bool :=
  c.ahead || (match c.guard with
    | .sent _ => c.stage == .ready && (notes c.opc).r && !c.fence && !c.gtake
    | _ => false)

/-- The commands of a ring hold as many run-ahead states as AHEAD shows (R394). -/
def noteAhead (s : State) (r : Nat) : State :=
  s.set (0x20 * r) F.HDS_RINGr_STAT_AHEAD ((s.cmds r).filter holdsAhead).length

/-- No command of any ring is running (R392). -/
def hdsIdle (s : State) : Bool :=
  s.rings.all (fun rc => rc.2.all (fun c => c.stage != .running && c.stage != .done))

/-- A command has no guard, or its guard is satisfied, and so have all earlier guarded commands of its ring (R384). -/
def released (s : State) (r idx : Nat) : Bool :=
  (s.cmds r).all (fun c => if subMod 16 idx c.idx < 32768 && c.stage != .replied && c.stage != .done then
    !c.gv || c.guard == .met else true)

/-! ### Headstock watch slots (R383) -/

/-- A free watch slot. -/
def freeHWatch (s : State) : Option Nat :=
  (upFrom 0 256).find? (fun k => !s.hwatch.any (fun w => w.slot == k))

/-- A watch slot armed for a command: its TAG (R383, R287). -/
def armHWatch (s : State) (slot r idx unit sem wtmo : Nat) : Nat × State :=
  let g := (nget s.hgens 0 slot + 1) % 4096
  (packFields [(6, slot % 64), (12, g), (2, slot / 64)],
   { s with
     hgens := mapSet s.hgens 0 slot g
     hwatch := s.hwatch ++ [⟨slot, g, r, idx, unit, sem, s.tmo, wtmo⟩] })

/-- The SYNC_OP that the Headstock sends to a unit of this die (R382, R287). -/
def hdsSyncOp (s : State) (unit op tag opnd index wtmo : Nat) (spec : Bool) : State :=
  let d := dstPos s.build (0xF80 + unit)
  let h := { Hdr.zero with
    ptype := tSYNC_OP, dcol := d.1, drow := d.2.1, exitp := 127, job := 0x3FF
    flg := if spec then 2 ^ fSPEC else 0
    opc := op, tag := tag, addr := opnd, aux := index + wtmo * 1024, ts := s.ts }
  s.sendFrom 0xF7E (Pkt.bare h Ext.none)

/-- The effective wait timeout (R287). -/
def waitTmo (s : State) (w : Nat) : Nat := if w == 0 then s.get 0 F.SYN_CTL_WTMO else w

end State
end Sys2Proof.Machine
end

