-- ==== Sys2Proof/Machine/Sync.lean ====
section
/-! DEFINITION. The sync units: semaphores, watches, notifications, barriers and realign barriers (R280-R313, R317). -/
namespace Sys2Proof.Machine

/-- Greatest semaphore value (R281). -/
def semMax : Nat := 2 ^ 40 - 1

namespace State

/-! ### Semaphores -/

/-- A semaphore entry (R281). -/
def sem (s : State) (u i : Nat) : Nat := nget s.sems 0 (u * 1024 + i)
def semVal (s : State) (u i : Nat) : Nat := bitsOf (s.sem u i) 0 40
def semJob (s : State) (u i : Nat) : Nat := bitsOf (s.sem u i) 40 10
def semOn (s : State) (u i : Nat) : Bool := bitAt (s.sem u i) 50
def setSem (s : State) (u i v : Nat) : State := { s with sems := mapSet s.sems 0 (u * 1024 + i) v }
def setSemVal (s : State) (u i v : Nat) : State := s.setSem u i (putBits (s.sem u i) 0 40 v)

/-- Base address of a unit's registers (R318). -/
def unitBase (u : Nat) : Nat := 0x40 * u

/-- A SYN_ERR bit set and logged (R318, R428). -/
def synErr (s : State) (u : Nat) (f : Fld) (cls st detail : Nat) : State :=
  (s.set (unitBase u) f 1).report cls (srcUnit u) st detail

/-- DETAIL of classes SYNC and SYNC_TMO (R428). -/
def syncDetail (index kind scol srow tag src : Nat) : Nat :=
  packFields [(10, index), (3, kind), (7, scol), (6, srow), (24, tag), (24, src)]

/-! ### Watches -/

/-- Whether an entry of the unit is free (R291). -/
def watchRoom (s : State) (u : Nat) : Bool := (s.watches.filter (fun w => w.unit == u)).length < 2048

/-- The lowest free watch entry of a unit. -/
def freeWatch (s : State) (u : Nat) : Nat :=
  let used := (s.watches.filter (fun w => w.unit == u)).map (·.ent)
  ((upFrom 0 (used.length + 1)).find? (fun k => !used.contains k)).getD 0

/-- The watch entry of an arriving operation (R291, R295). -/
def watchOf (s : State) (u kind : Nat) (pk : Pkt) (n : Nat) : Watch :=
  let h := pk.hdr
  let wtmo := s.waitTmo (bitsOf h.aux 10 20)
  let x := entered pk
  { unit := u, ent := s.freeWatch u, fired := false, kind := kind, index := bitsOf h.aux 0 (if 3 ≤ kind then 8 else 10), n := n, tag := h.tag
    job := h.job, ctx := h.ctx, scol := h.scol, srow := h.srow
    port := if x then pk.ext.port else 127
    src := if x then pk.ext.src else 0, psn := if x then pk.ext.psn else 0, mepoch := if x then pk.ext.mepoch else 0
    deadline := (s.notchCount + wtmo) % 2 ^ 32, due := s.deadline wtmo, status := 0, value := 0 }

/-- A watch added to the end of the list. -/
def addWatch (s : State) (w : Watch) : State := { s with watches := s.watches ++ [w] }

/-- A watch fires: it keeps its status and the value observed, and joins the notification queue (R293, R294). -/
def fire (s : State) (u ent st value : Nat) : State :=
  { s with
    watches := updFirst (fun w => w.unit == u && w.ent == ent) (fun w => { w with fired := true, status := st, value := value })
      s.watches
    ntfq := s.ntfq ++ [(u, ent)] }

/-- A watch that fires at once. -/
def fireNew (s : State) (w : Watch) (st value : Nat) : State := (s.addWatch w).fire w.unit w.ent st value

/-- One watch at its place in a walk (R292); the flag says that an earlier WAIT_TAKE is still live. -/
def walkOne (u i : Nat) (a : State × Bool) (ent : Nat) : State × Bool :=
  let s := a.1
  match s.watches.find? (fun w => w.unit == u && w.ent == ent) with
  | none => a
  | some w =>
    let v := s.semVal u i
    if w.kind == 0 then (if w.n ≤ v then (s.fire u ent stOK v, a.2) else a)
    else if w.kind == 1 then
      (if !a.2 && w.n ≤ v then ((s.setSemVal u i (v - w.n)).fire u ent stOK (v - w.n), false) else (s, true))
    else a

/-- A walk of a semaphore's live watches in registration order (R292). -/
def walk (s : State) (u i : Nat) : State :=
  let es := (s.watches.filter (fun w => w.unit == u && w.index == i && !w.fired && w.kind ≤ 1)).map (·.ent)
  (es.foldl (walkOne u i) (s, false)).1

/-! ### Operations (R288-R296) -/

/-- The operation of a SYNC_OP. -/
def syncOp (h : Hdr) : Nat := h.opc % 16

/-- The operation names a slot (R288). -/
def namesSlot (h : Hdr) : Bool :=
  let op := syncOp h
  let ack := bitAt h.opc 4
  if op == 3 || op == 4 || op == 5 || op == 8 || op == 9 then true
  else if op == 6 || op == 10 || op == 11 then false
  else ack

/-- Kind of the watch that an operation registers (R291). -/
def watchKind (op : Nat) : Nat :=
  if op == 3 then 0 else if op == 4 then 1 else if op == 8 then 3 else if op == 9 then 4 else 2

/-- The malformed operations of R288: a reserved OP, a non-zero OPC[7:5] (the reserved bits that R287 checks), an operand outside its
range, or FLG.SPEC on an operation that R300 refuses with it. -/
def badOp (h : Hdr) : Bool :=
  let op := syncOp h
  let opnd := bitsOf h.addr 0 40
  !(1 ≤ op && op ≤ 12 && op != 7) || bitsOf h.opc 5 3 != 0 ||
  (if op == 4 then opnd == 0 else if op == 5 || op == 6 then opnd != 0
   else if op == 8 || op == 9 || op == 10 then 65536 ≤ opnd else false) ||
  (h.flag fSPEC && (op == 1 || op == 2 || op == 4 || op == 8 || op == 12))

/-- The source that DETAIL names (R428). -/
def xvSrc (pk : Pkt) : Nat := if pk.ext.xv == 1 then pk.ext.src else 0

/-- An operation refused: counted, its error bit set and logged, and its watch fired (R288, R289). -/
def refuseOp (s : State) (u : Nat) (pk : Pkt) (f : Fld) (st value : Nat) : State :=
  let h := pk.hdr
  let s := s.bump (unitBase u) F.SYN_REJ_CNT_COUNT 1
  let s := s.synErr u f 0xB st (syncDetail (bitsOf h.aux 0 10) (watchKind (syncOp h)) h.scol h.srow h.tag (xvSrc pk))
  if namesSlot h then s.fireNew (s.watchOf u (watchKind (syncOp h)) pk (bitsOf h.addr 0 40)) st value else s

/-- The value that a refused operation's notification carries: VALUE at the moment of firing (R294). -/
def seenValue (s : State) (u : Nat) (h : Hdr) : Nat :=
  let op := syncOp h
  if 8 ≤ op && op ≤ 11 then
    (match s.bars.find? (fun b => b.unit == u && b.inst == bitsOf h.aux 0 8) with | some b => b.epoch | none => 0)
  else s.semVal u (bitsOf h.aux 0 10)

/-- An operation applied. -/
def applied (s : State) (u : Nat) : State := s.bump (unitBase u) F.SYN_OPS_CNT_COUNT 1

/-- The checks common to every operation, in the order of R291, R288 and R289; `ok` applies it. -/
def checkOp (s : State) (u : Nat) (pk : Pkt) (ok : State → State) : State :=
  let h := pk.hdr
  let op := syncOp h
  let i := bitsOf h.aux 0 10
  if s.dom u == 2 then s      -- a unit in Penumbra applies nothing new (R400)
  else if namesSlot h && !s.watchRoom u then
    (s.bump (unitBase u) F.SYN_REJ_CNT_COUNT 1).synErr u F.SYN_ERR_WFULL 0xB stDENIED
      (syncDetail i (watchKind op) h.scol h.srow h.tag (xvSrc pk))
  else if badOp h then s.refuseOp u pk F.SYN_ERR_BADOP stBADCMD (s.seenValue u h)
  else if op == 6 then ok s
  else if 8 ≤ op && op ≤ 11 then
    (match s.bars.find? (fun b => b.unit == u && b.inst == bitsOf h.aux 0 8) with
     | some b => if b.job == h.job then ok s else s.refuseOp u pk F.SYN_ERR_DENIED stDENIED (s.seenValue u h)
     | none => s.refuseOp u pk F.SYN_ERR_DENIED stDENIED 0)
  else if !s.semOn u i || (s.semJob u i != h.job && h.job != 0x3FF) || (op == 12 && h.job != 0x3FF) then
    s.refuseOp u pk F.SYN_ERR_DENIED stDENIED (s.semVal u i)
  else ok s

/-- ADD and SUB (R290). -/
def addSub (s : State) (u : Nat) (pk : Pkt) (sub : Bool) : State :=
  let h := pk.hdr
  let i := bitsOf h.aux 0 10
  let n := bitsOf h.addr 0 40
  let v := s.semVal u i
  if sub && v < n then s.refuseOp u pk F.SYN_ERR_UNDERFLOW stUNDERFLOW v
  else if !sub && semMax < v + n then s.refuseOp u pk F.SYN_ERR_OVERFLOW stOVERFLOW v
  else
    let v' := if sub then v - n else v + n
    let s := (s.setSemVal u i v').applied u
    let s := if namesSlot h then s.fireNew (s.watchOf u 2 pk n) stOK v' else s
    if v' == v then s else s.walk u i

/-- WAIT and WAIT_TAKE: the watch is registered and evaluated (R292). -/
def waitOp (s : State) (u : Nat) (pk : Pkt) (take : Bool) : State :=
  let h := pk.hdr
  let i := bitsOf h.aux 0 10
  let n := bitsOf h.addr 0 40
  let earlier := s.watches.any (fun w => w.unit == u && w.index == i && w.kind == 1 && !w.fired)
  let w := s.watchOf u (if take then 1 else 0) pk n
  let s := (s.addWatch w).applied u
  let v := s.semVal u i
  if n ≤ v then
    (if !take then s.fire u w.ent stOK v
     else if earlier then s
     else ((s.setSemVal u i (v - n)).fire u w.ent stOK (v - n)).walk u i)
  else s

/-- READ (R288). -/
def readOp (s : State) (u : Nat) (pk : Pkt) : State :=
  (s.applied u).fireNew (s.watchOf u 2 pk 0) stOK (s.semVal u (bitsOf pk.hdr.aux 0 10))

/-- The value of a watch fired with a status other than OK: VALUE at the moment of firing, or the unit's epoch. -/
def watchValue (s : State) (w : Watch) : Nat :=
  if 3 ≤ w.kind then
    (match s.bars.find? (fun b => b.unit == w.unit && b.inst == w.index) with | some b => b.epoch | none => 0)
  else s.semVal w.unit w.index

/-- A live watch fires with a status; one that stopped later WAIT_TAKEs starts a walk (R295, R296). -/
def endWatch (s : State) (w : Watch) (st : Nat) : State :=
  let s := s.fire w.unit w.ent st (s.watchValue w)
  if w.kind == 1 then s.walk w.unit w.index else s

/-- CANCEL (R296). -/
def cancelOp (s : State) (u : Nat) (pk : Pkt) : State :=
  let h := pk.hdr
  let x := entered pk
  let s := s.applied u
  match s.watches.find? (fun w => w.unit == u && !w.fired && w.tag == h.tag && w.index == bitsOf h.aux 0 10 && w.job == h.job &&
      (if x then w.port < 127 && w.src == pk.ext.src else w.port == 127 && w.scol == h.scol && w.srow == h.srow)) with
  | none => s
  | some w => s.fire u w.ent stSQUASHED (s.watchValue w)

/-- DETAIL of a SET (R428). -/
def setDetail (i old new : Nat) : Nat := packFields [(2, 0), (10, i), (40, old), (40, new)]

/-- SET: an ADD of the difference without R290, and a walk (R311). A SEM_SET that waits for it learns the old value. -/
def setOp (s : State) (u : Nat) (pk : Pkt) : State :=
  let h := pk.hdr
  let i := bitsOf h.aux 0 10
  let n := bitsOf h.addr 0 40
  let old := s.semVal u i
  let s := (s.setSemVal u i n).applied u
  let s := s.report 0xD (srcUnit u) stOK (setDetail i old n)
  let slot := bitsOf h.tag 0 6 + 64 * bitsOf h.tag 18 2
  let s := match s.hwatch.find? (fun w => w.slot == slot && w.gen == bitsOf h.tag 6 12) with
    | some w => s.updCmd w.ring w.idx (fun c => { c with result := old })
    | none => s
  let s := if namesSlot h then s.fireNew (s.watchOf u 2 pk n) stOK n else s
  s.walk u i

/-! ### Barriers (R301-R308) -/

/-- A barrier instance of a unit. -/
def bar (s : State) (u b : Nat) : Option Bar := s.bars.find? (fun x => x.unit == u && x.inst == b)
def updBar (s : State) (u b : Nat) (f : Bar → Bar) : State :=
  { s with bars := updFirst (fun x => x.unit == u && x.inst == b) f s.bars }

/-- The epoch lies at or before another (R42 at 16 bits). -/
def epochAtOrBefore (e f : Nat) : Bool := subMod 16 f e < 32768

/-- Epoch e released at a unit: its BAR_ARRIVE watches and every BAR_WAIT watch at or before it fire OK; arrivals are
cleared and the unit's epoch advances (R306). -/
def releaseBar (s : State) (u b e : Nat) : State :=
  let ws := s.watches.filter (fun w => w.unit == u && !w.fired && w.index == b &&
    ((w.kind == 3 && w.n == e) || (w.kind == 4 && epochAtOrBefore w.n e)))
  let s := ws.foldl (fun s w => s.fire u w.ent stOK e) s
  s.updBar u b (fun x => { x with arrived := [], epoch := (e + 1) % 65536, due := none })

/-- A unit-to-unit SYNC_OP (R304, R305) to another unit of this die. -/
def unitOp (s : State) (u v op job opnd inst : Nat) : State :=
  let me := srcPos s.build (0xF80 + u)
  let d := dstPos s.build (0xF80 + v)
  let h := { Hdr.zero with
    ptype := tSYNC_OP, dcol := d.1, drow := d.2.1, exitp := 127, scol := me.1, srow := me.2, job := job
    opc := op, addr := opnd, aux := inst, ts := s.ts }
  s.sendFrom (0xF80 + u) (Pkt.bare h Ext.none)

/-- Word `k` of path set `chip` of the active bank of a table set in the route store (R124). -/
def storePath (s : State) (tset chip k : Nat) : Nat :=
  let base := s.get (8 * tset) F.NI_TSET_BASE_BASE * 65536 + 0x40000 * (1 + s.get (8 * tset) F.NI_TSET_CTL_ACTIVE) + 64 * chip
  leNat (s.ramRead (ramBase .store + base + 8 * k) 8)

/-- The path is valid (R129). -/
def pathOk (s : State) (w : Nat) : Bool :=
  let e := bitsOf w 0 7
  e == 127 || !bitAt (s.word (0x200 + 4 * (e / 32))).toNat (e % 32)

/-- The first valid path of a path set's words from an index on, in increasing order with wrap-around (R129). -/
def validFrom (s : State) (np : Nat) (paths : List Nat) (i : Nat) : Option Nat :=
  (upFrom 0 np).findSome? (fun k =>
    let j := (i + k) % np
    match paths[j]? with
    | some w => if s.pathOk w then some j else none
    | none => none)

/-- A unit-to-unit SYNC_OP to an endpoint of another chip, through path sets of table set 0 in the route store (DESIGN
CHOICE, log 13). -/
def unitOpFar (s : State) (u dest op job opnd inst : Nat) : State :=
  let c := epChip dest
  let np := bitsOf (s.storePath 0 c 0) 0 3
  let ps := (upFrom 1 7).map (s.storePath 0 c)
  match (if np == 0 then none else s.validFrom np ps ((epIndex dest + inst) % np)) with
  | none => s.report 0xB (srcUnit u) stROUTE (0xFF + 256 * inst)
  | some i =>
    let w := (ps[i]?).getD 0
    let p := bitsOf w 0 7
    let at' := (s.build.attach p).getD (0, 0)
    let me := srcPos s.build (0xF80 + u)
    let h := { Hdr.zero with
      ptype := tSYNC_OP, len := 32, dcol := at'.1, drow := at'.2, exitp := p, scol := me.1, srow := me.2, job := job
      opc := op, addr := opnd, aux := inst, ts := s.ts }
    let e : Ext := ⟨1, bitsOf w 8 1, 0, bitsOf w 9 3, 127, bitsOf w 12 42, dest, s.endpoint (0xF80 + u), 0, 0, 0⟩
    s.sendFrom (0xF80 + u) ⟨h, e, [], []⟩

/-- The operand of a BAR_DOWN (R288). -/
def downOpnd (e turn : Nat) (timed : Bool) : Nat := packFields [(16, e), (24, turn), (1, bit timed)]

/-- Units of the die other than `u` that hold mask bits of an instance. -/
def barUnits (s : State) (u b : Nat) : List Nat :=
  (s.bars.filter (fun x => x.inst == b && x.unit != u && !x.slice.isEmpty)).map (·.unit)

/-- BAR_DOWN sent on to the recorded children and to every other unit that holds mask bits (R305). -/
def sendDown (s : State) (u b : Nat) (x : Bar) (r : BarRoot) (e turn : Nat) (timed : Bool) : State :=
  let s := r.kids.foldl (fun s k => s.unitOpFar u k 11 x.job (downOpnd e turn timed) b) s
  (s.barUnits u b).foldl (fun s v => s.unitOp u v 11 x.job (downOpnd e turn timed) b) s

/-- The turn nearest the current turn whose low 24 bits are given (R306). -/
def nearTurn (s : State) (low : Nat) : Int := (s.spn.turn : Int) + signed 24 (subMod 24 low s.spn.turn)

/-- An epoch is to be released at a unit: at once, or at the edge that begins turn T; a turn already begun is released at
once with LATEREL (R306). -/
def takeDown (s : State) (u b e low : Nat) (timed : Bool) : State :=
  if !timed then s.releaseBar u b e
  else
    let t := s.nearTurn low
    if t ≤ (s.spn.turn : Int) && s.running then
      (s.synErr u F.SYN_ERR_LATEREL 0xD stOK (packFields [(2, 2), (8, b)])).releaseBar u b e
    else s.updBar u b (fun x => { x with due := some (unsigned 40 t, e) })

/-- The root releases an epoch to its domains and children and to its own unit, and advances (R305). -/
def rootRelease (s : State) (u b e turn : Nat) (timed : Bool) : State :=
  match s.bar u b with
  | none => s
  | some x => match x.root with
    | none => s
    | some r =>
      let s := s.sendDown u b x r e turn timed
      let s := s.updBar u b (fun x => { x with root := some { r with epoch := (r.epoch + 1) % 65536, doms := [], ups := [] } })
      s.takeDown u b e (turn % 2 ^ 24) timed

/-- The root looks whether its instance is complete (R304). -/
def barComplete (s : State) (u b : Nat) : State :=
  match s.bar u b with
  | none => s
  | some x => match x.root with
    | none => s
    | some r =>
      if r.doms.length + r.ups.length < r.ndom + r.nrem then s
      -- the reports stay counted until the epoch is released
      else if r.parv then s.unitOpFar u r.parent 10 x.job r.epoch r.pinst
      else s.rootRelease u b r.epoch ((s.spn.turn + r.lead) % 2 ^ 40) r.timed

/-- A report reaches the root: from a domain's unit or from a child's endpoint (R304). -/
def rootReport (s : State) (u b : Nat) (dom : Option Nat) (kid : Nat) (e : Nat) (detail : Nat) : State :=
  match s.bar u b with
  | none => s
  | some x => match x.root with
    | none => s.report 0xB (srcUnit u) stBADCMD detail
    | some r =>
      if e != r.epoch then s.synErr u F.SYN_ERR_EPOCH 0xB stEPOCH detail
      else match dom with
        | some d =>
          if r.doms.contains d then s.report 0xB (srcUnit u) stBADCMD detail
          else (s.updBar u b (fun x => { x with root := some { r with doms := r.doms ++ [d] } })).barComplete u b
        | none =>
          if r.ups.contains kid || r.nrem ≤ r.ups.length || (!r.kids.contains kid && r.nrem ≤ r.kids.length) then
            s.report 0xB (srcUnit u) stBADCMD detail
          else
            let kids := if r.kids.contains kid then r.kids else r.kids ++ [kid]
            (s.updBar u b (fun x => { x with root := some { r with ups := r.ups ++ [kid], kids := kids } })).barComplete u b

/-- BAR_ARRIVE (R303). -/
def barArriveOp (s : State) (u : Nat) (pk : Pkt) : State :=
  let h := pk.hdr
  let b := bitsOf h.aux 0 8
  let e := bitsOf h.addr 0 16
  let core := 4 * s.build.node h.scol h.srow + bitsOf h.tag 0 6 / 16
  match s.bar u b with
  | none => s
  | some x =>
    let w := s.watchOf u 3 pk e
    if pk.ext.xv == 1 || !x.slice.contains core then s.fireNew w stDENIED x.epoch
    else if x.arrived.contains core then s.fireNew w stBADCMD x.epoch
    else if e != x.epoch then
      (s.synErr u F.SYN_ERR_EPOCH 0xB stEPOCH (syncDetail b 3 h.scol h.srow h.tag 0)).fireNew w stEPOCH x.epoch
    else
      let s := ((s.addWatch w).applied u).updBar u b (fun x => { x with arrived := x.arrived ++ [core] })
      if x.arrived.length + 1 < x.slice.length then s
      else
        let root := b % s.build.units
        if root == u then s.rootReport u b (some u) 0 e 0 else s.unitOp u root 10 x.job e b

/-- BAR_WAIT (R307). -/
def barWaitOp (s : State) (u : Nat) (pk : Pkt) : State :=
  let b := bitsOf pk.hdr.aux 0 8
  let e := bitsOf pk.hdr.addr 0 16
  match s.bar u b with
  | none => s
  | some x =>
    let w := s.watchOf u 4 pk e
    let s := s.applied u
    if e != x.epoch && epochAtOrBefore e x.epoch then s.fireNew w stOK e else s.addWatch w

/-- BAR_UP (R304). -/
def barUpOp (s : State) (u : Nat) (pk : Pkt) : State :=
  let h := pk.hdr
  let b := bitsOf h.aux 0 8
  let d := syncDetail b 0 h.scol h.srow h.tag (xvSrc pk)
  let n := s.build.node h.scol h.srow
  let s := s.applied u
  if pk.ext.xv == 1 then s.rootReport u b none pk.ext.src (bitsOf h.addr 0 16) d
  else match s.build.unitAt n with
    | some v => s.rootReport u b (some v) 0 (bitsOf h.addr 0 16) d
    | none => s.report 0xB (srcUnit u) stBADCMD d

/-- BAR_DOWN (R305, R306): a root passes its parent's message on; every unit with mask bits releases. -/
def barDownOp (s : State) (u : Nat) (pk : Pkt) : State :=
  let h := pk.hdr
  let b := bitsOf h.aux 0 8
  let e := bitsOf h.addr 0 16
  let low := bitsOf h.addr 16 24
  let timed := bitAt h.addr 40
  let s := s.applied u
  match s.bar u b with
  | none => s
  | some x => match x.root with
    | some r => if r.parv then s.rootRelease u b e (unsigned 40 (s.nearTurn low)) timed else s.takeDown u b e low timed
    | none => s.takeDown u b e low timed

/-- A timed epoch whose turn has come is released (R306, R52). -/
def barTimed (s : State) (u b : Nat) : State :=
  match s.bar u b with
  | none => s
  | some x => match x.due with
    | none => s
    | some (t, e) => if s.running && !liesAfter 40 t s.spn.turn then s.releaseBar u b e else s

/-! ### Realign barriers (R309, R310) -/

/-- The smallest turn of a realign slot's series that lies after the current turn. -/
def nextRealign (k first turn : Nat) : Nat := (first + (subMod 40 turn first / k + 1) * k) % 2 ^ 40

/-- One realign slot applied at its edge (R310). -/
def realignOne (s : State) (x : Realign) : State :=
  let u := x.unit
  let a := (s.semVal u x.a : Int)
  let b := (s.semVal u x.b : Int)
  let drift := (a - b) - ((x.ra : Int) - (x.rb : Int))
  let dl := b - (x.rb : Int)
  let ok := (x.rb : Int) ≤ b && dl ≤ a
  let s := if ok then
      let d := dl.toNat
      let s := (s.setSemVal u x.a (a - dl).toNat).setSemVal u x.b x.rb
      let low := fun (w : Watch) =>
        if w.unit == u && w.kind ≤ 1 && !w.fired && (w.index == x.a || w.index == x.b) then { w with n := w.n - d } else w
      let s := { s with watches := s.watches.map low }
      (s.walk u x.a).walk u x.b
    else s
  let st := if ok then stOK else stUNDERFLOW
  let x' := { x with drift := drift, delta := dl, status := st, turn := nextRealign x.k x.turn s.spn.turn }
  let s := { s with realigns := updFirst (fun y => y.unit == x.unit && y.slot == x.slot) (fun _ => x') s.realigns }
  if (x.tol : Int) < drift.natAbs || !ok then
    (s.bump (unitBase u) F.SYN_RAL_CNT_COUNT 1).synErr u F.SYN_ERR_DRIFT 0xD st
      (packFields [(2, 1), (3, x.slot), (7, 0), (40, unsigned 40 (clampInt (-(2 ^ 39)) (2 ^ 39 - 1) drift)),
        (40, unsigned 40 (clampInt (-(2 ^ 39)) (2 ^ 39 - 1) dl))])
  else s

/-- A realign slot whose turn has come (R310, R52). -/
def realignSlot (s : State) (u slot : Nat) : State :=
  match s.realigns.find? (fun x => x.unit == u && x.slot == slot) with
  | none => s
  | some x => if x.en && s.running && !liesAfter 40 x.turn s.spn.turn then s.realignOne x else s

/-! ### Timeouts and notifications -/

/-- A watch that has not fired by its DEADLINE (R295, R308). -/
def watchTimeoutOp (s : State) (u ent : Nat) : State :=
  match s.watches.find? (fun w => w.unit == u && w.ent == ent && !w.fired) with
  | none => s
  | some w =>
    let s := s.passTo w.due
    let s := s.bump (unitBase u) F.SYN_TMO_CNT_COUNT 1
    let s := s.synErr u F.SYN_ERR_WTMO 0xC stTIMEOUT (syncDetail w.index w.kind w.scol w.srow w.tag w.src)
    s.endWatch w stTIMEOUT

/-- The next notification of a unit leaves (R293, R294). -/
def launchNtf (s : State) (u : Nat) : State :=
  match s.ntfq.find? (fun q => q.1 == u) with
  | none => s
  | some (_, ent) =>
    match s.watches.find? (fun w => w.unit == u && w.ent == ent) with
    | none => { s with ntfq := delFirst (fun q => q.1 == u) s.ntfq }
    | some w =>
      let me := srcPos s.build (0xF80 + u)
      let far := w.port < 127
      let at' := (s.build.attach w.port).getD (0, 0)
      let h := { Hdr.zero with
        ptype := tSYNC_NTF
        len := if far then 32 else 0
        dcol := if far then at'.1 else w.scol
        drow := if far then at'.2 else w.srow
        exitp := if far then w.port else if w.job == 0x3FF && w.scol == 0 && w.srow == 0 then 126 else 127
        scol := me.1, srow := me.2, job := w.job, ctx := w.ctx
        opc := w.status, tag := w.tag, addr := w.value, ts := s.ts }
      let e : Ext := if far then ⟨1, 0, 0, 0, 127, 2 ^ 42 - 1, w.src, s.endpoint (0xF80 + u), w.psn, w.mepoch, 0⟩ else Ext.none
      let s := { s with
        ntfq := delFirst (fun q => q.1 == u) s.ntfq
        watches := delFirst (fun x => x.unit == u && x.ent == ent) s.watches }
      (s.bump (unitBase u) F.SYN_FIRE_CNT_COUNT 1).sendFrom (0xF80 + u) ⟨h, e, [], []⟩

/-- The bank of an operation (R282); the barrier operations of a unit are taken as a group of their own (DEDUCED, log 38). -/
def opBank (h : Hdr) : Nat := if 8 ≤ syncOp h && syncOp h ≤ 11 then 4 else bitsOf h.aux 0 10 % 4

/-- No operation for the same bank has arrived before this one: in an earlier cycle, or in the same cycle on an earlier lane
(R282). -/
def firstOfBank (l : List Arrival) (a : Arrival) : Bool :=
  !l.any (fun x => x.pkt.hdr.ptype == tSYNC_OP && opBank x.pkt.hdr == opBank a.pkt.hdr &&
    (x.at' < a.at' || (x.at' == a.at' && x.vc < a.vc)))

/-- The arrival of an operation that `op` accepts, at a unit, where it is the next of its bank (R282). -/
def takeSyncOp (s : State) (u : Nat) (op : Nat → Bool) : Option (Pkt × State) :=
  (s.takeArrival (0xF80 + u) (fun a => a.pkt.hdr.ptype == tSYNC_OP && op (syncOp a.pkt.hdr) && firstOfBank (s.arrived (0xF80 + u)) a)).map (fun r => (r.1.pkt, r.2))

/-- An operation code's arrival taken, checked and applied. -/
def syncRow (s : State) (u op : Nat) (f : State → Pkt → State) : State :=
  match s.takeSyncOp u (fun o => o == op) with
  | none => s
  | some (pk, s) => s.checkOp u pk (fun s => f s pk)

end State

/-! ### The rows -/

/-- Runs an effect at a built sync unit whose domain runs. -/
def atUnit (u : Nat) (s : State) (f : State → State) : Host.Outcome State Fault Refusal :=
  act (s.unitOn u) s f

/-- ADD (R290). -/
def execAdd (unit : Nat) (s : State) : Host.Outcome State Fault Refusal :=
  atUnit unit s (fun s => s.syncRow unit 1 (fun s pk => s.addSub unit pk false))
/-- SUB (R290). -/
def execSub (unit : Nat) (s : State) : Host.Outcome State Fault Refusal :=
  atUnit unit s (fun s => s.syncRow unit 2 (fun s pk => s.addSub unit pk true))
/-- WAIT (R292). -/
def execWait (unit : Nat) (s : State) : Host.Outcome State Fault Refusal :=
  atUnit unit s (fun s => s.syncRow unit 3 (fun s pk => s.waitOp unit pk false))
/-- WAIT_TAKE (R292). -/
def execWaitTake (unit : Nat) (s : State) : Host.Outcome State Fault Refusal :=
  atUnit unit s (fun s => s.syncRow unit 4 (fun s pk => s.waitOp unit pk true))
/-- The READ sync operation (R288). -/
def execSyncRead (unit : Nat) (s : State) : Host.Outcome State Fault Refusal :=
  atUnit unit s (fun s => s.syncRow unit 5 (fun s pk => s.readOp unit pk))
/-- CANCEL (R296). -/
def execCancel (unit : Nat) (s : State) : Host.Outcome State Fault Refusal :=
  atUnit unit s (fun s => s.syncRow unit 6 (fun s pk => s.cancelOp unit pk))
/-- BAR_ARRIVE (R303). -/
def execBarArrive (unit : Nat) (s : State) : Host.Outcome State Fault Refusal :=
  atUnit unit s (fun s => s.syncRow unit 8 (fun s pk => s.barArriveOp unit pk))
/-- BAR_WAIT (R307). -/
def execBarWait (unit : Nat) (s : State) : Host.Outcome State Fault Refusal :=
  atUnit unit s (fun s => s.syncRow unit 9 (fun s pk => s.barWaitOp unit pk))
/-- BAR_UP (R304). -/
def execBarUp (unit : Nat) (s : State) : Host.Outcome State Fault Refusal :=
  atUnit unit s (fun s => s.syncRow unit 10 (fun s pk => s.barUpOp unit pk))
/-- BAR_DOWN (R306). -/
def execBarDown (unit : Nat) (s : State) : Host.Outcome State Fault Refusal :=
  atUnit unit s (fun s => s.syncRow unit 11 (fun s pk => s.barDownOp unit pk))
/-- SET (R311). -/
def execSet (unit : Nat) (s : State) : Host.Outcome State Fault Refusal :=
  atUnit unit s (fun s => s.syncRow unit 12 (fun s pk => s.setOp unit pk))
/-- SYNC_OP_RESERVED (R288). -/
def execSyncOpReserved (unit : Nat) (s : State) : Host.Outcome State Fault Refusal :=
  atUnit unit s (fun s =>
    match s.takeSyncOp unit (fun o => !(1 ≤ o && o ≤ 12 && o != 7)) with
    | none => s
    | some (pk, s) => s.checkOp unit pk (fun s => s))
/-- BAR_TIMED_RELEASE (R306). -/
def execBarTimedRelease (unit inst : Nat) (s : State) : Host.Outcome State Fault Refusal :=
  atUnit unit s (fun s => s.barTimed unit inst)
/-- REALIGN (R310). -/
def execRealign (unit slot : Nat) (s : State) : Host.Outcome State Fault Refusal :=
  atUnit unit s (fun s => s.realignSlot unit slot)
/-- WATCH_TIMEOUT (R295). -/
def execWatchTimeout (unit watch : Nat) (s : State) : Host.Outcome State Fault Refusal :=
  atUnit unit s (fun s => s.watchTimeoutOp unit watch)
/-- NOTIFICATION_LAUNCH (R293). -/
def execNotificationLaunch (unit : Nat) (s : State) : Host.Outcome State Fault Refusal :=
  atUnit unit s (fun s => s.launchNtf unit)

end Sys2Proof.Machine
end

