-- ==== Sys2Proof/Machine/NiSend.lean ====
section
/-! DEFINITION. The sending side of a network interface: table lookups (R120-R125), Prism spraying (R129), forming and
launching packets (R131-R133, R470), outstanding packets, retries and replies (R145-R147), and throttling (R148, R149). -/
namespace Sys2Proof.Machine

/-- An operation with nothing in it. -/
def Op.zero : Op :=
  { id := 0, ep := 0, who := .nobody, kind := .write, ctx := 0, chan := 0, glint := false, fence := false, rank := 0
    dest := none, len := 0, laddr := 0, raddr := 0, opc := 0, tag := 0, aux := 0, flg := 0, mepoch := 0, par := 0
    data := [], bad := [], next := 0, formed := 0, moved := 0, st := 0, spec := false, resv := 0, seqs := []
    ended := false, want := none }

/-- Outstanding-table entries of an NI (R145). -/
def outSize (ep : Nat) : Nat := if ep < 0xF00 then 256 else 4096

/-- The stage of a packet that has not launched. -/
def ReqStage.unsent : ReqStage → Bool
  | .reading => true
  | .formed => true
  | _ => false

/-- The stage of a packet that is outstanding or awaits its retry. -/
def ReqStage.out : ReqStage → Bool
  | .flying _ => true
  | .backoff _ => true
  | .pathWait => true
  | _ => false

namespace State

/-! ### Table sets (R120-R126) -/

def tsetV (s : State) (t : Nat) : Bool := s.flag (8 * t) F.NI_TSET_CTL_V
def tsetEpoch (s : State) (t : Nat) : Nat := s.get (8 * t) F.NI_TSET_CTL_EPOCH

/-- Address of a rank entry, or of a path set of a bank, of a table set (R124). -/
def tableAddr (s : State) (t : Nat) (path : Bool) (key bank : Nat) : Nat :=
  s.get (8 * t) F.NI_TSET_BASE_BASE * 65536 + (if path then 0x40000 * (1 + bank) + 64 * key else 4 * key)

/-- A cache of an NI: newest first. -/
def cache (s : State) (path : Bool) (ep : Nat) : List (Nat × Nat) := (mapGet (if path then s.pathC else s.rankC) ep).getD []
def setCache (s : State) (path : Bool) (ep : Nat) (l : List (Nat × Nat)) : State :=
  if path then { s with pathC := mapSet s.pathC [] ep l } else { s with rankC := mapSet s.rankC [] ep l }

/-- Every cached entry of a table set dropped (R127). -/
def dropCaches (s : State) (t : Nat) : State :=
  let keep := fun (m : List (Nat × List (Nat × Nat))) =>
    (m.map (fun e => (e.1, e.2.filter (fun kv => kv.1 / 65536 != t)))).filter (fun e => !e.2.isEmpty)
  { s with rankC := keep s.rankC, pathC := keep s.pathC }

/-- A table read for this entry is under way. -/
def tablePending (s : State) (p : Purp) : Bool := s.reqs.any (fun q => q.purp == p) || s.txns.any (fun t => t.purp == p)

/-- A rank entry or path set of a table set, from the cache; on a miss the NI reads it (R123). -/
def look (s : State) (ep ctx t : Nat) (path : Bool) (key : Nat) : Option Nat × State :=
  let k := t * 65536 + key
  let c := s.cache path ep
  match c.find? (fun e => e.1 == k) with
  | some e => (some e.2, s.setCache path ep (e :: c.filter (fun x => x.1 != k)))
  | none =>
    let p := Purp.table ep t path key (s.tsetEpoch t)
    if s.tablePending p then (none, s)
    else
      let a := s.tableAddr t path key (s.get (8 * t) F.NI_TSET_CTL_ACTIVE)
      let len := if path then 64 else 4
      (none,
        if s.flag (8 * t) F.NI_TSET_CTL_LOC then s.ownRead ep ctx (s.get (8 * t) F.NI_TSET_CTL_MAPP) a len p
        else if ep < 0xF00 then s.ownReq ep ctx 126 { Hdr.zero with ptype := tREAD, addr := a, aux := len } [] p
        else s.readMem .store a len p)

/-! ### Path sets (R124, R129) -/

/-- Word k of a path set. -/
def pathWord (ps k : Nat) : Nat := bitsOf ps (64 * k) 64

/-- The path of a path set that a slot's rotor gives, and the slot with the rotor moved on (R129). -/
def takePath (s : State) (ep : Nat) (sl : SendSlot) (ps : Nat) : Option (Nat × SendSlot) :=
  let np := bitsOf ps 0 3
  if np == 0 then none
  else
    let ws := (upFrom 1 np).map (pathWord ps)
    let start := (sl.rotor.getD ((ep + sl.chan) % np)) % np
    match s.validFrom np ws start with
    | none => none
    | some i =>
      let taken := (if i == start then sl.taken else 0) + 1
      let wt := bitsOf ((ws[i]?).getD 0) 54 2
      if wt + 1 ≤ taken then
        some (i, { sl with rotor := some ((s.validFrom np ws ((i + 1) % np)).getD i), taken := 0, prev := i })
      else some (i, { sl with rotor := some i, taken := taken, prev := i })

/-- The route that a path gives toward an endpoint (R125): header and extension; none for another combination. -/
def routeBy (s : State) (ep dest w : Nat) (cls : Nat) : Option (Hdr × Ext) :=
  let e := bitsOf w 0 7
  let ord := bitsOf w 7 1
  let me := srcPos s.build ep
  let i := epIndex dest
  if e == 127 then
    (if epChip dest == s.chip && ((i < 0xF00 && i < s.build.nodes) || (0xF00 ≤ i && i < 0xF7E && s.build.portKind (i - 0xF00) != 0)) then
      let d := dstPos s.build i
      some ({ Hdr.zero with vcn := 2 * cls + ord, ord := ord, dcol := d.1, drow := d.2.1, exitp := d.2.2, scol := me.1, srow := me.2 },
        Ext.none)
    else none)
  else if s.build.isLink e && s.chip != 0xFFF then
    let a := (s.build.attach e).getD (0, 0)
    some ({ Hdr.zero with vcn := 2 * cls + ord, ord := ord, dcol := a.1, drow := a.2, exitp := e, scol := me.1, srow := me.2 },
      ⟨1, bitsOf w 8 1, 0, bitsOf w 9 3, 127, bitsOf w 12 42, dest, s.endpoint ep, 0, 0, 0⟩)
  else none

/-! ### Slots and counts -/

def sslot (s : State) (ep ctx chan : Nat) : Option SendSlot :=
  s.sslots.find? (fun x => x.ep == ep && x.ctx == ctx && x.chan == chan)
def updSslot (s : State) (ep ctx chan : Nat) (f : SendSlot → SendSlot) : State :=
  { s with sslots := updFirst (fun x => x.ep == ep && x.ctx == ctx && x.chan == chan) f s.sslots }

/-- Packets of a channel, as its slot counts them. -/
def chanReqs (s : State) (ep ctx chan : Nat) : List Req :=
  s.reqs.filter (fun q => q.slot && q.ep == ep && q.ctx == ctx && q.chan == chan)

/-- Outstanding-table entries in use at an NI, those that run-ahead holds included (R145, R384). -/
def outUsed (s : State) (ep : Nat) : Nat :=
  (s.reqs.filter (fun q => q.ep == ep && q.entry.isSome)).length +
  ((s.ops.filter (fun o => o.ep == ep)).map (·.resv)).foldl (· + ·) 0

/-- Outstanding packets of a context (NI_CTX_STAT.OUT). -/
def ctxOut (s : State) (ep ctx : Nat) : Nat :=
  (s.reqs.filter (fun q => q.slot && q.ep == ep && q.ctx == ctx && q.stage.out)).length

def opOf (s : State) (id : Nat) : Option Op := s.ops.find? (fun o => o.id == id)
def updOp (s : State) (id : Nat) (f : Op → Op) : State := { s with ops := updFirst (fun o => o.id == id) f s.ops }
def updReq (s : State) (id : Nat) (f : Req → Req) : State := { s with reqs := updFirst (fun q => q.id == id) f s.reqs }
def dropReq (s : State) (id : Nat) : State := { s with reqs := delFirst (fun q => q.id == id) s.reqs }

/-- Packets of an operation that have not ended. -/
def opReqs (s : State) (id : Nat) : List Req :=
  s.reqs.filter (fun q => match q.purp with | .op o _ => o == id | _ => false)

/-! ### The end of an operation -/

/-- An operation is over: its command, slot or engine learns its status. -/
def endOp (s : State) (o : Op) : State :=
  let xfer := o.kind == .write || o.kind == .read
  match o.who with
  | .cmd r i => ({ s with ops := delFirst (fun x => x.id == o.id) s.ops }).finishCmd r i o.st (if xfer then o.moved else 0)
  | .desc slot =>
    ({ s with ops := delFirst (fun x => x.id == o.id) s.ops }).slotDone o.ep slot o.st (some (if xfer then o.moved % 2 ^ 40 else 0))
  | .nobody => { s with ops := delFirst (fun x => x.id == o.id) s.ops }
  | _ => s.updOp o.id (fun x => { x with ended := true })

/-- An operation ends when every packet is formed and answered (launched, for packets without a reply), no hold of it
runs (R192), and no write of read data is under way. -/
def checkOp' (s : State) (id : Nat) : State :=
  match s.opOf id with
  | none => s
  | some o =>
    if o.ended || o.spec || o.next < o.len || !(s.opReqs id).isEmpty || s.holds.any (fun h => h.op == id && !h.past) ||
        s.txns.any (fun t => match t.purp with | .opWrite x _ _ => x == id | _ => false) then s
    else s.endOp o

/-- A CHAN_CLOSE that waits completes when nothing of its channel is left (R137). -/
def checkClose (s : State) (ep ctx chan : Nat) : State :=
  match s.sslot ep ctx chan with
  | none => s
  | some sl => match sl.closing with
    | none => s
    | some (r, i) =>
      if (s.chanReqs ep ctx chan).isEmpty && !s.ops.any (fun o => o.ep == ep && o.ctx == ctx && o.chan == chan && !o.ended) then
        ({ s with sslots := delFirst (fun x => x == sl) s.sslots }).finishCmd r i stOK 0
      else s

/-- SEQ values taken ahead and not used return: the next SEQ of the send slot is the lowest returned (R384). -/
def returnSeqs (s : State) (o : Op) : State :=
  match o.seqs with
  | [] => s
  | q :: _ => (s.updOp o.id (fun x => { x with seqs := [] })).updSslot o.ep o.ctx o.chan (fun x =>
      if subMod 16 x.next q < 32768 then { x with next := q } else x)

/-- Packets of an operation not yet launched are withdrawn and it forms no more; its status is the first one (R147). -/
def failOp (s : State) (id st : Nat) : State :=
  let gone := fun (q : Req) => q.stage.unsent && (match q.purp with | .op o _ => o == id | _ => false)
  let s := { s with reqs := s.reqs.filter (fun q => !gone q) }
  let s := match s.opOf id with | some o => s.returnSeqs o | none => s
  (s.updOp id (fun o => { o with next := o.len, st := firstSt o.st st, want := none, resv := 0, spec := false })).checkOp' id

/-- The enabled send queue of a broken send slot is broken (R326). -/
def breakQueue (s : State) (ep ctx chan : Nat) : State :=
  if 0xF00 ≤ ep then s
  else (upFrom 0 16).foldl (fun s q =>
    let b := niBase ep + 0x20 * q
    if s.flag b F.CQU_SQs_CTL_EN && s.get b F.CQU_SQs_CTL_CTX == ctx && s.get b F.CQU_SQs_CTL_CHAN == chan then
      s.set b F.CQU_SQs_STAT_BROKEN 1
    else s) s

/-- A send slot breaks: what it has not launched ends with the same status (R147), and its send queue is broken (R326). -/
def breakSlot (s : State) (ep ctx chan st : Nat) : State :=
  let s := (s.updSslot ep ctx chan (fun x => { x with broken := some (x.broken.getD st) })).breakQueue ep ctx chan
  let mine := (s.ops.filter (fun o => o.ep == ep && o.ctx == ctx && o.chan == chan && !o.ended && !o.spec &&
    (o.next < o.len || (s.opReqs o.id).any (fun q => q.stage.unsent)))).map (·.id)
  mine.foldl (fun s id => s.failOp id st) s

/-! ### Forming packets -/

/-- What forming one packet came to. -/
inductive Formed where
  | stuck (s : State)
  | done (s : State)
  | fail (st : Nat) (s : State)

/-- Largest payload of a packet of an operation (R70, R80, R224). -/
def pktMax (o : Op) (far : Bool) : Nat :=
  match o.kind with
  | .write => if o.glint then 256 else if far then 8192 else 2048
  | .read => if o.glint then 256 else 2048
  | .mc => 1024
  | .red => let g := groupBytes (o.opc % 16); if g == 0 then 512 else 512 / g * g
  | .send => if o.glint then 256 else 2048

/-- The class of an operation's packets (R70). -/
def clsOf (o : Op) : Nat :=
  match o.kind with
  | .mc => 1
  | .red => 2
  | _ => if o.glint then 3 else 0

def ptypeOf (o : Op) : Nat :=
  match o.kind with
  | .write => tWRITE
  | .read => tREAD
  | .send => tSEND
  | .red => tREDUCE
  | .mc => if bitAt (parOf o.par 2) 0 then tSEND else tWRITE

/-- The packets of an engine's contribution carry FLG.LAST as their engine gives it (R220). -/
def ownsLast (o : Op) : Bool := o.kind == .red && (match o.who with | .nobody => true | .col _ _ _ _ => true | _ => false)

/-- The next packet of an operation, with its route known (R121, R125). -/
def formPkt (s : State) (o : Op) (core : Nat) (h : Hdr) (e : Ext) (path : Nat) : State :=
  let far := e.xv == 1
  let n := min (pktMax o far) (o.len - o.next)
  let last := o.len ≤ o.next + n
  let rd := o.kind == .read
  let plain := o.kind == .red || o.kind == .mc
  let bad := (o.bad.filter (fun u => o.next ≤ 64 * u && 64 * u < o.next + n)).map (· - o.next / 64)
  let addr := if o.kind == .red then o.raddr + o.next
    else if !plain && epIndex (o.dest.getD 0) < 0xF00 then core * 2 ^ 46 + (o.raddr + o.next) % 2 ^ 46
    else (o.raddr + o.next) % 2 ^ 48
  let flg := o.flg + (if o.fence && o.next == 0 then 2 ^ fFENCE else 0) + (if last && !ownsLast o then 2 ^ fLAST else 0) +
    (if bad.isEmpty || bitAt o.flg fPOISON then 0 else 2 ^ fPOISON)
  let h := { h with
    ptype := ptypeOf o, len := if rd then 0 else n, job := s.ctxJob o.ep o.ctx, ctx := o.ctx, chan := o.chan
    flg := flg, opc := o.opc
    tag := if o.kind == .mc then (o.tag + o.formed) % 2 ^ 24 else o.tag
    addr := addr, aux := if rd then n else o.aux }
  let e := if far then { e with slen := if rd then 0 else n, mepoch := o.mepoch } else e
  let id := s.nextId
  let pre := (o.data.drop o.next).take n
  let rest := if rd then 0 else n - pre.length
  let q : Req :=
    { id := id, ep := o.ep, purp := .op o.id o.next, pkt := ⟨h, e, pre, if bitAt o.flg fPOISON then upFrom 0 (ceilDiv n 64) else bad⟩
      stage := if rest == 0 then .formed else .reading
      slot := true, ctx := o.ctx, chan := o.chan, off := o.next, path := path, tset := s.ctxTset o.ep o.ctx
      expects := !plain, entry := none, replies := if rd then 1 else max 1 (ceilDiv (if far then n else 0) 2048)
      tries := 0, left := 0, segs := if rd then 1 else max 1 (ceilDiv (if far then n else 0) 2048) }
  let s := (s.addReq q).updOp o.id (fun x => { x with next := o.next + n, formed := x.formed + 1, want := none })
  if rest == 0 then s
  else
    let m := niMem s.build o.ep (o.laddr + (o.next + pre.length - o.data.length))
    s.readMem m.1 m.2 rest (.source id)

/-- The context's table set gives no table (R124). -/
def noTable (s : State) (ep ctx : Nat) : Bool := !s.tsetV (s.ctxTset ep ctx)

/-- The branching multicast of R178 to an interval of this die. -/
def formMcHere (s : State) (o : Op) : State :=
  let me := srcPos s.build o.ep
  let col := parOf o.par 3 == 1
  let relay := parOf o.par 4 == 1
  let h := { Hdr.zero with
    vcn := if col then 3 else 2, dcol := parOf o.par 6, drow := parOf o.par 7, exitp := 127, scol := me.1, srow := me.2
    span := parOf o.par 8 }
  let o := { o with
    flg := if relay then 2 ^ fRELAY else 0
    aux := if relay then parOf o.par 9 + 64 * parOf o.par 10 else 0 }
  s.formPkt o 0 h Ext.none 0

/-- Why a path gives no route: one off the die while the die has no chip ID is refused with ROUTE (R35), any other with BADCMD (R125).
R125 would have every path refused with BADCMD while CHIP_ID is 0xFFF; R35 is followed (DESIGN CHOICE, log 35). -/
def noRouteSt (s : State) (w : Nat) : Nat := if s.chip == 0xFFF && s.build.isLink (bitsOf w 0 7) then stROUTE else stBADCMD

/-- One more packet of an operation. -/
def formOne (s : State) (o : Op) : Formed :=
  let t := s.ctxTset o.ep o.ctx
  let ch := s.chanReqs o.ep o.ctx o.chan
  let room := if o.kind == .red || o.kind == .mc then (ch.filter (fun q => q.stage.unsent)).length < 256 else ch.length < 256
  match s.sslot o.ep o.ctx o.chan with
  | none => .fail stBADCMD s
  | some sl =>
    match sl.broken with
    | some st => .fail st s
    | none =>
      if s.ctxStopped o.ep o.ctx || !room then .stuck s
      else if o.kind == .mc && epChip (parOf o.par 11) == s.chip then .done (s.formMcHere o)
      else if s.noTable o.ep o.ctx then .fail stBADCMD s
      else
        -- the destination endpoint: from the rank table, or named by the command
        let rk := if o.kind == .mc then (some (2 ^ 31 + parOf o.par 11), s)
          else match o.dest with
            | some d => if o.rank == 0x10000 then (some (2 ^ 31 + d), s) else s.look o.ep o.ctx t false o.rank
            | none => s.look o.ep o.ctx t false o.rank
        match rk with
        | (none, s) => .stuck (s.updOp o.id (fun x => { x with want := some (false, t * 65536 + o.rank) }))
        | (some ent, s) =>
          let dest := bitsOf ent 0 24
          let core := bitsOf ent 24 2
          if !bitAt ent 31 then .fail stBADCMD s
          else if sl.ord && sl.dest != dest then .fail stBADCMD s
          else if o.kind == .red && bitAt o.opc 4 &&
              !(0xF00 ≤ epIndex dest && epIndex dest < 0xF7E && (epChip dest != s.chip || s.build.isBowlPort (epIndex dest - 0xF00))) then .fail stBADCMD s
          else match s.look o.ep o.ctx t true (epChip dest) with
            | (none, s) => .stuck (s.updOp o.id (fun x => { x with want := some (true, t * 65536 + epChip dest) }))
            | (some ps, s) =>
              match (if o.kind == .mc then
                  -- never sprayed: one path for all multicasts of the NI toward a chip (R182, log 38)
                  (s.validFrom (bitsOf ps 0 3) ((upFrom 1 (bitsOf ps 0 3)).map (pathWord ps)) (o.ep % max 1 (bitsOf ps 0 3))).map (fun i => (i, sl))
                else if bitAt o.flg fESC && sl.prev < bitsOf ps 0 3 && s.pathOk (pathWord ps (sl.prev + 1)) then some (sl.prev, sl)
                else s.takePath o.ep sl ps) with
              | none => .fail stROUTE s
              | some (i, sl') =>
                let w := pathWord ps (i + 1)
                match s.routeBy o.ep dest w (clsOf o) with
                | none => .fail (s.noRouteSt w) s
                | some (h, e) =>
                  if o.kind == .mc && (e.xv == 0 || parOf o.par 2 == 1 || parOf o.par 4 == 1) then .fail stBADCMD s
                  else
                    let h := if o.kind == .mc then { h with vcn := 2 + parOf o.par 3, ord := 0, span := parOf o.par 8 } else h
                    let s := s.updSslot o.ep o.ctx o.chan (fun _ => sl')
                    .done (s.formPkt { o with dest := some dest } core h e i)

/-- An operation may form: it is released and no earlier operation of its slot still forms (R470). -/
def mayForm (s : State) (o : Op) : Bool :=
  !o.spec && !o.ended && o.next < o.len &&
  !(s.ops.takeWhile (fun x => x.id != o.id)).any (fun x =>
    x.ep == o.ep && x.ctx == o.ctx && x.chan == o.chan && !x.ended && x.next < x.len)

/-- Operations of an NI form packets while they may. -/
def formMore (s : State) (ep : Nat) : Nat → State
  | 0 => s
  | k + 1 =>
    let step := fun (acc : Option State) (o : Op) =>
      match acc with
      | some s' => some s'
      | none =>
        if o.ep != ep || !s.mayForm o then none
        else match s.formOne o with
          | .done s' => some s'
          | .fail st s' => some (s'.failOp o.id st)
          | .stuck s' => if s' == s then none else some s'
    match s.ops.foldl step none with
    | some s' => s'.formMore ep k
    | none => s

/-- Forming with room for every packet that one event can make possible. -/
def form (s : State) (ep : Nat) : State := s.formMore ep 1024

/-! ### Starting an operation -/

/-- The checks made when an operation starts (R119, R131, R137, R147): OK, or the status it completes with. -/
def startCheck (s : State) (o : Op) : Nat :=
  if !s.ctxOn o.ep o.ctx then stDENIED
  else match s.sslot o.ep o.ctx o.chan with
    | none => stBADCMD
    | some sl =>
      if sl.closing.isSome then stBADCMD
      else match sl.broken with
        | some st => st
        | none => if sl.ord && o.kind == .red then stBADCMD else stOK

/-- An operation starts: it fails, or joins those of its NI and forms packets. -/
def startOp (s : State) (o : Op) : State :=
  let st := s.startCheck o
  let o := { o with id := s.nextId }
  let s := { s with nextId := s.nextId + 1 }
  if st != stOK then ({ s with ops := s.ops ++ [{ o with st := st, next := o.len }] }).checkOp' o.id
  else (({ s with ops := s.ops ++ [o] }).form o.ep).checkOp' o.id

/-- An operation that has not looked up its destination yet goes off the die, as far as the NI knows without a read: by the endpoint
that its command names, or by a cached rank entry (R384; DESIGN CHOICE, log 17). -/
def aheadFar (s : State) (o : Op) : Bool :=
  match (if o.rank == 0x10000 then o.dest else
      ((s.cache false o.ep).find? (fun e => e.1 == s.ctxTset o.ep o.ctx * 65536 + o.rank)).map (fun e => bitsOf e.2 0 24)) with
  | some d => epChip d != s.chip
  | none => false

/-- A speculative operation takes its run-ahead state (R384): entries and allowance, and the SEQ values of its packets. -/
def reserveOp (s : State) (o : Op) : State :=
  let pkts := ceilDiv o.len (pktMax o (s.aheadFar o))
  let n := if o.kind == .red || o.kind == .mc then 0 else pkts
  let chan := (s.chanReqs o.ep o.ctx o.chan).length +
    ((s.ops.filter (fun x => x.ep == o.ep && x.ctx == o.ctx && x.chan == o.chan)).map (·.resv)).foldl (· + ·) 0
  let n := min n (min (256 - chan) (outSize o.ep - s.outUsed o.ep))
  let sq := match s.sslot o.ep o.ctx o.chan with
    | some x => (upFrom x.next pkts).map (· % 65536)
    | none => []
  let s := s.updSslot o.ep o.ctx o.chan (fun x => { x with next := (x.next + pkts) % 65536 })
  { s with ops := s.ops ++ [{ o with id := s.nextId, spec := true, resv := n, seqs := sq }], nextId := s.nextId + 1 }

/-- A speculative operation is released: it is checked and forms packets (R384). -/
def releaseOp (s : State) (o : Op) : State :=
  let st := s.startCheck o
  if st != stOK then s.failOp o.id st
  else ((s.updOp o.id (fun x => { x with spec := false })).form o.ep).checkOp' o.id

/-! ### Throttling (R148, R149) -/

/-- A bucket of an NI and class. -/
def bucket (s : State) (ep cls : Nat) : Bucket := (mapGet s.buckets (4 * ep + cls)).getD ⟨0, 0⟩
def setBucket (s : State) (ep cls : Nat) (b : Bucket) : State := { s with buckets := mapSet s.buckets ⟨0, 0⟩ (4 * ep + cls) b }

/-- The level of a class set. -/
def setThrLevel (s : State) (ep cls v : Nat) : State :=
  s.setWord (niBase ep + 0x1010) (setWordField (s.word (niBase ep + 0x1010)) (3 * cls) 3 v)

/-- The class is throttled at this NI (R149). -/
def throttled (s : State) (ep cls : Nat) : Bool := ep != 0xF7E && (cls != 3 || s.flag (niBase ep) F.NI_THR_GLINT_EN)

/-- Flits of the segments of a launched packet that have not launched (R82, R148). -/
def leftFlits (q : Req) : Nat := if q.left == 0 then 0 else q.left + ceilDiv (q.pkt.hdr.len - 2048 * (q.segs - q.left)) 64

/-- Flits in packets formed and not launched (R148). A packet whose source bytes are being read counts as formed (DESIGN CHOICE, log 38). -/
def backlog (s : State) (ep cls : Nat) : Nat :=
  ((s.reqs.filter (fun q => q.ep == ep && classOf q.pkt.hdr.vcn == cls)).map leftFlits).foldl (· + ·) 0 +
  ((s.reqs.filter (fun q => q.ep == ep && q.stage.unsent && classOf q.pkt.hdr.vcn == cls)).map
    (fun q => q.segs + ceilDiv q.pkt.hdr.len 64)).foldl (· + ·) 0 +
  (if cls == 1 then ((s.relayq.filter (fun r => r.1 == ep)).map (fun r => 1 + ceilDiv r.2.hdr.len 64)).foldl (· + ·) 0 else 0)

/-- One class at a notch edge (R148). -/
def throttleCls (ep : Nat) (s : State) (cls : Nat) : State :=
  if cls == 3 && !s.throttled ep 3 then (s.setThrLevel ep 3 0).setBucket ep 3 ⟨0, 0⟩
  else
    let b := s.backlog ep cls
    let l := s.thrLevel ep cls
    let bk := s.bucket ep cls
    let rec' := s.get (niBase ep) F.NI_THR_RECOVER
    let low := b ≤ s.get (niBase ep) F.NI_THR_LOW * 8
    if s.get (niBase ep) F.NI_THR_HIGH * 8 < b then
      -- L increases, up to 6, also where both rules apply
      (if l < 6 then (s.setThrLevel ep cls (l + 1)).setBucket ep cls { bk with run := 0 }
      else s.setBucket ep cls { bk with run := if low then bk.run + 1 else 0 })
    else if !low then s.setBucket ep cls { bk with run := 0 }
    else if 0 < l && rec' ≤ bk.run + 1 then (s.setThrLevel ep cls (l - 1)).setBucket ep cls { bk with run := 0 }
    else if l == 0 then s.setBucket ep cls { bk with run := 0 }
    else s.setBucket ep cls { bk with run := bk.run + 1 }

/-- The bucket of a class holds at least `flits` flits, or the class is not throttled (R148). -/
def bucketHolds (s : State) (ep cls flits : Nat) : Bool := !s.throttled ep cls || (s.bucket ep cls).spent + flits * 4096 ≤ 33 * 4096

/-- A launch removes its flits from the bucket (R148). -/
def spend (s : State) (ep cls flits : Nat) : State :=
  if s.throttled ep cls then
    let b := s.bucket ep cls
    s.setBucket ep cls { b with spent := b.spent + flits * 4096 }
  else s

/-! ### Launching (R132, R133, R145, R470) -/

/-- A fresh outstanding-table entry with its next generation: the lowest free one. -/
def takeEntry (s : State) (ep : Nat) : Option (Nat × Nat × State) :=
  let used := (s.reqs.filter (fun q => q.ep == ep)).filterMap (·.entry)
  match (upFrom 0 (used.length + 1)).find? (fun i => !used.contains i && i < outSize ep) with
  | none => none
  | some i =>
    let k := ep * 4096 + i
    let g := (nget s.gens 0 k + 1) % 4096
    some (i, g, { s with gens := mapSet s.gens 0 k g })

/-- The segments of a packet that leaves the die (R82); a packet that stays is its only one. -/
def segments (pk : Pkt) (n : Nat) : List Pkt :=
  if pk.ext.xv == 0 || n ≤ 1 then [pk]
  else (upFrom 0 n).map (fun k =>
    let pay := (pk.pay.drop (2048 * k)).take 2048
    { pk with
      hdr := { pk.hdr with len := pay.length }
      ext := { pk.ext with seg := k }
      pay := pay
      bad := (pk.bad.filter (fun i => i / 32 == k)).map (fun i => i % 32) })

/-- The PSN of a packet that leaves by an exit port (R361): the port, and the NI's count of such packets. -/
def takePsn (s : State) (ep exit : Nat) : Nat × State :=
  let p := nget s.psns 0 ep
  (exit * 2 ^ 17 + p, { s with psns := mapSet s.psns 0 ep ((p + 1) % 2 ^ 17) })

/-- A packet goes out on the injection link, segment by segment. -/
def sendReq (s : State) (q : Req) : State :=
  (segments q.pkt q.segs).foldl (fun s pk => s.sendFrom q.ep pk) s

/-- One segment goes out on the injection link. -/
def sendSeg (s : State) (q : Req) (k : Nat) : State :=
  match (segments q.pkt q.segs)[k]? with
  | none => s
  | some pk => s.sendFrom q.ep pk

/-- The next segment of a launched packet, which launches when the bucket holds its flits (R82, R148). -/
def nextSeg (s : State) (q : Req) : Option Pkt :=
  match (segments q.pkt q.segs)[q.segs - q.left]? with
  | none => none
  | some pk => if s.bucketHolds q.ep (classOf pk.hdr.vcn) (1 + ceilDiv pk.hdr.len 64) then some pk else none

/-- The next segment of a packet launches. -/
def launchSeg (s : State) (q : Req) (pk : Pkt) : State :=
  ((s.spend q.ep (classOf pk.hdr.vcn) (1 + ceilDiv pk.hdr.len 64)).updReq q.id (fun x => { x with left := x.left - 1 })).sendFrom q.ep pk

/-- The operation of a packet still holds run-ahead state. -/
def reqResv (s : State) (q : Req) : Nat :=
  match q.purp with
  | .op o _ => ((s.opOf o).map (·.resv)).getD 0
  | _ => 0

/-- A packet may launch now. -/
def mayLaunch (s : State) (q : Req) : Bool :=
  let before := s.reqs.takeWhile (fun x => x.id != q.id)
  let cls := classOf q.pkt.hdr.vcn
  q.stage == .formed &&
  (!q.slot || (!s.ctxStopped q.ep q.ctx &&
    !before.any (fun x => x.slot && x.ep == q.ep && x.ctx == q.ctx && x.chan == q.chan && x.stage.unsent) &&
    (!q.pkt.hdr.flag fFENCE || !(s.chanReqs q.ep q.ctx q.chan).any (fun x => x.stage.out)))) &&
  (!q.expects || s.outUsed q.ep - (if 0 < s.reqResv q then 1 else 0) < outSize q.ep) &&
  !s.reqs.any (fun x => x.ep == q.ep && 0 < x.left && classOf x.pkt.hdr.vcn == cls) &&
  s.bucketHolds q.ep cls (1 + ceilDiv (min 2048 q.pkt.hdr.len) 64)

/-- The hold buffer that a queue-targeted multicast packet needs before it launches (R191): none for other packets. -/
def takeHold (s : State) (q : Req) : Option Nat × State :=
  if q.pkt.hdr.ptype == tSEND && classOf q.pkt.hdr.vcn == 1 then
    match s.allocBuf q.ep q.pkt.hdr.len none with
    | (none, s) => (none, s)
    | (some b, s) =>
      let m := s.bufAt q.ep b
      (some b, s.writeMem m.1 m.2 q.pkt.pay q.pkt.bad .nothing)
  else (some 0, s)

/-- The hold of an NI that a multicast header names. -/
def isHold (ep : Nat) (h : Hdr) (x : Hold) : Bool :=
  x.ep == ep && x.pkt.hdr.ctx == h.ctx && x.pkt.hdr.chan == h.chan && x.pkt.hdr.seq == h.seq && x.pkt.hdr.job == h.job

/-- The hold of a queue-targeted multicast packet begins at its launch (R191). What is known of an ended hold with the header that a
multicast packet now launches with goes. -/
def addHold (s : State) (q : Req) (buf : Nat) (pk : Pkt) : State :=
  let s := if classOf pk.hdr.vcn == 1 then { s with holds := s.holds.filter (fun x => !isHold q.ep pk.hdr x) } else s
  match q.purp with
  | .op o _ =>
    if pk.hdr.ptype == tSEND && classOf pk.hdr.vcn == 1 then
      { s with
        holds := s.holds ++ [⟨s.nextId, q.ep, o, { pk with pay := [], bad := [] }, buf, some s.tmo, [], [], false⟩]
        nextId := s.nextId + 1 }
    else s
  | _ => s

/-- A packet launches, its first segment at once and any other when the bucket holds its flits: it takes its SEQ, its entry and its TS, and leaves (R45, R126, R145, R470). -/
def launchWith (s : State) (q : Req) (buf : Nat) : State :=
  let cls := classOf q.pkt.hdr.vcn
  let op := match q.purp with | .op o _ => s.opOf o | _ => none
  -- a SEQ taken by run-ahead, or the next one of the send slot (R384)
  let held := op.bind (·.seqs.head?)
  let seq := if q.slot then held.getD (((s.sslot q.ep q.ctx q.chan).map (·.next)).getD 0) else 0
  let s := if held.isSome then s.updOp (op.map (·.id) |>.getD 0) (fun x => { x with seqs := x.seqs.drop 1 })
    else if q.slot then s.updSslot q.ep q.ctx q.chan (fun x => { x with next := (x.next + 1) % 65536 }) else s
  let s := s.spend q.ep cls (1 + ceilDiv (min 2048 q.pkt.hdr.len) 64)
  let ps := if q.pkt.ext.xv == 1 then s.takePsn q.ep q.pkt.hdr.exitp else (0, s)
  let s := ps.2
  -- what the NI sends on its own behalf (JOB 0x3FE and 0x3FF) is no packet of a context
  let ep1 := if q.slot || q.pkt.hdr.job < 0x3FE then bit (bitAt (s.tsetEpoch q.tset) 0) else 0
  let h := ({ q.pkt.hdr with seq := seq, ts := s.ts }).setFlag fEPOCH (ep1 == 1)
  let pk := { q.pkt with hdr := h, ext := if q.pkt.ext.xv == 1 then { q.pkt.ext with psn := ps.1 } else q.pkt.ext }
  if q.expects then
    match s.takeEntry q.ep with
    | none => s
    | some (i, g, s) =>
      let q := { q with pkt := { pk with hdr := { pk.hdr with tag := i + 4096 * g } }, entry := some i, stage := .flying s.tmo, left := q.segs - 1 }
      let s := match q.purp with
        | .op o _ => s.updOp o (fun x => { x with resv := x.resv - 1 })
        | _ => s
      (s.updReq q.id (fun _ => q)).sendSeg q 0
  else
    let q := { q with pkt := pk }
    let s := ((s.dropReq q.id).sendReq q).addHold q buf pk
    match q.purp with
    | .op o _ => s.checkOp' o
    | _ => s

/-- A packet launches, or its operation ends for want of a hold buffer (R191). -/
def launch (s : State) (q : Req) : State :=
  match s.takeHold q with
  | (some b, s) => s.launchWith q b
  | (none, s) => match q.purp with
    | .op o _ => s.failOp o stNOPOOL
    | _ => s

/-! ### Retries and failures (R146, R147) -/

/-- A packet fails finally with a status: it leaves, its ordered slot breaks, and whoever waits is told (R147). -/
def failReq (s : State) (q : Req) (st : Nat) : State :=
  let s := s.dropReq q.id
  match q.purp with
  | .op o _ =>
    -- an engine learns that a peer has departed whatever came before (R276)
    let s := s.updOp o (fun x => { x with st := match x.who with
      | .col _ _ _ _ => if st == stPEER_GONE then st else firstSt x.st st
      | _ => firstSt x.st st })
    let s := match s.sslot q.ep q.ctx q.chan with
      | some sl => if sl.ord then s.breakSlot q.ep q.ctx q.chan st else s
      | none => s
    ((s.checkOp' o).form q.ep).checkClose q.ep q.ctx q.chan
  | .nothing => s
  | p => s.addTxn false 0 false 0 0 [] [] st p

/-- A failed packet is retried or fails (R146, R147): `timeout` for a timeout, else a NACK of status `st`. -/
def retryOrFail (s : State) (q : Req) (timeout : Bool) (st : Nat) : State :=
  let send := q.pkt.hdr.ptype == tSEND
  let ord := ((s.sslot q.ep q.ctx q.chan).map (·.ord)).getD false
  let x := q.pkt.ext.xv == 1
  let may := if timeout then !x && (!send || ord)
    else st == stNOPOOL || (st == stTIMEOUT && !x)
  if may && q.tries < s.ctxRetry q.ep q.ctx then
    s.updReq q.id (fun y => { y with stage := .backoff s.tmo, tries := q.tries + 1 })
  else s.failReq q st

/-- The notch at which a retry is due: 64 × 2^(k − 1) notches after the failure (R147). -/
def retryDue (q : Req) (at' : Nat) : Nat := at' + 64 * 2 ^ (q.tries - 1) + 1

/-- The destination endpoint of an outstanding packet. -/
def reqDest (s : State) (q : Req) : Nat :=
  if q.pkt.ext.xv == 1 then q.pkt.ext.dest
  else match q.purp with
    | .op o _ => ((s.opOf o).bind (·.dest)).getD (s.chip * 4096 + (if q.pkt.hdr.exitp == 127 then
        s.build.node q.pkt.hdr.dcol q.pkt.hdr.drow else 0xF00 + q.pkt.hdr.exitp))
    | _ => s.chip * 4096

/-- A packet routed by a path set: one of a channel, and any that leaves the die (R123, R125). -/
def byPath (q : Req) : Bool := q.slot || q.pkt.ext.xv == 1

/-- A retry leaves by a route: same SEQ, new generation, a new PSN off the die (R147). -/
def resendBy (s : State) (q : Req) (rh : Hdr) (re : Ext) (i : Nat) : State :=
  let k := q.ep * 4096 + q.entry.getD 0
  let g := (nget s.gens 0 k + 1) % 4096
  let s := { s with gens := mapSet s.gens 0 k g }
  let ps := if re.xv == 1 then s.takePsn q.ep rh.exitp else (0, s)
  let s := ps.2
  let h := { q.pkt.hdr with
    vcn := rh.vcn, ord := rh.ord, dcol := rh.dcol, drow := rh.drow, exitp := rh.exitp
    tag := q.entry.getD 0 + 4096 * g, ts := s.ts }
  let e := if re.xv == 1 then
      { re with psn := ps.1, slen := q.pkt.ext.slen, mepoch := q.pkt.ext.mepoch }
    else Ext.none
  let q := { q with pkt := { q.pkt with hdr := h, ext := e }, path := i, stage := .flying s.tmo, replies := q.segs, left := 0 }
  (s.updReq q.id (fun _ => q)).sendReq q

/-- A retry leaves by the next valid path after the one that failed (R129, R147). A path set that the NI does not hold is read first
(R123); without a valid path the packet fails with ROUTE, and where the path gives no packet as R125 says. -/
def resend (s : State) (q : Req) : State :=
  if !byPath q then s.resendBy q q.pkt.hdr q.pkt.ext q.path
  else if !s.tsetV q.tset then s.failReq q stBADCMD
  else
    let dest := s.reqDest q
    match s.look q.ep q.ctx q.tset true (epChip dest) with
    | (none, s) => s.updReq q.id (fun x => { x with stage := .pathWait })
    | (some ps, s) =>
      let np := bitsOf ps 0 3
      let ws := (upFrom 1 np).map (pathWord ps)
      match (if np == 0 then none else s.validFrom np ws ((q.path + 1) % np)) with
      | none => s.failReq q stROUTE
      | some i =>
        match s.routeBy q.ep dest ((ws[i]?).getD 0) (classOf q.pkt.hdr.vcn) with
        | none => s.failReq q (s.noRouteSt ((ws[i]?).getD 0))
        | some (rh, re) => s.resendBy q rh re i

/-! ### Replies (R145, R146) -/

/-- The outstanding packet that a reply's TAG names. -/
def matchReply (s : State) (ep tag : Nat) : Option Req :=
  s.reqs.find? (fun q => q.ep == ep && q.entry == some (tag % 4096) && q.stage.out && nget s.gens 0 (ep * 4096 + tag % 4096) == tag / 4096)

/-- A late reply: counted and logged with status TIMEOUT (R145). -/
def lateReply (s : State) (ep : Nat) : State :=
  if ep == 0xF7E then s.bump (nodeBase 0) F.RTR_DISC_CNT_COUNT 1
  else (s.bump (niBase ep) F.NI_LATE_CNT_COUNT 1).niErr ep F.NI_ERR_LATE stTIMEOUT 0

/-- The bytes of an answered packet counted, and its operation looked at. -/
def answered (s : State) (q : Req) (n st : Nat) : State :=
  let s := s.dropReq q.id
  match q.purp with
  | .op o _ =>
    let s := s.updOp o (fun x => { x with moved := x.moved + n, st := firstSt x.st st })
    -- a message is complete with the CREDIT of its last packet, whatever became of an earlier one (R326)
    let s := match s.opOf o with
      | some x => (match x.who with
        | .msg _ _ _ => if q.pkt.hdr.flag fLAST then s.endOp x else s
        | _ => s)
      | none => s
    ((s.checkOp' o).form q.ep).checkClose q.ep q.ctx q.chan
  | _ => s

/-- An RDATA or WACK or CREDIT or NACK that answers outstanding packet `q`. A WRITE of several segments is answered by the WACK of each
(R83, R84), and is complete with the last of them (DESIGN CHOICE, log 17). -/
def takeReply (s : State) (q : Req) (pk : Pkt) : State :=
  let st := pk.hdr.opc % 16
  if pk.hdr.ptype == tNACK then s.retryOrFail q false st
  else
    let st := if pk.poisoned && st == stOK then stPOISON else st
    if st == stOK && 1 < q.replies then s.updReq q.id (fun y => { y with replies := q.replies - 1 })
    else if st != stOK && st != stPOISON then s.retryOrFail q false st
    else if pk.hdr.ptype == tRDATA then
      match q.purp with
      | .op o off =>
        let lad := ((s.opOf o).map (·.laddr)).getD 0
        let m := niMem s.build q.ep (lad + off)
        -- the data is written to its destination, poisoned units as poisoned (R146)
        let s := s.writeMem m.1 m.2 pk.pay pk.bad (.opWrite o pk.pay.length st)
        let s := if st == stPOISON then s.failReq q st else s.answered q 0 stOK
        s
      | p => (s.dropReq q.id).addTxn false 0 false 0 pk.pay.length [] (unitsOf 0 pk.pay pk.bad) st p
    else if st == stPOISON then s.failReq q stPOISON
    else match q.purp with
      | .op _ _ => s.answered q q.pkt.hdr.len stOK
      | .nothing => s.dropReq q.id
      | p => (s.dropReq q.id).addTxn false 0 true 0 0 [] [] st p

/-- Packets of a context that have not launched are taken apart, to be formed again from the rank entry on (R127). The rotor of R129 that
their forming has moved stays where it is (DESIGN CHOICE, log 38). -/
def unform (s : State) (ep ctx : Nat) : State :=
  let gone := fun (q : Req) => q.slot && q.ep == ep && q.ctx == ctx && q.stage.unsent && q.entry.isNone
  let out := s.reqs.filter gone
  let s := { s with reqs := s.reqs.filter (fun q => !gone q) }
  out.reverse.foldl (fun s q => match q.purp with
    | .op o off => s.updOp o (fun x => { x with next := off, formed := x.formed - 1 })
    | _ => s) s

end State
end Sys2Proof.Machine
end

