-- ==== Sys2Proof/Machine/NiRecv.lean ====
section
/-! DEFINITION. The receiving side of a network interface: performing and answering requests (R66, R78, R123, R128,
R431), receive slots and the reorder store (R134-R140), and core queues' landing (R327, R328). -/
namespace Sys2Proof.Machine
namespace State

/-! ### Answers -/

/-- The source endpoint of a packet: what SRC names off the die, and the node or port otherwise. -/
def srcOf (s : State) (pk : Pkt) : Nat :=
  if pk.ext.xv == 1 then pk.ext.src else s.chip * 4096 + s.build.node pk.hdr.scol pk.hdr.srow

/-- The node whose coordinates an endpoint puts in SCOL and SROW. -/
def posNode (s : State) (ep : Nat) : Nat := s.build.node (srcPos s.build ep).1 (srcPos s.build ep).2

/-- A request answered by a NACK. -/
def nackReq (s : State) (ep : Nat) (pk : Pkt) (st : Nat) : State := s.sendFrom ep (s.nackFor pk st (s.posNode ep))

/-- A request answered by its reply type (R66, R78): RDATA carries data where the status is OK or POISON. -/
def replyReq (s : State) (ep : Nat) (pk : Pkt) (ptype st : Nat) (addr : Nat) (pay : List Byte) (bad : List Nat) : State :=
  let n := s.nackFor pk st (s.posNode ep)
  let e := if n.ext.xv == 1 then { n.ext with slen := pay.length } else n.ext
  let h := { n.hdr with ptype := ptype, len := pay.length, addr := addr, aux := 0 }
  s.sendFrom ep ⟨h, e, pay, bad⟩

/-- A request of a receive slot is being performed: the slot performs no other (R134). -/
def slotBusy (s : State) (ep src ctx chan : Nat) : Bool :=
  (s.rslots.any (fun x => x.ep == ep && x.src == src && x.ctx == ctx && x.chan == chan)) &&
  s.txns.any (fun t => match t.purp with
    | .serve e pk => e == ep && s.srcOf pk == src && pk.hdr.ctx == ctx && pk.hdr.chan == chan
    | _ => false)

/-- A performed WRITE or READ answered once its memory access has ended (R67, R431). -/
def answer (s : State) (ep : Nat) (pk : Pkt) (t : Txn) : State :=
  if pk.hdr.ptype == tREAD then
    let st := if t.st == stOK && !t.poison.isEmpty then stPOISON else t.st
    if st == stOK || st == stPOISON then s.replyReq ep pk tRDATA st 0 t.bytes t.poison
    else s.replyReq ep pk tRDATA st 0 [] []
  else s.replyReq ep pk tWACK (if t.st == stOK && pk.poisoned then stPOISON else t.st) 0 [] []

/-! ### Landing a SEND (R327) -/

/-- Registers of receive queue q. -/
def rqBase (ep q : Nat) : Nat := niBase ep + 0x20 * q
def rqOn (s : State) (ep q : Nat) : Bool := ep < 0xF00 && s.flag (rqBase ep q) F.CQU_RQq_CTL_EN
def rqHead (s : State) (ep q : Nat) : Nat := s.get (rqBase ep q) F.CQU_RQq_HEAD_HEAD
def rqTail (s : State) (ep q : Nat) : Nat := s.get (rqBase ep q) F.CQU_RQq_TAIL_TAIL
def rqRing (s : State) (ep q : Nat) : Nat := 2 ^ s.get (rqBase ep q) F.CQU_RQq_CTL_LOG2SZ
def rqCore (s : State) (ep q : Nat) : Nat := s.get (rqBase ep q) F.CQU_RQq_CTL_CORE
def rqMem (s : State) (ep q : Nat) : Nat := s.get (rqBase ep q) F.CQU_RQq_BASE_BASE * 4096

/-- The record that a receive queue is landing. -/
def rland (s : State) (ep q : Nat) : Option RLand := s.rlands.find? (fun r => r.ep == ep && r.q == q)
def setRland (s : State) (ep q : Nat) (r : Option RLand) : State :=
  { s with rlands := s.rlands.filter (fun x => !(x.ep == ep && x.q == q)) ++ r.toList }

/-- A credit update no longer owed, for a CREDIT carries the present HEAD (R330). -/
def noLazy (s : State) (ep q : Nat) : State := { s with lazies := s.lazies.filter (fun l => !(l.ep == ep && l.q == q)) }

/-- A SEND answered by a CREDIT (R328): `hv` says that it carries HEAD. -/
def creditReq (s : State) (ep : Nat) (pk : Pkt) (hv : Bool) : State :=
  let q := pk.hdr.aux % 16
  let s' := s.replyReq ep pk tCREDIT stOK (if hv then s.rqHead ep q + 2 ^ 32 else 0) [] []
  if hv then s'.noLazy ep q else s'

/-- A SEND refused: its error bit set and logged, and a NACK sent (R327). -/
def refuseSend (s : State) (ep : Nat) (pk : Pkt) (f : Fld) (st : Nat) : State :=
  (s.errBit (niBase ep) f 0xE (srcEp ep) st (pk.hdr.aux % 16)).nackReq ep pk st

/-- The record that a first packet starts, where it passes check 3 (R327). -/
def firstRecord (s : State) (ep q : Nat) (pk : Pkt) : Option RLand :=
  let b := rqBase ep q
  let ring := s.rqRing ep q
  let w := s.rqTail ep q
  let off := pk.hdr.addr % 2 ^ 46
  let hd := leNat (pk.pay.take 16)
  let kind := bitsOf hd 0 2
  let rlen := bitsOf hd 8 24
  if pk.pay.length < 16 || off != w % ring || 2 ≤ kind || s.get b F.CQU_RQq_CHAN_MAXMSG * 64 < rlen || ring < off + rlen ||
      ring < subMod 32 w (s.rqHead ep q) + rlen || (kind == 1 && rlen != ring - off) then none
  else some ⟨ep, q, rlen, kind == 1, off, off, off + rlen, bitsOf hd 0 8, false⟩

/-- A packet that passed the checks is written; the last one publishes its record (R327). -/
def landPacket (s : State) (ep q : Nat) (pk : Pkt) (r : RLand) : State :=
  let k := s.rqCore ep q
  let t := 4 * ep + k
  let base := s.rqMem ep q
  let s := s.writeMem (.tap t) ((base + pk.hdr.addr % 2 ^ 46) % 2 ^ 46) pk.pay pk.bad .nothing
  let r := { r with next := pk.hdr.addr % 2 ^ 46 + pk.pay.length, bad := r.bad || pk.poisoned }
  let s := if pk.hdr.flag fLAST then
      let s := if r.bad && !r.pad then
          s.writeMem (.tap t) ((base + r.first) % 2 ^ 46) [BitVec.ofNat 8 (putBits r.kind0 2 1 1)] [] .nothing
        else s
      let s := s.set (rqBase ep q) F.CQU_RQq_TAIL_TAIL ((s.rqTail ep q + r.rlen) % 2 ^ 32)
      (s.setRland ep q none).tapPulse t 1
    else s.setRland ep q (some r)
  s.creditReq ep pk true

/-- A SEND performed at a receive queue. -/
def landSend (s : State) (ep : Nat) (pk : Pkt) : State :=
  let h := pk.hdr
  let q := h.aux % 16
  let b := rqBase ep q
  if !s.rqOn ep q || s.rqCore ep q != h.addr / 2 ^ 46 % 4 then s.refuseSend ep pk F.CQU_ERR_NOQ stDENIED
  else if h.job != s.get b F.CQU_RQq_CTL_JOB || s.srcOf pk != s.get b F.CQU_RQq_FEED_EP || h.ctx != s.get b F.CQU_RQq_FEED_FCTX ||
      h.chan != s.get b F.CQU_RQq_CHAN_FCHAN then s.refuseSend ep pk F.CQU_ERR_FEEDER stDENIED
  else match s.rland ep q with
    | none =>
      (match s.firstRecord ep q pk with
       | none => s.refuseSend ep pk F.CQU_ERR_OVERRUN stBADCMD
       | some r => s.landPacket ep q pk r)
    | some r =>
      if h.addr % 2 ^ 46 != r.next || r.stop < r.next + pk.pay.length then s.refuseSend ep pk F.CQU_ERR_OVERRUN stBADCMD
      else s.landPacket ep q pk r

/-! ### Performing a request -/

/-- A request performed: its access starts, or its message lands. At a crossing whose far side is in reset it is refused, and a
SEND discarded (R414). -/
def performReq (s : State) (ep : Nat) (pk : Pkt) : State :=
  let m := niMem s.build ep pk.hdr.addr
  match s.crossHeld m.1 with
  | some st => if pk.hdr.ptype == tSEND then s.crossDrop m.1 1 else s.nackReq ep pk st
  | none =>
  if pk.hdr.ptype == tREAD then s.readMem m.1 m.2 (pk.hdr.aux % 4096) (.serve ep pk)
  else if pk.hdr.ptype == tSEND then
    (if ep < 0xF00 then s.landSend ep pk else s.nackReq ep pk stDENIED)
  else
    -- FLG.POISON without a poisoned flit reports the whole payload (R62)
    let bad := if pk.bad.isEmpty && pk.hdr.flag fPOISON then upFrom 0 (ceilDiv pk.pay.length 64) else pk.bad
    -- the counts of a Bowl result are noted for the engine that owns the chunk (R267)
    let s := if 0xF00 ≤ ep && pk.hdr.aux != 0 && pk.hdr.flag fLAST && !s.colls.isEmpty then
        { s with auxSeen := s.auxSeen ++ [(ep - 0xF00, pk.hdr.addr, pk.hdr.aux)] }
      else s
    s.writeMem m.1 m.2 pk.pay bad (.serve ep pk)

/-- The check of R123 on an arriving request: the core it names is good. -/
def goodFor (s : State) (ep : Nat) (pk : Pkt) : Bool := 0xF00 ≤ ep || s.coreGood ep (pk.hdr.addr / 2 ^ 46 % 4)

/-- The check of R128: FLG.EPOCH against the table set of the lowest-numbered context of the job. -/
def epochFor (s : State) (ep : Nat) (pk : Pkt) : Bool :=
  0xF00 ≤ ep ||
  (match s.jobCtx ep pk.hdr.job with
   | none => true
   | some c => pk.hdr.flag fEPOCH == bitAt (s.tsetEpoch (s.ctxTset ep c)) 0)

/-! ### Receive slots and the reorder store (R134-R140) -/

def rslot (s : State) (ep src ctx chan : Nat) : Option RecvSlot :=
  s.rslots.find? (fun x => x.ep == ep && x.src == src && x.ctx == ctx && x.chan == chan)
def updRslot (s : State) (ep src ctx chan : Nat) (f : RecvSlot → RecvSlot) : State :=
  { s with rslots := updFirst (fun x => x.ep == ep && x.src == src && x.ctx == ctx && x.chan == chan) f s.rslots }
def updHeld (s : State) (ep src ctx chan seq seg : Nat) (f : Held → Held) : State :=
  s.updRslot ep src ctx chan (fun r => { r with held := updFirst (fun h => h.seq == seq && h.seg == seg) f r.held })

/-- Reorder-store entries taken by an NI (NI_RO_QUOTA.USED). -/
def roUsed (s : State) (ep : Nat) : Nat :=
  ((s.rslots.filter (fun r => r.ep == ep)).map (fun r => 1 + (r.held.filter (fun h => h.spill.isNone)).length)).foldl (· + ·) 0
def roQuota (s : State) (ep : Nat) : Nat := s.get (niBase ep) F.NI_RO_QUOTA_QUOTA

/-- A held packet's buffer and spill slot given back. -/
def freeHeld (s : State) (ep : Nat) (h : Held) : State :=
  let s := match h.buf with | some b => s.freeBuf ep b | none => s
  match h.spill with | some k => { s with spills := s.spills.filter (· != k) } | none => s

/-- What a receive slot held is freed and its RSLOT record written (R136). -/
def freeSlotHeld (s : State) (x : RecvSlot) (st : Nat) : State :=
  let s := x.held.foldl (fun s h => s.freeHeld x.ep h) s
  let low := (x.held.foldl (fun m h => min m (subMod 16 h.seq x.next)) 65535)
  let ws := [x.src % 2 ^ 24, x.chan + 1024 * x.ctx, (x.next + low) % 65536, x.held.length]
  match s.jobCtx x.ep x.job with
  | none => s.recLost x.ep 0 stDENIED
  | some c => s.postRec x.ep c 1 st x.job ws

/-- A receive slot breaks with a status (R136, R139, R140). -/
def breakRslot (s : State) (ep src ctx chan st : Nat) : State :=
  match s.rslot ep src ctx chan with
  | none => s
  | some x =>
    if x.broken then s
    else (s.freeSlotHeld x st).updRslot ep src ctx chan (fun r => { r with broken := true, held := [] })

/-- The spill region is available to an NI (R140). -/
def maySpill (s : State) (ep : Nat) : Bool :=
  s.flag 0 F.NI_SPILL_DEST_EN && (ep < 0xF00 || epChip (s.get 0 F.NI_SPILL_DEST_EP) != s.chip)

/-- The lowest free spill slot. -/
def freeSpill (s : State) : Option Nat :=
  (upFrom 0 (s.spills.length + 1)).find? (fun k => !s.spills.contains k && k < s.get 0 F.NI_SPILL_SLOTS_N)

/-- Addresses of the two parts of a spill slot (R140). -/
def spillAddr (s : State) (slot : Nat) (pay : Bool) : Nat :=
  let base := s.get 0 F.NI_SPILL_BASE_BASE * 65536
  let n := s.get 0 F.NI_SPILL_SLOTS_N
  if pay then base + 64 * n + 2048 * slot else base + 64 * slot

/-- A WRITE or READ of the spill region: a MAP NI of this die, or an endpoint of another chip through table set 0. -/
def spillAccess (s : State) (ep ctx : Nat) (h : Hdr) (pay : List Byte) (bad : List Nat) (p : Purp) : State :=
  let dest := s.get 0 F.NI_SPILL_DEST_EP
  if epChip dest == s.chip then
    let s' := s.ownReq ep ctx (epIndex dest - 0xF00) h pay p
    { s' with reqs := s'.reqs.map (fun q => if q.id == s.nextId then { q with pkt := { q.pkt with bad := bad } } else q) }
  else
    { s with farq := s.farq ++ [⟨ep, ctx, 0, dest, ep,
        ⟨{ h with job := 0x3FE, ctx := ctx }, { Ext.none with xv := 1, slen := pay.length }, pay, bad⟩, true, p⟩] }

/-- A held packet takes its entry and buffer, or is spilled, or is refused for want of room (R139). -/
def holdReq (s : State) (x : RecvSlot) (pk : Pkt) : State :=
  let ep := x.ep
  let held : Held := ⟨pk.hdr.seq, pk.ext.seg, { pk with pay := [], bad := [] }, none, none, 0, 0, false, [], [], s.tmo⟩
  let add := fun (s : State) (h : Held) => s.updRslot ep x.src x.ctx x.chan (fun r => { r with held := r.held ++ [h] })
  let spill := fun (s : State) =>
    if !s.maySpill ep then s.nackReq ep pk stNOPOOL
    else match s.freeSpill with
      | none => s.nackReq ep pk stNOPOOL
      | some k =>
        let s := { s with spills := s.spills ++ [k] }
        let head := leBytes (pk.hdr.toBits + 2 ^ 256 * pk.ext.toBits) 64
        let p := Purp.spill ep x.src x.ctx x.chan pk.hdr.seq pk.ext.seg
        let s := add s { held with spill := some k, writes := if pk.pay.isEmpty then 1 else 2 }
        let s := s.spillAccess ep x.ctx { Hdr.zero with ptype := tWRITE, addr := s.spillAddr k false, len := 64 } head [] p
        if pk.pay.isEmpty then s
        else s.spillAccess ep x.ctx { Hdr.zero with ptype := tWRITE, addr := s.spillAddr k true, len := pk.pay.length } pk.pay pk.bad p
  if s.roQuota ep ≤ s.roUsed ep then spill s
  else if pk.pay.isEmpty then add s held
  else match s.allocBuf ep pk.pay.length none with
    | (none, s) => spill s
    | (some b, s) =>
      let m := s.bufAt ep b
      add (s.writeMem m.1 m.2 pk.pay pk.bad .nothing) { held with buf := some b }

/-- A packet of a receive slot has been performed: NEXT, or the segment of NEXT, advances (R134). -/
def slotAdvance (s : State) (ep src ctx chan : Nat) (pk : Pkt) : State :=
  s.updRslot ep src ctx chan (fun r =>
    if pk.ext.xv == 1 && r.seg + 1 < max 1 (ceilDiv pk.ext.slen 2048) then { r with seg := r.seg + 1 }
    else { r with next := (r.next + 1) % 65536, seg := 0 })

/-- The packet whose turn has come at a receive slot begins to be read back, or is performed where it has no payload;
`k` bounds how many are looked at. -/
def slotRun (s : State) (ep src ctx chan : Nat) : Nat → State
  | 0 => s
  | k + 1 =>
    match s.rslot ep src ctx chan with
    | none => s
    | some x =>
      match x.held.find? (fun h => h.seq == x.next && h.seg == x.seg) with
      | none => s
      | some h =>
        if 0 < h.writes || 0 < h.reads || s.slotBusy ep src ctx chan then s
        else if h.turn || (h.buf.isNone && h.spill.isNone) then
          -- everything is here: performed, and its room given back
          let pk := { h.pkt with pay := h.got, bad := h.gotBad }
          let s := (s.freeHeld ep h).updRslot ep src ctx chan (fun r =>
            { r with held := delFirst (fun y => y.seq == h.seq && y.seg == h.seg) r.held })
          ((s.performReq ep pk).slotAdvance ep src ctx chan pk).slotRun ep src ctx chan k
        else
          let len := h.pkt.hdr.len
          match h.buf, h.spill with
          | some b, _ =>
            let m := s.bufAt ep b
            (s.updHeld ep src ctx chan h.seq h.seg (fun y => { y with turn := true, reads := 1 })).readMem m.1 m.2 len
              (.unhold ep src ctx chan h.seq h.seg)
          | _, some sl =>
            let s := s.updHeld ep src ctx chan h.seq h.seg (fun y => { y with turn := true, reads := if len == 0 then 1 else 2 })
            let s := s.spillAccess ep ctx { Hdr.zero with ptype := tREAD, addr := s.spillAddr sl false, aux := 64 } [] []
              (.spillHead ep src ctx chan h.seq h.seg)
            if len == 0 then s
            else s.spillAccess ep ctx { Hdr.zero with ptype := tREAD, addr := s.spillAddr sl true, aux := len } [] []
              (.unhold ep src ctx chan h.seq h.seg)
          | none, none => s

/-- What was read back for a held packet has come (R139, R140). -/
def heldRead (s : State) (ep src ctx chan seq seg : Nat) (t : Txn) (head : Bool) : State :=
  match (s.rslot ep src ctx chan).bind (fun x => x.held.find? (fun h => h.seq == seq && h.seg == seg)) with
  | none => s
  | some h =>
    let st := if t.st == stPOISON && !head && h.spill.isNone then stOK else t.st
    if st != stOK then
      let s := if h.spill.isSome then s.niErr ep F.NI_ERR_SPILL_FAIL st 0 else s.report 4 (srcEp ep) st 0xFF
      s.breakRslot ep src ctx chan st
    else
      let s := s.updHeld ep src ctx chan seq seg (fun y =>
        if head then { y with reads := y.reads - 1 }
        else { y with reads := y.reads - 1, got := t.bytes, gotBad := t.poison })
      s.slotRun ep src ctx chan 257

/-- A spill write has been answered (R140). -/
def spillWritten (s : State) (ep src ctx chan seq seg st : Nat) : State :=
  if st != stOK then (s.niErr ep F.NI_ERR_SPILL_FAIL st 0).breakRslot ep src ctx chan st
  else (s.updHeld ep src ctx chan seq seg (fun y => { y with writes := y.writes - 1 })).slotRun ep src ctx chan 257

/-- A request at its receive slot (R135). -/
def slotReq (s : State) (x : RecvSlot) (pk : Pkt) : State :=
  let ep := x.ep
  let d := subMod 16 pk.hdr.seq x.next
  if x.broken then s.nackReq ep pk stEPOCH
  else if x.held.any (fun h => h.seq == pk.hdr.seq && h.seg == pk.ext.seg) then
    -- a retry of a packet already held: its TAG replaces the one kept (R135)
    s.updHeld ep x.src x.ctx x.chan pk.hdr.seq pk.ext.seg (fun h => { h with pkt := { h.pkt with hdr := { h.pkt.hdr with tag := pk.hdr.tag } } })
  else if d == 0 && pk.ext.seg == x.seg then
    ((s.performReq ep pk).slotAdvance ep x.src x.ctx x.chan pk).slotRun ep x.src x.ctx x.chan 257
  else if 57344 ≤ d || (d == 0 && pk.ext.seg < x.seg) then
    -- a duplicate (R135)
    if pk.hdr.ptype == tREAD then s.performReq ep pk
    else if pk.hdr.ptype == tSEND then s.creditReq ep pk false
    else s.replyReq ep pk tWACK stOK 0 [] []
  else if d < 256 then s.holdReq x pk
  else if d < 8192 then (s.niErr ep F.NI_ERR_SEQ_BEYOND stBADCMD 0).nackReq ep pk stBADCMD
  else (s.niErr ep F.NI_ERR_SEQ_OUT stEPOCH 0).nackReq ep pk stEPOCH

/-- A performed request answered; its receive slot goes on with the next (R134). -/
def served (s : State) (ep : Nat) (pk : Pkt) (t : Txn) : State :=
  (s.answer ep pk t).slotRun ep (s.srcOf pk) pk.hdr.ctx pk.hdr.chan 257

/-- A request that has arrived at an NI (R64, R123, R128, R134). -/
def takeReq (s : State) (ep : Nat) (pk : Pkt) : State :=
  if pk.hdr.ptype == tREAD && classMax (classOf pk.hdr.vcn) < pk.hdr.aux % 4096 then s.nackReq ep pk stBADCMD
  else if !s.goodFor ep pk then (s.niErr ep F.NI_ERR_NOTGOOD stDENIED 0).nackReq ep pk stDENIED
  else if !s.epochFor ep pk then (s.niErr ep F.NI_ERR_EPOCH_REJ stEPOCH 0).nackReq ep pk stEPOCH
  else match s.rslot ep (s.srcOf pk) pk.hdr.ctx pk.hdr.chan with
    | some x => s.slotReq x pk
    | none => s.performReq ep pk

/-- The hole of a receive slot runs out; there is none once NEXT has arrived (R136). -/
def holeExpire (s : State) (ep src ctx chan : Nat) : State :=
  match s.rslot ep src ctx chan with
  | none => s
  | some x =>
    match x.held with
    | [] => s
    | h :: r =>
      if x.broken || x.held.any (fun y => y.seq == x.next && y.seg == x.seg) then s
      else
        let born := r.foldl (fun m y => min m y.born) h.born
        let s := s.passTo (born + s.get (niBase ep) F.NI_RO_CTL_HOLE + 1)
        (s.niErr ep F.NI_ERR_HOLE stTIMEOUT 0).breakRslot ep src ctx chan stTIMEOUT

/-- A packet that leaves the die at the port block it has reached (R82). -/
def leaving (s : State) (pk : Pkt) : Bool := pk.ext.xv == 1 && epChip pk.ext.dest != s.chip

/-- An ordinary request to an NI of this die: not a multicast, not a reserved-flit packet, not on its way off the die, and
no Bowl or collective control record (R239, R264). -/
def plainReq (s : State) (ep ptype : Nat) (a : Arrival) : Bool :=
  a.pkt.hdr.ptype == ptype && !a.lt && classOf a.pkt.hdr.vcn != 1 && !(0xF00 ≤ ep && s.leaving a.pkt) &&
  !(0xF00 ≤ ep && ptype == tWRITE && s.build.isBowlPort (ep - 0xF00) &&
    (a.pkt.hdr.addr / 2 ^ 44 == 0xB || (!s.build.isS && a.pkt.hdr.addr / 2 ^ 44 == 0xC)))

end State
end Sys2Proof.Machine
end

