-- ==== Sys2Proof/Machine/Mc.lean ====
section
/-! DEFINITION. Multicast at its targets and at its source, and relay (R184-R196). -/
namespace Sys2Proof.Machine
namespace State

/-! ### Records (R193) -/

/-- A multicast record lost (R184, R190). -/
def mcLost (s : State) (ep : Nat) : State := s.bump (niBase ep) F.NI_MC_LOST_CNT_COUNT 1

/-- A multicast record posted to a context, or lost for want of room. -/
def postMc (s : State) (ep ctx kind st job : Nat) (ws : List Nat) : State :=
  if s.cqReady ep ctx then s.postRec ep ctx kind st job ws
  else ((s.postRec ep ctx kind st job ws).mcLost ep).errBit (niBase ep) F.NI_MC_ERR_REC_LOST 5 (srcEp ep) (openSt 3) ctx

/-- A record at a target, for the lowest-numbered context of the packet's job. -/
def postTarget (s : State) (ep kind st : Nat) (pk : Pkt) (w4 : Nat) : State :=
  let h := pk.hdr
  match s.jobCtx ep h.job with
  | none => s.mcLost ep
  | some c => s.postMc ep c kind st h.job [s.build.node h.scol h.srow, h.chan + 1024 * h.seq, h.tag, w4]

/-- A failure record at a source (R190, R192): the target node and the retries made. -/
def postFail (s : State) (ep st target tries : Nat) (h : Hdr) : State :=
  if s.ctxOn ep h.ctx && s.ctxJob ep h.ctx == h.job then
    s.postMc ep h.ctx 5 st h.job [target, h.chan + 1024 * h.seq, h.tag, tries]
  else s.mcLost ep

/-! ### Landing at a target (R184-R187) -/

/-- A multicast packet not performed: counted, its error bit set, and logged (R184). -/
def mcMiss (s : State) (ep : Nat) (f : Fld) (st : Nat) : State :=
  (s.bump (niBase ep) F.NI_MC_MISS_CNT_COUNT 1).errBit (niBase ep) f 5 (srcEp ep) st 0

/-- A per-target NACK (R187); none for a packet with XV = 1. -/
def mcNack (s : State) (ep : Nat) (pk : Pkt) (st : Nat) : State :=
  if pk.ext.xv == 1 then s
  else
    let n := s.nackFor pk st (s.posNode ep)
    s.sendFrom ep { n with hdr := { n.hdr with ord := 0 } }

/-- Per-target NACKs queued at an NI (NI_MC_STAT.NACKQ). -/
def nackQueue (s : State) (ep : Nat) : Nat :=
  (((mapGet s.sendq (s.epInject ep pPB)).getD []).filter (fun p => p.hdr.ptype == tNACK && classOf p.hdr.vcn == 1)).length

/-- Registers of deposit window w. -/
def dwin (ep w : Nat) : Nat := nodeBase ep + 8 * w

/-- The lowest-numbered window that matches a deposit (R185). -/
def matchWindow (s : State) (ep : Nat) (pk : Pkt) : Option Nat :=
  let a := pk.hdr.addr % 2 ^ 46
  (upFrom 0 4).find? (fun w =>
    let b := s.get (dwin ep w) F.NI_DWINw_BASE_BASE * 65536
    s.flag (dwin ep w) F.NI_DWINw_CTL_EN && s.get (dwin ep w) F.NI_DWINw_CTL_JOB == pk.hdr.job && b ≤ a &&
    a + pk.hdr.len ≤ b + s.get (dwin ep w) F.NI_DWINw_CTL_SIZE * 65536)

/-- A deposit-window packet at its target. -/
def depositReq (s : State) (ep : Nat) (pk : Pkt) : State :=
  match s.matchWindow ep pk with
  | none => s.mcMiss ep F.NI_MC_ERR_DWIN (openSt 1)
  | some w =>
    let s := s.writeMem (.tap (4 * ep + s.get (dwin ep w) F.NI_DWINw_CTL_CORE)) (pk.hdr.addr % 2 ^ 46) pk.pay pk.bad .nothing
    if pk.hdr.flag fLAST && s.flag (dwin ep w) F.NI_DWINw_CTL_NOTIFY then s.postTarget ep 4 stOK pk w else s

/-- A queue-targeted packet at its target. -/
def queueReq (s : State) (ep : Nat) (pk : Pkt) : State :=
  let core := pk.hdr.addr / 2 ^ 46 % 4
  match s.jobCtx ep pk.hdr.job with
  | none => (s.mcMiss ep F.NI_MC_ERR_NOCTX stDENIED).mcNack ep pk stDENIED
  | some c =>
    let miss := fun (s : State) => ((s.mcMiss ep F.NI_MC_ERR_NOPOOL stNOPOOL).postTarget ep 3 stNOPOOL pk pk.hdr.len).mcNack ep pk stNOPOOL
    if !s.cqReady ep c then miss s
    else match s.allocBuf ep pk.hdr.len (some core) with
      | (none, s) => miss s
      | (some b, s) =>
        let m := s.bufAt ep b
        (s.writeMem m.1 m.2 pk.pay pk.bad .nothing).postTarget ep 2 stOK pk (pk.hdr.len + 65536 * b)

/-- A multicast packet checked and performed at a target NI (R184). -/
def mcLand (s : State) (ep : Nat) (pk : Pkt) : State :=
  let q := pk.hdr.ptype == tSEND
  if q && !s.goodFor ep pk then (s.niErr ep F.NI_ERR_NOTGOOD stDENIED 0).mcNack ep pk stDENIED
  else if !s.epochFor ep pk then
    ((s.bump (niBase ep) F.NI_MC_MISS_CNT_COUNT 1).niErr ep F.NI_ERR_EPOCH_REJ stEPOCH 0).mcNack ep pk stEPOCH
  else if pk.poisoned then
    let s := s.mcMiss ep F.NI_MC_ERR_POISON stPOISON
    if q then (s.postTarget ep 3 stPOISON pk pk.hdr.len).mcNack ep pk stPOISON else s
  else if q then s.queueReq ep pk
  else s.depositReq ep pk

/-- The packet is to be relayed here (R195). -/
def relays (pk : Pkt) : Bool := pk.hdr.flag fRELAY && pk.hdr.vcn == 2 && pk.hdr.ptype == tWRITE

/-- Packets in the relay queue of an NI. -/
def relayLen (s : State) (ep : Nat) : Nat := (s.relayq.filter (fun r => r.1 == ep)).length

/-- The relayed packet of R195. -/
def relayed (s : State) (ep : Nat) (pk : Pkt) : Pkt :=
  let b := s.build
  let h := { pk.hdr with
    vcn := 3, ord := 0, dcol := b.col ep, drow := bitsOf pk.hdr.aux 0 6, span := bitsOf pk.hdr.aux 6 7, scol := b.col ep, srow := b.row ep
    ts := s.ts }
  let h := h.setFlag fRELAY false
  { pk with hdr := if pk.bad.isEmpty then h else h.setFlag fPOISON true }

/-- A multicast packet that has landed: its deposit or queue landing, and its relay. -/
def mcTarget (s : State) (ep : Nat) (pk : Pkt) : State :=
  let s := s.mcLand ep pk
  if !relays pk then s
  else if pk.ext.xv == 1 then s.errBit (niBase ep) F.NI_MC_ERR_XV_RELAY 5 (srcEp ep) (openSt 2) 0
  else { s with relayq := s.relayq ++ [(ep, s.relayed ep pk)] }

/-- A multicast at a target whose per-target NACK would need room in the NACK queue: a queue-targeted one, and a deposit of another
epoch (R186, R187). -/
def mayNack (s : State) (ep : Nat) (pk : Pkt) : Bool := pk.ext.xv == 0 && (pk.hdr.ptype == tSEND || !s.epochFor ep pk)

/-- A multicast arrival that the NI can take: its NACK and relay queues have room (R186, R187, R196). -/
def mcReady (s : State) (ep : Nat) (a : Arrival) : Bool :=
  (a.pkt.hdr.ptype == tWRITE || a.pkt.hdr.ptype == tSEND) && !a.lt && classOf a.pkt.hdr.vcn == 1 &&
  !(0xF00 ≤ ep && s.leaving a.pkt) && (s.nackQueue ep < 8 || !s.mayNack ep a.pkt) && (a.pkt.hdr.vcn != 2 || s.relayLen ep < 2)

/-- A REDUCE packet for the accumulate windows or a collective engine of the NI; one of KIND BOWL at a port with a Bowl is the Bowl's
(R233). -/
def accReq (s : State) (ep : Nat) (a : Arrival) : Bool :=
  a.pkt.hdr.ptype == tREDUCE && !a.lt && !(0xF00 ≤ ep && s.leaving a.pkt) &&
  !(bitAt a.pkt.hdr.opc 4 && 0xF00 ≤ ep && s.build.isBowlPort (ep - 0xF00))

/-- A unicast request that the NI can take. -/
def unicastReady (s : State) (ep : Nat) (a : Arrival) : Bool :=
  s.accReq ep a || (s.plainReq ep tWRITE a || s.plainReq ep tREAD a || s.plainReq ep tSEND a) &&
  !s.slotBusy ep (s.srcOf a.pkt) a.pkt.hdr.ctx a.pkt.hdr.chan

/-- The multicast whose turn it is: no unicast that can be taken was whole in an earlier cycle, and of two that were whole in one
cycle the one on VC 2 comes first (R188). -/
def mcArrival (s : State) (ep : Nat) (a : Arrival) : Bool :=
  s.mcReady ep a && !(s.arrived ep).any (fun x =>
    (s.unicastReady ep x && x.at' < a.at') || (s.mcReady ep x && x.at' == a.at' && x.vc < a.vc))

/-- A multicast that can be taken was whole earlier than an arrival, or in the same cycle (R188). -/
def mcWaits (s : State) (ep : Nat) (a : Arrival) : Bool := (s.arrived ep).any (fun x => s.mcReady ep x && x.at' ≤ a.at')

/-- The unicast request whose turn it is (R188). -/
def unicastArrival (s : State) (ep ptype : Nat) (a : Arrival) : Bool :=
  s.plainReq ep ptype a && s.unicastReady ep a && !s.mcWaits ep a

/-- The REDUCE packet whose turn it is (R188). -/
def accArrival (s : State) (ep : Nat) (a : Arrival) : Bool := s.accReq ep a && !s.mcWaits ep a

/-- A request of one type taken and handled: it waits while its receive slot performs another (R134). -/
def reqRow (s : State) (ep ptype : Nat) : State :=
  match s.takeArrival ep (s.unicastArrival ep ptype) with
  | none => s
  | some (a, s) => s.takeReq ep a.pkt

/-- The next relayed packet of an NI launches, throttled as multicast (R195, R148): it stays in the relay queue until its injection
link is free and VC 3 has room for it (R196). -/
def relayLaunch (s : State) (ep : Nat) : State :=
  match s.relayq.find? (fun r => r.1 == ep) with
  | none => s
  | some r =>
    let flits := 1 + ceilDiv r.2.hdr.len 64
    let link := s.epInject ep pQB
    let q := (mapGet s.sendq link).getD []
    if !s.bucketHolds ep 1 flits || nget s.injSt 0 link == 1 || (nget s.injSt 0 link == 0 &&
        ((mapGet s.own link).isSome || q.any (fun pk => pk.hdr.vcn == 3) || s.credits link pQB 3 < flits ||
          !s.latheAllowsNi ep link flits)) then s
    else
      let pk := { r.2 with hdr := { r.2.hdr with ts := s.ts } }
      let s := { s with relayq := delFirst (fun x => x.1 == ep) s.relayq, sendq := mapSet s.sendq [] link (pk :: q) }
      (s.spend ep 1 flits).startInjection link

/-! ### The source (R189-R192) -/

/-- The hold of a queue-targeted packet that a per-target NACK answers. -/
def holdOf (s : State) (ep : Nat) (h : Hdr) : Option Hold := s.holds.find? (isHold ep h)
def updHold (s : State) (id : Nat) (f : Hold → Hold) : State := { s with holds := updFirst (fun x => x.id == id) f s.holds }

/-- A per-target NACK taken at its source (R190, R192). One of status EPOCH that no hold answers to belongs to a deposit
(DEDUCED, log 14). -/
def targetNack (s : State) (ep : Nat) (pk : Pkt) : State :=
  let h := pk.hdr
  let st := h.opc % 16
  let target := s.build.node h.scol h.srow
  match s.holdOf ep h with
  | none =>
    if st == stEPOCH then s.postFail ep st target 0 h
    else (s.errBit (niBase ep) F.NI_MC_ERR_HOLD_LATE 5 (srcEp ep) stTIMEOUT 0).postFail ep stTIMEOUT target 0 h
  | some x =>
    let made := nget x.made 0 target
    if x.past then (s.errBit (niBase ep) F.NI_MC_ERR_HOLD_LATE 5 (srcEp ep) stTIMEOUT 0).postFail ep stTIMEOUT target made h
    else if (st == stNOPOOL || st == stPOISON) && made < s.get (niBase ep) F.NI_MC_CTL_RETRY then
      s.updHold x.id (fun y => { y with due := y.due ++ [(target, made + 1, s.tmo)], made := mapPut y.made target (made + 1) })
    else
      (s.updOp x.op (fun o => { o with st := firstSt o.st st })).postFail ep st target made h

/-- The k-th retry that a source NI has scheduled: its backoff ends, and its payload is read from the hold buffer (R192). -/
def mcRetry (s : State) (ep k : Nat) : State :=
  let all := (s.holds.filter (fun x => x.ep == ep)).flatMap (fun x => x.due.map (fun d => (x, d)))
  match all[k]? with
  | none => s
  | some (x, d) =>
    let s := s.passTo (d.2.2 + 64 * 2 ^ (d.2.1 - 1) + 1)
    let m := s.bufAt ep x.buf
    -- marked as launching: a retry number of 0
    let s := s.updHold x.id (fun y => { y with due := updFirst (fun e => e == d) (fun e => (e.1, 0, e.2.2)) y.due })
    if d.2.1 == 0 then s else s.readMem m.1 m.2 x.pkt.hdr.len (.mcRetry x.id d.1)

/-- The payload of a retry has been read: it launches toward its one target (R192). -/
def mcRetrySend (s : State) (hold target : Nat) (t : Txn) : State :=
  match s.holds.find? (fun x => x.id == hold) with
  | none => s
  | some x =>
    let b := s.build
    let s := s.updHold hold (fun y => { y with due := y.due.filter (fun d => d.1 != target), launched := some s.tmo })
    let h := { x.pkt.hdr with span := 0, dcol := b.col target, drow := b.row target, ts := s.ts }
    s.sendFrom x.ep { x.pkt with hdr := h, pay := t.bytes, bad := t.poison }

/-- The k-th hold of an NI ends when no retry of it is scheduled (R191); what it was stays known for late NACKs (R192). -/
def holdExpire (s : State) (ep k : Nat) : State :=
  match (s.holds.filter (fun x => x.ep == ep && !x.past))[k]? with
  | none => s
  | some x =>
    if !x.due.isEmpty then s
    else
      let s := s.passTo (x.launched.getD 0 + s.get (niBase ep) F.NI_MC_CTL_HOLD + 1)
      let s := s.freeBuf ep x.buf
      (s.updHold x.id (fun y => { y with past := true })).checkOp' x.op

end State
end Sys2Proof.Machine
end

