-- ==== Sys2Proof/Machine/CoreQueue.lean ====
section
/-! DEFINITION. Core queues outside the landing of a SEND: creating an end, submitting, starting and completing messages,
credits, and choosing what to read (R321-R332). -/
namespace Sys2Proof.Machine
namespace State

/-- Registers of send queue q. -/
def sqBase (ep q : Nat) : Nat := niBase ep + 0x20 * q
def sqOn (s : State) (ep q : Nat) : Bool := ep < 0xF00 && s.flag (sqBase ep q) F.CQU_SQs_CTL_EN
def sqTail (s : State) (ep q : Nat) : Nat := s.get (sqBase ep q) F.CQU_SQs_TAIL_TAIL
def sqRing (s : State) (ep q : Nat) : Nat := 2 ^ s.get (sqBase ep q) F.CQU_SQs_CTL_LOG2SZ
def sqCtx (s : State) (ep q : Nat) : Nat := s.get (sqBase ep q) F.CQU_SQs_CTL_CTX
def sqChan (s : State) (ep q : Nat) : Nat := s.get (sqBase ep q) F.CQU_SQs_CTL_CHAN
def sqBroken (s : State) (ep q : Nat) : Bool := s.flag (sqBase ep q) F.CQU_SQs_STAT_BROKEN

/-- Messages of a send queue, in submission order. -/
def sqMsgs (s : State) (ep q : Nat) : List SMsg := s.smsgs.filter (fun m => m.ep == ep && m.sq == q)

/-- Bytes of the record of a message (R319). -/
def recLen (len : Nat) : Nat := ceilDiv (16 + len) 64 * 64

/-- Credit of a send queue (R324). -/
def sqCred (s : State) (ep q : Nat) : Nat :=
  s.sqRing ep q - subMod 32 (s.sqTail ep q) (s.get (sqBase ep q) F.CQU_SQs_HEADK_HEADK)

/-- Charge of a message at the present TAIL (R324). -/
def sqCharge (s : State) (ep q len : Nat) : Nat :=
  let e := s.sqRing ep q - s.sqTail ep q % s.sqRing ep q
  if recLen len ≤ e then recLen len else e + recLen len

/-- The record of a message's end (R326, R332). -/
def postQueue (s : State) (ep q mtag st : Nat) : State :=
  s.postRec ep (s.sqCtx ep q) 9 st (s.ctxJob ep (s.sqCtx ep q)) [q, mtag, s.get (sqBase ep q) F.CQU_SQs_DEST_RANK]

/-- The first message that has not started becomes the head once the one before it has sent every packet; its wait for
credit is counted from that notch (R324, R332). -/
def sqSettle (s : State) (ep q : Nat) : State :=
  let ms := s.sqMsgs ep q
  match ms.find? (fun m => m.op.isNone) with
  | none => s
  | some m =>
    let before := ms.takeWhile (fun x => x.op.isSome)
    let sent := before.all (fun x => match x.op.bind s.opOf with
      | some o => o.ended || (o.len ≤ o.next && (s.opReqs o.id).all (fun r => !r.stage.unsent))
      | none => true)
    if sent && m.head.isNone then { s with smsgs := updFirst (fun x => x == m) (fun x => { x with head := some s.tmo }) s.smsgs }
    else s

/-- STAT.PEND and WAITING as the queue's messages give them (R335). -/
def noteSq (s : State) (ep q : Nat) : State :=
  let ms := s.sqMsgs ep q
  let w := match ms.find? (fun m => m.op.isNone) with
    | some m => m.head.isSome && s.sqCred ep q < s.sqCharge ep q m.len
    | none => false
  (s.set (sqBase ep q) F.CQU_SQs_STAT_PEND ms.length).set (sqBase ep q) F.CQU_SQs_STAT_WAITING (bit w)

/-- A message submitted (R323): whether the TAP is told that the queue is busy, and the status of a message that
completes at once. -/
def submitMsg (s : State) (ep q core src len mtag : Nat) : Option Nat × State :=
  if !s.sqOn ep q then (some stDENIED, s)
  else if s.sqBroken ep q then (some stDENIED, s)
  else if 8 ≤ (s.sqMsgs ep q).length then (none, s)
  else if s.get (sqBase ep q) F.CQU_SQs_LIM_MAXMSG * 64 < recLen len then (some stBADCMD, s.postQueue ep q mtag stBADCMD)
  else
    let m : SMsg := ⟨ep, q, core, src, len, mtag, none, none, none⟩
    let s := { s with smsgs := s.smsgs ++ [m] }
    (some stOK, (s.sqSettle ep q).noteSq ep q)

/-- The record header of a message or of a pad (R319). -/
def recHeader (kind rlen src score mtag len : Nat) : List Byte :=
  leBytes (packFields [(2, kind), (1, 0), (5, 0), (24, rlen), (24, src), (2, score), (6, 0), (24, mtag), (8, 0), (24, len), (8, 0)]) 16

/-- The head message of a send queue starts, once its credit covers its charge (R324, R325). -/
def startMsg (s : State) (ep q : Nat) : State :=
  let s := s.sqSettle ep q
  match (s.sqMsgs ep q).find? (fun m => m.op.isNone) with
  | none => s
  | some m =>
    if m.head.isNone || s.sqBroken ep q || s.sqCred ep q < s.sqCharge ep q m.len then s
    else
      let ring := s.sqRing ep q
      let off := s.sqTail ep q % ring
      let e := ring - off
      let rlen := recLen m.len
      let pad := e < rlen
      let base : Op := { Op.zero with
        ep := ep, kind := .send, ctx := s.sqCtx ep q, chan := s.sqChan ep q, glint := s.flag (sqBase ep q) F.CQU_SQs_CTL_GLINT
        rank := s.get (sqBase ep q) F.CQU_SQs_DEST_RANK, aux := s.get (sqBase ep q) F.CQU_SQs_DEST_QUEUE }
      let me := s.endpoint ep
      let m' := if pad then { m with pad := some s.nextId } else m
      let s := s.set (sqBase ep q) F.CQU_SQs_TAIL_TAIL ((s.sqTail ep q + s.sqCharge ep q m.len) % 2 ^ 32)
      let s := if pad then
          let s := { s with smsgs := updFirst (fun x => x == m) (fun x => { x with pad := some s.nextId }) s.smsgs }
          s.startOp { base with who := .pad q, len := 16, raddr := off, data := recHeader 1 e me m.core m.mtag 0 }
        else s
      let id := s.nextId
      let s := { s with smsgs := updFirst (fun x => x == m') (fun x => { x with op := some id }) s.smsgs }
      let s := s.startOp { base with
        who := .msg q m.mtag base.rank, len := 16 + m.len, raddr := if pad then 0 else off
        laddr := m.core * 2 ^ 46 + m.src, data := recHeader 0 rlen me m.core m.mtag m.len }
      (s.sqSettle ep q).noteSq ep q

/-- A send queue is broken: every message it holds, launched or not, completes with the status of the failure; what of them has not
launched is withdrawn (R326). A message whose last CREDIT has come stays complete. -/
def sqFail (s : State) (ep q st : Nat) : State :=
  let s := s.set (sqBase ep q) F.CQU_SQs_STAT_BROKEN 1
  let s := s.updSslot ep (s.sqCtx ep q) (s.sqChan ep q) (fun x => { x with broken := some (x.broken.getD st) })
  let ms := s.sqMsgs ep q
  let s := (ms.filterMap (·.pad)).foldl (fun s k => (s.updOp k (fun x => { x with who := .nobody })).failOp k st) s
  let s := { s with smsgs := s.smsgs.filter (fun m => !(m.ep == ep && m.sq == q)) }
  let s := ms.foldl (fun (s : State) m => match m.op.bind s.opOf with
    | none => s.postQueue ep q m.mtag st
    | some o =>
      let s := if o.ended then s else (s.updOp o.id (fun x => { x with who := .nobody })).failOp o.id st
      let s := { s with ops := s.ops.filter (fun x => !(x.id == o.id && x.ended)) }
      s.postQueue ep q m.mtag (if o.ended then o.st else st)) s
  s.noteSq ep q

/-- A pad has ended (R325): one that failed breaks its queue with the message that it came before (R326). -/
def endPad (s : State) (o : Op) (q : Nat) : State :=
  let s := { s with ops := delFirst (fun x => x.id == o.id) s.ops }
  if o.st != stOK && s.smsgs.any (fun m => m.pad == some o.id) then s.sqFail o.ep q o.st else s

/-- The operation of a message has ended: its record is posted, and a failure breaks its queue (R326). -/
def endMsg (s : State) (o : Op) (q mtag : Nat) : State :=
  let s := { s with ops := delFirst (fun x => x.id == o.id) s.ops }
  if o.st != stOK && s.smsgs.any (fun m => m.op == some o.id) then s.sqFail o.ep q o.st
  else
    let s := { s with smsgs := delFirst (fun m => m.op == some o.id) s.smsgs }
    let s := s.postQueue o.ep q mtag o.st
    (s.sqSettle o.ep q).noteSq o.ep q

/-- The send queues of a node's messages looked at again: a broken one ends what it holds, and a message whose predecessor has
launched whole becomes the head of its queue in that notch (R324, R326, R332). -/
def sqAll (s : State) : State :=
  ((s.smsgs.map (fun m => (m.ep, m.sq))).eraseDups).foldl (fun s k =>
    if s.sqBroken k.1 k.2 then
      let st := (((s.sslot k.1 (s.sqCtx k.1 k.2) (s.sqChan k.1 k.2)).bind (·.broken)).getD stTIMEOUT)
      s.sqFail k.1 k.2 st
    else if (s.sqMsgs k.1 k.2).any (fun m => m.op.isNone && m.head.isNone) then (s.sqSettle k.1 k.2).noteSq k.1 k.2
    else s) s

/-- The wait of a send queue's head message for credit runs out (R332). A CREDIT that came in the same notch has been
applied before (R334). -/
def stallExpire (s : State) (ep q : Nat) : State :=
  let s := s.sqSettle ep q
  match (s.sqMsgs ep q).find? (fun m => m.op.isNone) with
  | none => s
  | some m =>
    match m.head with
    | none => s
    | some t =>
      if s.sqCharge ep q m.len ≤ s.sqCred ep q then s
      else
        let s := s.passTo (t + s.get (sqBase ep q) F.CQU_SQs_TMO_TMO + 1)
        let s := { s with smsgs := delFirst (fun x => x == m) s.smsgs }
        let s := s.postQueue ep q m.mtag stTIMEOUT
        let s := s.errBit (niBase ep) F.CQU_ERR_STALL 0xE (srcEp ep) stTIMEOUT (q + 16 * s.get (sqBase ep q) F.CQU_SQs_DEST_RANK)
        ((s.bump (niBase ep) F.CQU_STALL_CNT_COUNT 1).sqSettle ep q).noteSq ep q

/-- A CREDIT's HEAD accepted where it lies in range (R329). -/
def takeCreditHead (s : State) (ep q : Nat) (pk : Pkt) : State :=
  let head := bitsOf pk.hdr.addr 0 32
  let b := sqBase ep q
  let k := s.get b F.CQU_SQs_HEADK_HEADK
  if bitAt pk.hdr.addr 32 && subMod 32 head k ≤ subMod 32 (s.sqTail ep q) k then (s.set b F.CQU_SQs_HEADK_HEADK head).noteSq ep q else s

/-- The enabled send queue of a context and channel. -/
def sqOf (s : State) (ep ctx chan : Nat) : Option Nat :=
  (upFrom 0 16).find? (fun q => s.sqOn ep q && s.sqCtx ep q == ctx && s.sqChan ep q == chan)

/-- A CREDIT at its NI (R329): an update, or the answer to an outstanding SEND. -/
def takeCredit' (s : State) (ep : Nat) (pk : Pkt) : State :=
  let head := fun (s : State) => match s.sqOf ep pk.hdr.ctx pk.hdr.chan with
    | some q => s.takeCreditHead ep q pk
    | none => s
  if bitAt pk.hdr.addr 33 then head s
  else match s.matchReply ep pk.hdr.tag with
    | none => s.lateReply ep
    | some q => (head s).takeReply q pk

/-- A credit update leaves (R328, R330). -/
def sendUpdate (s : State) (ep q : Nat) : State :=
  if !s.lazies.any (fun l => l.ep == ep && l.q == q) then s
  else
    let s := s.noLazy ep q
    let b := rqBase ep q
    let ctx := s.get b F.CQU_RQq_CTL_CTX
    let dest := s.get b F.CQU_RQq_FEED_EP
    let h := { Hdr.zero with
      ptype := tCREDIT, vcn := 6, job := s.get b F.CQU_RQq_CTL_JOB, ctx := s.get b F.CQU_RQq_FEED_FCTX
      chan := s.get b F.CQU_RQq_CHAN_FCHAN, addr := s.rqHead ep q + 2 ^ 32 + 2 ^ 33 }
    { s with farq := s.farq ++ [⟨ep, ctx, s.ctxTset ep ctx, dest, ep, ⟨h, Ext.none, [], []⟩, false, .nothing⟩] }

/-- Credit updates whose LAZY notches have passed. -/
def lazyDue (s : State) : List Lazy :=
  s.lazies.filter (fun l => l.at' + s.get (niBase l.ep) F.CQU_CTL_LAZY ≤ s.tmo && s.domOn (s.build.epDom l.ep))

/-- Credit updates whose LAZY notches have passed leave (R330); at 8 cycles per notch out of RUN (R334). -/
def lazyAll (s : State) : State := s.lazyDue.foldl (fun s l => s.sendUpdate l.ep l.q) s

/-- A write of CQU_RQq_HEAD (R330): its status, and the update that an advance makes due, which leaves at once with LAZY 0. -/
def headWrite (s : State) (ep q h : Nat) : Nat × State :=
  let hd := s.rqHead ep q
  if h % 64 != 0 || subMod 32 (s.rqTail ep q) hd < subMod 32 h hd then (stBADCMD, s)
  else
    let s' := s.set (rqBase ep q) F.CQU_RQq_HEAD_HEAD h
    if h == hd then (stOK, s')
    else
      let s' := if s'.lazies.any (fun l => l.ep == ep && l.q == q) then s' else { s' with lazies := s'.lazies ++ [⟨ep, q, s.tmo⟩] }
      (stOK, if s.get (niBase ep) F.CQU_CTL_LAZY == 0 then s'.sendUpdate ep q else s')

/-- A receive queue of a core is ready: its TAIL differs from its HEAD, whatever EN is (R331). -/
def rqReady (s : State) (ep core q : Nat) : Bool :=
  ep < 0xF00 && s.rqCore ep q == core && s.rqTail ep q != s.rqHead ep q

/-- The queue that a read of CQU_SELk names (R331). -/
def selQueue (s : State) (ep core : Nat) : Option Nat :=
  let ready := (upFrom 0 16).filter (fun q => s.rqReady ep core q)
  if bitAt (s.get (niBase ep) F.CQU_CTL_ROT) core then
    let p := nget s.selPtr 0 (4 * ep + core)
    ((upFrom 0 16).map (fun k => (p + k) % 16)).find? (fun q => ready.contains q)
  else
    let prio := fun (q : Nat) => s.get (rqBase ep q) F.CQU_RQq_CTL_PRIO
    ready.find? (fun q => ready.all (fun r => prio r ≤ prio q))

/-- The read itself: its data, and the pointer moved in rotation mode. -/
def selRead (s : State) (ep core : Nat) : Word × State :=
  match s.selQueue ep core with
  | none => (0, s)
  | some q =>
    (BitVec.ofNat 32 (q + 16),
      if bitAt (s.get (niBase ep) F.CQU_CTL_ROT) core then { s with selPtr := mapSet s.selPtr 0 (4 * ep + core) ((q + 1) % 16) } else s)

/-- A write of CQU_RQq_CTL (R322, R335). -/
def rqCtlWrite (s : State) (ep q data : Nat) : Nat × State :=
  let b := rqBase ep q
  let old := (s.word (b + 0x1804)).toNat
  let new := data % 2 ^ 24
  let en := bitAt new 0
  let was := bitAt old 0
  let lg := bitsOf new 1 5
  let maxm := s.get b F.CQU_RQq_CHAN_MAXMSG
  let put := fun (s : State) => s.setWord (b + 0x1804) (BitVec.ofNat 32 new)
  -- PRIO and EN alone may change while EN is 1
  if was && (bitsOf old 1 7 != bitsOf new 1 7 || bitsOf old 10 14 != bitsOf new 10 14) then (stDENIED, s)
  else if !was && en then
    if lg < 12 || 24 < lg || maxm == 0 || 2 ^ (lg - 1) < maxm * 64 then (stBADCMD, s)
    else if !s.ctxOn ep (bitsOf new 20 4) || !s.coreGood ep (bitsOf new 6 2) then (stDENIED, s)
    else (stOK, (((put s).set b F.CQU_RQq_TAIL_TAIL 0).set b F.CQU_RQq_HEAD_HEAD 0).setRland ep q none)
  else (stOK, put s)

/-- A write of CQU_SQs_CTL (R322, R335). -/
def sqCtlWrite (s : State) (ep q data : Nat) : Nat × State :=
  let b := sqBase ep q
  let old := (s.word (b + 0x1A00)).toNat
  let new := data % 2 ^ 21
  let en := bitAt new 0
  let was := bitAt old 0
  let lg := bitsOf new 1 5
  let maxm := s.get b F.CQU_SQs_LIM_MAXMSG
  let put := fun (s : State) => s.setWord (b + 0x1A00) (BitVec.ofNat 32 new)
  if was && bitsOf old 1 19 != bitsOf new 1 19 then (stDENIED, s)
  else if !was && en then
    let ord := match s.sslot ep (bitsOf new 6 4) (bitsOf new 10 10) with | some sl => sl.ord && sl.closing.isNone | none => false
    if lg < 12 || 24 < lg || maxm == 0 || 2 ^ (lg - 1) < maxm * 64 || !ord then (stBADCMD, s)
    else if !s.ctxOn ep (bitsOf new 6 4) then (stDENIED, s)
    else
      let s := ((put s).set b F.CQU_SQs_TAIL_TAIL 0).set b F.CQU_SQs_HEADK_HEADK 0
      -- a queue whose broken channel has not been closed stays broken (R326)
      let bad := ((s.sslot ep (bitsOf new 6 4) (bitsOf new 10 10)).bind (·.broken)).isSome
      (stOK, (s.set b F.CQU_SQs_STAT_BROKEN (bit bad)).noteSq ep q)
  else (stOK, put s)

end State
end Sys2Proof.Machine
end

