-- ==== Sys2Proof/Machine/Transfers.lean ====
section
/-! DEFINITION. The transfer commands XFER, XFER_MC and XFER_RED as operations of an NI (R376, R379, R181, R225), the
completion of table and map reads, and packets that wait for a route (R123, R125, R285). -/
namespace Sys2Proof.Machine
namespace State

/-! ### Transfer commands -/

/-- The NI that a transfer command names. -/
def xferNi (bits : Nat) : Nat := parOf bits 0

/-- The reasons for which a transfer command completes with BADCMD when it starts (R178, R181, R194, R225). -/
def xferBad (s : State) (bits : Nat) : Bool :=
  let b := s.build
  let ep := xferNi bits
  let p := parOf bits
  let opc := bits % 256
  !(ep < 0xF7E && b.epBuilt ep) ||
  (if opc == 0x11 then
    let far := epChip (p 11) != s.chip
    let c := p 6
    let r := p 7
    let sp := p 8
    b.isS || (p 2 == 1 && (0xF00 ≤ ep || far)) || (p 4 == 1 && (p 2 == 1 || p 3 == 1 || far)) ||
    (!far && (b.cols ≤ c || b.rows ≤ r || (if p 3 == 1 then b.rows ≤ r + sp else b.cols ≤ c + sp))) ||
    (p 4 == 1 && b.rows ≤ p 9 + p 10)
  else if opc == 0x12 then
    let g := groupBytes (p 5)
    8 < p 5 || p 10 == 0 || p 9 % g != 0 || p 11 % g != 0 || 256 < p 9 / g + p 11 / g || (p 2 == 0 && b.isS)
  else false)

/-- The operation of a transfer command. -/
def xferOp (bits : Nat) (who : Who) : Op :=
  let p := parOf bits
  let opc := bits % 256
  let base := { Op.zero with ep := p 0, who := who, ctx := p 1, par := bits }
  if opc == 0x10 then
    { base with
      kind := if p 2 == 1 then .read else .write
      glint := p 3 == 1, fence := p 4 == 1, chan := p 5, rank := p 6, len := p 7, laddr := p 8, raddr := p 9 }
  else if opc == 0x11 then
    { base with kind := .mc, chan := p 5, len := p 12, laddr := p 13, raddr := p 14 }
  else
    { base with
      kind := .red, chan := p 3, rank := p 4, len := p 11, laddr := p 12, raddr := p 9 + 65536 * p 8
      opc := p 5 + 16 * p 2, tag := p 6 + 4096 * p 7, aux := p 10 }

/-- A transfer that cannot start completes with a status. -/
def xferFail (s : State) (o : Op) (st : Nat) : State :=
  match o.who with
  | .cmd r i => s.finishCmd r i st 0
  | .desc slot => s.slotDone o.ep slot st (some 0)
  | _ => s

/-- A transfer starts. -/
def xferStart (s : State) (bits : Nat) (who : Who) : State :=
  let o := xferOp bits who
  if s.xferBad bits then s.xferFail o stBADCMD else s.startOp o

/-! ### Table reads (R123) and source reads -/

/-- Retries of an NI that wait for a path set (R147). -/
def pathWaiting (s : State) (ep tset key : Nat) : List Req :=
  s.reqs.filter (fun q => q.ep == ep && q.stage == .pathWait && q.tset == tset && epChip (s.reqDest q) == key)

/-- The completion of a rank-entry or path-set read: the entry joins the cache, or every operation that waits for it ends
with the read's status. What was asked for before a swap of the set is not kept: whoever waits asks again (R127). -/
def tableDone (s : State) (ep tset : Nat) (path : Bool) (key epoch : Nat) (t : Txn) : State :=
  let k := tset * 65536 + key
  if t.st != stOK then
    let s := s.niErr ep F.NI_ERR_TBL_READ t.st tset
    let wait := (s.ops.filter (fun o => o.ep == ep && o.want == some (path, k) && !o.ended)).map (·.id)
    let s := wait.foldl (fun s id => s.failOp id t.st) s
    let mine := fun (f : FarReq) => path && f.ep == ep && f.tset == tset && epChip f.dest == key
    let s := (if path then s.pathWaiting ep tset key else []).foldl (fun s q => s.failReq q t.st) s
    let lost := s.farq.filter (fun f => mine f && f.expects)
    lost.foldl (fun s f => s.addTxn false 0 false 0 0 [] [] t.st f.purp)
      { s with farq := s.farq.filter (fun f => !mine f) }
  else
    let c := (k, leNat t.bytes) :: (s.cache path ep).filter (fun e => e.1 != k)
    let s := if epoch == s.tsetEpoch tset then s.setCache path ep (c.take (if path then 32 else 64)) else s
    ((if path then s.pathWaiting ep tset key else []).foldl (fun s q => s.resend q) s).form ep

/-- The source bytes of a packet have come: it is formed, poisoned where they are; a read that fails ends its operation. -/
def sourceDone (s : State) (id : Nat) (t : Txn) : State :=
  match s.reqs.find? (fun q => q.id == id) with
  | none => s
  | some q =>
    if t.st != stOK && t.st != stPOISON then
      match q.purp with
      | .op o _ => s.failOp o t.st
      | _ => s.dropReq id
    else
      let pre := q.pkt.pay.length
      let bad := t.poison.map (fun i => (i * 64 + pre) / 64) ++ (if pre % 64 == 0 then [] else t.poison.map (fun i => (i * 64 + pre) / 64 + 1))
      let n := ceilDiv (pre + t.bytes.length) 64
      s.updReq id (fun q => { q with
        stage := .formed
        pkt := { q.pkt with pay := q.pkt.pay ++ t.bytes, bad := (upFrom 0 n).filter (fun i => bad.contains i) } })

/-- Read data has been written to its destination: its bytes count as moved (R146, R379). -/
def opWriteDone (s : State) (op len st : Nat) (t : Txn) : State :=
  (s.updOp op (fun o => { o with moved := o.moved + (if t.st == stOK && st == stOK then len else 0), st := firstSt o.st (firstSt st t.st) })).checkOp' op

/-! ### Packets that wait for a path set -/

/-- One packet routed, dropped for want of a path, or left waiting. -/
def routeFar (s : State) (f : FarReq) : State :=
  let keep := fun (s : State) => { s with farq := s.farq ++ [f] }
  let lost := fun (s : State) (st : Nat) => if f.expects then s.addTxn false 0 false 0 0 [] [] st f.purp else s
  if !s.tsetV f.tset then lost s stBADCMD
  else match s.look f.ep f.ctx f.tset true (epChip f.dest) with
    | (none, s) => keep s
    | (some ps, s) =>
      let np := bitsOf ps 0 3
      let ws := (upFrom 1 np).map (pathWord ps)
      match (if np == 0 then none else s.validFrom np ws (f.start % np)) with
      | none => lost s stROUTE
      | some i =>
        match s.routeBy f.ep f.dest ((ws[i]?).getD 0) (classOf f.pkt.hdr.vcn) with
        | none => lost s (s.noRouteSt ((ws[i]?).getD 0))
        | some (rh, re) =>
          let sn := planeOf f.pkt.hdr.ptype == some pSN
          let upd := f.pkt.hdr.ptype == tCREDIT && bitAt f.pkt.hdr.addr 33
          let h := { f.pkt.hdr with
            vcn := if sn then 0 else if upd then 6 else rh.vcn, ord := if sn || upd then 0 else rh.ord
            dcol := rh.dcol, drow := rh.drow, exitp := rh.exitp, scol := rh.scol, srow := rh.srow
            len := if sn && re.xv == 1 then 32 else f.pkt.hdr.len, ts := s.ts }
          let e := if re.xv == 1 then { re with slen := if sn then 0 else f.pkt.pay.length } else re
          let pk : Pkt := { f.pkt with hdr := h, ext := e }
          if f.expects then
            let segs := if re.xv == 1 && !sn then max 1 (ceilDiv f.pkt.pay.length 2048) else 1
            s.addReq ⟨0, f.ep, f.purp, pk, .formed, false, f.ctx, f.pkt.hdr.chan, 0, i, f.tset, true, none, segs, 0, segs, 0⟩
          else
            let p := if re.xv == 1 && !sn then s.takePsn f.ep rh.exitp else (0, s)
            p.2.sendFrom f.ep (if re.xv == 1 && !sn then { pk with ext := { pk.ext with psn := p.1 } } else pk)

/-- Every packet that waits for a route looked at once. -/
def routeAll (s : State) : State :=
  let l := s.farq
  l.foldl (fun s f => s.routeFar f) { s with farq := [] }

/-! ### The sync map (R284, R285) -/

def mapV (s : State) (m : Nat) : Bool := s.flag (8 * m) F.SYN_MAPm_CTL_V
def mapLimit (s : State) (m : Nat) : Nat := s.get (8 * m) F.SYN_MAPm_CTL_LIMIT * 4096
def mapAddr (s : State) (m vid : Nat) : Nat := s.get (8 * m) F.SYN_MAPm_BASE_BASE * 65536 + 8 * vid

/-- Cached map entries of an NI, newest first. -/
def mapCache (s : State) (ep : Nat) : List (Nat × Nat) := (mapGet s.smapC ep).getD []
def setMapCache (s : State) (ep : Nat) (l : List (Nat × Nat)) : State := { s with smapC := mapSet s.smapC [] ep l }

/-- A map entry from the cache of an NI; on a miss the NI reads it. -/
def lookMap (s : State) (ep ctx m vid : Nat) : Option Nat × State :=
  let k := m * 2 ^ 20 + vid
  let c := s.mapCache ep
  match c.find? (fun e => e.1 == k) with
  | some e => (some e.2, s.setMapCache ep (e :: c.filter (fun x => x.1 != k)))
  | none =>
    let p := Purp.smap ep m vid
    if s.tablePending p then (none, s)
    else
      (none,
        if s.flag (8 * m) F.SYN_MAPm_CTL_LOC then s.ownRead ep ctx (s.get (8 * m) F.SYN_MAPm_CTL_MAPP) (s.mapAddr m vid) 8 p
        else s.ownReq ep ctx 126 { Hdr.zero with ptype := tREAD, addr := s.mapAddr m vid, aux := 8 } [] p)

/-- The completion of a map read: cached, least recently used of 32 out. -/
def smapDone (s : State) (ep m vid : Nat) (t : Txn) : State :=
  let k := m * 2 ^ 20 + vid
  s.setMapCache ep (((k, leNat t.bytes) :: (s.mapCache ep).filter (fun e => e.1 != k)).take 32)

end State
end Sys2Proof.Machine
end

