-- ==== Sys2Proof/Machine/Tap.lean ====
section
/-! DEFINITION. The TAP request channel (R444-R447), sync operations of cores (R286, R287), watch slots (R297-R299), and
the NI registers that a core may reach. -/
namespace Sys2Proof.Machine
namespace State

/-! ### Watch slots -/

/-- A write of NI_WSLOTs_HI (R297): FREE frees a DONE slot; on an ARMED slot it is recorded as BADCMD. -/
def wslotWrite (s : State) (ep slot data : Nat) : Nat × State :=
  if !bitAt data 31 then (stOK, s)
  else if s.wslotState ep slot == 1 then (stBADCMD, s)
  else (stOK, s.set (wslotBase ep slot) F.NI_WSLOTs_HI_STATE 0)

/-- A SYNC_NTF at an NI (R297, R299). -/
def takeNtf (s : State) (ep : Nat) (pk : Pkt) : State :=
  let slot := bitsOf pk.hdr.tag 0 6
  let gen := bitsOf pk.hdr.tag 6 12
  let a := s.armed.find? (fun a => a.ep == ep && a.slot == slot && !a.desc)
  if bitsOf pk.hdr.tag 18 2 != 0 || s.wslotState ep slot != 1 || gen != s.get (wslotBase ep slot) F.NI_WSLOTs_HI_GEN || a.isNone then
    s.bump (niBase ep) F.NI_SYN_STALE_CNT_COUNT 1
  else s.slotDone ep slot (pk.hdr.opc % 16) (some (bitsOf pk.hdr.addr 0 40))

/-- The guard of an armed slot runs out (R298). -/
def guardExpire (s : State) (ep slot : Nat) : State :=
  match s.armed.find? (fun a => a.ep == ep && a.slot == slot && !a.desc) with
  | none => s
  | some a =>
    let s := s.passTo (a.born + a.wait + 1)
    let s := s.bump (niBase ep) F.NI_SYN_GUARD_CNT_COUNT 1
    (s.report 0xC (srcEp ep) stTIMEOUT (syncDetail a.index a.kind (srcPos s.build ep).1 (srcPos s.build ep).2
      (slot + 64 * s.get (wslotBase ep slot) F.NI_WSLOTs_HI_GEN) 0)).slotDone ep slot stTIMEOUT none

/-! ### Registers that a core reaches (R447) -/

/-- BLK_AVAIL01 and BLK_AVAIL23. -/
def blkAvail (s : State) (ep n : Nat) : Word := BitVec.ofNat 32 (s.blankFree ep n + 65536 * s.blankFree ep (n + 1))

/-- A write of NI_CQc_HEAD (R394). -/
def cqHeadWrite (s : State) (ep c data : Nat) : Nat × State :=
  let b := niBase ep + 0x10 * c
  let h := s.get b F.NI_CQc_HEAD_HEAD
  if subMod 32 (s.get b F.NI_CQc_TAIL_TAIL) h < subMod 32 data h then (stBADCMD, s) else (stOK, s.set b F.NI_CQc_HEAD_HEAD data)

/-- A REG request of core k (R447): status, read data, state. -/
def regReq (s : State) (ep k off : Nat) (wr : Bool) (data : Nat) : Nat × Word × State :=
  let b := niBase ep + 0x1000 + off
  let rd := (stOK, s.word b, s)
  let none' := (stDENIED, (0 : Word), s)
  -- a write with a status other than OK is recorded, as one of the node's (R428; DEDUCED, log 32)
  let ok := fun (r : Nat × State) =>
    (r.1, (0 : Word), if r.1 == stOK then r.2 else r.2.report 0 (srcNode ep) r.1 (b + 2 ^ 28 + 2 ^ 32 * data))
  if 0x600 ≤ off && off < 0x800 && off % 4 == 0 then
    let slot := (off - 0x600) / 8
    if slot / 16 != k then none'
    else if !wr then rd
    else if off % 8 == 4 then ok (s.wslotWrite ep slot data) else (stOK, 0, s)
  else if off == 0xC10 + 4 * k then
    (if wr then (stOK, 0, s) else let r := s.selRead ep k; (stOK, r.1, r.2))
  else if 0x800 ≤ off && off < 0xA00 && (off % 32 == 0x10 || off % 32 == 0x14) then
    let q := (off - 0x800) / 32
    if s.rqCore ep q != k then none'
    else if !wr then rd
    else if off % 32 == 0x10 then ok (s.headWrite ep q data) else (stOK, 0, s)
  else if off == 0x220 then (if wr then ok (s.blkFreeWrite ep data) else (stOK, 0, s))
  else if off == 0x224 then (stOK, if wr then 0 else s.blkAvail ep 0, s)
  else if off == 0x228 then (stOK, if wr then 0 else s.blkAvail ep 2, s)
  else if 0x400 ≤ off && off < 0x500 && (off % 16 == 8 || off % 16 == 12) then
    let c := (off - 0x400) / 16
    let cb := niBase ep + 0x10 * c
    if !(s.flag cb F.NI_CQc_CTL_LOC && s.get cb F.NI_CQc_CTL_CORE == k) then none'
    else if !wr then rd
    else if off % 16 == 8 then ok (s.cqHeadWrite ep c data) else (stOK, 0, s)
  else none'

/-! ### Sync operations of a core (R286) -/

/-- A sync operation came to this. -/
inductive SyncRes where
  /-- A table or map entry is being read. -/
  | wait (s : State)
  | fail (st : Nat) (s : State)
  | sent (s : State)

/-- Permission that an operation needs (R288): bit of the map entry, none for CANCEL. -/
def permBit (op : Nat) : Option Nat :=
  if op == 1 then some 35 else if op == 2 || op == 4 then some 36 else if op == 3 || op == 5 || op == 9 then some 37
  else if op == 8 then some 38 else none

/-- The SYNC_OP of an operation leaves, and its slot is armed (R286, R287, R297, R298). -/
def sendSync (s : State) (ep ctx op opnd slot wtmo : Nat) (sv : Bool) (h0 : Hdr) (e : Ext) (index : Nat) : State :=
  let b := wslotBase ep slot
  let waits := op == 3 || op == 4 || op == 8 || op == 9
  let guard := (if waits then s.waitTmo wtmo else 0) + s.ctxTmo ep ctx
  let s := if sv && op != 6 then s.slotArm ep slot guard false index (watchKind op) else s
  let gen := s.get b F.NI_WSLOTs_HI_GEN
  let h := { h0 with
    ptype := tSYNC_OP, vcn := 0, ord := 0, job := s.ctxJob ep ctx, ctx := ctx
    opc := op + (if sv && (op == 1 || op == 2) then 16 else 0)
    tag := if sv then slot + 64 * gen else 0
    addr := opnd, aux := index + 1024 * wtmo, len := if e.xv == 1 then 32 else 0, ts := s.ts }
  s.sendFrom ep ⟨h, e, [], []⟩

/-- A SYNC request checked, translated and sent (R286). -/
def syncReq (s : State) (ep k ctx vid op opnd slot wtmo : Nat) (sv : Bool) : SyncRes :=
  if !([1, 2, 3, 4, 5, 6, 8, 9].contains op) then .fail stBADCMD s
  else if !(s.ctxOn ep ctx && s.flag (niBase ep + 0x10 * ctx) F.NI_CTX_SYN_EN) then .fail stBADCMD s
  else
    let m := s.get (niBase ep + 0x10 * ctx) F.NI_CTX_SYN_MAP
    if s.mapLimit m ≤ vid then .fail stDENIED s
    else match s.lookMap ep ctx m vid with
      | (none, s) => .wait s
      | (some ent, s) =>
        let kind := bitsOf ent 34 1
        let index := bitsOf ent 24 10
        let dest := bitsOf ent 0 24
        let perm := match permBit op with | some p => bitAt ent p | none => true
        if !bitAt ent 63 then .fail stDENIED s
        else if !(op == 6 || kind == (if op == 8 || op == 9 then 1 else 0)) || !perm then .fail stDENIED s
        else
          let need := op != 1 && op != 2
          let st := s.wslotState ep slot
          if (need && !sv) || (sv && !(slot / 16 == k && st == (if op == 6 then 1 else 0))) then .fail stBADCMD s
          else if kind == 1 then
            let d := dstPos s.build (0xF80 + s.build.nodeDom ep)
            let me := srcPos s.build ep
            .sent (s.sendSync ep ctx op opnd slot wtmo sv
              { Hdr.zero with dcol := d.1, drow := d.2.1, exitp := 127, scol := me.1, srow := me.2 } Ext.none (index % 256))
          else if epChip dest == s.chip then
            let u := epIndex dest - 0xF80
            if epIndex dest < 0xF80 || s.build.units ≤ u then .fail stBADCMD s
            else
              let d := dstPos s.build (0xF80 + u)
              let me := srcPos s.build ep
              .sent (s.sendSync ep ctx op opnd slot wtmo sv
                { Hdr.zero with dcol := d.1, drow := d.2.1, exitp := 127, scol := me.1, srow := me.2 } Ext.none index)
          else
            let t := s.ctxTset ep ctx
            if !s.tsetV t then .fail stBADCMD s
            else match s.look ep ctx t true (epChip dest) with
              | (none, s) => .wait s
              | (some ps, s) =>
                let np := bitsOf ps 0 3
                let ws := (upFrom 1 np).map (pathWord ps)
                match (if np == 0 then none else s.validFrom np ws ((epIndex dest + index) % np)) with
                | none => .fail stROUTE s
                | some i => match s.routeBy ep dest ((ws[i]?).getD 0) 0 with
                  | none => .fail (s.noRouteSt ((ws[i]?).getD 0)) s
                  | some (h, e) => .sent (s.sendSync ep ctx op opnd slot wtmo sv h e index)

/-- A failed sync operation (R286): its free slot ends at once, one without a slot is counted and logged. -/
def syncFail (s : State) (ep k op slot st : Nat) (sv : Bool) : State :=
  if !sv then (s.bump (niBase ep) F.NI_SYN_LOCAL_CNT_COUNT 1).report 4 (srcEp ep) st 0xFF
  else if op != 6 && slot / 16 == k && s.wslotState ep slot == 0 then s.slotDone ep slot st none
  else s

/-! ### The request channel -/

/-- The reserved bits of a DESC are zero and its opcode is a transfer's (R445). -/
def descLegal (x : Nat) : Bool :=
  (x % 256 == 0x10 || x % 256 == 0x11 || x % 256 == 0x12) && bitsOf x 8 24 == 0 && bitsOf x 38 26 == 0 && bitsOf x 64 64 == 0 &&
  !reservedSet x

/-- A request answered: where it can be answered now, its answer (busy, status, data). -/
def tapAnswer (s : State) (t : TapReq) : Option (Bool × Nat × Nat) × State :=
  let ep := t.tap / 4
  let k := t.tap % 4
  let x := t.data
  let f := bitsOf x
  let say := fun (st : Nat) (s : State) => (some (false, st, 0), s)
  -- a core that is not good is refused first (R32, R444); a request taken in Penumbra is answered busy (R400, R468)
  if !s.coreGood ep k then say stDENIED (s.report 4 (srcNode ep) stDENIED (0xFF + 256 * k))
  else if t.busy then (some (true, stOK, 0), s)
  else if t.op == 1 then
    let slot := f 32 6
    if !descLegal x || parOf x 0 != ep || slot / 16 != k || s.wslotState ep slot != 0 then say stBADCMD s
    else say stOK ((s.slotArm ep slot 0 true 0 0).xferStart x (.desc slot))
  else if t.op == 2 then
    if bitsOf x 95 417 != 0 then say stBADCMD s
    else match s.syncReq ep k (f 0 4) (f 4 20) (f 24 4) (f 28 40) (f 68 6) (f 75 20) (bitAt x 74) with
      | .wait s => (none, s)
      | .fail st s => say st (s.syncFail ep k (f 24 4) (f 68 6) st (bitAt x 74))
      | .sent s => say stOK s
  else if t.op == 3 then
    if bitsOf x 98 414 != 0 then say stBADCMD s
    else match s.submitMsg ep (f 0 4) k (f 4 46) (f 50 24) (f 74 24) with
      | (some st, s) => say st s
      | (none, s) => (some (true, stOK, 0), s)
  else if t.op == 4 then
    if bitsOf x 45 467 != 0 then say stBADCMD s
    else
      let r := s.regReq ep k (f 0 12) (bitAt x 12) (f 13 32)
      (some (false, r.1, r.2.1.toNat), r.2.2)
  else say stBADCMD s

/-- The requests of a TAP handled in order while they can be answered. -/
def tapRun (s : State) (tap : Nat) : Nat → State
  | 0 => s
  | k + 1 =>
    match s.tapq.find? (fun t => t.tap == tap) with
    | none => s
    | some t =>
      match s.tapAnswer t with
      | (none, s) => s
      | (some (busy, st, d), s) =>
        let s := { s with tapq := delFirst (fun t => t.tap == tap) s.tapq }
        (s.drive (.tapRsp tap busy st (BitVec.ofNat 32 d))).tapRun tap k

/-- A request taken from a core. -/
def tapTake (s : State) (tap op : Nat) (data : BitVec 512) : State :=
  let t : TapReq := ⟨tap, op, data.toNat, s.dom (s.build.nodeDom (tap / 4)) == 2⟩
  let s := { s with tapq := s.tapq ++ [t] }
  s.tapRun tap s.tapq.length

/-- The requests that waited for a table or map entry of an NI looked at again. -/
def tapRunAll (s : State) (ep : Nat) : State :=
  (upFrom (4 * ep) 4).foldl (fun s t => s.tapRun t s.tapq.length) s

/-- A SYNC that waits at the head of a TAP of an NI fails with the status of the read that it waits for; `hit` picks it by its
data (R285). -/
def tapFailWaiting (s : State) (ep st : Nat) (hit : Nat → Bool) : State :=
  (upFrom (4 * ep) 4).foldl (fun s t =>
    match s.tapq.find? (fun q => q.tap == t) with
    | none => s
    | some q =>
      let x := q.data
      if !(q.op == 2 && hit x) then s
      else
        let s := { s with tapq := delFirst (fun q => q.tap == t) s.tapq }
        let s := s.syncFail ep (t % 4) (bitsOf x 24 4) (bitsOf x 68 6) st (bitAt x 74)
        (s.drive (.tapRsp t false st 0)).tapRun t s.tapq.length) s

end State
end Sys2Proof.Machine
end

