-- ==== Sys2Proof/Machine/Reduce.lean ====
section
/-! DEFINITION. Accesses that an NI makes in several packets, and accumulate windows (R233-R235). -/
namespace Sys2Proof.Machine

/-- Counts of a chunk with nothing in it. -/
def Tally.zero : Tally := ⟨0, 0, 0, 0, false, false⟩

/-- The 16-byte chunk record (R233). -/
def Tally.toBytes (t : Tally) : List Byte :=
  leBytes (packFields [(16, t.wsum), (16, t.escx), (16, t.escr), (16, t.sat), (1, bit t.done), (1, bit t.poison)]) 16

/-- The counts that a chunk record holds. -/
def Tally.ofBytes (bs : List Byte) : Tally :=
  let x := leNat bs
  ⟨bitsOf x 0 16, bitsOf x 16 16, bitsOf x 32 16, bitsOf x 48 16, bitAt x 64, bitAt x 65⟩

/-- Chunk index of a REDUCE packet, and the byte offset of its payload (R224). -/
def redChunk (h : Hdr) : Nat := bitsOf h.addr 16 24
def redBoff (h : Hdr) : Nat := bitsOf h.addr 0 16

/-- The values of a contribution's groups in binary32, the number of groups that cannot be decoded, and the NaNs counted
(R205, R209, R220): an ESC packet holds one group in BF16. -/
def redValues (pk : Pkt) : List Nat × Nat × Nat :=
  let fmt := pk.hdr.opc % 16
  let gs := if pk.hdr.flag fESC then [decodeGroup 1 pk.pay] else (groupsOf fmt pk.pay).map (decodeGroup fmt)
  ((gs.map (·.vals)).flatten, (gs.filter (·.undecodable)).length, (gs.map (·.nans)).foldl (· + ·) 0)

/-- What a contribution does to the counts (R234): none where its weight would pass W; otherwise the new counts, and
whether its values are added. `bad` says that it is poisoned or cannot be decoded. -/
def Tally.take (t : Tally) (w : Nat) (h : Hdr) (bad : Bool) : Option (Tally × Bool) :=
  let wt := bitsOf h.aux 0 12
  let esc := h.flag fESC
  if !esc && w < t.wsum + wt then none
  else
    let t' :=
      if bad then { t with wsum := t.wsum + (if esc then 0 else wt), poison := true }
      else if esc then { t with escr := t.escr + 1 }
      else
        let ex := t.escx + bitsOf h.aux 24 8
        { t with
          wsum := t.wsum + wt
          escx := if 65535 < ex then t.escx else ex
          poison := t.poison || 65535 < ex
          sat := min 65535 (t.sat + bitsOf h.aux 12 12) }
    some ({ t' with done := t'.wsum == w && t'.escr == t'.escx }, !bad)

namespace State

/-! ### Accesses in several packets -/

/-- The packets of a longer read, 2,048 bytes each. -/
def bigRead (s : State) (ep ctx port addr len : Nat) (p : Purp) : State :=
  if len ≤ 2048 || ep == 0xF00 + port then s.ownRead ep ctx port addr len p
  else
    let id := s.nextId
    let n := ceilDiv len 2048
    let s := { s with nextId := id + 1, bigs := s.bigs ++ [⟨id, false, n, [], len, stOK, p⟩] }
    (upFrom 0 n).foldl (fun s k => s.ownRead ep ctx port (addr + 2048 * k) (min 2048 (len - 2048 * k)) (.piece id (2048 * k))) s

/-- The packets of a longer write, with its poisoned units. -/
def bigWrite (s : State) (ep ctx port addr : Nat) (bytes : List Byte) (p : Purp) (bad : List Nat := []) : State :=
  if bytes.length ≤ 2048 || ep == 0xF00 + port then s.ownWrite ep ctx port addr bytes p bad
  else
    let id := s.nextId
    let n := ceilDiv bytes.length 2048
    let s := { s with nextId := id + 1, bigs := s.bigs ++ [⟨id, true, n, [], bytes.length, stOK, p⟩] }
    (upFrom 0 n).foldl (fun s k => s.ownWrite ep ctx port (addr + 2048 * k) ((bytes.drop (2048 * k)).take 2048) (.piece id (2048 * k))
      ((bad.filter (fun u => u / 32 == k)).map (· % 32))) s

/-- Where the bytes that a Headstock command names may lie: behind a MAP, or with 126 in the command memory, as R434 gives it for
KEY_LOAD (DEDUCED for the other commands, log 30: Configuration S has no MAP). -/
def srcOk (s : State) (mapp : Nat) : Bool := mapp == 126 || s.build.portKind mapp == 1

/-- Bytes read for a Headstock command. -/
def srcRead (s : State) (r idx mapp addr len step : Nat) : State :=
  if mapp == 126 then s.readMem .cmem (addr % 65536) len (.param r idx step)
  else s.bigRead 0xF7E 0 mapp addr len (.param r idx step)

/-- The bytes of a list of pieces, in order of offset. -/
def piecesBytes (got : List (Nat × List Byte × List Nat)) (n : Nat) : List Byte :=
  ((upFrom 0 n).map (fun k => match got.find? (fun g => g.1 == 2048 * k) with | some g => g.2.1 | none => [])).flatten

/-- One packet of a longer access has been answered; one that brings no data stands as zeros. -/
def pieceDone (s : State) (id off : Nat) (t : Txn) : State :=
  match s.bigs.find? (fun b => b.id == id) with
  | none => s
  | some b =>
    let b := { b with left := b.left - 1, got := if b.wr then b.got else
        b.got ++ [if t.st == stOK || t.st == stPOISON then (off, t.bytes, t.poison) else (off, List.replicate (min 2048 (b.len - off)) 0, [])], st := firstSt b.st t.st }
    if 0 < b.left then { s with bigs := updFirst (fun x => x.id == id) (fun _ => b) s.bigs }
    else
      let s := { s with bigs := delFirst (fun x => x.id == id) s.bigs }
      let bad := b.got.flatMap (fun g => g.2.2.map (fun i => i + g.1 / 64))
      s.addTxn false 0 b.wr 0 b.len [] (unitsOf 0 (piecesBytes b.got (ceilDiv b.len 2048)) bad) b.st b.purp

/-! ### Accumulate windows (R233-R235) -/

/-- Registers of accumulate window w. -/
def awin (ep w : Nat) : Nat := niBase ep + 0x10 * w

/-- The lowest-numbered window of the four that matches an ACC packet (R233). -/
def matchAwin (s : State) (ep : Nat) (h : Hdr) : Option Nat :=
  if s.build.isS then none
  else (upFrom 0 4).find? (fun w =>
    s.flag (awin ep w) F.NI_AWINw_CTL_EN && s.get (awin ep w) F.NI_AWINw_JOB_JOB == h.job &&
    s.get (awin ep w) F.NI_AWINw_KEY_GROUP == h.tag % 4096 && s.get (awin ep w) F.NI_AWINw_KEY_CSEQ == h.tag / 4096 &&
    redChunk h < s.get (awin ep w) F.NI_AWINw_CTL_CHUNKS)

/-- An ACC packet or reduce NACK discarded and counted. -/
def redDisc (s : State) (ep : Nat) : State := s.bump (niBase ep) F.NI_RED_DISC_CNT_COUNT 1

/-- Memory of a window: read or written at a byte offset from its base. -/
def accRead (s : State) (j : AccJob) (off len step : Nat) : State :=
  let ctx := (s.jobCtx j.ep j.pkt.hdr.job).getD 0
  if j.ep < 0xF00 then s.readMem (.tap (4 * j.ep + j.core)) ((j.base + off) % 2 ^ 46) len (.acc j.ep j.id step)
  else s.bigRead j.ep ctx j.mapp (j.base + off) len (.acc j.ep j.id step)
def accWrite (s : State) (j : AccJob) (off : Nat) (bytes : List Byte) (step : Nat) : State :=
  let ctx := (s.jobCtx j.ep j.pkt.hdr.job).getD 0
  if j.ep < 0xF00 then s.writeMem (.tap (4 * j.ep + j.core)) ((j.base + off) % 2 ^ 46) bytes [] (.acc j.ep j.id step)
  else s.bigWrite j.ep ctx j.mapp (j.base + off) bytes (.acc j.ep j.id step)

/-- Where the record of a job's chunk lies, and its accumulators for the job's packet with their length. -/
def accRecOff (j : AccJob) : Nat := 65536 * j.chunks + 16 * redChunk j.pkt.hdr
def accSumOff (j : AccJob) : Nat := 65536 * redChunk j.pkt.hdr + 256 * (redBoff j.pkt.hdr / groupBytes (j.pkt.hdr.opc % 16))

/-- The window of a job is still enabled: one that is disabled abandons its chunks (R235). -/
def accWinOn (s : State) (j : AccJob) : Bool :=
  4 ≤ j.win || s.flag (awin j.ep j.win) F.NI_AWINw_CTL_EN

/-- A job replaced, or begun: its chunk record is read first. -/
def updAcc (s : State) (id : Nat) (f : AccJob → AccJob) : State := { s with accJobs := updFirst (fun j => j.id == id) f s.accJobs }
def beginAcc (s : State) (j : AccJob) : State :=
  (s.updAcc j.id (fun j => { j with begun := true })).accRead j (accRecOff j) 16 0

/-- The next job of the same chunk begins. -/
def nextAcc (s : State) (ep win chunk : Nat) : State :=
  match s.accJobs.find? (fun j => j.ep == ep && j.win == win && redChunk j.pkt.hdr == chunk) with
  | some j => if j.begun then s else s.beginAcc j
  | none => s

/-- A job is over. -/
def endAcc (s : State) (j : AccJob) : State :=
  ({ s with accJobs := delFirst (fun x => x.id == j.id) s.accJobs }).nextAcc j.ep j.win (redChunk j.pkt.hdr)

/-- The record of a chunk that is done (R234). -/
def postChunk (s : State) (j : AccJob) (t : Tally) : State :=
  let h := j.pkt.hdr
  match s.jobCtx j.ep h.job with
  | none => s.errBit (niBase j.ep) F.NI_RED_ERR_REC_LOST 8 (srcEp j.ep) (openSt 4) (h.tag % 4096)
  | some c =>
    let ok := s.cqReady j.ep c
    let s := s.postRec j.ep c 7 (if t.poison then stPOISON else stOK) h.job [h.tag, redChunk h, t.sat, t.escx]
    if ok then s else s.errBit (niBase j.ep) F.NI_RED_ERR_REC_LOST 8 (srcEp j.ep) (openSt 4) (h.tag % 4096)

/-- A job's counts are written to its chunk record. -/
def accPut (s : State) (j : AccJob) (t : Tally) (fin : Bool) : State :=
  let j := { j with tally := t, finished := fin }
  (s.updAcc j.id (fun _ => j)).accWrite j (accRecOff j) t.toBytes 3

/-- An accumulate with a contribution that counts as poisoned (R234, R235). -/
def accPoison (s : State) (j : AccJob) (t : Tally) : State :=
  match t.take j.w j.pkt.hdr true with
  | some (t', _) => s.accPut j t' true
  | none => s.endAcc j

/-- A step of an accumulate has been answered: 0 record read, 1 sums read, 2 sums written, 3 record written,
4 record written again after a failure. -/
def accStep (s : State) (id step : Nat) (x : Txn) : State :=
  match s.accJobs.find? (fun j => j.id == id) with
  | none => s
  | some j =>
    let logged := if x.st == stOK then s else s.report 8 (srcEp j.ep) x.st (0xFF + 256 * (j.pkt.hdr.tag % 4096))
    if !s.accWinOn j then
      -- the window has been disabled: the packet is discarded as one that matches none (R235)
      ((s.redDisc j.ep).errBit (niBase j.ep) F.NI_RED_ERR_NOWIN 8 (srcEp j.ep) stBADCMD (j.pkt.hdr.tag % 4096)).endAcc j
    else if step == 0 then
      if x.st != stOK then
        -- the record cannot be read: only its POISON bit is set (R235)
        (logged.updAcc id (fun j => { j with finished := false })).accWrite j (accRecOff j + 8) [2] 3
      else
        let t := Tally.ofBytes x.bytes
        let v := redValues j.pkt
        let bad := j.pkt.poisoned || 0 < v.2.1
        if t.done then (s.redDisc j.ep).endAcc j
        else match t.take j.w j.pkt.hdr bad with
          | none => (((s.redDisc j.ep).errBit (niBase j.ep) F.NI_RED_ERR_OVERW 8 (srcEp j.ep) stBADCMD (j.pkt.hdr.tag % 4096))).endAcc j
          | some (t', add) =>
            let s := if j.pkt.poisoned then s else s.kerfCount 0 v.2.2 v.2.1
            if add then (s.updAcc id (fun j => { j with tally := t })).accRead { j with tally := t } (accSumOff j) (4 * v.1.length) 1
            else s.accPut j t' true
    else if step == 1 then
      if x.st != stOK then logged.accPoison j j.tally
      else
        let old := unpackN (leNat x.bytes) 32 (x.len / 4)
        let new := List.zipWith f32Add old (redValues j.pkt).1
        s.accWrite j (accSumOff j) ((new.map (fun v => leBytes v 4)).flatten) 2
    else if step == 2 then
      if x.st != stOK then logged.accPoison j j.tally
      else match j.tally.take j.w j.pkt.hdr false with
        | some (t', _) => s.accPut j t' true
        | none => s.endAcc j
    else if step == 3 && x.st != stOK && j.finished then
      -- the record could not be written: POISON is set for the chunk (R235)
      let j := { j with tally := { j.tally with poison := true } }
      (logged.updAcc id (fun _ => j)).accWrite j (accRecOff j) j.tally.toBytes 4
    else
      let s := logged
      let s := if !(j.finished && j.tally.done) then s
        else
          let s := s.postChunk j j.tally
          if j.win < 4 then s else
          let ev : ColEv := ⟨j.ep - 0xF00, j.win - 4, redChunk j.pkt.hdr, if j.tally.poison then stPOISON else stOK, j.tally.sat, j.tally.escx⟩
          { s with ownAns := s.ownAns ++ [ev] }
      s.endAcc j

/-- A window is disabled: the accumulates that waited for it, or were under way, are discarded and counted as packets that match none
(R234, R235). -/
def dropAccs (s : State) (ep win : Nat) : State :=
  let mine := s.accJobs.filter (fun j => j.ep == ep && j.win == win)
  mine.foldl (fun s j => (s.redDisc ep).errBit (niBase ep) F.NI_RED_ERR_NOWIN 8 (srcEp ep) stBADCMD (j.pkt.hdr.tag % 4096))
    { s with accJobs := s.accJobs.filter (fun j => !(j.ep == ep && j.win == win)) }

/-- An ACC packet joins the accumulates of its window, and begins when no other of its chunk is under way (R234). -/
def addAcc (s : State) (ep win core mapp base chunks w : Nat) (pk : Pkt) : State :=
  let j : AccJob := ⟨s.nextId, ep, win, core, mapp, base, chunks, w, pk, false, Tally.zero, false⟩
  let s := { s with nextId := s.nextId + 1, accJobs := s.accJobs ++ [j] }
  s.nextAcc ep win (redChunk pk.hdr)

/-- An ACC packet for one of the four windows of an NI. -/
def accWindow (s : State) (ep w : Nat) (pk : Pkt) : State :=
  s.addAcc ep w (s.get (awin ep w) F.NI_AWINw_CTL_CORE) (s.get (awin ep w) F.NI_AWINw_JOB_MAPP)
    (s.get (awin ep w) F.NI_AWINw_BASE_BASE * 65536) (s.get (awin ep w) F.NI_AWINw_CTL_CHUNKS) (s.get (awin ep w) F.NI_AWINw_CTL_W) pk

/-- A reduce NACK (R226). -/
def reduceNack (s : State) (ep : Nat) (pk : Pkt) : State :=
  (s.redDisc ep).errBit (niBase ep) F.NI_RED_ERR_NACK 8 (srcEp ep) (pk.hdr.opc % 16) (pk.hdr.tag % 4096)

end State
end Sys2Proof.Machine
end

