-- ==== Sys2Proof/Machine/Bowl.lean ====
section
/-! DEFINITION. The Bowl store and the Claim Arbiter (R236-R248, R252). -/
namespace Sys2Proof.Machine
namespace State

/-! ### Geometry -/

/-- Bank of the slots of a Bowl port block (R237). -/
def bowlBank (s : State) (p : Nat) : Nat :=
  if s.build.isS then 0 else match s.build.station p with | some x => s.build.quadrant x.col x.row | none => 0

/-- Slots of a bank: first and number. -/
def bankSlots (s : State) (bk : Nat) : Nat × Nat :=
  if s.build.isS then (0, s.build.bowlSlots) else (bk * (s.build.bowlSlots / 4), s.build.bowlSlots / 4)

/-- The power domain of a bank. -/
def bankDom (s : State) (bk : Nat) : Nat := if s.build.isS then s.build.bowlDom else s.build.quadDom bk

/-- The lowest free slot of a bank; none while the bank's domain is not Lit. -/
def freeSlot (s : State) (bk : Nat) : Option Nat :=
  let r := s.bankSlots bk
  if s.dom (s.bankDom bk) != 3 then none
  else (upFrom r.1 r.2).find? (fun k => !s.bslots.any (fun x => x.slot == k))

/-! ### Answers -/

/-- A Bowl control write answered. -/
def answerBowl (s : State) (p : Nat) (a : Pkt) (st : Nat) : State := s.replyReq (0xF00 + p) a tWACK st 0 [] []

/-- Reply records in use (R239). -/
def replyUsed (s : State) : Nat := (s.bents.map (fun e => e.claims.length + e.commits.length)).foldl (· + ·) 0

def bwlErr (s : State) (f : Fld) (st obj : Nat) : State := s.errBit 0 f 8 (srcGlob 2) st obj

def updBent (s : State) (id : Nat) (f : BEnt → BEnt) : State := { s with bents := updFirst (fun e => e.id == id) f s.bents }
/-- The slot of an entry's grant. -/
def slotOf (s : State) (ent : Nat) : Option BSlot := s.bslots.find? (fun x => x.ent == ent)
def updBslot (s : State) (slot : Nat) (f : BSlot → BSlot) : State := { s with bslots := updFirst (fun x => x.slot == slot) f s.bslots }

/-- Every held answer of an entry given, and the entry enters DONE or FALLBACK. -/
def closeEnt (s : State) (e : BEnt) (state claimSt commitSt : Nat) : State :=
  let s := s.updBent e.id (fun x => { x with state := state, since := s.tmo, claims := [], commits := [] })
  let s := e.claims.foldl (fun s a => s.answerBowl e.port a claimSt) s
  e.commits.foldl (fun s a => s.answerBowl e.port a commitSt) s

/-- A slot falls back (R242). -/
def slotFall (s : State) (x : BSlot) : State :=
  let s := { s with bslots := s.bslots.filter (fun y => y.slot != x.slot) }
  let s := match s.bents.find? (fun e => e.id == x.ent) with
    | some e => s.closeEnt e 3 stCLAIM stCLAIM
    | none => s
  (s.bump 0 F.BWL_FALL_CNT_COUNT 1).report 9 (srcGlob 2) stCLAIM (0xFF + 256 * x.slot)

/-! ### Grants (R243-R246) -/

/-- The priority in effect at a position (R245, R246). -/
def prioOf (s : State) (pos : Nat) : Nat :=
  let a := 0x710 + 4 * (pos / 16)
  wordField ((mapGet s.clmEff a).getD (s.word a)) (2 * (pos % 16)) 2
def prioPw (s : State) : Nat := wordField ((mapGet s.clmEff 0x730).getD (s.word 0x730)) 0 2

/-- Nothing new is granted (R246). -/
def clmFrozen (s : State) : Bool := s.get 0 F.CLM_CTL_MODE == 0 && s.flag 0 F.CLM_CTL_FREEZE

/-- The wait after the k-th loss, in notches (R244). -/
def clmBackoff (k : Nat) : Nat := min (16 * 2 ^ (k - 1)) 4096

/-- A slot is granted to a PENDING entry: the slot is zeroed, the held claims are answered OK (R239, R240). -/
def grantSlot (s : State) (e : BEnt) (slot : Nat) : State :=
  let x : BSlot := ⟨slot, e.id, s.tmo, List.replicate (64 * e.ng) 0, Tally.zero, false, 0⟩
  let s := { s with
    bslots := s.bslots ++ [x]
    clmPtr := mapSet s.clmPtr 0 (s.bowlBank e.port) ((e.pos + 1) % 127)
    clmLast := mapPut s.clmLast (s.bowlBank e.port) (s.cyc, s.tmo) }
  let s := s.updBent e.id (fun x => { x with state := 1, claims := [] })
  e.claims.foldl (fun s a => s.answerBowl e.port a stOK) s

/-- An attempt is lost (R244): after LIMIT losses the entry fails. -/
def loseAttempt (s : State) (e : BEnt) : State :=
  let s := s.bump 0 F.CLM_LOSS_CNT_COUNT 1
  let k := e.lost + 1
  if s.get 0 F.CLM_CTL_LIMIT ≤ k then
    let s := (s.closeEnt e 3 stCLAIM stCLAIM).bump 0 F.CLM_FAIL_CNT_COUNT 1
    s.report 9 (srcGlob 2) stCLAIM (0xFF + 256 * e.group)
  else s.updBent e.id (fun x => { x with lost := k, due := s.tmo + clmBackoff k + 1 })

/-- A pool has granted a unit in this cycle (R243). -/
def grantedNow (s : State) (bk : Nat) : Bool := mapGet s.clmLast bk == some (s.cyc, s.tmo)

/-- One attempt of a PENDING entry: lost where its pool has no free slot or has granted one in this cycle (R243, R244). Where another PENDING entry of the pool is due in the same notch with a higher
priority, or the same and nearer after the pointer, that one is served first and this attempt meets what is left
(R245). -/
def attempt (s : State) (e : BEnt) : State :=
  match (if s.clmFrozen || s.grantedNow (s.bowlBank e.port) then none else s.freeSlot (s.bowlBank e.port)) with
  | some slot => s.grantSlot e slot
  | none => s.loseAttempt e

/-- The order in which requesters that attempt together are served (R245). -/
def servedBefore (s : State) (bk : Nat) (a b : BEnt) : Bool :=
  let ptr := nget s.clmPtr 0 bk
  let pa := s.prioOf a.pos
  let pb := s.prioOf b.pos
  pb < pa || (pa == pb && (a.pos + 127 - ptr) % 127 < (b.pos + 127 - ptr) % 127)

/-! ### CLAIM and COMMIT (R238, R239) -/

/-- A control record (R238). -/
def ctlRec (pay : List Byte) : Nat := leNat (pay.take 64)

/-- The entry of a key. -/
def bentOf (s : State) (job group cseq chunk : Nat) : Option BEnt :=
  s.bents.find? (fun e => e.job == job && e.group == group && e.cseq == cseq && e.chunk == chunk)

/-- A CLAIM that agrees with an entry (R238). -/
def claimAgrees (e : BEnt) (x : Nat) : Bool :=
  e.w == bitsOf x 24 13 && e.ng == bitsOf x 37 9 && e.fmt == bitsOf x 46 4 && e.rfmt == bitsOf x 50 4 &&
  e.rmode == bitsOf x 54 1 && e.rdest == bitsOf x 64 24 && e.raddr == bitsOf x 88 48

/-- A claim that is held, or answered CLAIM for want of a reply record or of a claimer's place (R239). -/
def holdClaim (s : State) (e : BEnt) (src : Nat) (a : Pkt) : State :=
  if s.build.replyRecs ≤ s.replyUsed then (s.bwlErr F.BWL_ERR_RRFULL stCLAIM 0).answerBowl e.port a stCLAIM
  else if !e.claimers.contains src && 128 ≤ e.claimers.length then s.answerBowl e.port a stCLAIM
  else s.updBent e.id (fun x => { x with
    claimers := if x.claimers.contains src then x.claimers else x.claimers ++ [src], claims := x.claims ++ [a] })

/-- A CLAIM of a key at Bowl port block p (R239). A new entry makes its first attempt before the cycle is over, together with every
other created in it (R244, R245). -/
def bowlClaim (s : State) (p pos job src chunk x : Nat) (a : Pkt) : State :=
  let group := bitsOf x 0 12
  let cseq := bitsOf x 12 12
  -- a reserved format (R202)
  if groupBytes (bitsOf x 46 4) == 0 || groupBytes (bitsOf x 50 4) == 0 then s.answerBowl p a stBADCMD else
  match s.bentOf job group cseq chunk with
  | some e =>
    if e.state == 2 then s.answerBowl p a stOK
    else if e.state == 3 then s.answerBowl p a stCLAIM
    else if !claimAgrees e x then s.answerBowl p a stBADCMD
    else if e.state == 0 then s.holdClaim e src a
    else if !e.claimers.contains src && 128 ≤ e.claimers.length then s.answerBowl p a stCLAIM
    else (s.updBent e.id (fun y => { y with claimers := if y.claimers.contains src then y.claimers else y.claimers ++ [src] })).answerBowl p a stOK
  | none =>
    if s.build.dirSize ≤ s.bents.length then (s.bwlErr F.BWL_ERR_DIRFULL stCLAIM group).answerBowl p a stCLAIM
    else if s.build.replyRecs ≤ s.replyUsed then (s.bwlErr F.BWL_ERR_RRFULL stCLAIM group).answerBowl p a stCLAIM
    else
      let e : BEnt :=
        { id := s.nextId, port := p, job := job, group := group, cseq := cseq, chunk := chunk, state := 0, w := bitsOf x 24 13
          ng := bitsOf x 37 9, fmt := bitsOf x 46 4, rfmt := bitsOf x 50 4, rmode := bitsOf x 54 1, rdest := bitsOf x 64 24
          raddr := bitsOf x 88 48, pos := pos, lost := 0, due := s.tmo, since := 0, claimers := [src], claims := [a], commits := [] }
      { s with nextId := s.nextId + 1, bents := s.bents ++ [e] }

/-- A COMMIT of a key (R239); the NACK of one that cannot be held is of status NOPOOL. -/
def bowlCommit (s : State) (p job chunk x : Nat) (a : Pkt) : State :=
  match s.bentOf job (bitsOf x 0 12) (bitsOf x 12 12) chunk with
  | none => s.answerBowl p a stCLAIM
  | some e =>
    if e.state == 0 then s.answerBowl p a stBADCMD
    else if e.state == 2 then s.answerBowl p a stOK
    else if e.state == 3 then s.answerBowl p a stCLAIM
    else if s.build.replyRecs ≤ s.replyUsed then
      (s.bwlErr F.BWL_ERR_RRFULL stNOPOOL e.group).nackReq (0xF00 + p) a stNOPOOL
    else s.updBent e.id (fun y => { y with commits := y.commits ++ [a] })

/-! ### Data and results (R240, R241) -/

/-- The result bytes of a complete slot, encoded in RFMT in own mode, and the counts of that encoding. -/
def slotResult (x : BSlot) (e : BEnt) : List Byte × Nat × Nat :=
  let gs := (upFrom 0 e.ng).map (fun k => encodeGroup e.rfmt ((x.sums.drop (64 * k)).take 64) none)
  ((gs.map (·.bytes)).flatten, (gs.map (·.sat)).foldl (· + ·) 0, (gs.map (·.nans)).foldl (· + ·) 0)

/-- The result WRITEs of a complete slot leave (R241), or the slot falls back for want of a context (R242). -/
def sendResult (s : State) (x : BSlot) (e : BEnt) : State :=
  let ep := 0xF00 + e.port
  match s.jobCtx ep e.job with
  | none => s.slotFall x
  | some c =>
    let r := slotResult x e
    let s := s.kerfCount r.2.1 r.2.2 0
    let sat := min 65535 (x.tally.sat + r.2.1)
    let dests := if e.rmode == 1 then e.claimers else [e.rdest]
    let bad := x.tally.poison
    let one := fun (s : State) (dest : Nat) =>
      let far := epChip dest != s.chip
      let m := if far then 8192 else 2048
      (upFrom 0 (max 1 (ceilDiv r.1.length m))).foldl (fun (s : State) k =>
        let pay := (r.1.drop (m * k)).take m
        let last := r.1.length ≤ m * k + pay.length
        let h := { Hdr.zero with
          ptype := tWRITE, len := pay.length, job := e.job, ctx := c
          flg := (if last then 2 ^ fLAST else 0) + (if bad then 2 ^ fPOISON else 0) + (if bitAt (s.tsetEpoch (s.ctxTset ep c)) 0 then 2 ^ fEPOCH else 0)
          addr := (e.raddr + m * k) % 2 ^ 48, aux := sat + 65536 * x.tally.escx }
        let f : FarReq := ⟨ep, c, s.ctxTset ep c, dest, ep,
          ⟨h, Ext.none, pay, if bad then upFrom 0 (ceilDiv pay.length 64) else []⟩, true, .bowlReply x.ent⟩
        { s with farq := s.farq ++ [f] }) s
    let n := (dests.map (fun d => max 1 (ceilDiv r.1.length (if epChip d != s.chip then 8192 else 2048)))).foldl (· + ·) 0
    let s := s.updBslot x.slot (fun y => { y with sent := true, left := n })
    dests.foldl one s

/-- A BOWL contribution (R240): discarded where its key holds no slot. -/
def bowlData (s : State) (job : Nat) (pk : Pkt) : State :=
  let h := pk.hdr
  let fmt := h.opc % 16
  let late := (s.bump 0 F.BWL_DISC_CNT_COUNT 1).bwlErr F.BWL_ERR_LATE (openSt 5) (h.tag % 4096)
  match s.bentOf job (h.tag % 4096) (h.tag / 4096) (redChunk h) with
  | none => late
  | some e =>
    match (if e.state == 1 then s.slotOf e.id else none) with
    | none => late
    | some x =>
      let g0 := redBoff h / groupBytes fmt
      let v := redValues pk
      let n := v.1.length / 64
      if fmt != e.fmt || e.ng < g0 + n then
        (s.bump 0 F.BWL_DISC_CNT_COUNT 1).bwlErr F.BWL_ERR_BADDATA stBADCMD e.group
      else if x.sent && h.flag fESC then s.bump 0 F.BWL_DISC_CNT_COUNT 1
      else match x.tally.take e.w h (pk.poisoned || 0 < v.2.1) with
        | none => (s.bump 0 F.BWL_DISC_CNT_COUNT 1).bwlErr F.BWL_ERR_OVERW stBADCMD e.group
        | some (t, add) =>
          let s := if pk.poisoned then s else s.kerfCount 0 v.2.2 v.2.1
          let sums := if add then
              x.sums.take (64 * g0) ++ List.zipWith f32Add ((x.sums.drop (64 * g0)).take (64 * n)) v.1 ++ x.sums.drop (64 * (g0 + n))
            else x.sums
          let x := { x with sums := sums, tally := t }
          let s := s.updBslot x.slot (fun _ => x)
          if t.done then s.sendResult x e else s

/-- A result WRITE of the grant of a directory entry has been answered (R241, R242). -/
def resultAnswered (s : State) (ent st : Nat) : State :=
  match s.bslots.find? (fun x => x.ent == ent && x.sent) with
  | none => s
  | some x => if st != stOK && !(st == stPOISON && x.tally.poison) then s.slotFall x else s.updBslot x.slot (fun y => { y with left := y.left - 1 })

/-- BOWL_RESULT_DONE: every result WRITE has been answered OK (R241). -/
def resultDone (s : State) (slot : Nat) : State :=
  match s.bslots.find? (fun x => x.slot == slot) with
  | none => s
  | some x =>
    if !x.sent || x.left != 0 then s
    else
      let s := { s with bslots := s.bslots.filter (fun y => y.slot != slot) }
      let st := if x.tally.poison then stPOISON else stOK
      let s := match s.bents.find? (fun e => e.id == x.ent) with
        | some e => s.closeEnt e 2 stOK st
        | none => s
      s.bump 0 F.BWL_DONE_CNT_COUNT 1

/-- BOWL_SLOT_TIMEOUT: a slot that is not complete falls back when STMO runs out; the timeout does not apply to a complete one
(R242, R252). -/
def slotTimeout (s : State) (slot : Nat) : State :=
  match s.bslots.find? (fun x => x.slot == slot) with
  | none => s
  | some x =>
    if x.sent then s
    else (s.passTo (x.born + s.get 0 F.BWL_CTL_STMO + 1)).slotFall x

/-- BOWL_ENTRY_EXPIRE: a DONE or FALLBACK entry leaves after MARK notches (R239). -/
def entExpire (s : State) (k : Nat) : State :=
  match s.bents[k]? with
  | none => s
  | some e =>
    if e.state < 2 then s
    else
      let s := s.passTo (e.since + s.get 0 F.BWL_CTL_MARK + 1)
      { s with bents := s.bents.filter (fun x => x.id != e.id) }

/-- PENDING entries that have not attempted yet. -/
def freshClaims (s : State) : List BEnt := s.bents.filter (fun e => e.state == 0 && e.lost == 0)

/-- The cycle ends: the entries created in it make their first attempt, of each pool the one first that R245 puts first (R244). -/
def firstAttempts (s : State) : State :=
  let l := s.freshClaims
  if l.isEmpty then s
  else
    let first := fun (e : BEnt) => !l.any (fun x => s.bowlBank x.port == s.bowlBank e.port && s.servedBefore (s.bowlBank e.port) x e)
    (l.filter first ++ l.filter (fun e => !first e)).foldl (fun s e => s.attempt e) s

/-- CLAIM_ATTEMPT: the k-th PENDING entry attempts again when its backoff has run out (R244), with those that are due in
the same notch served in the order of R245. -/
def claimAttempt (s : State) (k : Nat) : State :=
  match (s.bents.filter (fun e => e.state == 0))[k]? with
  | none => s
  | some e =>
    let s := s.passTo e.due
    let bk := s.bowlBank e.port
    let due := s.bents.filter (fun x => x.state == 0 && s.bowlBank x.port == bk && x.due ≤ s.tmo)
    let s := (due.filter (fun x => s.servedBefore bk x e)).foldl (fun s x => s.attempt x) s
    match s.bents.find? (fun x => x.id == e.id && x.state == 0) with
    | some e => s.attempt e
    | none => s

/-- Every shadow priority takes effect (R246). -/
def clmTake (s : State) : State := { s with clmEff := [] }

/-- A write of a CLM_PRIO register: at once in MODE 0, to the shadow copy in MODE 1 (R246). -/
def clmPrioWrite (s : State) (a : Nat) (w : Word) : State :=
  let keep := s.get 0 F.CLM_CTL_MODE == 1 && (mapGet s.clmEff a).isNone
  let s := if keep then { s with clmEff := mapPut s.clmEff a (s.word a) } else s
  s.setWord a w

/-- The Bowl arrival of a control write: operation 1 CLAIM, 2 COMMIT, anything else illegal (R238). -/
def bowlCtl (s : State) (p : Nat) (pk : Pkt) : State :=
  let op := pk.hdr.addr / 2 ^ 40 % 16
  let chunk := pk.hdr.addr / 65536 % 2 ^ 24
  let x := ctlRec pk.pay
  let pos := if pk.ext.xv == 1 && pk.ext.port < 126 then pk.ext.port else p
  let a := pk
  if pk.hdr.len != 64 || !(op == 1 || op == 2) then s.answerBowl p a stBADCMD
  else if op == 1 then s.bowlClaim p pos pk.hdr.job (s.srcOf pk) chunk x a
  else s.bowlCommit p pk.hdr.job chunk x a

/-- The arrival of a Bowl control write at a port block. -/
def bowlArrival (s : State) (p : Nat) (commit : Bool) (a : Arrival) : Bool :=
  a.pkt.hdr.ptype == tWRITE && !a.lt && classOf a.pkt.hdr.vcn != 1 && s.build.isBowlPort p && !s.leaving a.pkt &&
  a.pkt.hdr.addr / 2 ^ 44 == 0xB && ((a.pkt.hdr.addr / 2 ^ 40 % 16 == 2) == commit)

end State
end Sys2Proof.Machine
end

