-- ==== Sys2Proof/Machine/Collective.lean ====
section
/-! DEFINITION. The collective engines (R254-R279): group records, stages, contributions with tracked scales, residuals
and escalation (R214, R218-R220), gathers, departures and completion. -/
namespace Sys2Proof.Machine

/-! ### Group records (R255, R256) -/

def grGroup (x : Nat) : Nat := bitsOf x 0 12
def grV (x : Nat) : Bool := bitAt x 12
def grGone (x : Nat) : Bool := bitAt x 13
/-- DIR_l: the Bowl of the level-l switch has departed. -/
def grDir (x l : Nat) : Bool := 2 ≤ l && bitAt x (12 + l)
def grJob (x : Nat) : Nat := bitsOf x 16 10
def grEpoch (x : Nat) : Nat := bitsOf x 26 16
def grNstart (x : Nat) : Nat := bitsOf x 42 10
def grLog (x l : Nat) : Nat := bitsOf x (52 + 3 * l) 3
/-- Width k_l. -/
def grK (x l : Nat) : Nat := 2 ^ grLog x l
/-- Digit d_l. -/
def grD (x l : Nat) : Nat := bitsOf x (64 + 6 * l) 6
/-- SW_l: level-l reductions use a switch's Bowl. -/
def grSw (x l : Nat) : Bool := 2 ≤ l && bitAt x (86 + l)
def grSwep (x l : Nat) : Nat := bitsOf x (if l == 2 then 96 else 120) 24
def grMlist (x : Nat) : Nat := bitsOf x 144 48
def grMap (x : Nat) : Nat := bitsOf x 192 7
def grCtx (x : Nat) : Nat := bitsOf x 199 4
/-- Members of the levels above l in number: k_(l+1) × … × k_3. -/
def grStride (x l : Nat) : Nat := ((upFrom (l + 1) (3 - l)).map (grK x)).foldl (· * ·) 1
/-- Number of members. -/
def grM (x : Nat) : Nat := grK x 0 * grStride x 0
/-- This die's member index. -/
def grQ (x : Nat) : Nat := (upFrom 0 4).foldl (fun q l => q * grK x l + grD x l) 0
/-- Product k_0 × … × k_l. -/
def grProd (x l : Nat) : Nat := ((upFrom 0 (l + 1)).map (grK x)).foldl (· * ·) 1
/-- The member that differs from this die at level l only, with digit j there. -/
def grPeer (x l j : Nat) : Nat := grQ x - grD x l * grStride x l + j * grStride x l
/-- Digits of the peers of level l, this die's own left out. -/
def grPeers (x l : Nat) : List Nat := (upFrom 0 (grK x l)).filter (fun j => j != grD x l)

/-! ### Descriptors (R259) -/

def cdOp (d : Nat) : Nat := bitsOf d 0 4
def cdEco (d : Nat) : Bool := bitAt d 4
def cdRes (d : Nat) : Bool := bitAt d 5
def cdIfmt (d : Nat) : Nat := bitsOf d 8 4
def cdTfmt (d : Nat) : Nat := bitsOf d 12 4
def cdOfmt (d : Nat) : Nat := bitsOf d 16 4
def cdGroup (d : Nat) : Nat := bitsOf d 20 12
def cdE (d : Nat) : Nat := bitsOf d 32 32
def cdSrc (d : Nat) : Nat := bitsOf d 64 48
def cdDst (d : Nat) : Nat := bitsOf d 112 48
def cdWork (d : Nat) : Nat := bitsOf d 160 48
def cdRad (d : Nat) : Nat := bitsOf d 208 48
def cdMap (d : Nat) : Nat := bitsOf d 256 7

/-- The stages of a collective, and the conversions between them (R268, R271, R272). -/
inductive Stage where
  | reduce (l : Nat)
  /-- The final share is converted into DST. -/
  | place
  | gather (l : Nat)
  /-- The narrow block in GATHER is decoded into DST. -/
  | widen
  deriving DecidableEq, Repr

/-- Levels that have a stage, rising. -/
def levels (x : Nat) : List Nat := (upFrom 0 4).filter (fun l => 1 < grK x l)

/-- An economy ALL_REDUCE whose last reduce stage is at level 2 or 3 gathers narrow shares (R260). -/
def narrowAR (x d : Nat) : Bool := cdOp d == 1 && cdEco d && (1 < grK x 2 || 1 < grK x 3)

/-- The stages in order. -/
def stagesOf (x d : Nat) : List Stage :=
  let red := (levels x).map Stage.reduce
  let up := (levels x).reverse
  let gath := if narrowAR x d then ((up.filter (2 ≤ ·)).map Stage.gather) ++ [Stage.widen] ++ ((up.filter (· < 2)).map Stage.gather)
    else up.map Stage.gather
  if cdOp d == 1 then red ++ (if narrowAR x d then [] else [Stage.place]) ++ gath
  else if cdOp d == 2 then red ++ [Stage.place]
  else [Stage.place] ++ gath

/-- The wire format of the reduce stage of a level (R269). -/
def redFmt (d l : Nat) : Nat := if cdEco d && l < 2 then 0 else cdTfmt d

/-- Bytes of a whole number of groups' elements in a format. -/
def fmtBytes (fmt n : Nat) : Nat := n / 64 * groupBytes fmt

/-- Elements of a part at level l (R262). -/
def partElems (x d l : Nat) : Nat := cdE d / grProd x l
/-- Chunks of a part at level l. -/
def partChunks (x d l : Nat) : Nat := ceilDiv (partElems x d l) 16384
/-- Elements of chunk c of a part. -/
def chunkElems (x d l c : Nat) : Nat := min 16384 (partElems x d l - 16384 * c)

/-- The areas of WORK (R260): SHA, SHB and GATHER. -/
def firstPart (x d : Nat) : Nat := match (levels x) with | [] => cdE d | l :: _ => partElems x d l
def workS0 (x d : Nat) : Nat := ceilDiv (65552 * ceilDiv (firstPart x d) 16384) 65536 * 65536
def workZ (x d : Nat) : Nat := ceilDiv (4 * firstPart x d) 65536 * 65536
def workArea (x d k : Nat) : Nat := cdWork d + workS0 x d + k * workZ x d

/-- Bytes of one narrow share in GATHER. -/
def narrowShare (x d : Nat) : Nat := fmtBytes (cdTfmt d) (cdE d / grM x)

/-- Which reduce stage a level is: 0 for the first. -/
def redIndex (x l : Nat) : Nat := ((levels x).filter (· < l)).length

/-- Where the reduce stage of level l writes its output: address, and format (R260, R272). -/
def redOut (x d l : Nat) : Nat × Nat :=
  if narrowAR x d && (levels x).getLast? == some l then
    (workArea x d 2 + grQ x % (grK x 2 * grK x 3) * narrowShare x d, redFmt d l)
  else (workArea x d (redIndex x l % 2), redFmt d l)

/-- What the reduce stage of level l reads: address and format. -/
def redIn (x d l : Nat) : Nat × Nat :=
  match ((levels x).filter (· < l)).getLast? with
  | none => (cdSrc d, cdIfmt d)
  | some k => redOut x d k

/-- First element, in the tensor, of the share that the reduce stage of level l splits. -/
def shareBase (x d l : Nat) : Nat := ((upFrom 0 l).map (fun m => grD x m * partElems x d m)).foldl (· + ·) 0

/-- What is placed into DST before the gathers: source address and format, destination, elements (R272). -/
def placeOf (x d : Nat) : Nat × Nat × Nat × Nat :=
  let n := cdE d / grM x
  let src := if cdOp d == 3 then (cdSrc d, cdIfmt d)
    else match (levels x).getLast? with | some l => redOut x d l | none => (cdSrc d, cdIfmt d)
  let dst := if cdOp d == 2 then cdDst d else cdDst d + fmtBytes (cdOfmt d) (grQ x * n)
  (src.1, src.2, dst, n)

/-- What is decoded from GATHER into DST: source, format, destination, elements (R272). -/
def widenOf (x d : Nat) : Nat × Nat × Nat × Nat :=
  let k := grK x 2 * grK x 3
  let q0 := grQ x - grQ x % k
  (workArea x d 2, cdTfmt d, cdDst d + fmtBytes (cdOfmt d) (q0 * (cdE d / grM x)), cdE d / (grK x 0 * grK x 1))

/-- The gather of level l (R271): whether it moves narrow bytes, the address of the block of digit 0, the bytes of a
block. -/
def gatherOf (x d l : Nat) : Nat × Nat :=
  let sh := cdE d / grM x
  let narrow := narrowAR x d && 2 ≤ l
  let q0 := grQ x - grQ x % (grK x l * grStride x l)
  let n := partElems x d l
  if narrow then (workArea x d 2 + q0 % (grK x 2 * grK x 3) * narrowShare x d, fmtBytes (cdTfmt d) n)
  else (cdDst d + fmtBytes (cdOfmt d) (q0 * sh), fmtBytes (cdOfmt d) n)

/-- The collective number and level of a stage. -/
def cseqOf (n l : Nat) : Nat := 4 * n + l

namespace State

/-! ### Access -/

def colRec (s : State) (p g : Nat) : Option ColRec := s.colrecs.find? (fun r => r.port == p && r.g == g)
def updRec (s : State) (p g : Nat) (f : ColRec → ColRec) : State :=
  { s with colrecs := updFirst (fun r => r.port == p && r.g == g) f s.colrecs }
/-- The valid record of a group at an engine. -/
def recOf (s : State) (p group : Nat) : Option ColRec := s.colrecs.find? (fun r => r.port == p && grV r.bits && grGroup r.bits == group)
def colRunning (s : State) (p g : Nat) : Option Coll := s.colls.find? (fun c => c.port == p && c.g == g && c.running)
def updColl (s : State) (c : Coll) (f : Coll → Coll) : State :=
  { s with colls := updFirst (fun x => x.port == c.port && x.g == c.g && x.n == c.n) f s.colls }
/-- The collective as it stands now. -/
def collNow (s : State) (c : Coll) : Option Coll := s.colls.find? (fun x => x.port == c.port && x.g == c.g && x.n == c.n)

def colErr (s : State) (p : Nat) (f : Fld) (st obj : Nat) : State := s.errBit (portBase p) f 0xA (srcPort p) st obj
def colDisc (s : State) (p : Nat) : State := s.bump (portBase p) F.COL_DISC_CNT_COUNT 1

/-- The stage that a collective has reached. -/
def stageNow (s : State) (c : Coll) : Option Stage :=
  match s.colRec c.port c.g with
  | none => none
  | some r => (stagesOf r.bits c.desc)[c.stage]?

/-- LEVEL of R277: the level of the last reduce or gather stage begun, with bit 2 set for a gather. -/
def levelOf (x d k : Nat) : Nat :=
  (((stagesOf x d).take (k + 1)).filterMap (fun st => match st with
    | .reduce l => some l
    | .gather l => some (4 + l)
    | _ => none)).getLastD 0

/-! ### Trackers (R214) -/

def trackerOf (s : State) (p group : Nat) : Option Tracker := s.trackers.find? (fun t => t.port == p && t.group == group)

/-- A group's tracker used: it takes the largest magnitude encoded, and becomes the most recently used; a new one
replaces the least recently used of 64. -/
def useTracker (s : State) (p group y : Nat) : State :=
  let t := (s.trackerOf p group).getD ⟨p, group, false, 0, none⟩
  let t := { t with cur := some (max y (t.cur.getD 0)) }
  let others := s.trackers.filter (fun x => !(x.port == p && x.group == group))
  let others := if 64 ≤ (others.filter (fun x => x.port == p)).length then delFirst (fun x => x.port == p) others else others
  { s with trackers := others ++ [t] }

/-- Every tracker at a turn edge in RUN (R214, R222). -/
def trackersTurn (s : State) : State :=
  { s with trackers := s.trackers.map (fun (t : Tracker) => match t.cur with
    | some v => { t with valid := true, a := v, cur := none }
    | none => t) }

/-! ### Sending -/

/-- An operation of an engine toward a named endpoint. -/
def colOp (s : State) (p : Nat) (r : ColRec) (dest : Nat) (o : Op) : State :=
  s.startOp { o with
    ep := 0xF00 + p, ctx := grCtx r.bits, chan := 896 + r.g, rank := 0x10000, dest := some dest, mepoch := grEpoch r.bits }

/-- The endpoint ID of an engine. -/
def engineId (s : State) (p : Nat) : Nat := s.endpoint (0xF00 + p)

/-- A member's engine, from the cached member list. -/
def member (r : ColRec) (q : Nat) : Option Nat := (r.members.find? (fun m => m.1 == q)).map (·.2)

/-! ### The end of a collective (R276, R277) -/

/-- What an engine still had to do for its running collective is withdrawn, and its buffers freed. -/
def colClear (s : State) (c : Coll) : State :=
  let ep := 0xF00 + c.port
  let s := c.chunks.foldl (fun s k => if k.state == 5 then s else s.freeBuf ep k.buf) s
  let mine := s.ops.filter (fun o => o.ep == ep && o.chan == 896 + c.g)
  -- step 9: no collective waits for it, but a packet of it that ends PEER_GONE still tells that its peer has departed (R276)
  let s := mine.foldl (fun s o => (s.updOp o.id (fun x => { x with who := .col c.g 0 0 9 })).failOp o.id stOK) s
  let s := s.dropAccs ep (4 + c.g)
  { s with
    ops := s.ops.filter (fun o => !(o.ep == ep && o.chan == 896 + c.g && o.ended))
    ownAns := s.ownAns.filter (fun e => !(e.port == c.port && e.g == c.g)) }

/-- The READY and GDONE records of a collective dropped. -/
def dropReadys (s : State) (p group n : Nat) : State :=
  { s with readys := s.readys.filter (fun r => !(r.port == p && r.group == group && r.cseq / 4 == n)) }

/-- The record of a collective's end, with the group record `x` it ran under. -/
def colRecord (s : State) (x : Nat) (c : Coll) (st : Nat) : State :=
  let b := portBase c.port
  let s := s.postRec (0xF00 + c.port) (grCtx x) 8 st (grJob x)
    [packFields [(12, grGroup x), (10, c.n), (4, cdOp c.desc), (3, levelOf x c.desc c.stage)], grEpoch x,
     min c.sat (2 ^ 32 - 1), min c.esc (2 ^ 32 - 1), c.fb]
  if st == stOK || st == stPOISON then s.bump b F.COL_DONE_CNT_COUNT 1 else s.bump b F.COL_FAIL_CNT_COUNT 1

/-- The next collective of a group starts (R261), once no residual write of an earlier one is out (R219). -/
def colNext (s : State) (p g : Nat) : State :=
  if (s.colRunning p g).isSome || 0 < ((s.colRec p g).map (·.resOut)).getD 0 then s
  else { s with colls := updFirst (fun c => c.port == p && c.g == g) (fun c => { c with running := true, last := s.tmo }) s.colls }

/-- A collective ends with a status. -/
def colEnd (s : State) (c : Coll) (st : Nat) : State :=
  match s.colRec c.port c.g with
  | none => s
  | some r =>
    let s := if c.running then s.colClear c else s
    let s := { s with colls := s.colls.filter (fun x => !(x.port == c.port && x.g == c.g && x.n == c.n)) }
    let s := if s.colls.isEmpty then { s with auxSeen := [] } else s
    ((s.dropReadys c.port (grGroup r.bits) c.n).colRecord r.bits c st).colNext c.port c.g

/-- Every collective of a group record ends with a status, the running one first. -/
def colEndAll (s : State) (p g st : Nat) : State :=
  (s.colls.filter (fun c => c.port == p && c.g == g)).foldl (fun s c => match s.collNow c with
    | some c => s.colEnd c st
    | none => s) s

/-- Every collective of an engine ends (R278). -/
def colEndPort (s : State) (p st : Nat) : State :=
  ((s.colrecs.filter (fun r => r.port == p)).map (·.g)).foldl (fun s g => s.colEndAll p g st) s

/-! ### Departures (R276) -/

/-- A member of a group has departed. -/
def colGone (s : State) (p g : Nat) : State :=
  (s.updRec p g (fun r => { r with bits := putBits r.bits 13 1 1 })).colEndAll p g stPEER_GONE

/-- The Bowl of a group's level-l switch has departed: chunks not settled of that level fall back. -/
def colDir (s : State) (p g l : Nat) : State :=
  let s := s.updRec p g (fun r => { r with bits := putBits r.bits (12 + l) 1 1 })
  match s.colRunning p g with
  | none => s
  | some c => if s.stageNow c != some (.reduce l) then s
    else s.updColl c (fun c => { c with chunks := c.chunks.map (fun k =>
      if 1 ≤ k.state && k.state ≤ 3 then { k with state := 4, ans := none } else k) })

/-- The member list of a record read whole, to see whether a chip is a member. -/
def colScan (s : State) (p : Nat) (r : ColRec) (x : Nat) (cmd : Option (Nat × Nat)) : State :=
  if s.scans.any (fun k => k.port == p && k.g == r.g && k.chip == x && k.cmd == cmd) then s
  else
    let k : Scan := ⟨p, r.g, x, cmd⟩
    let s := { s with scans := s.scans ++ [k] }
    s.bigRead (0xF00 + p) (grCtx r.bits) (grMap r.bits) (grMlist r.bits) (4 * grM r.bits) (.col p r.g 0 65 x 6)

/-- Chip x has departed, as an engine learns it: switches and members it knows at once, the rest from the member lists. -/
def colDepart (s : State) (p x : Nat) (cmd : Option (Nat × Nat)) : State :=
  (s.colrecs.filter (fun r => r.port == p && grV r.bits)).foldl (fun s r =>
    let s := [2, 3].foldl (fun s l => if grSw r.bits l && epChip (grSwep r.bits l) == x then s.colDir p r.g l else s) s
    if r.members.any (fun m => epChip m.2 == x) then s.colGone p r.g
    else if grGone r.bits then s
    else s.colScan p r x cmd) s

/-- A member list has been read for a departure: its command completes when no more are out. -/
def colScanned (s : State) (p g x : Nat) (t : Txn) : State :=
  let hit := s.scans.filter (fun k => k.port == p && k.g == g && k.chip == x)
  let s := { s with scans := s.scans.filter (fun k => !(k.port == p && k.g == g && k.chip == x)) }
  let es := unpackN (leNat t.bytes) 32 (t.len / 4)
  let s := if t.st != stOK then s.colErr p F.COL_ERR_MLIST t.st (match s.colRec p g with | some r => grGroup r.bits | none => 0)
    else if es.any (fun e => epChip (e % 2 ^ 24) == x) then s.colGone p g else s
  hit.foldl (fun s k => match k.cmd with
    | none => s
    | some (ring, idx) =>
      if t.st != stOK then s.finishCmd ring idx t.st 0
      else if s.scans.any (fun y => y.cmd == k.cmd) then s else s.finishCmd ring idx stOK 0) s

/-! ### READY and GDONE (R263, R264, R271, R274) -/

/-- The READY record (R263). -/
def readyBytes (s : State) (x d q cseq raddr : Nat) (gath : Bool) : List Byte :=
  leBytes (packFields [(12, grGroup x), (12, cseq), (1, bit gath), (7, 0), (16, grEpoch x), (12, q), (4, 0),
    (24, s.chip * 4096 + 0xF00 + cdMap d), (48, raddr)]) 64

/-- A READY (kind 1) or GDONE (kind 2) sent to the peer with digit j at level l. -/
def sendReady (s : State) (c : Coll) (r : ColRec) (l j kind raddr step : Nat) (gath : Bool) : State :=
  match member r (grPeer r.bits l j) with
  | none => s
  | some e =>
    s.colOp c.port r e { Op.zero with
      who := .col c.g j l step, kind := .write, glint := true, len := 64, raddr := 0xC * 2 ^ 44 + kind * 2 ^ 40
      data := s.readyBytes r.bits c.desc (grQ r.bits) (cseqOf c.n l) raddr gath }

/-- A record that a peer has sent, held for a stage. -/
def readyOf (s : State) (c : Coll) (x l j : Nat) (gath gdone : Bool) : Option Ready :=
  s.readys.find? (fun r => r.port == c.port && r.gdone == gdone && r.group == grGroup x && r.cseq == cseqOf c.n l &&
    r.gath == bit gath && r.q == grPeer x l j)

/-- READY records held: those in use by running stages do not count (R264, R279). -/
def readyHeld (s : State) (p : Nat) : Nat :=
  (s.readys.filter (fun r => r.port == p && !r.gdone && !s.colls.any (fun c => c.port == p && c.running &&
    (match s.colRec p c.g with
     | none => false
     | some x => grGroup x.bits == r.group && (match s.stageNow c with
       | some (.reduce l) => r.cseq == cseqOf c.n l && r.gath == 0 && c.step != 0
       | some (.gather l) => r.cseq == cseqOf c.n l && r.gath == 1 && c.step != 0
       | _ => false))))).length

/-- The collective of a number has ended at this engine. -/
def colEnded (s : State) (r : ColRec) (n : Nat) : Bool :=
  1 ≤ subMod 10 r.next n && subMod 10 r.next n ≤ 512 && !s.colls.any (fun c => c.port == r.port && c.g == r.g && c.n == n)

/-- The stage that a READY belongs to is over at this engine. -/
def stageOver (s : State) (r : ColRec) (cseq : Nat) (gath : Bool) : Bool :=
  match s.colls.find? (fun c => c.port == r.port && c.g == r.g && c.n == cseq / 4 && c.running) with
  | none => false
  | some c => ((stagesOf r.bits c.desc).take c.stage).contains (if gath then .gather (cseq % 4) else .reduce (cseq % 4))

/-- A READY or GDONE at an engine. -/
def takeReady (s : State) (p : Nat) (pk : Pkt) : State :=
  let ep := 0xF00 + p
  let x := leNat pk.pay
  let kind := pk.hdr.addr / 2 ^ 40 % 16
  let group := bitsOf x 0 12
  let ep' := if pk.ext.xv == 1 then pk.ext.mepoch else bitsOf x 32 16
  let ok := fun (s : State) => s.replyReq ep pk tWACK stOK 0 [] []
  if !(kind == 1 || kind == 2) then (s.colErr p F.COL_ERR_BADCTL stBADCMD group).replyReq ep pk tWACK stBADCMD 0 [] []
  else
    let refuse := ((s.colDisc p).colErr p F.COL_ERR_EPOCH_REJ stEPOCH group).nackReq ep pk stEPOCH
    match s.recOf p group with
    | none => refuse
    | some r =>
      let cseq := bitsOf x 12 12
      let gath := bitsOf x 24 1
      let rd : Ready := ⟨p, kind == 2, group, cseq, gath, bitsOf x 48 12, bitsOf x 64 24, bitsOf x 88 48⟩
      if ep' != grEpoch r.bits then refuse
      else if s.colEnded r (cseq / 4) then ok ((s.colDisc p).colErr p F.COL_ERR_LATE (openSt 6) group)
      else if s.readys.any (fun y => y.port == p && y.gdone == rd.gdone && y.group == group && y.cseq == cseq && y.gath == gath && y.q == rd.q) ||
          s.stageOver r cseq (gath == 1) then ok s
      else if kind == 1 && 1024 ≤ s.readyHeld p then (s.colErr p F.COL_ERR_READY_FULL stNOPOOL group).nackReq ep pk stNOPOOL
      else
        let s := { s with readys := s.readys ++ [rd] }
        let s := match s.colRunning p r.g with
          | some c => s.updColl c (fun c => { c with last := s.tmo })
          | none => s
        ok s

/-- The arrival of a READY or a GDONE at an engine. -/
def readyArrival (s : State) (p : Nat) (gdone : Bool) (a : Arrival) : Bool :=
  a.pkt.hdr.ptype == tWRITE && !a.lt && classOf a.pkt.hdr.vcn != 1 && s.build.isBowlPort p && !s.build.isS && !s.leaving a.pkt &&
  a.pkt.hdr.addr / 2 ^ 44 == 0xC && ((a.pkt.hdr.addr / 2 ^ 40 % 16 == 2) == gdone)

/-! ### Contributions (R214, R218-R220, R224, R265) -/

/-- What encoding a chunk gives: packets, their bytes, residuals, counts, and the largest magnitude. -/
structure Contribution where
  pkts : List EncPkt
  bytes : List Byte
  res : List Byte
  sat : Nat
  esc : Nat
  nans : Nat
  top : Nat
  deriving DecidableEq, Repr

/-- One group encoded: its bytes, the BF16 bytes where it is escalated, its saturation count, its NaN count, the
residuals. -/
def encodeOne (fmt : Nat) (y : List Nat) (ref : Option Int) (thr : Nat) : List Byte × Option (List Byte) × Nat × Nat × List Nat :=
  let e := encodeGroup fmt y ref
  let resOf := fun (dec : List Nat) => List.zipWith (fun a b => toBf16 (f32Add a (Nat.xor b (2 ^ 31)))) y dec
  if y.any (fun v => !f32Finite v) then (e.bytes, none, e.sat, e.nans, List.replicate 64 0)
  else if ref.isSome && thr < e.sat then
    let b := (encodeGroup 1 y none).bytes
    (placeholder fmt, some b, 0, 0, resOf (decodeGroup 1 b).vals)
  else (e.bytes, none, e.sat, e.nans, resOf (decodeGroup fmt e.bytes).vals)

/-- A packet of groups joined to a contribution, each escalated group's packet directly after it (R220). -/
def addPacket (fmt boff : Nat) (c : Contribution) (gs : List (List Byte × Option (List Byte) × Nat × Nat × List Nat)) : Contribution :=
  let pay := (gs.map (·.1)).flatten
  let satc := min 4095 ((gs.map (fun g => g.2.2.1)).foldl (· + ·) 0)
  let escs := (((upFrom 0 gs.length).zip gs).filterMap (fun ig => ig.2.2.1.map (fun b => (ig.1, b))))
  let p : EncPkt := ⟨c.bytes.length, pay.length, boff, false, satc, min 255 escs.length⟩
  let c := { c with
    pkts := c.pkts ++ [p], bytes := c.bytes ++ pay
    res := c.res ++ (gs.map (fun g => (g.2.2.2.2.map (fun r => leBytes r 2)).flatten)).flatten
    sat := c.sat + (gs.map (fun g => g.2.2.1)).foldl (· + ·) 0
    esc := c.esc + escs.length
    nans := c.nans + (gs.map (fun g => g.2.2.2.1)).foldl (· + ·) 0 }
  escs.foldl (fun c ib =>
    let q : EncPkt := ⟨c.bytes.length, ib.2.length, boff + ib.1 * groupBytes fmt, true, satc, min 255 escs.length⟩
    { c with pkts := c.pkts ++ [q], bytes := c.bytes ++ ib.2 }) c

/-- A list cut into lists of n. -/
def cutList {α : Type} (n : Nat) : Nat → List α → List (List α)
  | 0, _ => []
  | k + 1, l => if l.isEmpty || n == 0 then [] else l.take n :: cutList n k (l.drop n)

/-- A chunk encoded for its stage. -/
def contribute (ys : List (List Nat)) (fmt : Nat) (ref : Option Int) (thr : Nat) : Contribution :=
  let gs := ys.map (fun y => encodeOne fmt y ref thr)
  let per := 512 / groupBytes fmt
  let start : Contribution := ⟨[], [], [], 0, 0, 0, (ys.map (fun y => if y.any (fun v => !f32Finite v) then 0 else amax y)).foldl max 0⟩
  let cut := cutList per gs.length gs
  ((upFrom 0 cut.length).zip cut).foldl (fun c ig => addPacket fmt (ig.1 * per * groupBytes fmt) c ig.2) start

/-- The header of a packet of a contribution (R224). -/
def redHdr (x d : Nat) (n l chunk : Nat) (bowl : Bool) (k : EncPkt) (poison : Bool) : Nat × Nat × Nat × Nat × Nat :=
  -- opc, tag, addr, aux, flg
  (redFmt d l + 16 * bit bowl, grGroup x + 4096 * cseqOf n l, k.boff + 65536 * chunk,
   packFields [(12, if l == 0 then 1 else grProd x (l - 1)), (12, k.satc), (8, k.escc)],
   (if k.esc then 2 ^ fESC else 0) + (if poison then 2 ^ fPOISON else 0))

/-- FLG.LAST of packet `i` of a contribution: of the last narrow packet, and of the ESC packets that copy its header (R220). -/
def lastFlag (enc : List EncPkt) (i : Nat) : Nat := if (enc.drop (i + 1)).all (·.esc) then 2 ^ fLAST else 0

/-- The whole contribution of a chunk sent: as operations of the NI, the last of which tells the engine, or added
directly where the Bowl slot or the window is this port block's own (R240, R266). -/
def sendChunk (s : State) (c : Coll) (r : ColRec) (l : Nat) (k : CChunk) (dest : Nat) (bowl : Bool) (step : Nat) : State × Bool :=
  let ep := 0xF00 + c.port
  let m := s.bufAt ep k.buf
  if dest == s.engineId c.port then
    (k.enc.foldl (fun s e =>
      let h := redHdr r.bits c.desc c.n l k.chunk bowl e k.bad
      let bytes := s.ramRead (ramBase m.1 + m.2 + e.off) e.len
      let pk : Pkt := ⟨{ Hdr.zero with
          ptype := tREDUCE, vcn := 4, len := e.len, job := grJob r.bits, opc := h.1, tag := h.2.1, addr := h.2.2.1, aux := h.2.2.2.1, flg := h.2.2.2.2 },
        { Ext.none with mepoch := grEpoch r.bits }, bytes, []⟩
      if bowl then s.bowlData (grJob r.bits) pk
      else s.addAcc ep (4 + c.g) 0 (cdMap c.desc) (cdWork c.desc) (partChunks r.bits c.desc l) (grProd r.bits l) pk) s, true)
  else
    (((upFrom 0 k.enc.length).zip k.enc).foldl (fun s ie =>
      let e := ie.2
      let h := redHdr r.bits c.desc c.n l k.chunk bowl e k.bad
      s.colOp c.port r dest { Op.zero with
        who := if ie.1 + 1 == k.enc.length then .col c.g k.part k.chunk step else .nobody
        kind := .red, len := e.len, laddr := m.2 + e.off, raddr := h.2.2.1, opc := h.1, tag := h.2.1, aux := h.2.2.2.1, flg := h.2.2.2.2 + lastFlag k.enc ie.1 }) s, false)

/-- The chunk of a collective changed. -/
def updChunk (s : State) (c : Coll) (part chunk : Nat) (f : CChunk → CChunk) : State :=
  s.updColl c (fun x => { x with chunks := updFirst (fun k => k.part == part && k.chunk == chunk) f x.chunks })

/-- A chunk is settled: its buffer is freed (R266, R268). -/
def settleChunk (s : State) (c : Coll) (k : CChunk) : State :=
  ((s.freeBuf (0xF00 + c.port) k.buf).updChunk c k.part k.chunk (fun k => { k with state := 5, ans := none })).updColl c
    (fun x => { x with last := s.tmo })

/-- A chunk of the own part is complete (R267); the window goes when the part is. -/
def completeChunk (s : State) (c : Coll) (x : Nat) (l chunk : Nat) : State :=
  let s := s.updColl c (fun y => { y with own := if y.own.contains chunk then y.own else y.own ++ [chunk], last := s.tmo })
  match s.collNow c with
  | none => s
  | some c =>
    if c.own.length < partChunks x c.desc l then s
    else s.dropAccs (0xF00 + c.port) (4 + c.g)

/-- The control record of a CLAIM or COMMIT (R238, R266). -/
def ctlBits (x d n l chunk rdest raddr : Nat) : Nat :=
  packFields [(12, grGroup x), (12, cseqOf n l), (13, grProd x l), (9, chunkElems x d l chunk / 64), (4, redFmt d l), (4, redFmt d l),
    (1, 0), (9, 0), (24, rdest), (48, raddr + chunk * 256 * groupBytes (redFmt d l))]

/-- A CLAIM (kind 1) or COMMIT (kind 2) of a chunk, to the Bowl of its part. -/
def sendCtl (s : State) (c : Coll) (r : ColRec) (l : Nat) (k : CChunk) (dest kind : Nat) (rd : Ready) : State :=
  let x := if kind == 1 then ctlBits r.bits c.desc c.n l k.chunk rd.rdest rd.raddr else packFields [(12, grGroup r.bits), (12, cseqOf c.n l)]
  s.colOp c.port r dest { Op.zero with
    who := .col c.g k.part k.chunk (if kind == 1 then 0 else 2), kind := .write, glint := true, len := 64
    raddr := 0xB * 2 ^ 44 + kind * 2 ^ 40 + k.chunk * 65536, data := leBytes x 64 }

/-- The Bowl of a part (R262), and its owner's engine. -/
def bowlOfPart (s : State) (c : Coll) (r : ColRec) (l part : Nat) : Nat × Nat :=
  let own := if part == grD r.bits l then s.engineId c.port else (member r (grPeer r.bits l part)).getD 0
  (if grSw r.bits l then grSwep r.bits l else own, own)

/-- The source bytes and residuals of a chunk are here: it is encoded into its buffer, and its claim goes out (R266). -/
def encodeChunk (s : State) (c : Coll) (r : ColRec) (l : Nat) (k : CChunk) (src : List Byte) (rd : Ready) : State :=
  let d := c.desc
  let ep := 0xF00 + c.port
  let fmt := redFmt d l
  let ifmt := (redIn r.bits d l).2
  let raw := groupsOf ifmt src
  -- a group that came in a poisoned packet is neither decoded nor added: it stands as zeros, and its residuals stay (R209)
  let lost := badGroups (groupBytes ifmt) raw.length (k.poi.flatMap (fun q => upFrom (32 * q) 32))
  let zeros : Group := ⟨List.replicate 64 0, false, false, 0⟩
  let inp := ((upFrom 0 raw.length).zip raw).map (fun ig => if lost.contains ig.1 then zeros else decodeGroup ifmt ig.2)
  let useRes := cdEco d && cdRes d && 2 ≤ l
  let res := if useRes then unpackN (leNat (k.res.getD [])) 16 (64 * inp.length) else []
  let ys := ((upFrom 0 inp.length).zip inp).map (fun ig =>
    if useRes && !lost.contains ig.1 then List.zipWith (fun a b => f32Add a (b * 65536)) ig.2.vals ((res.drop (64 * ig.1)).take 64)
    else ig.2.vals)
  let tracked := cdEco d && isKerf fmt && s.flag 0 F.FAB_KERF_CTL_TRK_EN
  let ref := match (if tracked then s.trackerOf c.port (grGroup r.bits) else none) with
    | some t => if t.valid then some (if t.a == 0 then -127 else fit fmt t.a + (s.get 0 F.FAB_KERF_CTL_HEAD : Int)) else none
    | none => none
  let e := contribute ys fmt ref (s.get 0 F.FAB_KERF_CTL_ESC_TH)
  let kept := ((upFrom 0 inp.length).map (fun i =>
    ((if lost.contains i then k.res.getD [] else e.res).drop (128 * i)).take 128)).flatten
  -- an undecodable group poisons the contribution and is counted, beside a poisoned packet as well (R209, R222)
  let und := (inp.filter (·.undecodable)).length
  let s := s.kerfCount e.sat ((inp.map (·.nans)).foldl (· + ·) 0 + e.nans) und
  let s := if k.bad || 0 < und then s.updColl c (fun x => { x with st := firstSt x.st stPOISON }) else s
  let k := { k with bad := k.bad || 0 < und }
  let s := if e.esc == 0 then s else s.bump 0 F.FAB_KERF_ESC_COUNT e.esc
  let s := if cdEco d && isKerf fmt then s.useTracker c.port (grGroup r.bits) e.top else s
  let m := s.bufAt ep k.buf
  let s := s.writeMem m.1 m.2 e.bytes (if k.bad then upFrom 0 (ceilDiv e.bytes.length 64) else []) .nothing
  let k := { k with enc := e.pkts, state := 1, src := some [], res := some [], ans := none }
  let elem := shareBase r.bits d l + k.part * partElems r.bits d l + 16384 * k.chunk
  let s := s.updChunk c k.part k.chunk (fun _ => k)
  let s := if useRes then
      ((s.updColl c (fun x => { x with out := x.out + 1 })).updRec c.port c.g (fun y => { y with resOut := y.resOut + 1 })).bigWrite
        ep (grCtx r.bits) (cdMap d) (cdRad d + 2 * elem) kept (.col c.port c.g c.n k.part k.chunk 2)
    else s
  if grSw r.bits l && grDir r.bits l then s.updChunk c k.part k.chunk (fun k => { k with state := 4 })
  else s.sendCtl c r l k (s.bowlOfPart c r l k.part).1 1 rd

/-- The counts of a result WRITE that has reached a chunk's place; every WRITE of one result carries the same (R241, R267). -/
def takeAux (s : State) (c : Coll) (x l chunk : Nat) : State :=
  let lo := (redOut x c.desc l).1 + chunk * 256 * groupBytes (redFmt c.desc l)
  let hi := lo + fmtBytes (redFmt c.desc l) (chunkElems x c.desc l chunk)
  let mine := fun (a : Nat × Nat × Nat) => a.1 == cdMap c.desc && lo ≤ a.2.1 && a.2.1 < hi
  let aux := ((s.auxSeen.find? mine).map (·.2.2)).getD 0
  let s := { s with auxSeen := s.auxSeen.filter (fun a => !mine a) }
  s.updColl c (fun y => { y with
    sat := y.sat + bitsOf aux 0 16
    esc := y.esc + bitsOf aux 16 16 })

/-- What has been noted of result WRITEs to a reduce stage's output area is forgotten as the stage begins. -/
def forgetAux (s : State) (c : Coll) (x l : Nat) : State :=
  let lo := (redOut x c.desc l).1
  let hi := lo + fmtBytes (redFmt c.desc l) (partElems x c.desc l)
  { s with auxSeen := s.auxSeen.filter (fun a => !(a.1 == cdMap c.desc && lo ≤ a.2.1 && a.2.1 < hi)) }

/-- A CLAIM or COMMIT of a chunk has been answered with a status (R266). -/
def ctlAnswered (s : State) (c : Coll) (x l : Nat) (k : CChunk) (st : Nat) : State :=
  let fall := s.updChunk c k.part k.chunk (fun k => { k with state := 4, ans := none })
  if st == stCLAIM || st == stTIMEOUT || st == stNOPOOL then fall
  else if k.state == 1 && st == stOK then s.updChunk c k.part k.chunk (fun k => { k with ans := some stOK })
  else if k.state == 3 && (st == stOK || st == stPOISON) then
    let s := s.updColl c (fun y => { y with st := if st == stPOISON then firstSt y.st st else y.st })
    let s := s.settleChunk c k
    if k.part == grD x l then (if c.own.contains k.chunk then s else s.takeAux c x l k.chunk).completeChunk c x l k.chunk else s
  else s.colEnd c st

/-! ### COL_CHUNK_SEND -/

/-- The part and chunk that a contributor begins next: parts d + 1, d + 2, … and its own last, chunks rising (R265). -/
def nextChunk (x d l pos : Nat) : Option (Nat × Nat) :=
  let n := partChunks x d l
  if n == 0 || grK x l * n ≤ pos then none else some ((grD x l + 1 + pos / n) % grK x l, pos % n)

/-- A chunk begun: it takes a buffer, and its source and residuals are read. -/
def beginChunk (s : State) (c : Coll) (r : ColRec) (l part chunk : Nat) : State :=
  let ep := 0xF00 + c.port
  let d := c.desc
  if (s.readyOf c r.bits l part false false).isNone ||
      s.get (portBase c.port) F.COL_CTL_INFLIGHT ≤ (c.chunks.filter (fun k => k.state != 5)).length then s
  else match s.allocIn ep 3 with
    | (none, s) => s
    | (some b, s) =>
      let k : CChunk := ⟨part, chunk, 0, b, none, none, false, [], [], none⟩
      let s := s.updColl c (fun y => { y with chunks := y.chunks ++ [k], pos := y.pos + 1 })
      let n := chunkElems r.bits d l chunk
      let off := part * partElems r.bits d l + 16384 * chunk
      let a := (redIn r.bits d l).1 + fmtBytes (redIn r.bits d l).2 off
      let s := s.bigRead ep (grCtx r.bits) (cdMap d) a (fmtBytes (redIn r.bits d l).2 n) (.col c.port c.g c.n part chunk 0)
      if cdEco d && cdRes d && 2 ≤ l then
        s.bigRead ep (grCtx r.bits) (cdMap d) (cdRad d + 2 * (shareBase r.bits d l + off)) (2 * n) (.col c.port c.g c.n part chunk 1)
      else s

/-- A chunk of a running collective moves on (R266). -/
def chunkStep (s : State) (p g part chunk : Nat) : State :=
  match s.colRunning p g, s.colRec p g with
  | some c, some r =>
    (match s.stageNow c with
     | some (.reduce l) =>
       if c.step != 3 then s
       else match c.chunks.find? (fun k => k.part == part && k.chunk == chunk) with
         | none => if nextChunk r.bits c.desc l c.pos == some (part, chunk) then s.beginChunk c r l part chunk else s
         | some k =>
           let useRes := cdEco c.desc && cdRes c.desc && 2 ≤ l
           match s.readyOf c r.bits l part false false with
           | none => s
           | some rd =>
             let dst := s.bowlOfPart c r l part
             if k.state == 0 then
               (match k.src with
                | some src => if useRes && k.res.isNone then s else s.encodeChunk c r l k src rd
                | none => s)
             else if k.state == 1 && k.ans == some stOK then
               let s := s.updChunk c part chunk (fun k => { k with state := 2, ans := none })
               let r' := s.sendChunk c r l k dst.1 true 1
               if r'.2 then r'.1.updChunk c part chunk (fun k => { k with ans := some stOK }) else r'.1
             else if k.state == 2 && k.ans == some stOK then
               (s.updChunk c part chunk (fun k => { k with state := 3, ans := none })).sendCtl c r l k dst.1 2 rd
             else if k.state == 4 then
               let s := s.updChunk c part chunk (fun k => { k with state := 6 })
               let r' := s.sendChunk c r l k dst.2 false 3
               if r'.2 then r'.1.settleChunk c k else r'.1
             else s
     | _ => s)
  | _, _ => s

/-! ### Stages -/

/-- The next stage is entered; the records of the last one go. -/
def nextStage (s : State) (c : Coll) (x : Nat) : State :=
  let s := match s.stageNow c with
    | some (.reduce l) => { s with readys := s.readys.filter (fun r => !(r.port == c.port && r.group == grGroup x && r.cseq == cseqOf c.n l && r.gath == 0)) }
    | some (.gather l) => { s with readys := s.readys.filter (fun r => !(r.port == c.port && r.group == grGroup x && r.cseq == cseqOf c.n l && r.gath == 1)) }
    | _ => s
  s.updColl c (fun y => { y with stage := y.stage + 1, step := 0, pos := 0, chunks := [], own := [], gsent := [] })

/-- A memory access of an engine for its running collective. -/
def colRead (s : State) (c : Coll) (x addr len part chunk step : Nat) : State :=
  (s.updColl c (fun y => { y with out := y.out + 1 })).bigRead (0xF00 + c.port) (grCtx x) (cdMap c.desc) addr len (.col c.port c.g c.n part chunk step)
def colWrite (s : State) (c : Coll) (x addr : Nat) (bytes : List Byte) (bad : List Nat) (part chunk step : Nat) : State :=
  (s.updColl c (fun y => { y with out := y.out + 1 })).bigWrite (0xF00 + c.port) (grCtx x) (cdMap c.desc) addr bytes (.col c.port c.g c.n part chunk step) bad

/-- The member-list entries of a stage's peers that are not cached are read (R257). -/
def loadMembers (s : State) (c : Coll) (r : ColRec) (l : Nat) : State :=
  (grPeers r.bits l).foldl (fun s j =>
    let q := grPeer r.bits l j
    let p := Purp.mlist c.port c.g q
    if (member r q).isSome || s.tablePending p then s
    else s.ownRead (0xF00 + c.port) (grCtx r.bits) (grMap r.bits) (grMlist r.bits + 4 * q) 4 p) s

/-- COL_STAGE_START: the stage reached begins (R263, R271). -/
def stageStart (s : State) (p g : Nat) : State :=
  match s.colRunning p g, s.colRec p g with
  | some c, some r =>
    if c.step != 0 then s
    else (match s.stageNow c with
      | some (.reduce l) => (s.updColl c (fun y => { y with step := 4 })).loadMembers c r l
      | some (.gather l) => (s.updColl c (fun y => { y with step := 4 })).loadMembers c r l
      | _ => s)
  | _, _ => s

/-- A conversion from one area to another, a chunk of elements at a time. -/
def convert (s : State) (c : Coll) (x : Nat) (v : Nat × Nat × Nat × Nat) : State :=
  if 0 < c.out then s
  else if v.2.2.2 ≤ 16384 * c.pos then s.nextStage c x
  else s.colRead c x (v.1 + fmtBytes v.2.1 (16384 * c.pos)) (fmtBytes v.2.1 (min 16384 (v.2.2.2 - 16384 * c.pos))) 65 c.pos 1

/-- A gather moves on: one piece of a block at a time, then the peer's GDONE (R271). -/
def gatherRun (s : State) (c : Coll) (r : ColRec) (l : Nat) : State :=
  let x := r.bits
  let gb := gatherOf x c.desc l
  let peers := grPeers x l
  if 0 < c.out then s
  else if peers.all (fun j => c.gsent.contains j && (s.readyOf c x l j true true).isSome) then s.nextStage c x
  else
    let cur := if 0 < c.pos then some c.peer
      else peers.find? (fun j => !c.gsent.contains j && (s.readyOf c x l j true false).isSome)
    match cur with
    | none => s
    | some j =>
      let s := s.updColl c (fun y => { y with peer := j })
      if c.pos < gb.2 then s.colRead c x (gb.1 + grD x l * gb.2 + c.pos) (min 65536 (gb.2 - c.pos)) 65 j 5
      else
        (s.updColl c (fun y => { y with pos := 0, out := y.out + 1 })).sendReady c r l j 2 gb.1 6 true

/-- The automatic progress of a running collective; the flag says that something happened. -/
def colStep (s : State) (c : Coll) : State :=
  match s.colRec c.port c.g with
  | none => s
  | some r =>
    let x := r.bits
    match s.stageNow c with
    | none => if c.out == 0 then s.colEnd c c.st else s
    | some .place => s.convert c x (placeOf x c.desc)
    | some .widen => s.convert c x (widenOf x c.desc)
    | some (.reduce l) =>
      let n := partChunks x c.desc l
      if c.step == 4 then
        (if (grPeers x l).all (fun j => (member r (grPeer x l j)).isSome) then s.updColl c (fun y => { y with step := 1, pos := 0 }) else s)
      else if c.step == 1 then
        (if 0 < c.out then s
         else if c.pos < n then s.colWrite c x (cdWork c.desc + 65536 * c.pos) (List.replicate (4 * chunkElems x c.desc l c.pos) 0) [] 65 c.pos 0
         else if c.pos == n then s.colWrite c x (cdWork c.desc + 65536 * n) (List.replicate (16 * n) 0) [] 65 c.pos 0
         else
           let own : Ready := ⟨c.port, false, grGroup x, cseqOf c.n l, 0, grQ x, s.chip * 4096 + 0xF00 + cdMap c.desc, (redOut x c.desc l).1⟩
           let s := { s.forgetAux c x l with readys := s.readys ++ [own] }
           let s := s.updColl c (fun y => { y with step := 3, pos := 0, last := s.tmo })
           (grPeers x l).foldl (fun s j => s.sendReady c r l j 1 (redOut x c.desc l).1 4 false) s)
      else if c.step == 3 && c.out == 0 && n ≤ c.own.length && (nextChunk x c.desc l c.pos).isNone && c.chunks.all (fun k => k.state == 5) then
        s.nextStage c x
      else s
    | some (.gather l) =>
      if c.step == 4 then
        (if (grPeers x l).all (fun j => (member r (grPeer x l j)).isSome) then
          (grPeers x l).foldl (fun s j => s.sendReady c r l j 1 (gatherOf x c.desc l).1 4 true) (s.updColl c (fun y => { y with step := 1, pos := 0 }))
         else s)
      else if c.step == 1 then s.gatherRun c r l
      else s

/-! ### Answers -/

/-- A member-list entry has been read (R257): cached, 64 of them. -/
def mlistDone (s : State) (p g q : Nat) (t : Txn) : State :=
  match s.colRec p g with
  | none => s
  | some r =>
    if t.st != stOK then
      let s := s.colErr p F.COL_ERR_MLIST t.st (grGroup r.bits)
      match s.colRunning p g with
      | some c => s.colEnd c t.st
      | none => s
    else
      -- the entries that the stage in progress needs stay before all others
      let need := fun (m : Nat × Nat) => match (s.colRunning p g).bind s.stageNow with
        | some (.reduce l) => ((grPeers r.bits l).map (grPeer r.bits l)).contains m.1
        | some (.gather l) => ((grPeers r.bits l).map (grPeer r.bits l)).contains m.1
        | _ => false
      let all := (q, leNat t.bytes % 2 ^ 24) :: r.members.filter (fun m => m.1 != q)
      s.updRec p g (fun r => { r with members := (all.filter need ++ all.filter (fun m => !need m)).take 64 })

/-- A chunk of the own part, from the window: encoded in own mode and written to its place, its saturations added to the
collective's; poisoned where the chunk's record (`all`) or its accumulators are (R209, R217, R267). -/
def windowRead (s : State) (c : Coll) (x l chunk : Nat) (all : Bool) (t : Txn) : State :=
  let sz := groupBytes (redFmt c.desc l)
  let n := chunkElems x c.desc l chunk / 64
  let vs := unpackN (leNat t.bytes) 32 (64 * n)
  let gs := (upFrom 0 n).map (fun k => encodeGroup (redFmt c.desc l) ((vs.drop (64 * k)).take 64) none)
  let sat := (gs.map (·.sat)).foldl (· + ·) 0
  let s := s.kerfCount sat ((gs.map (·.nans)).foldl (· + ·) 0) 0
  let s := s.updColl c (fun y => { y with sat := y.sat + sat, st := firstSt y.st t.st })
  s.colWrite c x ((redOut x c.desc l).1 + chunk * 256 * sz) ((gs.map (·.bytes)).flatten)
    (unitsOfGroups sz (if all then upFrom 0 n else badGroups 256 n t.poison)) 64 chunk 1

/-- Residual bytes that a read has brought: a READ that did not end OK is zero for every element it covers (R219). -/
def residualBytes (split : Bool) (t : Txn) : List Byte :=
  if t.st == stOK then t.bytes
  else if t.st != stPOISON && !(split && 2048 < t.len) then List.replicate t.len 0
  else (upFrom 0 (ceilDiv t.len 2048)).flatMap (fun k =>
    let b := (t.bytes.drop (2048 * k)).take 2048
    if t.poison.any (fun u => u / 32 == k) then List.replicate b.length 0 else b)

/-- Elements converted from one area to another: the bytes written, and their poisoned units. A copy between equal formats
moves the bytes unchanged (R272); a group that is poisoned or undecodable is written poisoned (R209). -/
def convertBytes (s : State) (copy : Bool) (fmt ofmt : Nat) (t : Txn) : List Byte × List Nat × State :=
  if copy then (t.bytes, t.poison, s)
  else
    let gs := (groupsOf fmt t.bytes).map (decodeGroup fmt)
    let bad := badGroups (groupBytes fmt) gs.length t.poison
    let igs := (upFrom 0 gs.length).zip gs
    let good := igs.filter (fun ig => !bad.contains ig.1)
    let und := (good.filter (fun ig => ig.2.undecodable)).map (·.1)
    let es := gs.map (fun g => encodeGroup ofmt g.vals none)
    ((es.map (·.bytes)).flatten, unitsOfGroups (groupBytes ofmt) (bad ++ und),
     s.kerfCount 0 ((good.map (fun ig => ig.2.nans)).foldl (· + ·) 0) und.length)

/-- A memory access of an engine has been answered. -/
def colMem (s : State) (p g n part chunk step : Nat) (t : Txn) : State :=
  if step == 6 then s.colScanned p g chunk t
  else if part < 64 && step == 2 then
    -- a residual write: the next collective of the group waits for it (R219, R270)
    let s := s.updRec p g (fun r => { r with resOut := r.resOut - 1 })
    let f := fun (c : Coll) => { c with out := c.out - 1, st := firstSt c.st t.st }
    let s := { s with colls := updFirst (fun c => c.port == p && c.g == g && c.n == n && c.running) f s.colls }
    s.colNext p g
  else match s.colRunning p g, s.colRec p g with
  | some c, some r =>
    if c.n != n then s else
    let x := r.bits
    let bad := t.st != stOK && t.st != stPOISON
    let less := fun (s : State) => s.updColl c (fun y => { y with out := y.out - 1 })
    let fail := fun (s : State) => match s.collNow c with | some c => s.colEnd c t.st | none => s
    let note := fun (s : State) => s.updColl c (fun y => { y with st := firstSt y.st t.st })
    if part < 64 then
      if step == 0 then
        (if bad then fail s
         else s.updChunk c part chunk (fun k => { k with
            src := some t.bytes, bad := t.st == stPOISON || !t.poison.isEmpty
            poi := if t.st == stPOISON && t.poison.isEmpty then upFrom 0 (ceilDiv t.len 2048) else (t.poison.map (· / 32)).eraseDups }))
      else (note s).updChunk c part chunk (fun k => { k with res := some (residualBytes (p != cdMap c.desc) t) })
    else match s.stageNow c with
      | some (.reduce l) =>
        if part == 64 then
          (if bad then fail (less s)
           else if step == 1 then less s
           else match (less s).collNow c with | some c => (less s).windowRead c x l chunk (step == 7) t | none => s)
        else if bad then fail (less s)
        else (less s).updColl c (fun y => { y with pos := y.pos + 1 })
      | some (.gather _) =>
        if bad then fail (less s)
        else
          -- a piece of the block, to be written to the peer
          match s.readyOf c x (match s.stageNow c with | some (.gather l) => l | _ => 0) chunk true false with
          | none => less s
          | some rd =>
            let l := match s.stageNow c with | some (.gather l) => l | _ => 0
            let gb := gatherOf x c.desc l
            (note s).colOp p r rd.rdest { Op.zero with
              who := .col g chunk t.len 5, kind := .write, len := t.len, raddr := rd.raddr + grD x l * gb.2 + c.pos
              data := t.bytes, bad := t.poison }
      | some st =>
        let v := match st with | .widen => widenOf x c.desc | _ => placeOf x c.desc
        if bad then fail (less s)
        else if step == 1 then
          let w := convertBytes (note (less s)) (cdOp c.desc == 3 && v.2.1 == cdOfmt c.desc) v.2.1 (cdOfmt c.desc) t
          let s := if w.2.1.isEmpty then w.2.2 else w.2.2.updColl c (fun y => { y with st := firstSt y.st stPOISON })
          s.colWrite c x (v.2.2.1 + fmtBytes (cdOfmt c.desc) (16384 * chunk)) w.1 w.2.1 65 chunk 2
        else (less s).updColl c (fun y => { y with pos := y.pos + 1 })
      | none => less s
  | _, _ => s

/-- An operation of an engine has ended (R266, R271, R274, R276); a peer has departed whether a collective of the group runs or not. -/
def colOpEnd (s : State) (p g part chunk step st : Nat) (dest : Nat) : State :=
  if st == stPEER_GONE then s.colDepart p (epChip dest) none
  else match s.colRunning p g, s.colRec p g with
  | some c, some r =>
    if step == 9 then s
    else if step ≤ 3 then
      match s.stageNow c, c.chunks.find? (fun k => k.part == part && k.chunk == chunk) with
      | some (.reduce l), some k =>
        if step == 0 then (if k.state == 1 then s.ctlAnswered c r.bits l k st else s)
        else if step == 2 then (if k.state == 3 then s.ctlAnswered c r.bits l k st else s)
        else if st != stOK then s.colEnd c st
        else if step == 1 then (if k.state == 2 then s.updChunk c part chunk (fun k => { k with ans := some stOK }) else s)
        else (if k.state == 6 then s.settleChunk c k else s)
      | _, _ => s
    else if step == 4 then (if st == stOK then s else s.colEnd c st)
    else if step == 5 then
      (if st != stOK && st != stPOISON then s.colEnd c st
       else s.updColl c (fun y => { y with out := y.out - 1, pos := y.pos + chunk, st := firstSt y.st st }))
    else if st != stOK then s.colEnd c st
    else s.updColl c (fun y => { y with out := y.out - 1, gsent := y.gsent ++ [part] })
  | _, _ => s

/-- An event for an engine: a window chunk is DONE (R267). The chunk is complete, at the root unless its COMMIT has been answered
before; its accumulators are read, to be encoded. -/
def colEvent (s : State) (e : ColEv) : State :=
  match s.colRunning e.port e.g, s.colRec e.port e.g with
  | some c, some r =>
    (match s.stageNow c with
     | some (.reduce l) =>
       let s := if c.own.contains e.chunk then s
         else (s.bump (portBase e.port) F.COL_FB_CNT_COUNT 1).updColl c (fun y => { y with sat := y.sat + e.sat, esc := y.esc + e.esc, fb := y.fb + 1 })
       let s := s.updColl c (fun y => { y with st := firstSt y.st e.st })
       let s := s.colRead c r.bits (cdWork c.desc + 65536 * e.chunk) (4 * chunkElems r.bits c.desc l e.chunk) 64 e.chunk
         (if e.st == stPOISON then 7 else 0)
       s.completeChunk c r.bits l e.chunk
     | _ => s)
  | _, _ => s

/-! ### The engine's window (R263, R274) -/

/-- The running collective whose window takes an ACC packet. -/
def colWindow (s : State) (p : Nat) (h : Hdr) : Option (Coll × ColRec × Nat) :=
  s.colls.findSome? (fun c =>
    if c.port != p || !c.running then none
    else match s.colRec p c.g with
      | none => none
      | some r => match s.stageNow c with
        | some (.reduce l) =>
          if grGroup r.bits == h.tag % 4096 && grJob r.bits == h.job && cseqOf c.n l == h.tag / 4096 && c.step == 3 &&
            redChunk h < partChunks r.bits c.desc l && c.own.length < partChunks r.bits c.desc l then some (c, r, l) else none
        | _ => none)

/-- An ACC packet at an NI (R233-R235, R274, R278). -/
def takeAcc (s : State) (ep : Nat) (pk : Pkt) : State :=
  let h := pk.hdr
  match s.matchAwin ep h with
  | some w => s.accWindow ep w pk
  | none =>
    let noWin := (s.redDisc ep).errBit (niBase ep) F.NI_RED_ERR_NOWIN 8 (srcEp ep) stBADCMD (h.tag % 4096)
    if ep < 0xF00 || s.build.isS || !s.build.isBowlPort (ep - 0xF00) then noWin
    else
      let p := ep - 0xF00
      match s.recOf p (h.tag % 4096) with
      | none => noWin
      | some r =>
        if grJob r.bits != h.job then noWin
        else if pk.ext.xv == 1 && pk.ext.mepoch != grEpoch r.bits then
          (s.colDisc p).colErr p F.COL_ERR_EPOCH_REJ stEPOCH (grGroup r.bits)
        else match s.colWindow p h with
          | some (c, r, l) =>
            s.addAcc ep (4 + c.g) 0 (cdMap c.desc) (cdWork c.desc) (partChunks r.bits c.desc l) (grProd r.bits l) pk
          | none =>
            if s.colEnded r (h.tag / 4096 / 4) then (s.colDisc p).colErr p F.COL_ERR_LATE (openSt 6) (grGroup r.bits)
            else noWin

/-! ### Starting (R257-R261) -/

/-- The static checks of COL_GROUP_SET: BADCMD, DENIED, or OK (R257). -/
def groupCheck (s : State) (p g x : Nat) (force : Bool) : Nat :=
  let b := niBase (0xF00 + p) + 0x10 * grCtx x
  if (upFrom 0 4).any (fun l => 6 < grLog x l || grK x l ≤ grD x l) || 4096 < grM x ||
      [2, 3].any (fun l => grSw x l && (grSwep x l % 4096 < 0xF00 || grK x l == 1)) ||
      s.colrecs.any (fun r => r.port == p && r.g != g && grV r.bits && grGroup r.bits == grGroup x) then stBADCMD
  else if !(s.flag b F.NI_CTX_CTL_EN && s.get b F.NI_CTX_CTL_JOB == grJob x) then stDENIED
  else if s.colls.any (fun c => c.port == p && c.g == g) && !force then stDENIED
  else stOK

/-- COL_GROUP_SET takes effect (R257, R274). -/
def groupSet (s : State) (p g x : Nat) : State :=
  let s := s.colEndAll p g stEPOCH
  -- the bits that the block sets are cleared, and reserved bits read zero (R6)
  let x := putBits (putBits (x % 2 ^ 203) 13 3 0) 90 6 0
  let r : ColRec := ⟨p, g, x, grNstart x, [], ((s.colRec p g).map (·.resOut)).getD 0⟩
  let s := { s with
    colrecs := s.colrecs.filter (fun (y : ColRec) => !(y.port == p && y.g == g)) ++ [r]
    readys := s.readys.filter (fun y => !(y.port == p && y.group == grGroup x))
    trackers := s.trackers.map (fun (t : Tracker) => if t.port == p && t.group == grGroup x then { t with valid := false, cur := none } else t) }
  let mine := fun (k : SendSlot) => k.ep == 0xF00 + p && k.ctx == grCtx x && k.chan == 896 + g
  if s.sslots.any mine then { s with sslots := s.sslots.map (fun k => if mine k then { k with next := 0, rotor := none, taken := 0, broken := none } else k) }
  else { s with sslots := s.sslots ++ [⟨0xF00 + p, grCtx x, 896 + g, false, 0, 0, none, 0, 0, none, none⟩] }

/-- COL_ISSUE of a descriptor at an engine (R258, R259, R261): status and collective number. -/
def colIssue (s : State) (p d : Nat) : Nat × Nat × State :=
  let bad := (stBADCMD, 0, s)
  let op := cdOp d
  let eco := cdEco d
  if !(op == 1 || op == 2 || op == 3) || 1 < cdIfmt d || 1 < cdOfmt d || (if eco then !isKerf (cdTfmt d) else 1 < cdTfmt d) ||
      (eco && op == 3) || (!eco && cdRes d) || cdE d == 0 || cdSrc d % 64 != 0 || cdDst d % 64 != 0 || cdWork d % 65536 != 0 ||
      s.build.portKind (cdMap d) != 1 then bad
  else match s.recOf p (cdGroup d) with
    | none => (stDENIED, 0, s)
    | some r =>
      if cdE d % (64 * grM r.bits) != 0 then bad
      else if grGone r.bits then (stPEER_GONE, 0, s)
      else if 4 ≤ (s.colls.filter (fun c => c.port == p && c.g == r.g)).length then (stDENIED, 0, s)
      else
        let c : Coll := ⟨p, r.g, r.next, d, false, 0, 0, 0, 0, 0, [], [], [], 0, 0, 0, stOK, s.tmo⟩
        let s := (s.updRec p r.g (fun r => { r with next := (r.next + 1) % 1024 }))
        (stOK, r.next, ({ s with colls := s.colls ++ [c] }).colNext p r.g)

/-- COL_PROGRESS_TIMEOUT (R268): PTMO notches without progress. -/
def colTimeout (s : State) (p g : Nat) : State :=
  match s.colRunning p g with
  | none => s
  | some c =>
    let s := s.passTo (c.last + s.get (portBase p) F.COL_CTL_PTMO + 1)
    s.colEnd c stTIMEOUT

end State
end Sys2Proof.Machine
end

