-- ==== Sys2Proof/Machine/Crc.lean ====
section
/-! DEFINITION. CRC-32 with the polynomial of IEEE 802.3 (R169, R340): bits taken least significant first, start and final
inversion all ones (PRESUMED, the standard's own convention, log 7). -/
namespace Sys2Proof.Machine

/-- One bit of the remainder. -/
def crcBit (c : Nat) : Nat := if c % 2 == 1 then Nat.xor (c / 2) 0xEDB88320 else c / 2

/-- One byte. -/
def crcByte (c : Nat) (b : Byte) : Nat := natFold (fun x _ => crcBit x) (Nat.xor c b.toNat) 8

/-- CRC-32 of a run of bytes. -/
def crc32 (bs : List Byte) : Nat := Nat.xor (bs.foldl crcByte 0xFFFFFFFF) 0xFFFFFFFF

end Sys2Proof.Machine
end

