-- ==== Sys2Proof/Machine/Lathe.lean ====
section
/-! DEFINITION. The Lathe plane: reserved flits in the routers, streams and launches at the NIs, deposits, and plans
(R154-R177, R197, R199). -/
namespace Sys2Proof.Machine

/-- The rank of a plan status (R172): a higher number stands before a lower one. -/
def planRank (st : Nat) : Nat :=
  if st == stPOISON then 6 else if st == stDOMAIN_OFF then 5 else if st == stROUTE then 4 else if st == stDENIED then 3
  else if st == stINTERNAL then 2 else if st == stTIMEOUT then 1 else 0

namespace State

/-! ### Suspension (R173, R174) -/

/-- The plane is held: the Spindle is not in RUN, a stall hold or a rate hold stands, or the build has no plane. -/
def latheHeld (s : State) : Bool := !s.running || s.spn.stallHold || s.spn.rateHold || s.build.isS

/-- SENT of a stream set. -/
def setSent (s : State) (ep bk i v : Nat) : State :=
  let a := streamAt ep bk i
  let s := s.setWord (a + 20) (setWordField (s.word (a + 20)) 16 16 v)
  s.setWord (a + 24) (setWordField (s.word (a + 24)) 0 16 (v / 65536))

/-- One reserved flit of a launch window is launched (R166); SENT advances with the last flit of a packet (R165). -/
def lathGo (s : State) (g : Going) : State :=
  let s := (s.putFlit g.link g.flit).noteRun (2 * g.link + 1) g.flit.lat (g.flit.lat + 1)
  if g.len == 0 then s else s.setSent g.ep g.bank g.stream (s.streamSent g.ep g.bank g.stream + g.len)

/-- The flits of launch windows whose cycle is before cycle `c` are launched. -/
def lathGoTill (s : State) (c : Nat) : State :=
  let go := s.lathe.going.filter (fun g => g.at' < c)
  if go.isEmpty then s
  else go.foldl lathGo { s with lathe := { s.lathe with going := s.lathe.going.filter (fun g => c ≤ g.at') } }

/-- The flits of launch windows whose cycle has come are launched. -/
def lathDrain (s : State) : State := s.lathGoTill (s.cyc + 1)

/-- LTH_STAT.STATE and SPN_STAT.LATHE_SUSP as the holds and the plan give them; `susp` notes when a suspension begins. From that cycle
on no reserved flit is launched (R53, R173); of a packet cut off in the middle, SENT has not advanced, so that its bytes go out again
(DESIGN CHOICE, log 38). -/
def noteLathe (s : State) : State :=
  let held := s.latheHeld
  let was := s.flag 0 F.SPN_STAT_LATHE_SUSP
  let s := s.set 0 F.SPN_STAT_LATHE_SUSP (bit held)
  let s := if held && !was then
      let s := s.lathGoTill s.cyc
      { s with lathe := { s.lathe with susp := s.cyc, going := [] } }
    else s
  s.set 0 F.LTH_STAT_STATE (if !s.lathe.active then 0 else if held then 2 else 1)

/-- The active plan's status takes in another (R172). -/
def planSt (s : State) (st : Nat) : State :=
  if s.lathe.active && planRank (s.get 0 F.LTH_STAT_PSTAT) < planRank st then s.set 0 F.LTH_STAT_PSTAT st else s

/-! ### Reserved flits in a router (R157, R159, R162) -/

/-- A reserved flit, or a copy of one, discarded at a router (R159). -/
def lateDrop (s : State) (n port st : Nat) : State :=
  let s := s.bump (nodeBase n) F.LTH_NDISC_COUNT 1
  let s := s.bump 0 F.LTH_DISC_CNT_COUNT 1
  (s.report 6 (srcNode n) st (0xFF + 256 * port)).planSt st

/-- One output takes its copy of a reserved flit. -/
def lathCopy (n inp : Nat) (f : Flit) (s : State) (port : Nat) : State :=
  let st := s.outState n pQB port
  if st != 0 then (s.discarded n 1).lateDrop n inp (if st == 3 then stDOMAIN_OFF else stROUTE)
  else
    let link := outKey n pQB port
    let s := if (mapGet s.own link).isSome then s.bump 0 F.LTH_PREEMPT_CNT_COUNT 1 else s
    (s.probeLt n port).putFlit link f

/-- LATHE_FLIT_SWITCH: the reserved flit at the head of an input's link is switched in its launch cycle (R157); `upset`
inverts bits of its codeword on the way. -/
def switchFlit (s : State) (n port : Nat) (upset : BitVec 544) : State :=
  let link := feed s.build n pQB port
  match (mapGet s.wires link).getD [] with
  | [] => s
  | f :: r =>
    if !f.lt then s
    else if s.failed false n pQB port then
      -- a failed input discards what it receives (R106)
      State.bump { s with wires := mapSet s.wires [] link r } 0 F.LTH_DISC_CNT_COUNT 1
    else
      let s := { s with wires := mapSet s.wires [] link r }
      let x := Nat.xor (encodeWide f.data f.bad) upset.toNat
      let fs : Flit × State := match decodeWide x with
        | .clean d => ({ f with data := d, bad := false }, s)
        | .fixed d =>
          ({ f with data := d, bad := false },
            (s.errBit (nodeBase n) F.RTR_ERR_CORR 1 (srcNode n) stOK (pQB + 8 * port)).bump (nodeBase n) F.RTR_CORR_CNT_COUNT 1)
        | .poison d => ({ f with data := d, bad := true }, s)
        | .bad =>
          -- forwarded poisoned, flit 0 as well (R159)
          let s := s.bump (nodeBase n) F.RTR_UNCOR_CNT_COUNT 1
          let s := s.errBit (nodeBase n) F.RTR_ERR_UNCOR_DATA 2 (srcNode n) stPOISON (pQB + 8 * port)
          ({ f with data := bitsOf x 0 512, bad := true }, (s.bump (nodeBase n) F.LTH_NDISC_COUNT 1).planSt stPOISON)
      let s := fs.2
      let l := s.lathHop n port f.lat
      let s := s.noteRun (2 * link) l (l + 1)
      let f := { fs.1 with lat := l }
      let outs := if s.lathe.active && !s.lathe.past then
          (upFrom 0 5).filter (fun o => (s.windows n o).any (fun w => w.2 == port && w.1 ≤ l && l < w.1 + 128))
        else []
      if outs.isEmpty || (s.latheHeld && s.lathe.susp + 512 < s.cyc) then s.lateDrop n port stINTERNAL
      else outs.foldl (lathCopy n port f) s

/-! ### Streams and launches (R164-R167) -/

/-- The lengths of the packets that fill a window of `f` flits from `b` bytes left; `k` bounds their number (R165). -/
def launchLens (pkt : Nat) : Nat → Nat → Nat → List Nat
  | 0, _, _ => []
  | k + 1, f, b =>
    if f < 2 || b == 0 then []
    else
      let n := min (min (64 * pkt) b) (64 * (f - 1))
      n :: launchLens pkt k (f - (1 + ceilDiv n 64)) (b - n)

/-- The lengths of the packets of a launch whose stream has sent `sent` bytes. -/
def launchPlan (s : State) (ep bk k sent : Nat) : List Nat :=
  let e := s.launchEnt ep bk k
  launchLens (s.streamFld ep bk e.2.2.2.1 15 5) 128 e.2.2.2.2 (s.streamLen ep bk e.2.2.2.1 - sent)

/-- Notches since the turn edge; while the Spindle is not in RUN, counted at 8 cycles each from the last notch edge (R173). -/
def lathNotch (s : State) : Nat := if s.running then s.spn.notch else s.spn.notch + (s.cyc - s.spn.edge) / 8

/-- Launch windows are counted in the NI's own half; the first cycle of a launch lies in the present notch. -/
def launchNow (s : State) (ep bk k : Nat) : Bool :=
  let e := s.launchEnt ep bk k
  (128 * e.1 + e.2.1) / 8 == s.lathNotch % 2048

/-- The NI may take part in the plane: a node NI, or that of a MAP (R164). -/
def lathNi (s : State) (ep : Nat) : Bool :=
  !s.build.isS && (ep < 0xF00 && ep < s.build.nodes || 0xF00 ≤ ep && ep < 0xF7E && s.build.portKind (ep - 0xF00) == 1)

/-- The command that will swap the plan, where one is pending: ring, number and the turn it names. -/
def swapPending (s : State) : Option (Nat × Nat × Nat) :=
  s.rings.findSome? (fun rc =>
    (rc.2.find? (fun c => c.opc == 0x51 && c.stage == .running)).map (fun c => (rc.1, c.idx, c.par 2)))

/-- Bytes of a stream in flits of a window that have not been launched yet. -/
def goingBytes (s : State) (ep bk i : Nat) : Nat :=
  ((s.lathe.going.filter (fun g => g.ep == ep && g.bank == bk && g.stream == i)).map (·.len)).foldl (· + ·) 0

/-- The bytes of a stream that have gone out, or go out in the window in progress. -/
def sentAhead (s : State) (ep bk i : Nat) : Nat := s.streamSent ep bk i + s.goingBytes ep bk i

/-- Bytes of a stream in launches staged and not yet made. -/
def stagedBytes (s : State) (ep bk i : Nat) : Nat :=
  ((s.lathe.staged.filter (fun x => x.ep == ep && x.bank == bk && x.stream == i)).map (·.len)).foldl (· + ·) 0

/-- Launch k of a bank of an NI has bytes to stage: its stream, the place in it where they begin, and their number (R167). -/
def stageable (s : State) (ep k bk : Nat) : Option (Nat × Nat × Nat) :=
  let i := (s.launchEnt ep bk k).2.2.2.1
  let start := s.sentAhead ep bk i + s.stagedBytes ep bk i
  let n := (s.launchPlan ep bk k start).foldl (· + ·) 0
  if (s.launchEnt ep bk k).2.2.1 && s.streamV ep bk i && n != 0 && !s.lathe.staged.any (fun x => x.ep == ep && x.k == k && x.bank == bk)
  then some (i, start, n) else none

/-- The bank from which a launch is staged now: none where it is not in reach (R167). -/
def stageBank (s : State) (ep k : Nat) : Option Nat :=
  let bk := s.get 0 F.LTH_STAT_BANK
  let lead := if ep < 0xF00 then 1 else s.get 0 F.LTH_CTL_LEAD
  let here := s.spn.notch / 16
  let swapNext := match s.swapPending with
    | some w => s.flag 0 F.LTH_STAT_SHADOW_V && w.2.2 == (s.spn.turn + 1) % 2 ^ 40
    | none => false
  let open' := fun (b : Nat) => (s.stageable ep k b).isSome
  let near := here ≤ (s.launchEnt ep bk k).1 && (s.launchEnt ep bk k).1 ≤ here + lead && !s.lathe.fired.contains (128 * ep + k)
  let next := fun (b : Nat) => (s.launchEnt ep b k).1 + 128 ≤ here + lead
  if s.latheActive && open' bk && near then some bk
  else if swapNext then (if open' (1 - bk) && next (1 - bk) then some (1 - bk) else none)
  else if s.latheActive && open' bk && next bk then some bk
  else none

/-- LATHE_STAGE: the bytes of a coming launch are read ahead (R167). -/
def stageLaunch (s : State) (ep k : Nat) : State :=
  match (if 96 ≤ k then none else s.stageBank ep k) with
  | none => s
  | some bk =>
    if (if ep < 0xF00 then 2 else 8) ≤ (s.lathe.staged.filter (fun x => x.ep == ep)).length then s
    else
      match s.stageable ep k bk with
      | none => s
      | some (i, start, n) =>
        let x : Staged := ⟨ep, k, bk, i, start, n, none⟩
        let s := { s with lathe := { s.lathe with staged := s.lathe.staged ++ [x] } }
        let m := niMem s.build ep (s.streamFld ep bk i 48 48 + start)
        s.readMem m.1 m.2 n (.stage ep k bk)

/-- The bytes of a staged launch have come; a read that failed leaves it unstaged. -/
def stageDone (s : State) (ep k bk : Nat) (t : Txn) : State :=
  let mine := fun (x : Staged) => x.ep == ep && x.k == k && x.bank == bk && x.got.isNone
  { s with lathe := { s.lathe with
      staged := if t.st == stOK || t.st == stPOISON then
          updFirst mine (fun x => { x with got := some (t.bytes, t.poison) }) s.lathe.staged
        else delFirst mine s.lathe.staged } }

/-- Staged launches that `p` names are dropped, and what is still read for them serves nobody. -/
def dropStaged (s : State) (p : Staged → Bool) : State :=
  let gone := s.lathe.staged.filter p
  if gone.isEmpty then s
  else { s with
    lathe := { s.lathe with staged := s.lathe.staged.filter (fun x => !p x) }
    txns := s.txns.map (fun t => match t.purp with
      | .stage ep k bk => if gone.any (fun x => x.ep == ep && x.k == k && x.bank == bk) then { t with purp := .nothing } else t
      | _ => t) }

/-- A launch of a stream is void (R167): its bytes go out in the next launch, so that what was staged for later launches of the stream
is dropped and staged again from SENT (DESIGN CHOICE, log 38). -/
def voidLaunch (s : State) (ep bk i : Nat) : State :=
  (s.dropStaged (fun x => x.ep == ep && x.bank == bk && x.stream == i)).bump 0 F.LTH_VOID_CNT_COUNT 1

/-- The next SEQ of a stream of an NI (R165). -/
def nextLathSeq (s : State) (ep i : Nat) : Nat × State :=
  let v := nget s.lathe.seqs 0 (8 * ep + i)
  (v, { s with lathe := { s.lathe with seqs := mapSet s.lathe.seqs 0 (8 * ep + i) ((v + 1) % 65536) } })

/-- One packet of a launch, whose first byte is byte `sent` of the stream, as the flits that it puts out from cycle `cyc` of the turn (R165). -/
def launchPkt (s : State) (ep bk i sent n cyc : Nat) (bytes : List Byte) (bad : List Nat) : State :=
  let ctx := s.streamFld ep bk i 1 4
  let me := srcPos s.build ep
  let sq := s.nextLathSeq ep i
  let s := sq.2
  let h := { Hdr.zero with
    ptype := tWRITE, vcn := 2, dcol := me.1, drow := me.2, exitp := 127, scol := me.1, srow := me.2, len := n
    job := s.ctxJob ep ctx, ctx := ctx, chan := s.streamFld ep bk i 5 10, seq := sq.1
    tag := s.streamFld ep bk i 24 24, addr := (s.streamFld ep bk i 96 48 + sent) % 2 ^ 48
    aux := s.get 0 F.LTH_PLAN_PLANID, ts := s.ts }
  let h := h.setFlag fEPOCH (bitAt (s.tsetEpoch (s.ctxTset ep ctx)) 0)
  let h := h.setFlag fLAST (s.streamLen ep bk i ≤ sent + n)
  let fs := flitsOfPkt ⟨h, Ext.none, bytes, bad⟩ pQB 2 true
  let due := fun (w : Nat) => s.cyc + w + bit (s.epEast ep) - s.turnCycle false
  { s with lathe := { s.lathe with going := s.lathe.going ++
    (fs.zip (upFrom cyc fs.length)).map (fun x => ⟨ep, bk, i, s.epInject ep pQB, due x.2, { x.1 with lat := x.2 }, if x.1.tl then n else 0⟩) } }

/-- The packets of a launch, one after another. -/
def launchPkts (s : State) (ep bk i sent cyc : Nat) (bytes : List Byte) (bad : List Nat) : List Nat → State
  | [] => s
  | n :: r =>
    let s := s.launchPkt ep bk i sent n cyc (bytes.take n) (bad.filter (fun j => j < ceilDiv n 64))
    s.launchPkts ep bk i (sent + n) (cyc + 1 + ceilDiv n 64) (bytes.drop n) ((bad.filter (fun j => n / 64 ≤ j)).map (fun j => j - n / 64)) r

/-- LATHE_LAUNCH: at its window an NI sends the staged packets of launch k, each flit in its own cycle, or the launch is void (R166,
R167). A window that passes while the plane is suspended is void for its stream (R173). -/
def makeLaunch (s : State) (ep k : Nat) : State :=
  let bk := s.get 0 F.LTH_STAT_BANK
  let e := s.launchEnt ep bk k
  let i := e.2.2.2.1
  let key := 128 * ep + k + 2 ^ 20 * (s.lathNotch / 2048)
  if 96 ≤ k || !s.lathe.active || s.lathe.past || !e.2.2.1 || !s.launchNow ep bk k || s.lathe.fired.contains key then s
  else
    let s := { s with lathe := { s.lathe with fired := s.lathe.fired ++ [key] } }
    let sent := s.sentAhead ep bk i
    if !s.streamV ep bk i || s.streamLen ep bk i ≤ sent then s
    else if s.latheHeld then s.voidLaunch ep bk i
    else if !s.ctxOn ep (s.streamFld ep bk i 1 4) then (s.voidLaunch ep bk i).planSt stDENIED
    else
      let mine := fun (x : Staged) => x.ep == ep && x.k == k && x.bank == bk
      match s.lathe.staged.find? (fun x => mine x && x.start == sent) with
      | some ⟨_, _, _, _, _, _, some (bytes, bad)⟩ =>
        State.launchPkts { s with lathe := { s.lathe with staged := delFirst mine s.lathe.staged } } ep bk i sent (128 * e.1 + e.2.1) bytes
          bad (s.launchPlan ep bk k sent)
      | _ => s.voidLaunch ep bk i

/-! ### Deposits (R168, R199) -/

/-- A Lathe packet not written at an NI (R168, R177). -/
def lathRefuse (s : State) (ep st : Nat) : State :=
  let s := { s with lathe := { s.lathe with discs := if s.lathe.discs.contains ep then s.lathe.discs else s.lathe.discs ++ [ep] } }
  (((s.bump (niBase ep) F.LTH_NDISC_COUNT 1).bump 0 F.LTH_DISC_CNT_COUNT 1).report 6 (srcEp ep) st 0xFF).planSt st

/-- A packet that came as reserved flits is deposited. One that has lost flits on the way is not written, with plan status INTERNAL
(DESIGN CHOICE, log 38). -/
def lathDeposit (s : State) (ep : Nat) (pk : Pkt) : State :=
  let h := pk.hdr
  if !pk.bad.isEmpty then s.lathRefuse ep stPOISON
  -- flits of the packet have been lost on the way
  else if pk.pay.length < h.len then s.lathRefuse ep stINTERNAL
  else if ep < 0xF00 && !s.coreGood ep (h.addr / 2 ^ 46 % 4) then
    (s.niErr ep F.NI_ERR_NOTGOOD stDENIED 0).lathRefuse ep stDENIED
  else
    let m := niMem s.build ep h.addr
    let us := unitsOf m.2 pk.pay []
    let full : Bool := match m.1 with | .tap t => 64 < s.tapWaiting t + us.length | _ => false
    -- a packet whose units do not all find room in the TAP's buffer of 64 writes is not written (R448)
    if full then s.lathRefuse ep stINTERNAL
    else
    -- a write lost at a TAP crossing (R414, R468)
    let s := if (s.crossHeld m.1).isSome then s.planSt stINTERNAL else s
    let s := match m.1, s.crossHeld m.1 with
      | .tap t, none => us.foldl (fun s u => s.tapPut t (.tapWrite t u.unit u.be u.data u.bad) (some u.unit) true) s
      | _, _ => s.writeMem m.1 m.2 pk.pay [] .nothing
    if !h.flag fLAST then s
    else match s.jobCtx ep h.job with
      | none => s.mcLost ep
      | some c => s.postMc ep c 6 (if s.lathe.discs.contains ep then stPOISON else stOK) h.job [h.aux, h.chan + 1024 * h.seq, h.tag]

/-- LATHE_DEPOSIT: the next packet that reserved flits brought to an NI. -/
def takeDeposit (s : State) (ep : Nat) : State :=
  match s.takeArrival ep (fun a => a.lt) with
  | none => s
  | some (a, s) => s.lathDeposit ep a.pkt

/-! ### Loading a plan (R169, R170) -/

/-- A register address lies in a bank of the slot tables, streams or launches (R158, R164). -/
def inBank (b : Build) (bk a : Nat) : Bool :=
  let off := match locate b a with | .node _ o => some o | .port _ o => some o | _ => none
  match off with
  | none => false
  | some o => (0x2000 + 0x800 * bk ≤ o && o < 0x2800 + 0x800 * bk) || (0x3200 + 0x100 * bk ≤ o && o < 0x3300 + 0x100 * bk) ||
      (0x3400 + 0x400 * bk ≤ o && o < 0x3800 + 0x400 * bk)

/-- The records of a plan image, each as its bits. -/
def records (img : List Byte) (at' size n : Nat) : List Nat :=
  (upFrom 0 n).map (fun k => leNat ((img.drop (at' + size * k)).take size))

/-- Entry of output `p` in a router record. -/
def recEntry (x p : Nat) : Nat := bitsOf x (24 + 16 * p) 16

/-- A router record breaks R156, or names what R170 forbids; an entry with the reserved IN code 5 or 6 counts as one (DESIGN CHOICE,
log 38). -/
def badRouterRec (b : Build) (x : Nat) : Bool :=
  let n := bitsOf x 0 13
  let sl := bitsOf x 13 7
  b.nodes ≤ n || 126 < sl ||
  (upFrom 0 5).any (fun p =>
    let e := recEntry x p
    let i := bitsOf e 0 3
    let side := fun (q : Nat) => q == 0 || (b.neighbour n q).isSome || b.stationOn n q != 127
    (i != 7 && (4 < i || i == p || !side p || !side i || (sl == 126 && bitsOf e 3 7 != 0) ||
      (p != 0 && (b.neighbour n p).isNone && b.portKind (b.stationOn n p) != 1))))

/-- The windows of one output of a bank break R156: more than 96, or one overlapping the next. -/
def badWindows (s : State) (bk n p : Nat) : Bool :=
  let ws := (upFrom 0 127).filterMap (fun sl =>
    let e := s.slotEntry n bk sl p
    if e.1 ≤ 4 then some (128 * sl + e.2) else none)
  96 < ws.length || (ws.zip (ws.drop 1)).any (fun ab => ab.2 < ab.1 + 128)

/-- The launches of one NI in a bank break R164. -/
def badLaunches (s : State) (bk ep n : Nat) : Bool :=
  let ws := (upFrom 0 n).map (fun k =>
    let e := s.launchEnt ep bk k
    (128 * e.1 + e.2.1, e.2.2.2.2, e.1, e.2.2.1))
  let ws := (ws.filter (·.2.2.2)).map (fun w => (w.1, w.2.1, w.2.2.1))
  let n' := ws.length
  96 < n || ws.any (fun w => 126 < w.2.2 || w.2.1 < 2 || 128 < w.2.1 || 16256 < w.1 + w.2.1) ||
  (upFrom 0 n').any (fun i => (upFrom 0 n').any (fun j =>
    match ws[i]?, ws[j]? with
    | some a, some c => i != j && a.1 ≤ c.1 && c.1 < a.1 + a.2.1
    | _, _ => false))

/-- A router record written into a shadow bank; reserved bits are ignored and read zero (R6). -/
def writeRouterRec (bk : Nat) (s : State) (x : Nat) : State :=
  let a := nodeBase (bitsOf x 0 13) + 0x2000 + 0x800 * bk + 0x10 * bitsOf x 13 7
  if s.build.nodes ≤ bitsOf x 0 13 then s
  else
    let two := fun (p : Nat) => BitVec.ofNat 32 (recEntry x p % 1024 + 65536 * (recEntry x (p + 1) % 1024))
    let s := s.setWord a (two 0)
    let s := s.setWord (a + 4) (two 2)
    s.setWord (a + 8) (BitVec.ofNat 32 (recEntry x 4 % 1024))

/-- A stream record written. -/
def writeStreamRec (bk : Nat) (s : State) (x : Nat) : State :=
  let ep := bitsOf x 244 12
  if !s.lathNi ep then s
  else
    let a := streamAt ep bk (bitsOf x 241 3)
    let e := putBits (bitsOf x 0 176) 20 4 0
    (upFrom 0 8).foldl (fun s k => s.setWord (a + 4 * k) (BitVec.ofNat 32 (bitsOf e (32 * k) 32))) s

/-- The launch records of each NI written in the order of the image: launch 0, 1, … -/
def writeLaunchRec (bk : Nat) (acc : NMap × State) (x : Nat) : NMap × State :=
  let ep := bitsOf x 32 12
  let k := nget acc.1 0 ep
  if !acc.2.lathNi ep || 96 ≤ k then (mapPut acc.1 ep (k + 1), acc.2)
  else (mapPut acc.1 ep (k + 1), acc.2.setWord (launchAt ep bk k) (BitVec.ofNat 32 (bitsOf x 0 26)))

/-- A plan image written into the shadow banks and checked: the status, and the state (R170). -/
def loadImage (s : State) (img : List Byte) : Nat × Nat × State :=
  let b := s.build
  let hd := leNat (img.take 64)
  let nr := bitsOf hd 40 20
  let ns := bitsOf hd 64 16
  let nl := bitsOf hd 80 20
  let sh := 1 - s.get 0 F.LTH_STAT_BANK
  let rr := records img 64 16 nr
  let sr := records img (64 + 16 * nr) 32 ns
  let lr := records img (64 + 16 * nr + 32 * ns) 8 nl
  let s := { s with regs := s.regs.filter (fun e => !inBank b sh e.1) }
  let headBad := bitsOf hd 0 16 != 0x4C50 || bitsOf hd 16 8 != 1 || bitsOf hd 24 7 != b.cols || bitsOf hd 31 6 != b.rows ||
    crc32 (img.take 24 ++ [0, 0, 0, 0] ++ img.drop 28) != bitsOf hd 192 32
  -- every record is written, and then the image is checked
  let s := rr.foldl (writeRouterRec sh) s
  let s := sr.foldl (writeStreamRec sh) s
  let ls := lr.foldl (writeLaunchRec sh) ([], s)
  let s := ls.2
  let nodes := rr.map (fun x => bitsOf x 0 13)
  let nis := sr.map (fun x => bitsOf x 244 12) ++ lr.map (fun x => bitsOf x 32 12)
  let bad := headBad || rr.any (badRouterRec b) || nis.any (fun ep => !s.lathNi ep) ||
    nodes.any (fun n => (upFrom 0 5).any (fun p => s.badWindows sh n p)) || ls.1.any (fun e => s.badLaunches sh e.1 e.2)
  let dark := (nodes ++ nis.filter (fun ep => ep < 0xF00)).any (fun n => s.dom (b.nodeDom n) != 3)
  if bad then (stBADCMD, 0, s)
  else if dark then (stDOMAIN_OFF, 0, s)
  else
    let l := { s.lathe with
      shNis := (sr.map (fun x => bitsOf x 244 12)).eraseDups, shTurns := bitsOf hd 128 16, shPlan := bitsOf hd 160 32 }
    (stOK, nr + ns + nl, ({ s with lathe := l }).set 0 F.LTH_STAT_SHADOW_V 1)

/-- The load ends with a status: the plan writer is given up, and the command completes (R170). -/
def endLoad (s : State) (l : LthLoad) (st n : Nat) : State :=
  let s := { s with lathe := { s.lathe with load := none }, pwReq := none }
  let s := if st == stOK then s else s.report 6 (srcGlob 3) st 0xFF
  (s.set 0 F.LTH_STAT_LOADING 0).finishCmd l.ring l.idx st n

/-- The plan writer attempts its claim (R170, R243-R245): lost only while the arbiter is frozen. -/
def pwAttempt (s : State) (l : LthLoad) : State :=
  if s.clmFrozen then
    let k := l.lost + 1
    let s := s.bump 0 F.CLM_LOSS_CNT_COUNT 1
    let l := { l with lost := k, due := s.tmo + clmBackoff (min k 9) + 1 }
    { s with lathe := { s.lathe with load := some l }, pwReq := some (l.ring, l.idx, l.lost, l.due) }
  else
    let s := { s with
      lathe := { s.lathe with load := some { l with granted := true } }
      pwReq := some (l.ring, l.idx, l.lost, l.due)
      clmPtr := mapSet s.clmPtr 0 4 0 }
    s.srcRead l.ring l.idx l.mapp l.addr 64 0

/-- LTH_LOAD starts (R170). -/
def startLoad (s : State) (r idx mapp tmo addr : Nat) : State :=
  if s.build.isS || tmo == 0 || s.build.portKind mapp != 1 then s.finishCmd r idx stBADCMD 0
  else if s.lathe.load.isSome || s.swapPending.isSome then s.finishCmd r idx stDENIED 0
  else
    let s := s.dropStaged (fun x => x.bank != s.get 0 F.LTH_STAT_BANK)
    let s := (s.set 0 F.LTH_STAT_SHADOW_V 0).set 0 F.LTH_STAT_LOADING 1
    s.pwAttempt ⟨r, idx, mapp, addr, tmo, s.tmo, false, 0, s.tmo, none⟩

/-- The plan writer's backoff has run out: it attempts again, or its command's TMO ends the load first (R170, R244). -/
def pwRetry (s : State) : State :=
  match s.lathe.load with
  | none => s
  | some l =>
    if l.granted then s
    else if l.born + l.tmo + 1 ≤ l.due then (s.passTo (l.born + l.tmo + 1)).endLoad l stTIMEOUT 0
    else (s.passTo l.due).pwAttempt l

/-- The image header, or the whole image, has been read for a load. -/
def loadRead (s : State) (step : Nat) (t : Txn) : State :=
  match s.lathe.load with
  | none => s
  | some l =>
    let put := fun (s : State) (img : List Byte) (st : Nat) =>
      { s with lathe := { s.lathe with load := some { l with img := some (img, st) } } }
    if t.st != stOK then put s [] t.st
    else if step == 0 then
      let hd := leNat t.bytes
      let n := 64 + 16 * bitsOf hd 40 20 + 32 * bitsOf hd 64 16 + 8 * bitsOf hd 80 20
      s.srcRead l.ring l.idx l.mapp l.addr n 1
    else put s t.bytes stOK

/-- LTH_LOAD_DONE: the image is here; it is written, one router record every 12 cycles, and checked (R170). -/
def loadDone (s : State) : State :=
  match s.lathe.load with
  | none => s
  | some l => match l.img with
    | none => s
    | some (img, st) =>
      if st != stOK then s.endLoad l st 0
      else
        let s := s.passCyc (s.cyc + 12 * bitsOf (leNat (img.take 64)) 40 20)
        let r := s.loadImage img
        r.2.2.endLoad l r.1 r.2.1

/-- CLM_REVOKE.PW: the plan writer is revoked and the load ends DENIED (R248). -/
def pwRevoke (s : State) : State :=
  match s.lathe.load with
  | none => s
  | some l => if l.granted then (s.set 0 F.LTH_STAT_SHADOW_V 0).endLoad l stDENIED 0 else s

/-! ### Swaps and completion (R171, R172) -/

/-- Every stream of the active plan has finished. -/
def streamsDone (s : State) : Bool :=
  let bk := s.get 0 F.LTH_STAT_BANK
  s.lathe.nis.all (fun ep => (upFrom 0 8).all (fun i => !s.streamV ep bk i || s.streamLen ep bk i ≤ s.streamSent ep bk i))

/-- The active plan completes: its status, and its PLAN record (R172, R390). -/
def planEnd (s : State) : State :=
  if !s.lathe.active then s
  else
    let s := if s.streamsDone then s else s.planSt stTIMEOUT
    let l := s.lathe
    let s := { s with lathe := { l with active := false, past := false, half := false, endTurn := none, fired := [], runs := [] } }
    let s := (s.dropStaged (fun x => x.bank == s.get 0 F.LTH_STAT_BANK)).noteLathe
    s.postRec l.recNi l.recCtx 0x0A (s.get 0 F.LTH_STAT_PSTAT) (s.ctxJob l.recNi l.recCtx)
      [s.get 0 F.LTH_PLAN_PLANID, s.get 0 F.LTH_VOID_CNT_COUNT, s.get 0 F.LTH_DISC_CNT_COUNT]

/-- What a turn edge in RUN means for the plan: launches of a new turn may be made, and a plan whose end has come
completes (R172, R175). `t` is the turn that begins. -/
def lathTurn (s : State) (t : Nat) : State :=
  let s := { s with lathe := { s.lathe with fired := [], runs := [] } }
  if !s.lathe.active then s
  else
    let ended := match s.lathe.endTurn with
      | some e => e == t || liesAfter 40 t e
      | none => false
    if s.lathe.half then ({ s with lathe := { s.lathe with past := true } }).planSt stROUTE
    else if ended || s.streamsDone then { s with lathe := { s.lathe with past := true } }
    else s

/-- PLAN_COMPLETE: the plan whose ending edge has come completes. -/
def planOver (s : State) : State := if s.lathe.past then s.planEnd else s

/-- The banks flip and the shadow plan becomes active (R171). -/
def flipPlan (s : State) (t ni ctx : Nat) : State :=
  let s := s.planEnd
  let bk := 1 - s.get 0 F.LTH_STAT_BANK
  let l := s.lathe
  let s := s.set 0 F.LTH_STAT_BANK bk
  let s := l.shNis.foldl (fun s ep => (upFrom 0 8).foldl (fun s i => if s.streamV ep bk i then s.setSent ep bk i 0 else s) s) s
  let s := ((s.set 0 F.LTH_STAT_SHADOW_V 0).set 0 F.LTH_STAT_PSTAT 0).set 0 F.LTH_PLAN_PLANID l.shPlan
  let s := { s with lathe := { s.lathe with
    active := true, past := false, half := false
    endTurn := if l.shTurns == 0 then none else some ((t + l.shTurns) % 2 ^ 40)
    nis := l.shNis, recNi := ni, recCtx := ctx, fired := [], runs := [], seqs := [], discs := [] } }
  s.noteLathe

/-- LTH_SWAP_EDGE: the edge that begins the named turn has come (R171). -/
def swapEdge (s : State) : State :=
  match s.swapPending with
  | none => s
  | some (r, idx, t) =>
    if !s.running || !(t == s.spn.turn || liesAfter 40 s.spn.turn t) then s
    else
      let s := s.set 0 F.LTH_STAT_SWAP_PEND 0
      match s.cmdAt r idx with
      | none => s
      | some c =>
        if !s.flag 0 F.LTH_STAT_SHADOW_V then s.finishCmd r idx stDENIED 0
        else (s.flipPlan s.spn.turn (c.par 0) (c.par 1)).finishCmd r idx stOK 0

/-! ### Resuming (R54, R174) -/

/-- The commands LTH_RESUME that wait for their edge. -/
def resumePending (s : State) : List (Nat × Nat) :=
  s.rings.flatMap (fun rc => (rc.2.filter (fun c => c.opc == 0x52 && c.stage == .running)).map (fun c => (rc.1, c.idx)))

/-- LTH_RESUME starts; an edge already due is not put off (R174). -/
def startResume (s : State) (r idx : Nat) : State :=
  if s.build.isS then s.finishCmd r idx stBADCMD 0
  else if !s.running then s.finishCmd r idx stDENIED 0
  else if !s.spn.stallHold then s.finishCmd r idx stOK 0
  else { s with spn := { s.spn with resumeIn := some (min 2 (s.spn.resumeIn.getD 2)) } }

/-- LATHE_RESUME_EDGE: the turn edge at which the stall hold ends has come; the plane resumes where no rate hold
remains (R54, R174). -/
def resumeEdge (s : State) : State :=
  if s.running && s.spn.stallHold && s.spn.resumeIn == some 0 then
    let s := ({ s with spn := { s.spn with stallHold := false, resumeIn := none } }).noteLathe
    s.resumePending.foldl (fun s ri => s.finishCmd ri.1 ri.2 stOK 0) s
  else s

end State

/-! ### Rows that act on the plane alone -/

/-- LATHE_FLIT_SWITCH (R157). Configuration S has no plane (R154), so that no reserved flit comes. -/
def execLatheFlitSwitch (node port : Nat) (upset : BitVec 544) (s : State) : Host.Outcome State Fault Refusal :=
  atNode node s (fun s => if port < 5 then s.switchFlit node port upset else s)

end Sys2Proof.Machine
end

