-- ==== Sys2Proof/Machine/Governor.lean ====
section
/-! DEFINITION. The Fabric Power Governor (R150-R152). -/
namespace Sys2Proof.Machine
namespace State

/-- The estimate of a window in units of 1/16 W, truncated (R150): energies in fJ, `w` and `n` flits of wide and narrow
planes, the window in notches of 4 ns. -/
def govEstimate (s : State) (w n win : Nat) : Nat :=
  16 * (w * s.get 0 F.GOV_EPF_WIDE + n * s.get 0 F.GOV_EPF_NARROW) / (4000000 * win) + 16 * s.get 0 F.GOV_FIXED_FIXED

/-- The budget after a window with estimate `p` in 1/16 W under a ceiling in W (R151). -/
def govBudget (b p ceil : Nat) : Nat :=
  if 16 * ceil < p then max 1 (16 * b * ceil / p)
  else if p < 14 * ceil then min 64 (b + 4)
  else b

/-- A governor event set and logged (R151, R428). -/
def govEvt (s : State) (f : Fld) : State := s.errBit 0 f 0x17 (srcGlob 1) (openSt 30) 0

/-- GOV_WINDOW_END: the estimate, the budget and the next window (R150-R152). -/
def govWindowEnd (s : State) : State :=
  let g := s.gov
  let s := s.passTo (g.at' + g.win)
  let p := s.govEstimate g.wide g.narrow g.win
  let ceil := s.get 0 F.GOV_CEIL_CEIL
  let b := s.get 0 F.GOV_STAT_B
  let en := s.flag 0 F.GOV_CTL_EN
  let b' := if en then govBudget b p ceil else 64
  let s := { s with gov := ⟨0, 0, g.at' + g.win, s.get 0 F.GOV_CTL_WIN⟩ }
  let s := (s.set 0 F.GOV_STAT_PEST (min p 65535)).set 0 F.GOV_STAT_B b'
  let s := if en && 16 * ceil < p && b == 1 then s.govEvt F.GOV_EVT_OVER else s
  if b == 64 && b' < 64 then s.govEvt F.GOV_EVT_LIMITING else s

end State
end Sys2Proof.Machine
end

