-- ==== Sys2Proof/Machine/Aes.lean ====
section
/-! DEFINITION. AES-256, AES-256-GCM and GMAC with 96-bit IVs and 128-bit tags, and AES key unwrap, as NIST FIPS 197,
SP 800-38D and SP 800-38F define them (R337, R354, R358, R434; PRESUMED, the standards' text is outside the spec, log 7). -/
namespace Sys2Proof.Machine

/-- Multiplication by x in the field of AES. -/
def aesX (a : Nat) : Nat := if 128 ≤ a then Nat.xor (2 * a - 256) 0x1B else 2 * a

/-- Product in the field of AES. -/
def aesMul (a b : Nat) : Nat :=
  (natFold (fun (s : Nat × Nat) i => (if bitAt b i then Nat.xor s.1 s.2 else s.1, aesX s.2)) (0, a) 8).1

/-- Inverse in the field of AES: the 254th power. -/
def aesInv (a : Nat) : Nat :=
  (natFold (fun (s : Nat × Nat) _ => let q := aesMul s.2 s.2; (aesMul s.1 q, q)) (1, a) 7).1

/-- A byte turned left. -/
def rotl8 (a k : Nat) : Nat := a * 2 ^ k % 256 + a / 2 ^ (8 - k)

/-- The substitution of a byte, and its inverse. -/
def aesSub (a : Nat) : Nat :=
  let b := aesInv a
  [1, 2, 3, 4].foldl (fun acc k => Nat.xor acc (rotl8 b k)) (Nat.xor b 0x63)
def aesUnsub (a : Nat) : Nat := aesInv ([1, 3, 6].foldl (fun acc k => Nat.xor acc (rotl8 a k)) 5)

/-- Bytewise exclusive or. -/
def xorBytes (a b : List Nat) : List Nat := List.zipWith Nat.xor a b

/-- The 60 words of the key schedule, from 32 key bytes. -/
def aesSchedule (key : List Nat) : List (List Nat) :=
  let w0 := (upFrom 0 8).map (fun i => (key.drop (4 * i)).take 4)
  let rcon := fun (k : Nat) => natFold (fun a _ => aesX a) 1 k
  natFold (fun (w : List (List Nat)) k =>
    let i := 8 + k
    let p := (w[i - 1]?).getD []
    let t := if i % 8 == 0 then xorBytes ((p.drop 1 ++ p.take 1).map aesSub) [rcon (i / 8 - 1), 0, 0, 0]
      else if i % 8 == 4 then p.map aesSub else p
    w ++ [xorBytes ((w[i - 8]?).getD []) t]) w0 52

/-- Round key r as 16 bytes. -/
def roundKey (w : List (List Nat)) (r : Nat) : List Nat := ((w.drop (4 * r)).take 4).flatten

/-- Rows shifted: forward by 1, backward by 3 (that is, −1). -/
def shiftRows (dir : Nat) (s : List Nat) : List Nat :=
  (upFrom 0 16).map (fun i => (s[i % 4 + 4 * ((i / 4 + dir * (i % 4)) % 4)]?).getD 0)

/-- Columns mixed with the given first row of coefficients. -/
def mixCols (k : List Nat) (s : List Nat) : List Nat :=
  (upFrom 0 16).map (fun i => (upFrom 0 4).foldl (fun acc j =>
    Nat.xor acc (aesMul ((k[(j + 4 - i % 4) % 4]?).getD 0) ((s[4 * (i / 4) + j]?).getD 0))) 0)

/-- One block enciphered. -/
def aesEncrypt (w : List (List Nat)) (blk : List Nat) : List Nat :=
  let s := xorBytes blk (roundKey w 0)
  let s := natFold (fun s r => xorBytes (mixCols [2, 3, 1, 1] (shiftRows 1 (s.map aesSub))) (roundKey w (r + 1))) s 13
  xorBytes (shiftRows 1 (s.map aesSub)) (roundKey w 14)

/-- One block deciphered. -/
def aesDecrypt (w : List (List Nat)) (blk : List Nat) : List Nat :=
  let s := xorBytes blk (roundKey w 14)
  let s := natFold (fun s r => mixCols [14, 11, 13, 9] (xorBytes ((shiftRows 3 s).map aesUnsub) (roundKey w (13 - r)))) s 13
  xorBytes ((shiftRows 3 s).map aesUnsub) (roundKey w 0)

/-- The big-endian value of bytes, and its inverse. -/
def beNat (l : List Nat) : Nat := l.foldl (fun acc b => 256 * acc + b) 0
def beBytes (x n : Nat) : List Nat := ((upFrom 0 n).map (fun i => x / 256 ^ i % 256)).reverse

/-- Product of two blocks in the field of GCM. -/
def gcmMul (x y : Nat) : Nat :=
  (natFold (fun (s : Nat × Nat) i =>
    (if bitAt x (127 - i) then Nat.xor s.1 s.2 else s.1,
     if s.2 % 2 == 1 then Nat.xor (s.2 / 2) (0xE1 * 2 ^ 120) else s.2 / 2)) (0, y) 128).1

/-- A run of bytes as 16-byte blocks, the last one filled with zeros. -/
def blocks (l : List Nat) : List (List Nat) :=
  (upFrom 0 (ceilDiv l.length 16)).map (fun i => let b := (l.drop (16 * i)).take 16; b ++ List.replicate (16 - b.length) 0)

/-- GHASH over whole blocks. -/
def ghash (h : Nat) (bs : List (List Nat)) : Nat := bs.foldl (fun y b => gcmMul (Nat.xor y (beNat b)) h) 0

/-- The key stream of GCM applied to bytes: `iv` is 12 bytes; block i uses counter i + 2. -/
def gcmCrypt (w : List (List Nat)) (iv : List Nat) (bytes : List Nat) : List Nat :=
  let ks := ((upFrom 0 (ceilDiv bytes.length 16)).map (fun i => aesEncrypt w (iv ++ beBytes (i + 2) 4))).flatten
  xorBytes bytes ks

/-- The tag of GCM over additional data and ciphertext. -/
def gcmTag (w : List (List Nat)) (iv aad ct : List Nat) : List Nat :=
  let h := beNat (aesEncrypt w (List.replicate 16 0))
  let y := ghash h (blocks aad ++ blocks ct ++ [beBytes (8 * aad.length) 8 ++ beBytes (8 * ct.length) 8])
  xorBytes (beBytes y 16) (aesEncrypt w (iv ++ [0, 0, 0, 1]))

/-- Bytes as numbers, and back. -/
def natsOf (l : List Byte) : List Nat := l.map (·.toNat)
def bytesOf (l : List Nat) : List Byte := l.map (BitVec.ofNat 8)

/-- AES key unwrap under a 256-bit key (SP 800-38F): the plaintext, where the integrity check passes. -/
def keyUnwrap (key : List Nat) (blob : List Nat) : Option (List Nat) :=
  let w := aesSchedule key
  let n := blob.length / 8 - 1
  let r0 := (upFrom 1 n).map (fun i => (blob.drop (8 * i)).take 8)
  let res := natFold (fun (s : List Nat × List (List Nat)) k =>
    let t := 6 * n - k
    let i := (t - 1) % n
    let b := aesDecrypt w (xorBytes s.1 (beBytes t 8) ++ (s.2[i]?).getD [])
    (b.take 8, s.2.set i (b.drop 8))) (blob.take 8, r0) (6 * n)
  if res.1 == List.replicate 8 0xA6 then some res.2.flatten else none

end Sys2Proof.Machine
end

