-- ==== Sys2Proof/Machine/Rs.lean ====
section
/-! DEFINITION. The code RS(544,514) over 10-bit symbols (R337, R339): arithmetic in GF(2^10), encoding, and decoding of up
to 15 symbol errors. The field polynomial x^10 + x^3 + 1 and the roots α^0 to α^29 of the generator are those of IEEE 802.3
Clause 91 (PRESUMED, log 7). A codeword is the list of its symbols, first transmitted first. -/
namespace Sys2Proof.Machine

/-- Multiplication by α. -/
def rgX (a : Nat) : Nat := if 512 ≤ a then Nat.xor (2 * a - 1024) 9 else 2 * a

/-- Product in GF(2^10). -/
def rgMul (a b : Nat) : Nat :=
  (natFold (fun (s : Nat × Nat) i => (if bitAt b i then Nat.xor s.1 s.2 else s.1, rgX s.2)) (0, a) 10).1

/-- α to a power. -/
def rgPow (k : Nat) : Nat := natFold (fun a _ => rgX a) 1 (k % 1023)

/-- Inverse in GF(2^10): the 1,022nd power, as 2 · (1 + 2 + 4 + … + 256). -/
def rgInv (a : Nat) : Nat :=
  (natFold (fun (s : Nat × Nat) _ => let q := rgMul s.2 s.2; (rgMul s.1 q, q)) (1, a) 9).1

/-- Value of a polynomial, low-order coefficient first. -/
def rgEval (p : List Nat) (x : Nat) : Nat := p.foldr (fun c acc => Nat.xor c (rgMul acc x)) 0

/-- Sum of two polynomials. -/
def rgAdd : List Nat → List Nat → List Nat
  | [], b => b
  | a, [] => a
  | x :: a, y :: b => Nat.xor x y :: rgAdd a b

/-- The generator, high-order coefficient left out, low-order first. -/
def rgGen : List Nat :=
  natFold (fun p j => rgAdd (0 :: p) (p.map (fun c => rgMul c (rgPow j)))) [1] 30

/-- One message symbol through the encoder's register, high-order coefficient first. -/
def rgStep (g : List Nat) (r : List Nat) (m : Nat) : List Nat :=
  match r with
  | [] => []
  | h :: t =>
    let f := Nat.xor h m
    List.zipWith (fun a c => Nat.xor a (rgMul f c)) (t ++ [0]) g

/-- The codeword of 514 message symbols (R339). -/
def rsEncode (msg : List Nat) : List Nat :=
  let g := (rgGen.take 30).reverse
  msg ++ msg.foldl (rgStep g) (List.replicate 30 0)

/-- The 30 syndromes. -/
def rsSyndromes (cw : List Nat) : List Nat :=
  (upFrom 0 30).map (fun j => let x := rgPow j; cw.foldl (fun acc c => Nat.xor (rgMul acc x) c) 0)

/-- The error-locator search after one syndrome: locator, previous locator, length, gap, previous discrepancy. -/
structure Bm where
  c : List Nat
  b : List Nat
  l : Nat
  m : Nat
  d : Nat
  deriving DecidableEq, Repr

/-- One step of the search. -/
def bmStep (syn : List Nat) (x : Bm) (n : Nat) : Bm :=
  let d := (upFrom 0 (x.l + 1)).foldl (fun acc i =>
    if n < i then acc else Nat.xor acc (rgMul ((x.c[i]?).getD 0) ((syn[n - i]?).getD 0))) 0
  if d == 0 then { x with m := x.m + 1 }
  else
    let k := rgMul d (rgInv x.d)
    let c := rgAdd x.c (List.replicate x.m 0 ++ x.b.map (rgMul k))
    if 2 * x.l ≤ n then ⟨c, x.c, n + 1 - x.l, 1, d⟩ else { x with c := c, m := x.m + 1 }

/-- A codeword decoded: the corrected symbols and how many were in error, or nothing where it is uncorrectable. -/
def rsDecode (cw : List Nat) : Option (List Nat × Nat) :=
  let syn := rsSyndromes cw
  if syn.all (· == 0) then some (cw, 0)
  else
    let x := natFold (bmStep syn) ⟨[1], [1], 0, 1, 1⟩ 30
    let om := (upFrom 0 30).map (fun n => (upFrom 0 (n + 1)).foldl (fun acc i =>
      Nat.xor acc (rgMul ((x.c[i]?).getD 0) ((syn[n - i]?).getD 0))) 0)
    -- derivative of the locator: odd coefficients
    let dv := (upFrom 0 x.c.length).map (fun i => if i % 2 == 0 then (x.c[i + 1]?).getD 0 else 0)
    let bad := (upFrom 0 544).filter (fun i => rgEval x.c (rgPow (1023 - (543 - i))) == 0)
    if 15 < x.l || bad.length != x.l then none
    else
      let fixed := (upFrom 0 544).map (fun i =>
        let v := (cw[i]?).getD 0
        if bad.contains i then
          let r := rgPow (1023 - (543 - i))
          Nat.xor v (rgMul (rgMul (rgPow (543 - i)) (rgEval om r)) (rgInv (rgEval dv r)))
        else v)
      if (rsSyndromes fixed).all (· == 0) then some (fixed, bad.length) else none

/-- The 514 message symbols of one codeword of a frame: every second symbol of its 1,285 data bytes (R339). -/
def frameMsg (bytes : List Byte) (odd : Nat) : List Nat :=
  let x := leNat bytes
  (upFrom 0 514).map (fun i => bitsOf x (10 * (2 * i + odd)) 10)

/-- The 1,088 line symbols of a frame: A and B in turn (R339). -/
def frameEncode (bytes : List Byte) : List Nat :=
  let a := rsEncode (frameMsg bytes 0)
  let b := rsEncode (frameMsg bytes 1)
  ((a.zip b).map (fun ab => [ab.1, ab.2])).flatten

/-- A frame decoded: its 1,285 data bytes and the symbols corrected, or nothing where either codeword is uncorrectable. -/
def frameDecode (sy : List Nat) : Option (List Byte × Nat) :=
  let pick := fun (odd : Nat) => (upFrom 0 544).map (fun i => (sy[2 * i + odd]?).getD 0)
  match rsDecode (pick 0), rsDecode (pick 1) with
  | some (a, n), some (b, m) =>
    let syms := (((a.take 514).zip (b.take 514)).map (fun ab => [ab.1, ab.2])).flatten
    some (leBytes (packFields (syms.map (fun v => (10, v)))) 1285, n + m)
  | _, _ => none

end Sys2Proof.Machine
end

