-- ==== Sys2Proof/Machine/Observe.lean ====
section
/-! DEFINITION. The error log and its pacing (R428-R430), telemetry reads and snapshots (R421-R424), and the trace
(R426, R427). -/
namespace Sys2Proof.Machine
namespace State

/-! ### The error log -/

/-- Classes whose INFO bit is 1 (R428). -/
def infoClass (cls : Nat) : Bool := [1, 9, 0xD, 0x11, 0x14, 0x17, 0x19].contains cls

/-- A reportable event (R430). -/
def reportable (s : State) : State :=
  if s.pendTurn then s.set 0 F.ERR_STAT_HELD 1
  else { s.set 0 F.ERR_STAT_PEND 1 with pendTurn := true }

/-- COUNT and OLDEST as the log gives them. -/
def noteLog (s : State) : State := s.set 0 F.ERR_STAT_COUNT s.log.length

/-- A report reaches the log (R429). -/
def logReport (s : State) (r : Report) : State :=
  let same := fun (e : LogEntry) => e.cls == r.cls && e.src == r.src && e.first / 2048 == r.first / 2048
  if s.log.any same then
    { s with log := updFirst same (fun e => { e with rep := min 0xFFFF (e.rep + r.count), last := r.last }) s.log }
  else if s.log.length < 64 then
    let e : LogEntry := ⟨r.cls, r.status, r.src, min 0xFFFF (r.count - 1), r.first, r.last, r.detail⟩
    let s := ({ s with log := s.log ++ [e] }).noteLog
    if !infoClass r.cls || s.flag 0 F.ERR_CTL_INFO_IRQ then s.reportable else s
  else (s.bump (4 * r.cls) F.ERR_LOSTc_COUNT r.count).reportable

/-- A report placed among others in ascending SRC order. -/
def bySrc (r : Report) : List Report → List Report
  | [] => [r]
  | x :: l => if r.src < x.src then r :: x :: l else x :: bySrc r l

/-- A pending report reaches the log. -/
def takeOne (s : State) (r : Report) : State := ({ s with reports := delFirst (fun x => x == r) s.reports }).logReport r

/-- ERROR_REPORT: the pending report of a unit in a class reaches the log. Reports of events of the same cycle arrive with it (DEDUCED,
log 20): those of lower SRC numbers are taken before it, in ascending SRC order (R428, R440). -/
def takeReport (s : State) (cls src : Nat) : State :=
  match s.reports.find? (fun r => r.cls == cls && r.src == src) with
  | none => s
  | some r =>
    let first := (s.reports.filter (fun x => x.at' == r.at' && x.src < r.src)).foldl (fun l x => bySrc x l) []
    (first.foldl takeOne s).takeOne r

/-- A write of 1 to ERR_POP (R429). -/
def popLog (s : State) : State :=
  match s.log with
  | [] => s
  | _ :: l => (({ s with log := l }).set 0 F.ERR_STAT_OLDEST ((s.get 0 F.ERR_STAT_OLDEST + 1) % 64)).noteLog

/-- A turn edge, or 16,384 cycles while the Spindle is not in RUN: HELD moves into PEND (R430). -/
def paceTurn (s : State) : State :=
  let held := s.flag 0 F.ERR_STAT_HELD
  let s := { s with pendTurn := held, paceEdge := s.cyc }
  if held then (s.set 0 F.ERR_STAT_HELD 0).set 0 F.ERR_STAT_PEND 1 else s

/-- ERROR_PACING_TURN (R430): turns of 16,384 cycles from the last turn edge. -/
def pacingTurn (s : State) : State :=
  if s.running then s
  else
    let e := s.paceEdge
    let s := (s.passCyc (e + 16384)).paceTurn
    { s with paceEdge := e + 16384 * ((s.cyc - e) / 16384) }

/-- Entry words as the window at 0x4000 shows them: word `w` of entry `i` (R428, R429). -/
def logWord (s : State) (i w : Nat) : Word :=
  let k := (i + 64 - s.get 0 F.ERR_STAT_OLDEST) % 64
  match s.log[k]? with
  | none => 0
  | some e =>
    let x := packFields [(1, 1), (1, bit (infoClass e.cls)), (5, e.cls), (1, 0), (4, e.status), (16, e.src), (4, 0), (16, e.rep), (16, 0),
      (51, e.first), (13, 0), (32, e.last), (96, e.detail)]
    BitVec.ofNat 32 (bitsOf x (32 * w) 32)

/-! ### Telemetry and snapshots -/

/-- A counter's value. -/
def tlmOf (s : State) (a : Nat) : Tlm := (mapGet s.tlm a).getD ⟨0, false⟩

/-- A snapshot (R424): the West units copy in the cycle of the edge, the East units one cycle later (R40). -/
def snapshot (s : State) : State :=
  let s := s.snapUnits false
  ({ s with snapDue := if s.build.halves then some (s.cyc + 1) else none }).set 0 F.MIR_SNAP_STAT_TURN s.spn.turn

/-- Running MIR_SNAP commands complete with the snapshot of this notch edge (R424). -/
def snapCmds (s : State) : State :=
  let l := s.rings.flatMap (fun rc => (rc.2.filter (fun c => c.opc == 0x72 && c.stage == .running)).map (fun c => (rc.1, c.idx)))
  if l.isEmpty then s else l.foldl (fun s ri => s.finishCmd ri.1 ri.2 stOK 0) s.snapshot

/-- The scheduled snapshot of a turn (R424). -/
def turnSnap (s : State) : State :=
  let e := s.get 0 F.MIR_SNAP_CTL_EVERY
  if e != 0 && s.spn.turn % e == 0 then s.snapshot else s

/-- Multiples of `e` among the turns between `a` and a later turn `b`, both left out; the count wraps at 2^40 (R42). -/
def multiplesBetween (e a b : Nat) : Nat :=
  if a < b then (b - 1) / e - a / e else (2 ^ 40 - 1) / e - a / e + ceilDiv b e

/-- Scheduled snapshots skipped between two turns, both left out (R424, R52). -/
def countSkips (s : State) (a b : Nat) : State :=
  let e := s.get 0 F.MIR_SNAP_CTL_EVERY
  if e == 0 || !liesAfter 40 b a then s else s.bump 0 F.MIR_SNAP_SKIP_SKIPPED (multiplesBetween e a b)

/-- The scheduled snapshots of turns that a forward jump from `a` to `b` skips, and of turn `b` itself, run at once (R39): one
snapshot, since all are taken in one cycle. -/
def jumpSnap (s : State) (a b : Nat) : State :=
  let e := s.get 0 F.MIR_SNAP_CTL_EVERY
  if e != 0 && liesAfter 40 b a && (b % e == 0 || 0 < multiplesBetween e a b) then s.snapshot else s

/-- A counter is a telemetry counter at the address of its LO word: a router's (R422), or a probe's (R425). -/
def isTlm (s : State) (a : Nat) : Bool :=
  match locate s.build a with
  | .glob off => 0xE00 ≤ off && off < 0x1000 && off % 0x20 == 0x14
  | .node _ off => (0x800 ≤ off && off < 0x990 && off % 8 == 0) || (0xA00 ≤ off && off < 0xCF8 && off % 8 == 0)
  | _ => false

/-- The counter of a probe placed in a domain that is off (R440). -/
def probeOff (s : State) (a : Nat) : Bool :=
  a < 0x1000 && !s.nodeOn (s.get (a - 0xE14) F.MIR_Pp_LOC_NODE)

/-- TLM_LO_READ: a read of a LO word gives COUNT[31:0] and captures the rest into the HI word (R421, R424). A probe in a domain
that is off reads zero (R440). -/
def tlmLoRead (s : State) (a : Nat) : Word × State :=
  let t : Tlm := if s.probeOff a then ⟨0, false⟩
    else if s.flag 0 F.MIR_CTL_VIEW then (mapGet s.snapTlm a).getD ⟨0, false⟩ else s.tlmOf a
  (BitVec.ofNat 32 t.cnt, s.setWord (a + 4) (BitVec.ofNat 32 (packFields [(16, t.cnt / 2 ^ 32), (15, 0), (1, bit t.ovf)])))

/-- A write of zero to a LO word clears the counter (R421). -/
def tlmLoWrite (s : State) (a data : Nat) : State :=
  if data != 0 || s.flag 0 F.MIR_CTL_VIEW then s else { s with tlm := mapDel s.tlm a }

/-- A word of RTR_QDEPTH (R423, R424). -/
def depthWord (s : State) (a : Nat) : Word :=
  BitVec.ofNat 32 (nget (if s.flag 0 F.MIR_CTL_VIEW then s.snapDepth else s.depthWords) 0 a)

/-! ### The trace -/

/-- TRIG_CLEAR: a write of 1 to MIR_STAT.TRIG clears the trigger and restarts the trace (R427). A trace that stops when it
is full begins again with no record held; otherwise the records stay (DESIGN CHOICE, log 20). -/
def trigClear (s : State) : State :=
  let s := (({ s with postLeft := none }).set 0 F.MIR_STAT_TRIG 0).set 0 F.MIR_STAT_STOPPED 0
  if s.get 0 F.MIR_CTL_TRMODE == 2 then ({ s with trace := [] }).set 0 F.MIR_STAT_FULL 0 else s

/-- A word of the trace window: record `k`, word `w` (R426). -/
def traceWord (s : State) (k w : Nat) : Word :=
  let n := s.trace.length
  let i := (k + n + 4096 - s.get 0 F.MIR_STAT_WR) % 4096
  match (if i < n then s.trace[i]? else none) with
  | some r => BitVec.ofNat 32 (leNat ((r.drop (4 * w)).take 4))
  | none => 0

end State
end Sys2Proof.Machine
end

