-- ==== Sys2Proof/Machine/Spindle.lean ====
section
/-! DEFINITION. The Spindle time base: notches and turns, jumps, offset and trim, lock, stalls, and entry to RUN (R36-R56,
R466). -/
namespace Sys2Proof.Machine
namespace State

/-! ### Small pieces -/

/-- An SPN_EVT bit of class SPINDLE set and logged (R428). -/
def spnEvt (s : State) (f : Fld) : State := s.errBit 0 f 0x13 (srcGlob 0) stSPINDLE 0
/-- An informational SPN_EVT bit set and logged. -/
def spnInfo (s : State) (f : Fld) : State := s.errBit 0 f 0x14 (srcGlob 0) (openSt 20) 0

def spnState (s : State) : Nat := s.get 0 F.SPN_STAT_STATE
def spnEn (s : State) : Bool := s.flag 0 F.SPN_CTL_EN
/-- Beacon mode (R46). -/
def beaconMode (s : State) : Bool := s.flag 0 F.SPN_CTL_SRC
/-- The reference chip, by the role in effect. -/
def refChip (s : State) : Bool := s.spn.role == 1
/-- The exit port of the active reference peer (R47, R48). -/
def refPort (s : State) : Nat := if s.get 0 F.SPN_STAT_SOURCE == 2 then s.spn.rport2 else s.spn.rport

/-- Cycles of the notch in progress: notches 2,040 to 2,047 take the turn's trim (R49). -/
def notchLen (s : State) : Nat :=
  if s.spn.notch < 2040 then 8
  else
    let left := s.spn.trim + s.spn.trimmed
    if 0 < left then 7 else if left < 0 then 9 else 8

/-- LOCKED clears (R50). -/
def loseLock (s : State) : State :=
  let s := { s with spn := { s.spn with good := 0 } }
  if s.flag 0 F.SPN_STAT_LOCKED then (s.set 0 F.SPN_STAT_LOCKED 0).spnEvt F.SPN_EVT_ALIGN else s

/-- SPN_TURN_ERA at a change of the turn count from `a` to `b` (R44). -/
def eraStep (s : State) (a b : Nat) : State :=
  let e := s.get 0 F.SPN_TURN_ERA_ERA
  if b < a && liesAfter 40 b a then (s.set 0 F.SPN_TURN_ERA_ERA (e + 1)).spnInfo F.SPN_EVT_WRAP
  else if a < b && liesAfter 40 a b then (s.set 0 F.SPN_TURN_ERA_ERA (e + 65535)).spnInfo F.SPN_EVT_WRAP
  else s

/-- Plan swaps named for a turn that has been skipped are cancelled (R39, R52). -/
def cancelSwaps (s : State) (t : Nat) : State :=
  let l := s.rings.flatMap (fun rc => (rc.2.filter (fun c => c.stage == .running && c.opc == 0x51 && liesAfter 40 t (c.par 2))).map
    (fun c => (rc.1, c.idx)))
  if l.isEmpty then s
  else
    -- nothing of the shadow plan stays staged (R167)
    let s := s.dropStaged (fun x => x.bank != s.get 0 F.LTH_STAT_BANK)
    l.foldl (fun s x => (s.set 0 F.LTH_STAT_SWAP_PEND 0).finishCmd x.1 x.2 stSPINDLE 0) s

/-- Every link in ISOLATED or UP owes a BEACON (R348). -/
def oweBeacons (s : State) : State :=
  { s with links := s.links.map (fun pl =>
      if 2 ≤ s.get (portBase pl.1) F.NKL_STAT_STATE then (pl.1, { pl.2 with beacon := true }) else pl) }

/-! ### Measuring and following (R41, R48-R51) -/

/-- The measure of the turn that ends at cycle `edge` (R41): SPN_CPT, and the rate hold. A turn longer than the 20 bits of SPN_CPT
reads all ones (DESIGN CHOICE, log 36). -/
def measureTurn (s : State) (edge : Nat) : State :=
  let n := ((edge : Int) - s.spn.turnEdge - s.spn.trimmed).toNat
  let s := s.set 0 F.SPN_CPT_CYCLES (min n (2 ^ 20 - 1))
  if n < 16376 || 16392 < n then ({ s with spn := { s.spn with rateHold := true } }).spnEvt F.SPN_EVT_RATE
  else { s with spn := { s.spn with rateHold := false } }

/-- The estimate of the turn that ends: the mean of its samples; where the mean is no whole number of cycles its rounding is
a free value (R48). No sample gives no estimate: EST stays, and no trim follows (DESIGN CHOICE, log 21). -/
def turnEstimate (s : State) : Option Int × State :=
  if s.spn.offNum == 0 then (none, s)
  else
    let d : Int := 2 * s.spn.offNum
    let q := s.spn.offSum / d
    if s.spn.offSum % d == 0 then (some q, s)
    else (some (q + (Config.openWord 1 s.free).toNat % 2), s.drawFree)

/-- An SPX follower that names no reference port: no trim, EST zero, and LOCKED does not set (R466). -/
def noReference (s : State) : Bool := !s.beaconMode && !s.refChip && s.spn.rport == 127 && s.spn.rport2 == 127

/-- Lock and trim at the end of a turn (R49-R51), after the roles of the new turn: the trim acts in the turn that begins, the next
one after the turn measured, as R49 says (the example after R51 has it in the measured turn; DESIGN CHOICE, log 36). EST holds an
estimate beyond its 16 bits at its end of the range (DESIGN CHOICE, log 36). -/
def followTurn (s : State) : State :=
  let r := if s.noReference then (none, s) else s.turnEstimate
  let s := r.2
  let applied : Int := -s.spn.trimmed
  let s := match r.1 with
    | none => s
    | some e => s.set 0 F.SPN_OFFSET_EST (unsigned 16 (max (-32768) (min 32767 e)))
  let s := s.set 0 F.SPN_OFFSET_TRIM (unsigned 8 applied)
  let corr := signed 16 (s.get 0 F.SPN_CORR_SUM) + applied
  let s := if s.beaconMode then s else s.set 0 F.SPN_CORR_SUM (unsigned 16 corr)
  let far := !s.beaconMode && (corr < -1024 || 1024 < corr)
  let clear := { s with spn := { s.spn with trim := 0, trimmed := 0, offSum := 0, offNum := 0 } }
  if s.refChip then clear.set 0 F.SPN_STAT_LOCKED 1
  else if far then clear.loseLock
  else match r.1 with
    | none => { clear with spn := { clear.spn with good := 0 } }
    | some e =>
      let s := { clear with spn := { clear.spn with
        trim := max (-8) (min 8 e), good := if -4 ≤ e && e ≤ 4 then clear.spn.good + 1 else 0 } }
      if (s.get 0 F.SPN_ALIGN_LIMIT : Int) < (if e < 0 then -e else e) then s.loseLock
      else if 4 ≤ s.spn.good then s.set 0 F.SPN_STAT_LOCKED 1 else s

/-- An offset sample from a CTRL cell of the active reference port, each time in cycles modulo 2^19 (R48). -/
def offsetSample (s : State) (p t1 t2 t3 t4 : Nat) : State :=
  if !s.running || p != s.refPort then s
  else
    let e := signed 19 (subMod 19 (subMod 19 t2 t1) (subMod 19 t4 t3)) + 2 * signed 8 (s.get 0 F.SPN_ALIGN_SKEW)
    { s with spn := { s.spn with offSum := s.spn.offSum + e, offNum := s.spn.offNum + 1 } }

/-- A glint packet of the reference port whose TS lies after local time by more than a notch (R50); a reference chip in RUN stays
locked. -/
def glintTime (s : State) (p ts : Nat) : State :=
  let d := subMod 16 ts s.ts
  if p == s.refPort && s.running && !s.refChip && 2 ≤ d && d < 32768 then s.loseLock else s

/-! ### Turns -/

/-- ROLE, RPORT and RPORT2 as SPN_CTL names them take effect (R56). In beacon mode a changed RPORT becomes the source, also after a
failover, and so does RPORT when RPORT2 names no port any more; a port newly named has missed no beacon, and turns spent with ROLE 1
count as none missed (DESIGN CHOICE, log 36). A chip that is the reference no longer has a stratum unknown until a beacon tells it, and
a follower without a reference port shows no estimate (R56, R466). -/
def takeRoles (s : State) : State :=
  let rp := s.get 0 F.SPN_CTL_RPORT
  let rp2 := s.get 0 F.SPN_CTL_RPORT2
  let sp := s.spn
  let s := if s.beaconMode && s.spnEn && (rp != sp.rport || (rp2 == 127 && s.get 0 F.SPN_STAT_SOURCE == 2)) then
      s.set 0 F.SPN_STAT_SOURCE (if rp == 127 then 3 else 1)
    else s
  let s := { s with spn := { sp with
    role := s.get 0 F.SPN_CTL_ROLE, rport := rp, rport2 := rp2
    missed := if rp == sp.rport && sp.role != 1 then sp.missed else 0
    missed2 := if rp2 == sp.rport2 && sp.role != 1 then sp.missed2 else 0 } }
  let s := if s.refChip then s.set 0 F.SPN_STAT_STRATUM 0 else if sp.role == 1 then s.set 0 F.SPN_STAT_STRATUM 15 else s
  if s.noReference then s.set 0 F.SPN_OFFSET_EST 0 else s

/-- The clocks move to an edge at cycle `edge`; the cycle that has been ends. -/
def atEdge (s : State) (edge : Nat) : State :=
  let s := s.firstAttempts
  { s.passCyc edge with spn := { s.spn with edge := edge, phase := min 7 (s.cyc - edge), ticked := false } }

/-- What every turn edge does in RUN besides measuring: the plan, the log, trackers, beacons, snapshots (R52, R171-R174,
R214, R348, R424, R430). -/
def turnEvents (s : State) : State :=
  let s := (s.lathDrain.lathTurn s.spn.turn).paceTurn.trackersTurn.oweBeacons.turnSnap
  let s := { s with spn := { s.spn with resumeIn := s.spn.resumeIn.map (· - 1) } }
  s.noteLathe

/-- A turn begins in RUN at cycle `edge`, one after the present turn (R38). -/
def beginTurn (s : State) (edge : Nat) : State :=
  let t := (s.spn.turn + 1) % 2 ^ 40
  let d : Int := if s.spn.notch == 2047 then (s.notchLen : Int) - 8 else 0
  let s := { s with spn := { s.spn with trimmed := s.spn.trimmed + d } }
  let s := (s.measureTurn edge).takeRoles.followTurn
  let s := s.eraStep s.spn.turn t
  let s := s.atEdge edge
  let sp := s.spn
  let s := { s with
    tmo := s.tmo + 1
    spn := { sp with
      turn := t, notch := 0, turnEdge := edge
      missed := if sp.seen then 0 else sp.missed + 1, seen := false
      missed2 := if sp.seen2 then 0 else sp.missed2 + 1, seen2 := false } }
  s.turnEvents.snapCmds

/-- One notch more in RUN, at cycle `edge` (R37). -/
def nextNotch (s : State) (edge : Nat) : State :=
  let d : Int := (s.notchLen : Int) - 8
  let s := s.atEdge edge
  ({ s with tmo := s.tmo + 1, spn := { s.spn with notch := s.spn.notch + 1, trimmed := s.spn.trimmed + d } }).snapCmds

/-- The turn count is adopted at a jump (R39). -/
def adoptTurn (s : State) (c : Nat) : State :=
  let old := s.spn.turn
  let s := (s.spnEvt F.SPN_EVT_JUMP).eraStep old c
  let s := { s with spn := { s.spn with turn := c } }
  if liesAfter 40 c old then ((s.cancelSwaps c).lathTurn c).jumpSnap old c else s

/-! ### Entering and leaving RUN (R53-R55) -/

/-- The block enters RUN with turn `c`, `n` notches after the turn edge at cycle `edge` (R54, R55). LATHE_AUTO is read at this entry: a
change of it before the second turn edge has no effect on the resumption (DESIGN CHOICE, log 36). -/
def enterRun (s : State) (c n edge : Nat) : State :=
  let stalled := 3 ≤ s.spnState
  let old := s.spn.frozen
  let s := s.takeRoles
  let s := s.set 0 F.SPN_STAT_STATE 2
  let s := { s with
    sub := 0
    spn := { s.spn with
      turn := c, notch := n % 2048, turnEdge := edge, trimmed := 0, sample := none, sampleNotches := 0, trim := 0, offSum := 0
      offNum := 0, good := 0, missed := 0, seen := false, missed2 := 0, seen2 := false, stallHold := true
      resumeIn := if s.flag 0 F.SPN_CTL_LATHE_AUTO then some 3 else none } }
  let s := s.set 0 F.SPN_CORR_SUM 0
  let s := if s.refChip then (s.set 0 F.SPN_STAT_LOCKED 1).set 0 F.SPN_STAT_STRATUM 0 else s
  let s := if stalled then
      let s := s.set 0 F.SPN_MISSED_NOTCHES (min 0xFFFFFFFF (subMod 51 s.notchCount old))
      ((s.spnInfo F.SPN_EVT_RESUME).eraStep (old / 2048) c).countSkips (old / 2048) c
    else s
  (s.cancelSwaps c).turnEvents

/-- The block enters STALLED (R53). LOCKED of a reference chip, which R50 holds at 1 only in RUN, clears without an ALIGN event, and
that of a follower stays (DESIGN CHOICE, log 36). -/
def enterStalled (s : State) : State :=
  let s := s.set 0 F.SPN_STAT_STATE 3
  let s := (s.spnEvt F.SPN_EVT_STALL).bump 0 F.SPN_STALLS_COUNT 1
  let s := if s.refChip then s.set 0 F.SPN_STAT_LOCKED 0 else s
  ({ s with
    tmo := s.tmo + 8, sub := 0
    spn := { s.spn with frozen := s.notchCount, sample := none, stallHold := true, resumeIn := none, good := 0 } }).noteLathe

/-! ### The rows -/

/-- The cycle of an edge that comes from outside: the present one, where cycles have passed by themselves since the last edge, however
few (R41); else no sooner than the notch in progress nominally ends (DESIGN CHOICE, log 36). -/
def outsideEdge (s : State) : Nat := if s.spn.ticked then s.cyc else max s.cyc (s.spn.edge + s.notchLen)

/-- NOTCH_EDGE: a rising edge of SPX_NCLK with SPX_TURN low (R37-R39, R54). -/
def notchEdge (s : State) : State :=
  if s.beaconMode || !s.spnEn then s
  else
    let e := s.outsideEdge
    let st := s.spnState
    if st == 2 then
      if s.spn.notch == 2047 then (s.spnEvt F.SPN_EVT_JUMP).beginTurn e
      else
        let s := { s with spn := { s.spn with sampleNotches := s.spn.sampleNotches + 1 } }
        s.nextNotch e
    else
      let s := s.atEdge e
      let s := { s with spn := { s.spn with sampleNotches := s.spn.sampleNotches + 1 } }
      if st == 3 then s.set 0 F.SPN_STAT_STATE 4 else s

/-- TURN_EDGE: a rising edge of SPX_NCLK with SPX_TURN high (R37-R39). -/
def turnEdgeRow (s : State) : State :=
  if s.beaconMode || !s.spnEn then s
  else
    let e := s.outsideEdge
    let st := s.spnState
    let old := s.spn.turn
    let s := if st == 2 then (if s.spn.notch == 2047 then s else s.spnEvt F.SPN_EVT_JUMP).beginTurn e
      else
        let s := s.atEdge e
        let s := { s with spn := { s.spn with turnEdge := e } }
        if st == 3 then s.set 0 F.SPN_STAT_STATE 4 else s
    { s with spn := { s.spn with sample := some old, sampleNotches := 0 } }

/-- The first pair of consecutive samples that agrees: its value and the cycle of its second sample (R38). -/
def firstPair : List Nat → Nat → Option (Nat × Nat)
  | a :: b :: r, k => if a == b then some (b, k) else firstPair (b :: r) (k + 2)
  | _, _ => none

/-- TCNT_ACCEPT: the five samples of SPX_TCNT after a turn edge (R38). -/
def tcntAccept (s : State) (samples : List Nat) : State :=
  match s.spn.sample with
  | none => s
  | some old =>
    let st := s.spnState
    let r := firstPair samples 4
    let s := { s with spn := { s.spn with sample := none } }
    let s := s.passCyc (s.spn.turnEdge + (match r with | some x => x.2 | none => 10))
    match r with
    | some (c, _) =>
      if st == 2 then (if c == (old + 1) % 2 ^ 40 then s else s.adoptTurn c)
      else s.enterRun c s.spn.sampleNotches s.spn.turnEdge
    | none =>
      if st == 1 then s else s.spnEvt F.SPN_EVT_TCNT

/-- SYNTH_NOTCH: in beacon mode the block makes the next notch (R46, R49, R466). -/
def synthNotch (s : State) : State :=
  if !s.beaconMode || !s.spnEn then s
  else
    let e := s.spn.edge + s.notchLen
    if s.spnState == 2 then
      (if s.spn.notch == 2047 then s.beginTurn e else s.nextNotch e)
    else if s.spnState == 1 && s.refChip then (s.atEdge e).enterRun 0 0 e
    else s

/-- STALL_DETECT: no notch edge for 64 cycles in SPX mode (R53). -/
def stallDetect (s : State) : State :=
  if s.beaconMode || !s.running then s
  else
    let d := s.spn.edge + 64
    (s.passCyc d).enterStalled

/-- Neither port has yielded a valid beacon for four turns (R47). -/
def beaconsGone (s : State) : Bool := 4 ≤ s.spn.missed && (s.spn.rport2 == 127 || 4 ≤ s.spn.missed2)

/-- BEACON_TIMEOUT: turns without a valid beacon (R47). In ACQUIRE the block counts no turns, so it turns to RPORT2 only from RUN
(DESIGN CHOICE, log 36). -/
def beaconTimeout (s : State) : State :=
  if !s.beaconMode || !s.running || s.refChip then s
  else if s.beaconsGone then s.enterStalled
  else if 2 ≤ s.spn.missed && s.spn.rport2 != 127 && s.get 0 F.SPN_STAT_SOURCE != 2 then
    (s.set 0 F.SPN_STAT_SOURCE 2).spnInfo F.SPN_EVT_FAILOVER
  else s

/-- A valid beacon came from exit port `p` in the present turn (R47). -/
def noteBeacon (s : State) (p : Nat) : State :=
  { s with spn := { s.spn with seen := s.spn.seen || p == s.spn.rport, seen2 := s.spn.seen2 || p == s.spn.rport2 } }

/-- A beacon that arrives at exit port `p` (R46, R47, R54, R55). Each reference port yields beacons of its own; the count and the
stratum come from the one in use. A beacon shortly before notch 0 that names the turn after the next is adopted as the count of the
present turn, one less than the turn it names; the first valid beacon after a stall is itself the turn edge that ends RESYNC. In SPX mode
beacons are ignored, and the STRATUM of a follower stays unknown (DESIGN CHOICE, log 36). -/
def takeBeacon (s : State) (p tcnt : Nat) (locked : Bool) (stratum : Nat) : State :=
  if !s.beaconMode || !s.spnEn || s.refChip || p == 127 || !(p == s.spn.rport || p == s.spn.rport2) || !locked || 13 < stratum then s
  else
    let st := s.spnState
    let near := s.spn.notch ≤ 8 || 2040 ≤ s.spn.notch
    if !near && st != 1 then s
    else if p != s.refPort then s.noteBeacon p
    else
      let s := (s.set 0 F.SPN_STAT_STRATUM (stratum + 1)).noteBeacon p
      if st == 2 then
        let expect := if s.spn.notch ≤ 8 then s.spn.turn else (s.spn.turn + 1) % 2 ^ 40
        if tcnt == expect then s
        else s.adoptTurn (if s.spn.notch ≤ 8 then tcnt else (tcnt + 2 ^ 40 - 1) % 2 ^ 40)
      else ((s.atEdge s.cyc).enterRun tcnt 0 s.cyc).noteBeacon p

/-- SPN_CTL_WRITE: the status of a write, and its effect (R56). -/
def spnCtlWrite (s : State) (data : Nat) : Nat × State :=
  let was := s.spnEn
  let en := bitAt data 0
  if was && bitAt data 1 != s.beaconMode then (stBADCMD, s)
  else
    let s := s.setWord 0x100 (BitVec.ofNat 32 (data % 2 ^ 18))
    if !en then
      let s := (((s.set 0 F.SPN_STAT_STATE 0).set 0 F.SPN_STAT_LOCKED 0).set 0 F.SPN_STAT_SOURCE 3).set 0 F.SPN_STAT_STRATUM 15
      let sp := s.spn
      let s := { s with spn := { sp with
        turn := 0, notch := 0, phase := 0, sample := none, sampleNotches := 0, trim := 0, trimmed := 0, offSum := 0, offNum := 0
        good := 0, missed := 0, seen := false, missed2 := 0, seen2 := false, stallHold := true, resumeIn := none } }
      (stOK, s.takeRoles.noteLathe)
    else if was then (stOK, s)
    else
      let s := s.set 0 F.SPN_STAT_STATE 1
      let s := s.set 0 F.SPN_STAT_SOURCE (if !s.beaconMode then 0 else if s.get 0 F.SPN_CTL_RPORT == 127 then 3 else 1)
      let s := { s with spn := { s.spn with edge := s.cyc, turnEdge := s.cyc, turn := 0, notch := 0, phase := 0 } }
      (stOK, s.takeRoles.noteLathe)

/-- SPN_NOW_READ: the read data, and the capture (R56). -/
def spnNowRead (s : State) : Word × State :=
  let t := s.spn.turn
  (BitVec.ofNat 32 t,
    s.setWord 0x114 (BitVec.ofNat 32 (packFields [(8, t / 2 ^ 32), (11, s.spn.notch), (3, s.spn.phase)])))

end State

end Sys2Proof.Machine
end

