-- ==== Sys2Proof/Machine/Link.lean ====
section
/-! DEFINITION. Nuoka Link and die-to-die ports: link state, going down (R357, R360), the Key Store and its violations
(R433-R437), encryption (R354-R356), and the sending of cells (R339-R349). -/
namespace Sys2Proof.Machine
namespace State

/-! ### Links -/

def link (s : State) (p : Nat) : LinkPort := (mapGet s.links p).getD LinkPort.reset
def setLink (s : State) (p : Nat) (l : LinkPort) : State := { s with links := mapSet s.links LinkPort.reset p l }
def updLink (s : State) (p : Nat) (f : LinkPort → LinkPort) : State := s.setLink p (f (s.link p))

/-- STATE of a link: 0 DOWN, 1 TRAINING, 2 ISOLATED, 3 UP (R357). -/
def linkState (s : State) (p : Nat) : Nat := s.get (portBase p) F.NKL_STAT_STATE
def setLinkState (s : State) (p v : Nat) : State := s.set (portBase p) F.NKL_STAT_STATE v
def isD2d (s : State) (p : Nat) : Bool := s.build.portKind p == 3
/-- The link layer of a port runs: its link-group domain is on (R26, R370). -/
def linkOn (s : State) (p : Nat) : Bool := s.build.isLink p && s.domOn (s.build.linkDom p)

/-- NI_PORT_MASK bit of an exit port (R130, R360). -/
def setMask (s : State) (p : Nat) (v : Bool) : State :=
  let a := 0x200 + 4 * (p / 32)
  s.setWord a (setWordField (s.word a) (p % 32) 1 (bit v))

/-- An NKL_EVT bit set and logged: PEER_GONE and LANE_FAIL in class LINK_DOWN, the rest in LINK_EVT (R428). -/
def nklEvt (s : State) (p : Nat) (f : Fld) (st : Nat) : State :=
  s.errBit (portBase p) f (if f.lo == 1 || f.lo == 4 then 0x10 else 0x11) (srcPort p) st p
/-- An NKL_ERR bit set and logged. -/
def nklErr (s : State) (p : Nat) (f : Fld) (st : Nat) : State := s.errBit (portBase p) f 0xF (srcPort p) st p

/-- A buffer of pool 2 of a port block given back, where there is one. -/
def freePb (s : State) (p : Nat) (b : Option Nat) : State := match b with | some h => s.freeBuf (0xF00 + p) h | none => s

/-- Packets that waited at a link and are not held for retransmission are discarded and counted (R360). -/
def dropWaiting (s : State) (p : Nat) (l : List TxPkt) : State :=
  l.foldl (fun s x =>
    if s.rtx.any (fun e => e.port == p && e.src == x.pkt.ext.src && e.psn == x.pkt.ext.psn) then s
    else (s.freePb p x.buf).bump (portBase p) F.NKL_DISC_CNT_COUNT 1) s

/-- The effect of a link going down for a reason, its violation apart (R360). Packets received whole stay, and the PHYs have to
report lock anew (DEDUCED, log 39). -/
def linkDownBy (s : State) (p why : Nat) : State :=
  let st := s.linkState p
  if st == 0 then s
  else
    let l := s.link p
    let s := s.dropWaiting p (l.qB ++ l.qG)
    let s := (l.rxB.toList ++ l.rxG.toList).foldl (fun s x => s.freePb p x.buf) s
    let s := (l.bufB ++ l.bufG).foldl (fun s b => s.freeBuf (0xF00 + p) b) s
    let s := match l.swapTx with
      | some x => (match x.cmd with | some (r, i) => s.finishCmd r i stPEER_GONE 0 | none => s)
      | none => s
    let s := s.setLink p { LinkPort.reset with
      idle := some s.tmo, ctrs := l.ctrs, salts := l.salts, fnum := l.fnum, whole := l.whole }
    let b := portBase p
    let s := (((s.setLinkState p 0).set b F.NKL_STAT_LANES 0).set b F.NKL_STAT_SPARE_V 0).set b F.NKL_STAT_DOWN_WHY why
    let s := s.setMask p true
    if st == 1 then s
    else
      let s := s.nklEvt p F.NKL_EVT_PEER_GONE stPEER_GONE
      { s with rtx := s.rtx.map (fun e => if e.port == p && e.exit == p then { e with want := true } else e) }

/-! ### The Key Store (R433-R437) -/

def keySlot (s : State) (k : Nat) : Option KeySlot := s.keys.find? (fun x => x.slot == k)

/-- KEY_SLOTS as the slots give it. -/
def noteKeys (s : State) : State :=
  s.set 0 F.KEY_SLOTS_KIND (s.keys.foldl (fun a x => a + x.kind % 4 * 4 ^ x.slot) 0)

/-- A slot takes a key, or is emptied (KIND 0); the counters of the link phases that name it start again (R354, R434). -/
def putKey (s : State) (k : KeySlot) : State :=
  let rest := s.keys.filter (fun x => x.slot != k.slot)
  let s := ({ s with keys := if k.kind == 0 then rest else rest ++ [k] }).noteKeys
  let named := fun (p i : Nat) => bitsOf (s.word (portBase p + 0x6014)).toNat (4 * i) 4 == k.slot
  { s with links := s.links.map (fun pl => (pl.1, (upFrom 0 4).foldl (fun (l : LinkPort) i =>
      if named pl.1 i then { l with ctrs := mapDel l.ctrs i, salts := mapDel l.salts i } else l) pl.2)) }

/-- Link ports of the build. -/
def linkPorts (s : State) : List Nat := (s.build.stations.filter (fun x => x.kind != 1)).map (·.port)

/-- An erase or a seal takes a port down, with reason COMMAND; a packet in the middle of encryption is sent to its end first (R437,
R440). -/
def eraseDown (s : State) (p : Nat) : State :=
  let l := s.link p
  if s.flag (portBase p) F.NKL_CTL_ENC && !(l.txB.isEmpty && l.txG.isEmpty) && s.linkState p != 0 then
    s.updLink p (fun l => { l with downDue := true })
  else s.linkDownBy p 5

/-- An erase (R437). -/
def erase (s : State) : State :=
  let s := ({ s with keys := [] }).noteKeys
  let s := if s.flag 0 F.KEY_STAT_ERASED then s else (s.set 0 F.KEY_STAT_ERASED 1).drive .secErased
  s.linkPorts.foldl (fun s p =>
    if s.flag (portBase p) F.NKL_CTL_ENC || s.flag (portBase p) F.NKL_CTL_AUTH then s.eraseDown p else s) s

/-- A violation of class `c`, logged, with its policy applied (R436, R437); `obj` is the slot or port. -/
def violation (s : State) (c obj : Nat) : State :=
  let s := s.report 0x18 (srcGlob 5) (if c ≤ 1 then stINTERNAL else stDENIED) (packFields [(3, c), (4, obj)])
  let pol := bitsOf (s.get 0 F.KEY_POLICY_POL) (2 * c) 2
  let s := if pol == 0 then s else s.set 0 F.KEY_VIOL_CLASS (putBits (s.get 0 F.KEY_VIOL_CLASS) c 1 1)
  let s := if 2 ≤ pol then s.erase else s
  if pol == 3 then s.linkPorts.foldl (fun s p => s.eraseDown p) (s.set 0 F.KEY_STAT_SEALED 1) else s

/-- A link goes down (R360); for reason TAG a TAG violation is raised (R436). -/
def linkDown (s : State) (p why : Nat) : State :=
  let s := s.linkDownBy p why
  if why == 4 then s.violation 3 p else s

/-! ### Encryption (R354-R356) -/

/-- Index of a direction and phase: 0, 1 sending; 2, 3 receiving. -/
def phaseIx (rx : Bool) (ph : Nat) : Nat := 2 * bit rx + ph

/-- Key schedule, salt and counter of a phase, where NKL_KEY names a link key for it (R433). -/
def phaseKey (s : State) (p : Nat) (rx : Bool) (ph : Nat) : Option (List (List Nat) × Nat × Nat) :=
  let i := phaseIx rx ph
  match s.keySlot (bitsOf (s.word (portBase p + 0x6014)).toNat (4 * i) 4) with
  | none => none
  | some k =>
    if k.kind != 1 then none
    else some (aesSchedule (natsOf (leBytes k.key 32)), (mapGet (s.link p).salts i).getD k.salt, nget (s.link p).ctrs 0 i)

/-- A packet's counter used: it rises by one, and asks for a rekey at 2^63 (R354, R356). -/
def spendCtr (s : State) (p : Nat) (rx : Bool) (ph : Nat) : State :=
  let i := phaseIx rx ph
  let c := nget (s.link p).ctrs 0 i + 1
  let s := s.updLink p (fun l => { l with ctrs := mapSet l.ctrs 0 i c })
  if c == 2 ^ 63 then s.nklEvt p F.NKL_EVT_REKEY (openSt 21) else s

/-- The IV of a packet: salt, then counter (R354), each least significant byte first (R5). -/
def gcmIv (salt ctr : Nat) : List Nat := natsOf (leBytes salt 4 ++ leBytes ctr 8)

/-- The bytes of a packet on the link: header, payload, and with encryption the tag (R341, R354). -/
def linkBytes (s : State) (p : Nat) (pk : Pkt) : List Byte × State :=
  let enc := s.flag (portBase p) F.NKL_CTL_ENC
  let ph := s.get (portBase p) F.NKL_STAT_KPH_TX
  let hd := scaleOutHeader pk enc
  if !enc then (hd ++ pk.pay, s)
  else match s.phaseKey p false ph with
    | none => (hd ++ pk.pay, s)
    | some (w, salt, c) =>
      let iv := gcmIv salt c
      let ct := gcmCrypt w iv (natsOf pk.pay)
      (hd ++ bytesOf (ct ++ gcmTag w iv (natsOf hd) ct), s.spendCtr p false ph)

/-- LINK_REKEY installs a key and salt in the idle phase of a direction (R356, R433): 0 sending, 1 receiving (DESIGN
CHOICE, log 22). -/
def rekey (s : State) (p : Nat) (rx : Bool) (kslot sslot : Nat) : Nat × State :=
  let b := portBase p
  match s.keySlot kslot, s.keySlot sslot with
  | some k, some z =>
    if k.kind != 1 || !(z.kind == 1 || z.kind == 2) then (stBADCMD, s)
    else
      let ph := 1 - (if rx then s.get b F.NKL_STAT_KPH_RX else s.get b F.NKL_STAT_KPH_TX)
      let i := phaseIx rx ph
      let s := s.setWord (b + 0x6014) (setWordField (s.word (b + 0x6014)) (4 * i) 4 kslot)
      let s := s.updLink p (fun l => { l with ctrs := mapSet l.ctrs 0 i 0, salts := mapPut l.salts i z.salt })
      (stOK, if rx then s else s.set b F.NKL_STAT_KPH_TX ph)
  | _, _ => (stBADCMD, s)

/-! ### Buffers and grants (R345) -/

/-- Buffers of pool 2 that hold packets of one stream: in assembly, whole, or being injected (R345). -/
def streamBufs (s : State) (p : Nat) (glint : Bool) : Nat :=
  let l := s.link p
  ((if glint then l.rxG else l.rxB).toList ++ l.whole.filter (fun x => x.glint == glint)).length +
    (s.injecting.filter (fun x => x.port == p && x.glint == glint)).length

/-- The receiver of a link that is UP holds buffers for each stream, and grants them; `k` bounds the number. -/
def grantMore (s : State) (p : Nat) : Nat → State
  | 0 => s
  | k + 1 =>
    let l := s.link p
    let b := portBase p
    if s.linkState p != 3 then s
    else if l.bufG.length + s.streamBufs p true < s.get b F.NKL_CTL_GBUF then
      match s.allocIn (0xF00 + p) 2 with
      | (none, _) => s
      | (some h, s) =>
        (s.updLink p (fun l => { l with bufG := l.bufG ++ [h], grG := (l.grG + 1) % 65536, ctrlDue := true })).grantMore p k
    else if l.bufB.length + s.streamBufs p false < s.get b F.NKL_CTL_BBUF then
      match s.allocIn (0xF00 + p) 2 with
      | (none, _) => s
      | (some h, s) =>
        (s.updLink p (fun l => { l with bufB := l.bufB ++ [h], grB := (l.grB + 1) % 65536, ctrlDue := true })).grantMore p k
    else s

/-- The port holds BBUF and GBUF buffers in all, those of packets received and not yet injected included. -/
def grant' (s : State) (p : Nat) : State := s.grantMore p 96

/-! ### Cells (R340, R346, R348, R349) -/

/-- Local time as 16 notch bits and 3 phase bits (R48). -/
def time19 (s : State) : Nat := s.notchCount % 65536 * 8 + min 7 s.spn.phase

/-- The 256 bytes of a cell: header, payload, CRC-32 (R340). -/
def cellOf (head : Nat) (pay : List Byte) : List Byte :=
  let body := leBytes head 8 ++ (pay ++ List.replicate (244 - pay.length) 0)
  body ++ leBytes (crc32 body) 4

/-- Header bits of a cell apart from ACK, AV and NAK. -/
def cellHead (type : Nat) (str : Bool) (c : TxCell) (seq : Nat) : Nat :=
  packFields [(4, type), (1, bit str), (1, bit c.sop), (1, bit c.eop), (1, bit c.kph), (8, c.fill), (10, seq)]

/-- Header of a cell that is not DATA. -/
def bareHead (type : Nat) : Nat := type

/-! ### Lanes (R339, R350-R352) -/

/-- The symbols of a stream that lane `j` of `n` takes in turn, where lane `k` takes the first. -/
def dealTo (n j : Nat) : Nat → List Nat → List Nat
  | _, [] => []
  | k, x :: r => if k == j then x :: dealTo n j ((k + 1) % n) r else dealTo n j ((k + 1) % n) r

/-- The stream that lanes carry in turn, where lane `k` brings the first symbol; a lane that has none left brings 0. -/
def gatherSyms : Nat → Nat → List (List Nat) → List Nat
  | 0, _, _ => []
  | m + 1, k, ls => (((ls[k]?).getD []).head?).getD 0 :: gatherSyms m ((k + 1) % max 1 ls.length) (ls.modify k (List.drop 1))

/-- The next physical lane after `k` in rotation that is active. -/
def nextLane (lanes : List (Nat × Nat)) (k : Nat) : Nat :=
  ((upFrom (k + 1) 8).find? (fun i => lanes.any (fun x => x.2 == i % 8))).getD 0 % 8

/-- The active lanes of a port that trains (R350, R351): all, or all but the spare, each under its own number. -/
def lanesBut (spare : Option Nat) : List (Nat × Nat) := ((upFrom 0 8).filter (fun k => spare != some k)).map (fun k => (k, k))

/-- The port has a spare lane. -/
def spared (s : State) (p : Nat) : Bool := !s.isD2d p && s.flag (portBase p) F.NKL_CTL_SPARE

/-- The physical lane whose symbols the spare copies: the lane that a pending swap names, else the next in rotation (R351). -/
def copied (l : LinkPort) : Nat := match l.swapTx with | some x => x.lane | none => l.txCopy

/-- The word of sixteen symbols of a lane: symbol j in bits [10j + 9:10j], symbol 0 sent first (R451). -/
def laneWord (sy : List (BitVec 10)) : BitVec 160 :=
  BitVec.ofNat 160 (sy.foldr (fun x n => x.toNat + 1024 * n) 0)

/-- The sixteen symbols of a word. -/
def wordSyms (w : BitVec 160) : List (BitVec 10) := (upFrom 0 16).map (fun j => w.extractLsb' (10 * j) 10)

/-- The whole words that symbols fill, and the symbols left over; `k` bounds how many. -/
def laneWords : Nat → List (BitVec 10) → List (BitVec 160) × List (BitVec 10)
  | 0, sy => ([], sy)
  | k + 1, sy =>
    if sy.length < 16 then ([], sy)
    else
      let r := laneWords k (sy.drop 16)
      (laneWord (sy.take 16) :: r.1, r.2)

/-- The symbols of a lane for a frame, after those of the marker before it: its 40 bits are four symbols, bit 0 first (R339, R451). -/
def laneSymbols (x : LaneSyms) : List (BitVec 10) :=
  (match x.mark with
    | some j => (upFrom 0 4).map (fun i => (Config.laneMarker j).extractLsb' (10 * i) 10)
    | none => []) ++ x.syms

/-- What the physical lanes carry for a frame: its symbols dealt in turn over the active lanes, begun with the first lane after a
marker, the copy on the spare, and the markers of a frame with FNUM[9:0] = 0 (R339, R351). A lane that a swap has put in the place
of another keeps that one's number (DESIGN CHOICE, log 39). -/
def lanesOut (s : State) (p : Nat) (sy : List Nat) : List LaneSyms :=
  let l := s.link p
  let mark := l.fnum % 1024 == 0
  let ptr := if mark then 0 else l.txPtr
  let one := fun (k : Nat) => match (upFrom 0 8).find? (fun j => ((l.txLanes[j]?).map (·.2)) == some k) with
    | none => (⟨0, none, []⟩ : LaneSyms)
    | some j => ⟨0, if mark then (l.txLanes[j]?).map (·.1) else none, (dealTo l.txLanes.length j ptr sy).map (BitVec.ofNat 10)⟩
  (upFrom 0 8).map (fun k =>
    if l.txLanes.any (fun x => x.2 == k) then one k else if s.spared p then one (copied l) else ⟨0, none, []⟩)

/-- A frame has gone out: its number, the lane that is next, the copy on the spare (R351), and the LANE cell of a swap that is not
yet answered, which is sent again (R352; DESIGN CHOICE, log 39). -/
def frameSent (l : LinkPort) : LinkPort :=
  let mark := l.fnum % 1024 == 0
  let n := max 1 l.txLanes.length
  let turn := mark && 2 ^ 20 ≤ l.txCalN && l.swapTx.isNone
  let cal := if turn then 0 else l.txCalN
  { l with
    cells := [], fnum := (l.fnum + 1) % 65536
    txPtr := ((if mark then 0 else l.txPtr) + 1088) % n
    txCopy := if turn then nextLane l.txLanes l.txCopy else l.txCopy
    txCalN := if cal == 0 && !mark then 0 else cal + 1088 / n
    swapTx := l.swapTx.map (fun x => { x with due := true }) }

/-- What the lanes carry goes out in words; what fills no word waits for the next frame (R451). -/
def driveLanes (s : State) (p : Nat) (lanes : List LaneSyms) : State :=
  let left := (s.link p).txOver
  let cut := (upFrom 0 8).map (fun k =>
    laneWords 80 ((left[k]?).getD [] ++ ((lanes[k]?).map laneSymbols).getD []))
  let out := (upFrom 0 8).flatMap (fun k => (((cut[k]?).map (·.1)).getD []).map (fun w => PortOut.nkpTx p k w))
  State.updLink { s with out := s.out ++ out } p (fun l => { l with txOver := cut.map (·.2) })

/-- The four transfers of a cell at a die-to-die port (R368). -/
def cellBeats (p : Nat) (bytes : List Byte) : List PortOut := (upFrom 0 4).map (fun i => .lpData p ((bytes.drop (64 * i)).take 64))

/-- A cell goes out: with the present ACK (R343), into the frame being filled on a Nuoka Link (R339). -/
def emitCell (s : State) (p head : Nat) (pay : List Byte) : State :=
  let l := s.link p
  if s.isD2d p then
    let s := s.updLink p (fun l => { l with sinceCtrl := l.sinceCtrl + 1 })
    { s with out := s.out ++ cellBeats p (cellOf head pay) }
  else
    let c := cellOf (head + 2 ^ 26 * packFields [(10, l.exp), (1, 1), (1, bit l.nakDue)]) pay
    let s := s.updLink p (fun l => { l with sinceCtrl := l.sinceCtrl + 1, nakDue := false, cells := l.cells ++ [c] })
    if l.cells.length < 4 then s
    else
      let bytes := leBytes l.fnum 2 ++ [0, 0, 0] ++ (l.cells ++ [c]).flatten
      let out := s.lanesOut p (frameEncode bytes)
      (s.updLink p frameSent).driveLanes p out

/-- Payload of a BEACON (R348), its fields in the order given (DESIGN CHOICE, log 23). -/
def beaconPay (s : State) : List Byte :=
  leBytes (packFields [(40, s.spn.turn), (1, s.get 0 F.SPN_STAT_LOCKED), (4, s.get 0 F.SPN_STAT_STRATUM), (12, s.chip), (19, s.time19)]) 10

/-- Payload of a CTRL cell (R349), its fields in the order given (DESIGN CHOICE, log 23). -/
def ctrlPay (s : State) (p : Nat) : List Byte :=
  let l := s.link p
  leBytes (packFields [(16, l.grB), (16, l.grG), (19, s.time19), (19, l.peerTtx), (19, l.peerArr)]) 12

/-- Payload of a LANE cell (R352): the lane, the spare, the frame, and whether it answers (DESIGN CHOICE, log 23). -/
def lanePay (x : LaneSwap) : List Byte := leBytes (packFields [(3, x.lane), (3, x.spare), (16, x.frame), (1, bit x.read)]) 4

/-- RESP: the GMAC of the peer's challenge under the admission key (R358). A port with AUTH 0 sends zero (R467); before the
peer's challenge is known, and without an admission key, the value is free. The additional data is the free layout of
`Config.admitData` (log 24). -/
def admitResp (s : State) (p : Nat) : Nat :=
  let l := s.link p
  if !s.flag (portBase p) F.NKL_CTL_AUTH then 0
  else match l.pChal, s.keySlot (s.get (portBase p) F.NKL_CTL_KSLOT) with
    | some c, some k =>
      if k.kind != 3 then (Config.freshChallenge (2 * s.free + 1)).toNat
      else
        let tag := gcmTag (aesSchedule (natsOf (leBytes k.key 32))) (natsOf (leBytes c 12))
          (natsOf (leBytes (Config.admitData (BitVec.ofNat 128 c) (BitVec.ofNat 12 s.chip) (BitVec.ofNat 7 p)).toNat 19)) []
        leNat (bytesOf tag)
    | _, _ => (Config.freshChallenge (2 * s.free + 1)).toNat

/-- Payload of an ADMIT cell (R358). -/
def admitPay (s : State) (p : Nat) : List Byte :=
  let l := s.link p
  let b := portBase p
  let c := nget l.ctrs 0 (phaseIx false (s.get b F.NKL_STAT_KPH_TX))
  leBytes (packFields [(12, s.chip), (7, p), (1, s.get 0 F.SPN_STAT_LOCKED), (4, s.get 0 F.SPN_STAT_STRATUM), (1, s.get b F.NKL_CTL_SPARE),
    (1, s.get b F.NKL_CTL_ENC), (1, s.get b F.NKL_CTL_AUTH), (16, s.get b F.NKL_LEPOCH_EPOCH), (64, c), (128, l.chal),
    (128, s.admitResp p)]) 244

/-- The cells of a packet (R341). -/
def cellsOf (bytes : List Byte) (kph : Bool) : List TxCell :=
  let n := ceilDiv bytes.length 244
  (upFrom 0 n).map (fun i =>
    let pay := (bytes.drop (244 * i)).take 244
    ⟨i == 0, i + 1 == n, if i + 1 == n then pay.length else 0, i == 0 && kph, pay⟩)

/-- The port has entered ISOLATED: both ends have sent their ADMIT cells (R350, R358). -/
def isolated (s : State) (p : Nat) : State := ((s.setLinkState p 2).setMask p true).nklEvt p F.NKL_EVT_PEER_UP (openSt 21)

/-- The next packet of a stream starts where a grant allows it (R345). With ENC 1 no packet goes out before its phase has a key
(R354; DEDUCED, log 39). -/
def startPkt (s : State) (p : Nat) (glint : Bool) : State :=
  let l := s.link p
  let q := if glint then l.qG else l.qB
  let busy := if glint then l.txG else l.txB
  match busy, q with
  | [], x :: _ =>
    if l.downDue then s
    else if (if glint then subMod 16 l.pgG l.stG else subMod 16 l.pgB l.stB) == 0 then s
    else if s.flag (portBase p) F.NKL_CTL_ENC && (s.phaseKey p false (s.get (portBase p) F.NKL_STAT_KPH_TX)).isNone then s
    else
      let r := s.linkBytes p x.pkt
      let cs := cellsOf r.1 (s.flag (portBase p) F.NKL_STAT_KPH_TX)
      r.2.updLink p (fun l =>
        if glint then { l with txG := cs, stG := (l.stG + 1) % 65536 } else { l with txB := cs, stB := (l.stB + 1) % 65536 })
  | _, _ => s

/-- The next DATA cell of a stream goes out, and is kept for replay (R342). -/
def sendData (s : State) (p : Nat) (glint : Bool) : State :=
  let l := s.link p
  match (if glint then l.txG else l.txB) with
  | [] => s
  | c :: r =>
    let head := cellHead 1 glint c l.seq
    let s := if c.eop then (match (if glint then l.qG else l.qB) with | x :: _ => s.freePb p x.buf | [] => s) else s
    let h : HeldCell := ⟨l.seq, head, c.pay, s.cyc⟩
    let s := s.updLink p (fun l =>
      let l := { l with seq := (l.seq + 1) % 1024, held := if s.isD2d p then l.held else l.held ++ [h] }
      if glint then { l with txG := r, qG := if c.eop then l.qG.drop 1 else l.qG }
      else { l with txB := r, qB := if c.eop then l.qB.drop 1 else l.qB })
    s.emitCell p head c.pay

/-- The next cell of a replay goes out as it was (R342). -/
def sendReplay (s : State) (p : Nat) : State :=
  let l := s.link p
  match l.replay with
  | [] => s
  | q :: r =>
    let s := s.updLink p (fun l => { l with
      replay := r
      held := l.held.map (fun (h : HeldCell) => if h.seq == q then { h with at' := s.cyc } else h) })
    match l.held.find? (fun h => h.seq == q) with
    | some h => s.emitCell p h.head h.pay
    | none => s

/-- A CTRL cell goes out (R349). -/
def sendCtrl (s : State) (p : Nat) : State :=
  let pay := s.ctrlPay p
  (s.emitCell p (bareHead 2) pay).updLink p (fun l => { l with sinceCtrl := 0, ctrlAt := s.tmo, ctrlDue := false })

/-- A port that an erase takes down goes down when what it was sending is out, to the end of its frame (R440). -/
def downAfter (s : State) (p : Nat) : State :=
  let l := s.link p
  if l.downDue && l.txB.isEmpty && l.txG.isEmpty && l.cells.isEmpty then s.linkDownBy p 5 else s

/-- The next cell, in the order of R346. -/
def nextCell (s : State) (p : Nat) : State :=
  let st := s.linkState p
  if st == 0 || (s.link p).idle.isSome then s
  else
    let s := if st == 3 then (s.startPkt p true).startPkt p false else s
    let l := s.link p
    let room := s.isD2d p || l.held.length < 512
    if l.beacon && 2 ≤ st then (s.updLink p (fun l => { l with beacon := false })).emitCell p (bareHead 3) s.beaconPay
    else if l.admDue then
      let s := (s.updLink p (fun l => { l with admDue := false, admSent := true })).emitCell p (bareHead 4) (s.admitPay p)
      if st == 1 && l.pChal.isSome then s.isolated p else s
    else match l.swapTx.filter (·.due), l.swapRx.filter (·.due) with
      | some x, _ => (s.updLink p (fun l => { l with swapTx := l.swapTx.map (fun y => { y with due := false }) })).emitCell p (bareHead 5) (lanePay x)
      | none, some x => (s.updLink p (fun l => { l with swapRx := none })).emitCell p (bareHead 5) (lanePay x)
      | none, none =>
        if !l.replay.isEmpty then s.sendReplay p
        else if st == 3 && room && !l.txG.isEmpty then s.sendData p true
        else if 2 ≤ st && (64 ≤ l.sinceCtrl || l.ctrlAt + 512 ≤ s.tmo || l.ctrlDue) then s.sendCtrl p
        else if st == 3 && room && !l.txB.isEmpty then s.sendData p false
        else if 2 ≤ st then s.sendCtrl p
        else s.emitCell p (bareHead 0) []

/-- CELL_BOUNDARY (R346). -/
def cellBoundary (s : State) (p : Nat) : State := (s.nextCell p).downAfter p

end State
end Sys2Proof.Machine
end

