-- ==== Sys2Proof/Machine/HdsRing.lean ====
section
/-! DEFINITION. The rings of the Headstock: doorbells, fetches, replies, guards, run-ahead and squash (R371-R388, R392,
R394). -/
namespace Sys2Proof.Machine

/-- The operation code of a sync operation that a guard sends (R288, R382). -/
def guardOp (c : Cmd) : Nat := if c.gtake then 4 else 3

namespace State

/-! ### Rings -/

/-- Commands of a ring (R371). -/
def ringN (s : State) (r : Nat) : Nat := 2 ^ s.ringLog r

/-- An index lies before TAIL: its distance from HEAD. -/
def fromHead (s : State) (r i : Nat) : Nat := subMod 16 i (s.ringHead r)

/-- The index to be fetched next: the first from HEAD on that is ready and not held (R372, R373). -/
def nextFetch (s : State) (r : Nat) : Option Nat :=
  ((upFrom 0 (subMod 16 (s.ringTail r) (s.ringHead r))).find? (fun k => (s.cmdAt r ((s.ringHead r + k) % 65536)).isNone)).map
    (fun k => (s.ringHead r + k) % 65536)

/-- A ring fetches command `i`: it runs, or the command was ready when the ring's commands were squashed, and is squashed as well
(R373, R386). -/
def fetches (s : State) (r i : Nat) : Bool :=
  s.ringState r == 1 || (match mapGet s.squashTo r with | some t => s.fromHead r i < subMod 16 (t % 65536) (s.ringHead r) | none => false)

/-- The finished access of a purpose, taken. -/
def takeTxn (s : State) (p : Purp) : Option (Txn × State) :=
  match s.txns.find? (fun t => t.purp == p && t.todo.isEmpty && t.live.isEmpty) with
  | none => none
  | some t => some (t, { s with txns := delFirst (fun (x : Txn) => x.id == t.id) s.txns })

/-- The Headstock takes part: start-up is over (R417). -/
def inService (s : State) : Bool := s.boot == 0

/-- Accesses under way serve nobody any more. -/
def orphan (s : State) (p : Purp → Bool) : State :=
  { s with
    txns := s.txns.map (fun t => if p t.purp then { t with purp := .nothing } else t)
    reqs := s.reqs.map (fun q => if p q.purp then { q with purp := .nothing } else q) }

/-- No squash of commands not fetched yet is owed for a ring (R386). -/
def clearSquash (s : State) (r : Nat) : State := { s with squashTo := s.squashTo.filter (fun e => e.1 % 16 != r) }

/-- A ring behind a MAP asks for its next command (R371, R373); one whose MAP is not Lit learns DOMAIN_OFF (R393). -/
def kickFetch (s : State) (r : Nat) : State :=
  if !s.inService || !s.flag (0x20 * r) F.HDS_RINGr_CTL_LOC then s
  else match s.nextFetch r with
    | none => s
    | some i =>
      if !s.fetches r i || s.tablePending (.fetch r i) then s
      else if s.dom (s.build.portDom (s.get (0x20 * r) F.HDS_RINGr_CTL_MAPP)) != 3 then
        s.addTxn false 0 false 0 64 [] [] stDOMAIN_OFF (.fetch r i)
      else s.ownRead 0xF7E 0 (s.get (0x20 * r) F.HDS_RINGr_CTL_MAPP)
        (s.get (0x20 * r) F.HDS_RINGr_BASE_BASE * 65536 + 64 * (i % s.ringN r)) 64 (.fetch r i)

/-! ### Run-ahead (R384) -/

/-- A command lies within the run-ahead limit. -/
def withinAhead (s : State) (r : Nat) (c : Cmd) : Bool := s.fromHead r c.idx < s.get 0 F.HDS_CTL_AHEAD

/-- The run-ahead state of a command given back, and its guard cancelled (R384, R300). -/
def undoAhead (s : State) (r : Nat) (c : Cmd) : State :=
  let s := if c.ahead then
      let mine := s.ops.filter (fun o => o.spec && o.who == .cmd r c.idx)
      let s := mine.foldl (fun s o => s.returnSeqs o) s
      let s := { s with ops := s.ops.filter (fun o => !(o.spec && o.who == .cmd r c.idx)) }
      c.data.foldl (fun s b => s.freeBuf (xferNi c.bits) b) s
    else s
  let s := s.updCmd r c.idx (fun x => { x with ahead := false, data := if c.ahead then [] else x.data })
  match c.guard with
  | .sent k =>
    match s.hwatch.find? (fun w => w.slot == k) with
    | some w =>
      -- the slot ends with the outcome of its watch, which is discarded: it belongs to no ring any more
      let s := { s with hwatch := s.hwatch.map (fun (x : HWatch) => if x.slot == k then { x with ring := 16 } else x) }
      s.hdsSyncOp w.unit 6 (packFields [(6, k % 64), (12, w.gen), (2, k / 64)]) 0 w.sem 0 false
    | none => s
  | _ => s

/-- A transfer that runs ahead takes its state (R384): entries and channel allowance with its operation, and the hold
buffers of a queue-targeted multicast where they are there. -/
def takeAhead (s : State) (r : Nat) (c : Cmd) : State :=
  let o := xferOp c.bits (.cmd r c.idx)
  if c.opc == 0 || c.ahead || reservedSet c.bits || s.xferBad c.bits then s
  else
    let n := if o.kind == .mc && parOf c.bits 2 == 1 then ceilDiv o.len 1024 else 0
    let got := (upFrom 0 n).foldl (fun (a : List Nat × State) k =>
      let b := min 1024 (o.len - 1024 * k)
      if a.2.canAlloc o.ep b none then
        (match a.2.allocBuf o.ep b none with
         | (some h, s) => (a.1 ++ [h], s)
         | (none, _) => a)
      else a) ([], s)
    (got.2.reserveOp o).updCmd r c.idx (fun x => { x with ahead := true, data := got.1 })

/-! ### Squash and halt (R386) -/

/-- A command of a ring squashed. -/
def squashCmd (s : State) (r : Nat) (c : Cmd) : State :=
  (s.undoAhead r c).updCmd r c.idx (fun x => { x with stage := .done, st := stSQUASHED, result := 0, squashed := true, guard := .unsent })

/-- The commands of a ring that have not started and that `p` accepts squashed, and with them those that the ring has not fetched
yet, as they come (R386). -/
def squash (s : State) (r : Nat) (p : Cmd → Bool) : State :=
  let s := ((s.cmds r).filter (fun c => c.stage == .ready && p c)).foldl (fun s c => s.squashCmd r c) s
  let s := s.clearSquash r
  ({ s with squashTo := mapPut s.squashTo r (s.ringTail r) }).kickFetch r

/-- After RING_ABORT a command not fetched yet is squashed as well where it is not released: where an earlier guard is not satisfied, or
from the first guarded one on (R386). -/
def squashLater (s : State) (r : Nat) (held : Bool) : State :=
  let s := s.clearSquash r
  ({ s with squashTo := mapPut s.squashTo r (s.ringTail r + (if held then 0 else 65536)) }).kickFetch r

/-- A command that has not started completes with a status, what it had taken given back. -/
def dropCmd (s : State) (r : Nat) (c : Cmd) (st : Nat) : State := (s.undoAhead r c).finishCmd r c.idx st 0

/-- A guard has ended with a status other than OK (R386): its command completes with it, every later one is squashed, and
the ring halts. -/
def guardFail (s : State) (r idx st : Nat) : State :=
  match s.cmdAt r idx with
  | none => s
  | some c =>
    let s := s.dropCmd r { c with guard := .unsent } st
    (s.squash r (fun x => s.fromHead r idx < s.fromHead r x.idx)).haltRing r st

/-! ### Guards (R382, R383) -/

/-- The map entry of a guard is here: it is checked, and the guard sent on a free watch slot (R382). -/
def guardEntry (s : State) (r : Nat) (c : Cmd) (ent : Nat) (spec : Bool) : State :=
  let dest := bitsOf ent 0 24
  let u := epIndex dest - 0xF80
  if !bitAt ent 63 || bitAt ent 34 || epChip dest != s.chip || epIndex dest < 0xF80 || s.build.units ≤ u then s.dropCmd r c stBADCMD
  else if !bitAt ent (if c.gtake then 36 else 37) then s.dropCmd r c stDENIED
  else match s.freeHWatch with
    | none => s
    | some k =>
      let sem := bitsOf ent 24 10
      let a := s.armHWatch k r c.idx u sem c.gtmo
      (a.2.hdsSyncOp u (guardOp c) a.1 c.gn sem c.gtmo spec).updCmd r c.idx (fun x => { x with guard := .sent k })

/-- A guard translated through the ring's sync map (R284, R382): read at once from the route store, or from behind a MAP. -/
def sendGuard (s : State) (r : Nat) (c : Cmd) (spec : Bool) : State :=
  let m := s.get (0x20 * r) F.HDS_RINGr_CTL_SMAP
  if !s.mapV m || s.mapLimit m ≤ c.gvid then s.dropCmd r c stBADCMD
  else if !s.flag (8 * m) F.SYN_MAPm_CTL_LOC then
    s.guardEntry r c (leNat (s.ramRead (ramBase .store + s.mapAddr m c.gvid) 8)) spec
  else if s.tablePending (.param r c.idx 9) then s
  else s.ownRead 0xF7E 0 (s.get (8 * m) F.SYN_MAPm_CTL_MAPP) (s.mapAddr m c.gvid) 8 (.param r c.idx 9)

/-! ### Starting commands (R380, R392) -/

/-- A command has completed. -/
def completeCmd (c : Cmd) : Bool := c.stage == .done || c.stage == .replied

/-- A command may start but for its guard: the sequencer runs, the ring runs, every earlier command has started, and the
serialising commands and FENCE are observed (R380). -/
def startable (s : State) (r : Nat) (c : Cmd) : Bool :=
  let before := (s.cmds r).filter (fun x => s.fromHead r x.idx < s.fromHead r c.idx)
  s.inService && s.flag 0 F.HDS_CTL_RUN && (s.ringState r == 1 || c.go) && c.stage == .ready &&
  before.length == s.fromHead r c.idx && before.all (fun x => x.stage != .ready) &&
  before.all (fun x => completeCmd x || !((notes x.opc).s || c.fence || (notes c.opc).s))

/-- One command looked at by the descriptor engine; the flag says that run-ahead has not stopped (R384). -/
def prepOne (r : Nat) (acc : State × Bool) (c : Cmd) : State × Bool :=
  let s := acc.1
  if completeCmd c then acc
  else
    let goes := acc.2 && (notes c.opc).r && !c.fence && s.withinAhead r c
    if c.stage != .ready then (s, goes)
    else
      let s := if c.gv && c.guard == .unsent && (s.startable r c || (goes && !c.gtake)) then
          s.sendGuard r c (goes && !c.gtake)
        else s
      -- all watch slots are in use: run-ahead stops (R383)
      let stuck := c.gv && (s.startable r c || (goes && !c.gtake)) && s.freeHWatch.isNone && (s.cmdAt r c.idx).any (·.guard == .unsent)
      let goes := goes && !stuck
      let s := match s.cmdAt r c.idx with
        | some c => if goes && c.stage == .ready && !s.released r c.idx then s.takeAhead r c else s
        | none => s
      (s, goes)

/-- A ring's descriptor engine: guards that may be sent are sent, and run-ahead state is taken (R382, R384). -/
def prepare (s : State) (r : Nat) : State :=
  if s.ringState r != 1 || !s.inService || !s.flag 0 F.HDS_CTL_RUN then s.noteAhead r
  else ((s.cmds r).foldl (prepOne r) (s, true)).1.noteAhead r

/-- Every ring with commands. -/
def prepareAll (s : State) : State := (s.rings.map (·.1)).foldl (fun s r => s.prepare r) s

/-- The checks made of a command when it starts (R375, R376, R379). -/
def cmdCheck (s : State) (r : Nat) (c : Cmd) : Nat :=
  let n := notes c.opc
  if (params c.opc).isNone || reservedSet c.bits || (n.a && s.build.isS) then stBADCMD
  else if n.p && !s.ringPriv r then stDENIED
  else stOK

/-- A row of a ring: its next command starts where it may and where it has this opcode; a command that fails a check
completes with its status, and one that is not from a privileged source raises a PRIV violation (R375, R436). -/
def startRow (s : State) (r opc : Nat) (f : State → Cmd → State) : State :=
  match (s.cmds r).find? (fun c => c.stage == .ready) with
  | none => s
  | some c =>
    if c.opc != opc || !s.startable r c || (c.gv && c.guard != .met) then s
    else
      let st := s.cmdCheck r c
      if st != stOK then
        let s := s.dropCmd r c st
        if st == stDENIED then s.violation 6 0 else s
      else f (s.updCmd r c.idx (fun x => { x with stage := .running, born := s.tmo })) c

/-! ### Doorbells, RESUME, EN and RUN (R372, R388, R392, R394) -/

/-- A write of HDS_RINGr_DB: its status, and its effect. -/
def doorbellWrite (s : State) (r tail : Nat) (resume : Bool) : Nat × State :=
  if s.ringN r < subMod 16 tail (s.ringHead r) then (stBADCMD, s)
  else if resume && s.ringState r != 2 then (stBADCMD, s)
  else
    let s := s.set (0x20 * r) F.HDS_RINGr_TAIL_TAIL tail
    let s := if resume then
        -- an entry is fetched anew, and a reply of a squashed command that is under way is not that of its next run
        let gone := ((s.cmds r).filter (·.squashed)).map (·.idx)
        let s := (s.orphan (fun p => match p with
          | .fetch x _ => x == r
          | .reply x i => x == r && gone.contains i
          | _ => false)).clearSquash r
        (s.setCmds r ((s.cmds r).filter (fun c => !c.squashed))).set (0x20 * r) F.HDS_RINGr_STAT_STATE 1
      else s
    (stOK, (s.kickFetch r).prepare r)

/-- An access that fetches a command of a ring or writes one of its replies. -/
def ringOwn (r : Nat) (p : Purp) : Bool :=
  match p with
  | .fetch x _ => x == r
  | .reply x _ => x == r
  | _ => false

/-- A write of HDS_RINGr_CTL (R394, R393): the fields other than EN only in OFF; EN cleared only where nothing is pending. -/
def ringCtlWrite (s : State) (r data : Nat) : Nat × State :=
  let b := 0x20 * r
  let a := b + F.HDS_RINGr_CTL_EN.off
  let old := (s.word a).toNat
  let locked := s.flag 0 F.KEY_LOCK_LOCK
  let new := data % 2 ^ 28
  -- PRIV is RWL
  let new' := if locked then putBits new 1 1 (bitsOf old 1 1) else new
  let refuse := locked && bitsOf new 1 1 != bitsOf old 1 1
  if s.ringState r != 0 then
    if new / 2 != old / 2 then (stDENIED, if refuse then s.violation 5 0 else s)
    else if bitAt new 0 then (stOK, s)
    else if s.ringState r == 2 || s.ringHead r == s.ringTail r then
      (stOK, (((s.setWord a (BitVec.ofNat 32 new)).set b F.HDS_RINGr_STAT_STATE 0).setCmds r []).orphan (ringOwn r))
    else (stDENIED, s)
  else
    let s := s.setWord a (BitVec.ofNat 32 new')
    let s := if refuse then s.violation 5 0 else s
    let s := if bitAt new 0 then
        let s := (((s.set b F.HDS_RINGr_STAT_HEAD 0).set b F.HDS_RINGr_TAIL_TAIL 0).set b F.HDS_RINGr_STAT_STATE 1).setCmds r []
        s.clearSquash r
      else s
    (if refuse then stDENIED else stOK, s)

/-- A write of HDS_CTL (R392, R394). -/
def hdsCtlWrite (s : State) (data : Nat) : Nat × State :=
  if 64 < bitsOf data 1 7 then (stBADCMD, s)
  else (stOK, (s.setWord 0x100000 (BitVec.ofNat 32 (data % 256))).prepareAll)

/-! ### Fetches and replies (R373, R374, R378) -/

/-- A command put among those of its ring in index order. -/
def insertCmd (s : State) (r : Nat) (c : Cmd) : State :=
  let l := s.cmds r
  let before := l.filter (fun x => s.fromHead r x.idx < s.fromHead r c.idx)
  s.setCmds r (before ++ [c] ++ l.drop before.length)

/-- What a TSET_SWAP owes a command of a ring that had not been fetched at its edge, and lay before the TAIL of that time: keys of
`squashTo` from 16 on hold the set and the ring, their values the TAIL and, from 65,536 on, that an earlier guard was not satisfied. The
flag says that the command is the first one to be squashed (R386). -/
def tsetOwed (s : State) (r : Nat) (c : Cmd) : Bool × State :=
  let mine := fun (e : Nat × Nat) => 16 ≤ e.1 && e.1 % 16 == r
  let inReach := fun (e : Nat × Nat) => s.fromHead r c.idx < subMod 16 (e.2 % 65536) (s.ringHead r)
  let held := fun (e : Nat × Nat) => 65536 ≤ e.2 || c.gv
  let hit := (c.opc == 0x10 || c.opc == 0x11 || c.opc == 0x12) && s.squashTo.any (fun e =>
    mine e && inReach e && held e && s.ctxTset (xferNi c.bits) (parOf c.bits 1) == e.1 / 16 - 1)
  (hit, { s with squashTo := s.squashTo.filterMap (fun e =>
    if !mine e then some e
    else if !inReach e || (c.idx + 1) % 65536 == e.2 % 65536 then none
    else some (e.1, e.2 % 65536 + (if held e then 65536 else 0))) })

/-- The fetch of a command has ended. Of a halted ring it was ready when its commands were squashed. -/
def fetched (s : State) (r i st : Nat) (bytes : List Byte) : State :=
  let c : Cmd := ⟨i, leNat bytes, .ready, .unsent, false, false, false, 0, 0, 0, 0, []⟩
  if s.ringState r != 1 then
    let owed := (mapGet s.squashTo r).getD 0
    if st != stOK then s.clearSquash r
    -- released, so that it runs to completion
    else if 65536 ≤ owed && !c.gv then (s.insertCmd r { c with go := true }).kickFetch r
    else
      let s := { s with squashTo := mapPut s.squashTo r (owed % 65536) }
      (s.insertCmd r { c with stage := .done, squashed := true, st := stSQUASHED }).kickFetch r
  else if st != stOK then s.haltRing r st
  else
    let o := s.tsetOwed r c
    let s := o.2.insertCmd r c
    if o.1 then (s.squash r (fun x => s.fromHead r i ≤ s.fromHead r x.idx)).haltRing r stSQUASHED
    else (s.kickFetch r).prepare r

/-- COMMAND_FETCH: the next command of a ring arrives, from the command memory at once, from behind a MAP once its READ has
been answered (R371, R373). -/
def commandFetch (s : State) (r : Nat) : State :=
  if !s.inService then s
  else match s.nextFetch r with
    | none => s
    | some i =>
      if !s.fetches r i then s
      else if s.flag (0x20 * r) F.HDS_RINGr_CTL_LOC then
        (match s.takeTxn (.fetch r i) with
         | none => s.kickFetch r
         | some (t, s) => s.fetched r i t.st t.bytes)
      else
        let a := s.get (0x20 * r) F.HDS_RINGr_BASE_BASE * 64 + 64 * (i % s.ringN r)
        if 65536 < a + 64 then s.fetched r i stDENIED []
        else s.fetched r i (if s.ramBad.contains (a / 64) then stPOISON else stOK) (s.ramRead a 64)

/-- HEAD passes over replied commands that were not squashed; `k` bounds how many (R373, R386). -/
def moveHead (s : State) (r : Nat) : Nat → State
  | 0 => s
  | k + 1 =>
    match s.cmds r with
    | c :: l =>
      if c.idx == s.ringHead r && c.stage == .replied && !c.squashed then
        ((s.setCmds r l).set (0x20 * r) F.HDS_RINGr_STAT_HEAD ((c.idx + 1) % 65536)).moveHead r k
      else s
    | [] => s

/-- The 16 bytes of a status reply (R374, R378). -/
def replyBytes (s : State) (r : Nat) (c : Cmd) : List Byte :=
  leBytes (packFields [(4, c.st), (3, 0), (1, bit (bitAt c.idx (s.ringLog r))), (8, c.opc), (16, c.idx), (32, c.cookie), (64, c.result)]) 16

/-- A reply has been written with a status (R374): HEAD moves on, and the ring's interrupt is raised where asked. -/
def replied (s : State) (r : Nat) (c : Cmd) (st : Nat) : State :=
  let s := s.updCmd r c.idx (fun x => { x with stage := .replied })
  let s := if st != stOK then s.haltRing r st
    else if c.irq then s.set 0 F.HDS_IRQ_RING (putBits (s.get 0 F.HDS_IRQ_RING) r 1 1) else s
  ((s.moveHead r 65536).kickFetch r).prepare r

/-- STATUS_REPLY: the reply of the oldest command whose reply is due is written: to the command memory at once, behind a MAP
by a WRITE whose answer the next STATUS_REPLY takes. -/
def statusReply (s : State) (r : Nat) : State :=
  let due := (s.cmds r).filter (fun c => c.stage == .done)
  match due.findSome? (fun c => (s.takeTxn (.reply r c.idx)).map (fun p => (c, p))) with
  | some (c, (t, s)) => s.replied r c t.st
  | none =>
    match due.find? (fun c => !s.tablePending (.reply r c.idx)) with
    | none => s
    | some c =>
      let off := 16 * (c.idx % s.ringN r)
      let bytes := s.replyBytes r c
      if s.flag (0x20 * r) F.HDS_RINGr_CTL_LOC then
        s.ownWrite 0xF7E 0 (s.get (0x20 * r) F.HDS_RINGr_CTL_MAPP) (s.get (0x20 * r) F.HDS_RINGr_SBASE_SBASE * 65536 + off) bytes (.reply r c.idx)
      else
        let a := s.get (0x20 * r) F.HDS_RINGr_SBASE_SBASE * 64 + off
        if 65536 < a + 16 then s.replied r c stDENIED else (s.ramStore a bytes []).replied r c stOK

/-! ### Notifications (R382, R383) -/

/-- The watch slot that a notification to the Headstock names. -/
def hdsWatchOf (s : State) (h : Hdr) : Option HWatch :=
  s.hwatch.find? (fun w => w.slot == bitsOf h.tag 0 6 + 64 * bitsOf h.tag 18 2 && w.gen == bitsOf h.tag 6 12)

/-- A Headstock watch slot ends with a status: its guard is satisfied or fails, or its SEM_SET completes with the value
that the unit replaced (R311). -/
def hdsSlotEnd (s : State) (w : HWatch) (st : Nat) : State :=
  let s := { s with hwatch := s.hwatch.filter (fun x => x.slot != w.slot) }
  match s.cmdAt w.ring w.idx with
  | none => s
  | some c =>
    if c.guard == .sent w.slot && c.stage == .ready then
      if st == stOK then (s.updCmd w.ring w.idx (fun x => { x with guard := .met })).prepare w.ring
      else s.guardFail w.ring w.idx st
    else if c.stage == .running && c.opc == 0x42 then s.finishCmd w.ring w.idx st (if st == stOK then c.result else 0)
    else s

/-- A notification for a Headstock slot. -/
def isGuardNtf (s : State) (a : Arrival) : Bool := a.pkt.hdr.ptype == tSYNC_NTF && (s.hdsWatchOf a.pkt.hdr).isSome

/-- GUARD_NOTIFY (R382). -/
def guardNotify (s : State) : State :=
  match s.takeArrival 0xF7E s.isGuardNtf with
  | none => s
  | some (a, s) => match s.hdsWatchOf a.pkt.hdr with
    | some w => s.hdsSlotEnd w (a.pkt.hdr.opc % 16)
    | none => s

/-- GUARD_EXPIRY: the wait timeout of a guard and 8,192 notches are over (R383); 8,192 notches for a SEM_SET. -/
def guardExpiry (s : State) (slot : Nat) : State :=
  match s.hwatch.find? (fun w => w.slot == slot) with
  | none => s
  | some w =>
    -- a SEM_SET does not wait (R298)
    let wait := match s.cmdAt w.ring w.idx with
      | some c => if c.opc == 0x42 then 0 else s.waitTmo w.wtmo
      | none => s.waitTmo w.wtmo
    (s.passTo (w.born + wait + 8192 + 1)).hdsSlotEnd w stTIMEOUT

/-! ### NOP, transfers, RING_ABORT (R379, R386) -/

/-- A context that a command names, enabled or not, does not belong to the ring's job (R375). -/
def wrongJob (s : State) (r ep ctx : Nat) : Bool := s.ctxJob ep ctx != s.ringJob r

/-- XFER, XFER_MC and XFER_RED start: one that has run ahead is released (R384). -/
def runXfer (r : Nat) (s : State) (c : Cmd) : State :=
  let ep := xferNi c.bits
  if s.build.epBuilt ep && s.wrongJob r ep (parOf c.bits 1) then (s.dropCmd r c stDENIED).violation 6 0
  else match s.ops.find? (fun o => o.spec && o.who == .cmd r c.idx) with
    | some o =>
      let s := c.data.foldl (fun s b => s.freeBuf ep b) s
      (s.updCmd r c.idx (fun x => { x with data := [] })).releaseOp o
    | none => s.xferStart c.bits (.cmd r c.idx)

/-- RING_ABORT: every command of the ring that is not released is squashed, and the ring halts; a released command that has not
started runs to completion (R386). A ring that is not in RUN has nothing to halt (DEDUCED, log 40). -/
def runAbort (r : Nat) (s : State) (c : Cmd) : State :=
  let v := parOf c.bits 0
  let s := if s.ringState v == 1 then
      let rel := ((s.cmds v).filter (fun x => s.released v x.idx)).map (·.idx)
      let s := s.setCmds v ((s.cmds v).map (fun x => if x.stage == .ready && rel.contains x.idx then { x with go := true } else x))
      let held := (s.nextFetch v).any (fun i => !s.released v i)
      let s := ((s.cmds v).filter (fun x => x.stage == .ready && !x.go)).foldl (fun s x => s.squashCmd v x) s
      (s.squashLater v held).haltRing v stSQUASHED
    else s
  s.finishCmd r c.idx stOK 0

/-! ### Injection and jobs (R127, R387) -/

/-- Contexts of every NI of the die that NI_CTX_CTL binds, as endpoint and context. A context whose
NI_CTX_CTL stands at its reset value is bound to no job (DESIGN CHOICE, log 16). -/
def boundCtxs (s : State) : List (Nat × Nat) :=
  s.regs.filterMap (fun e => match locate s.build e.1 with
    | .node n off => if 0x1100 ≤ off && off < 0x1200 && off % 16 == 0 then some (n, (off - 0x1100) / 16) else none
    | .port p off => if 0x1100 ≤ off && off < 0x1200 && off % 16 == 0 then some (0xF00 + p, (off - 0x1100) / 16) else none
    | _ => none)

/-- Enabled contexts of every NI of the die, as endpoint and context. -/
def contexts (s : State) : List (Nat × Nat) := s.boundCtxs.filter (fun c => s.ctxOn c.1 c.2)

/-- The contexts of a scope: of a table set, or of a job (R379). -/
def scopeCtxs (s : State) (scope tset job : Nat) : List (Nat × Nat) :=
  s.boundCtxs.filter (fun c => if scope == 0 then s.ctxTset c.1 c.2 == tset else s.ctxJob c.1 c.2 == job)

/-- Injection of contexts stopped, or resumed (R127). -/
def stopCtxs (s : State) (l : List (Nat × Nat)) (stop : Bool) : State :=
  let s := l.foldl (fun s c => s.set (niBase c.1 + 0x10 * c.2) F.NI_CTX_CTL_STOPPED (bit stop)) s
  if stop then l.foldl (fun s c => s.unform c.1 c.2) s else l.foldl (fun s c => s.form c.1) s

/-- Everything of a channel ends with a status (R137). -/
def killChan (s : State) (ep ctx chan st : Nat) : State :=
  let mine := (s.ops.filter (fun o => o.ep == ep && o.ctx == ctx && o.chan == chan && !o.ended)).map (·.id)
  let s := (s.holds.filter (fun h => mine.contains h.op && !h.past)).foldl (fun s h => s.freeBuf ep h.buf) s
  let s := { s with
    reqs := s.reqs.filter (fun q => !(q.slot && q.ep == ep && q.ctx == ctx && q.chan == chan))
    holds := s.holds.filter (fun h => !mine.contains h.op)
    txns := s.txns.map (fun t => match t.purp with
      | .opWrite o _ _ => if mine.contains o then { t with purp := .nothing } else t
      | _ => t) }
  mine.foldl (fun s id => s.failOp id st) s

/-- JOB_KILL (R387). -/
def runKill (r : Nat) (s : State) (c : Cmd) : State :=
  let job := parOf c.bits 0
  let l := s.scopeCtxs 1 0 job
  let s := s.stopCtxs l true
  let rs := (upFrom 0 16).filter (fun v => s.ringJob v == job && s.ringState v != 0)
  let s := rs.foldl (fun s v =>
    let s := s.squash v (fun _ => true)
    (s.set (0x20 * v) F.HDS_RINGr_CTL_EN 0).set (0x20 * v) F.HDS_RINGr_STAT_STATE 0) s
  let s := l.foldl (fun s x =>
    let chans := ((s.ops.filter (fun o => o.ep == x.1 && o.ctx == x.2 && !o.ended)).map (·.chan)).eraseDups
    chans.foldl (fun s ch => s.killChan x.1 x.2 ch stSQUASHED) s) s
  -- a COL_ISSUE whose descriptor is still being read starts no collective any more
  let s := rs.foldl (fun s v => ((s.cmds v).filter (fun x => x.opc == 0x59 && x.stage == .running)).foldl
    (fun s x => s.finishCmd v x.idx stSQUASHED 0) s) s
  let s := (s.colrecs.filter (fun g => grJob g.bits == job)).foldl (fun s g => s.colEndAll g.port g.g stSQUASHED) s
  s.finishCmd r c.idx stOK 0

end State
end Sys2Proof.Machine
end

