-- ==== Sys2Proof/Machine/HdsTables.lean ====
section
/-! DEFINITION. The Headstock commands that write tables, open and close channels, and act on sync units: rank tables and
path sets (R122-R128), channels (R131-R137), semaphores (R281, R311), the sync map (R284), barriers (R301, R302) and realign
slots (R309). -/
namespace Sys2Proof.Machine
namespace State

/-! ### What commands share -/

/-- The check of a named turn (R43). -/
def turnCheck (s : State) (n : Nat) : Nat :=
  if !liesAfter 40 n s.spn.turn then stTIMEOUT else if 2 ^ 20 < subMod 40 n s.spn.turn then stBADCMD else stOK

/-- A named turn has begun, or has been skipped (R39, R52). -/
def turnCome (s : State) (n : Nat) : Bool := s.running && !liesAfter 40 n s.spn.turn

/-- A port block is a MAP of the build. -/
def isMap (s : State) (p : Nat) : Bool := s.build.portKind p == 1

/-- A command refused because an object is not of its ring's job (R375, R436). -/
def refuseJob (s : State) (r : Nat) (c : Cmd) : State := (s.finishCmd r c.idx stDENIED 0).violation 6 0

/-- Numbers that a command keeps on its way. -/
def keep (s : State) (r : Nat) (c : Cmd) (l : List Nat) : State := s.updCmd r c.idx (fun x => { x with data := l })

/-! ### Rank tables and path sets (R122-R126) -/

/-- A valid rank entry that names a node core of this die. -/
def rankHere (s : State) (e : Nat) : Bool := bitAt e 31 && epChip (bitsOf e 0 24) == s.chip && epIndex (bitsOf e 0 24) < 0xF00

/-- An entry of this die that RANK_BIND refuses, valid or not: it names no core that is good, in a domain that is Lit, and no built
port block (R30, R121, R122, R398). -/
def rankBad (s : State) (e : Nat) : Bool :=
  let n := epIndex (bitsOf e 0 24)
  epChip (bitsOf e 0 24) == s.chip &&
  !(if n < 0xF00 then s.build.epBuilt n && s.coreGood n (bitsOf e 24 2) && s.dom (s.build.nodeDom n) == 3
    else n < 0xF7E && s.build.epBuilt n)

/-- The count of entries that name a core, one up or one down (R122). -/
def countRank (up : Bool) (s : State) (e : Nat) : State :=
  if !s.rankHere e then s
  else
    let k := 4 * epIndex (bitsOf e 0 24) + bitsOf e 24 2
    let v := nget s.rankCnt 0 k
    { s with rankCnt := mapSet s.rankCnt 0 k (if up then v + 1 else v - 1) }

/-- Bytes of a table set read for a command, in the route store or behind a MAP. -/
def tsetRead (s : State) (r : Nat) (c : Cmd) (t addr len step : Nat) : State :=
  if s.flag (8 * t) F.NI_TSET_CTL_LOC then s.bigRead 0xF7E 0 (s.get (8 * t) F.NI_TSET_CTL_MAPP) addr len (.param r c.idx step)
  else s.readMem .store addr len (.param r c.idx step)

/-- Bytes of a table set written for a command. -/
def tsetWrite (s : State) (r : Nat) (c : Cmd) (t addr : Nat) (bytes : List Byte) (step : Nat) : State :=
  if s.flag (8 * t) F.NI_TSET_CTL_LOC then s.bigWrite 0xF7E 0 (s.get (8 * t) F.NI_TSET_CTL_MAPP) addr bytes (.param r c.idx step)
  else s.writeMem .store addr bytes [] (.param r c.idx step)

/-- Entries of four or eight bytes as bytes. -/
def entryBytes (n : Nat) (l : List Nat) : List Byte := (l.map (fun e => leBytes e n)).flatten

/-- RANK_BIND starts. -/
def runRankBind (r : Nat) (s : State) (c : Cmd) : State :=
  let n := c.par 2
  if 65536 < c.par 1 + n || !s.srcOk (c.par 3) then s.finishCmd r c.idx stBADCMD 0
  else if n == 0 then s.finishCmd r c.idx stOK 0
  else s.srcRead r c.idx (c.par 3) (c.par 4) (4 * n) 0

/-- RANK_BIND: 0 its entries are here and are checked, 1 the old entries are here, 2 the new ones are written. -/
def rankParam (s : State) (r : Nat) (c : Cmd) (step : Nat) (t : Txn) : State :=
  let n := c.par 2
  let a := s.tableAddr (c.par 0) false (c.par 1) 0
  if t.st != stOK then s.finishCmd r c.idx t.st 0
  else if step == 0 then
    let es := unpackN (leNat t.bytes) 32 n
    if es.any s.rankBad then s.finishCmd r c.idx stDENIED 0
    else (s.keep r c es).tsetRead r c (c.par 0) a (4 * n) 1
  else if step == 1 then
    (s.keep r c (c.data ++ unpackN (leNat t.bytes) 32 n)).tsetWrite r c (c.par 0) a (entryBytes 4 c.data) 2
  else
    let s := (c.data.drop n).foldl (countRank false) s
    ((c.data.take n).foldl (countRank true) s).finishCmd r c.idx stOK 0

/-- TABLE_WRITE starts. -/
def runTableWrite (r : Nat) (s : State) (c : Cmd) : State :=
  let n := c.par 3
  if 4096 < c.par 2 + n || !s.srcOk (c.par 4) then s.finishCmd r c.idx stBADCMD 0
  else if c.par 1 == s.get (8 * c.par 0) F.NI_TSET_CTL_ACTIVE then s.finishCmd r c.idx stDENIED 0
  else if n == 0 then s.finishCmd r c.idx stOK 0
  else s.srcRead r c.idx (c.par 4) (c.par 5) (64 * n) 0

/-- TABLE_WRITE: 0 its path sets are here, 2 they are written. A bank that has become active meanwhile is not written. -/
def tableParam (s : State) (r : Nat) (c : Cmd) (step : Nat) (t : Txn) : State :=
  if t.st != stOK then s.finishCmd r c.idx t.st 0
  else if step != 0 then s.finishCmd r c.idx stOK 0
  else if c.par 1 == s.get (8 * c.par 0) F.NI_TSET_CTL_ACTIVE then s.finishCmd r c.idx stDENIED 0
  else s.tsetWrite r c (c.par 0) (s.tableAddr (c.par 0) true (c.par 2) (c.par 1)) t.bytes 2

/-- TSET_SWAP starts (R127). -/
def runTsetSwap (r : Nat) (s : State) (c : Cmd) : State :=
  let st := s.turnCheck (c.par 1)
  if st != stOK then s.finishCmd r c.idx st 0 else s

/-- The commands of a ring from its first unreleased transfer on a context of table set `t` on are squashed (R386). -/
def squashTset (t : Nat) (s : State) (r : Nat) : State :=
  let hit := fun (c : Cmd) => c.stage == .ready && (c.opc == 0x10 || c.opc == 0x11 || c.opc == 0x12) && !s.released r c.idx &&
    s.ctxTset (xferNi c.bits) (parOf c.bits 1) == t
  match (s.cmds r).find? hit with
  | none =>
    -- none of those that have been fetched; the others are looked at as they come
    (match (if s.ringState r == 1 then s.nextFetch r else none) with
     | none => s
     | some i => { s with squashTo := mapPut s.squashTo (16 * (t + 1) + r) (s.ringTail r + (if s.released r i then 0 else 65536)) })
  | some c => (s.squash r (fun x => s.fromHead r c.idx ≤ s.fromHead r x.idx)).haltRing r stSQUASHED

/-- TSET_SWAP_EDGE: the named turn of a ring's TSET_SWAP has come (R127). -/
def tsetEdge (s : State) (r : Nat) : State :=
  match (s.cmds r).find? (fun c => c.opc == 0x22 && c.stage == .running && s.turnCome (c.par 1)) with
  | none => s
  | some c =>
    let t := c.par 0
    let mine := s.contexts.filter (fun x => s.ctxTset x.1 x.2 == t)
    if mine.any (fun x => !s.ctxStopped x.1 x.2 || s.ctxOut x.1 x.2 != 0) then s.finishCmd r c.idx stDENIED 0
    else
      let s := s.set (8 * t) F.NI_TSET_CTL_ACTIVE (1 - s.get (8 * t) F.NI_TSET_CTL_ACTIVE)
      let s := s.set (8 * t) F.NI_TSET_CTL_EPOCH (s.tsetEpoch t + 1)
      let s := (s.dropCaches t).finishCmd r c.idx stOK 0
      (s.rings.map (·.1)).foldl (squashTset t) s

/-- INJ_STOP and INJ_RESUME (R127). -/
def runInj (stop : Bool) (r : Nat) (s : State) (c : Cmd) : State :=
  (s.stopCtxs (s.scopeCtxs (c.par 0) (c.par 1) (c.par 2)) stop).finishCmd r c.idx stOK 0

/-! ### Channels (R131, R134, R136, R137) -/

/-- Channel slots of an NI in use. -/
def slotsUsed (s : State) (ep : Nat) : Nat :=
  (s.sslots.filter (fun x => x.ep == ep)).length + (s.rslots.filter (fun x => x.ep == ep)).length

/-- CHAN_OPEN: NI, CTX, CHAN, SIDE, ORD, PEER. -/
def runChanOpen (r : Nat) (s : State) (c : Cmd) : State :=
  let ep := c.par 0
  let ctx := c.par 1
  let chan := c.par 2
  let recv := c.par 3 == 1
  let peer := c.par 5
  let fin := fun (s : State) (st : Nat) => s.finishCmd r c.idx st 0
  if ep == 0xF7E || !s.build.epBuilt ep then fin s stBADCMD
  else if !s.epOn ep then fin s stDOMAIN_OFF
  else if !recv && s.wrongJob r ep ctx then s.refuseJob r c
  else if !recv && !s.ctxOn ep ctx then fin s stDENIED
  else if (if recv then (s.rslot ep peer ctx chan).isSome else (s.sslot ep ctx chan).isSome) then fin s stDENIED
  else if 256 ≤ s.slotsUsed ep || (recv && s.roQuota ep ≤ s.roUsed ep) then fin s stNOPOOL
  else if recv then
    fin { s with rslots := s.rslots ++ [(⟨ep, peer, ctx, chan, s.ringJob r, 0, 0, false, []⟩ : RecvSlot)] } stOK
  else
    let ord := c.par 4 == 1
    fin { s with sslots := s.sslots ++ [(⟨ep, ctx, chan, ord, if ord then peer else 0, 0, none, 0, 0, none, none⟩ : SendSlot)] } stOK

/-- A receive slot closed: what it holds is freed, with a record of the given status (R136). -/
def closeRecv (s : State) (x : RecvSlot) (st : Nat) : State :=
  let s := if x.held.isEmpty then s else s.freeSlotHeld x st
  { s with rslots := s.rslots.filter (fun y => !(y.ep == x.ep && y.src == x.src && y.ctx == x.ctx && y.chan == x.chan)) }

/-- A send slot closed at once: what it had outstanding or unsent ends with a status (R137). -/
def closeSend (s : State) (x : SendSlot) (st : Nat) : State :=
  let s := s.killChan x.ep x.ctx x.chan st
  { s with sslots := s.sslots.filter (fun y => !(y.ep == x.ep && y.ctx == x.ctx && y.chan == x.chan)) }

/-- CHAN_CLOSE: NI, CTX, CHAN, SIDE, PEER, ALL. -/
def runChanClose (r : Nat) (s : State) (c : Cmd) : State :=
  let ep := c.par 0
  let ctx := c.par 1
  let chan := c.par 2
  let fin := fun (s : State) (st : Nat) => s.finishCmd r c.idx st 0
  if ep == 0xF7E || !s.build.epBuilt ep then fin s stBADCMD
  else if c.par 5 == 1 then
    let x := epChip (c.par 4)
    -- from a ring that is no privileged source, every slot that it names must belong to the ring's job (R375; DEDUCED, log 16)
    let other := s.rslots.any (fun y => y.ep == ep && epChip y.src == x && y.job != s.ringJob r) ||
      s.sslots.any (fun y => y.ep == ep && y.ord && epChip y.dest == x && s.ctxJob ep y.ctx != s.ringJob r)
    if !s.ringPriv r && other then s.refuseJob r c else
    let s := (s.rslots.filter (fun y => y.ep == ep && epChip y.src == x)).foldl (fun s y => s.closeRecv y stPEER_GONE) s
    fin ((s.sslots.filter (fun y => y.ep == ep && y.ord && epChip y.dest == x)).foldl (fun s y => s.closeSend y stPEER_GONE) s) stOK
  else if c.par 3 == 1 then
    (match s.rslot ep (c.par 4) ctx chan with
     | none => fin s stOK
     | some x => if x.job != s.ringJob r then s.refuseJob r c else fin (s.closeRecv x stOK) stOK)
  else if s.wrongJob r ep ctx then s.refuseJob r c
  else match s.sslot ep ctx chan with
    | none => fin s stOK
    | some x =>
      if c.force then fin (s.closeSend x stSQUASHED) stOK
      else if x.closing.isSome then s      -- it completes with the one before it
      else (s.updSslot ep ctx chan (fun y => { y with closing := some (r, c.idx) })).checkClose ep ctx chan

/-- CHAN_CLOSE commands whose channel has nothing left, or whose slot is gone, complete (R137). -/
def closedAll (s : State) : State :=
  let s := (s.sslots.filter (·.closing.isSome)).foldl (fun s x => s.checkClose x.ep x.ctx x.chan) s
  let l := s.rings.flatMap (fun rc => (rc.2.filter (fun c => c.opc == 0x26 && c.stage == .running &&
    (s.sslot (c.par 0) (c.par 1) (c.par 2)).isNone)).map (fun c => (rc.1, c.idx)))
  l.foldl (fun s x => s.finishCmd x.1 x.2 stOK 0) s

/-! ### Semaphores (R281, R311) -/

/-- Runs what a command does to a sync unit of the build whose domain runs. -/
def atUnitCmd (r : Nat) (s : State) (c : Cmd) (f : State → State) : State :=
  if s.build.units ≤ c.par 0 then s.finishCmd r c.idx stBADCMD 0
  else if !s.unitOn (c.par 0) then s.finishCmd r c.idx stDOMAIN_OFF 0
  else f s

/-- SEM_INIT: UNIT, INDEX, JOB, VALUE. -/
def runSemInit (r : Nat) (s : State) (c : Cmd) : State :=
  s.atUnitCmd r c (fun s =>
    if s.semOn (c.par 0) (c.par 1) then s.finishCmd r c.idx stDENIED 0
    else (s.setSem (c.par 0) (c.par 1) (packFields [(40, c.par 3), (10, c.par 2), (1, 1)])).finishCmd r c.idx stOK 0)

/-- Live watches of a semaphore. -/
def semWatches (s : State) (u i : Nat) : List Watch := s.watches.filter (fun w => w.unit == u && w.index == i && w.kind ≤ 2 && !w.fired)

/-- SEM_FREE: UNIT, INDEX. -/
def runSemFree (r : Nat) (s : State) (c : Cmd) : State :=
  s.atUnitCmd r c (fun s =>
    let u := c.par 0
    let i := c.par 1
    let live := s.semWatches u i
    if !s.semOn u i then s.finishCmd r c.idx stOK 0
    else if !live.isEmpty && !c.force then s.finishCmd r c.idx stDENIED 0
    else
      let s := live.foldl (fun s w => s.fire u w.ent stSQUASHED (s.semVal u i)) s
      (s.setSem u i (putBits (s.sem u i) 50 1 0)).finishCmd r c.idx stOK 0)

/-- SEM_SET: a SET of JOB 0x3FF on a Headstock watch slot; it waits while none is free (R311, R383). -/
def runSemSet (r : Nat) (s : State) (c : Cmd) : State :=
  if s.build.units ≤ c.par 0 then s.finishCmd r c.idx stBADCMD 0
  else match s.freeHWatch with
    | none => s.updCmd r c.idx (fun x => { x with stage := .ready })
    | some k =>
      let a := s.armHWatch k r c.idx (c.par 0) (c.par 1) 0
      a.2.hdsSyncOp (c.par 0) (12 + 16) a.1 (c.par 2) (c.par 1) 0 false

/-- SEM_READ: UNIT, INDEX. -/
def runSemRead (r : Nat) (s : State) (c : Cmd) : State :=
  s.atUnitCmd r c (fun s =>
    if !s.semOn (c.par 0) (c.par 1) then s.finishCmd r c.idx stDENIED 0
    else if s.semJob (c.par 0) (c.par 1) != s.ringJob r then s.refuseJob r c
    else s.finishCmd r c.idx stOK (s.semVal (c.par 0) (c.par 1)))

/-! ### The sync map (R284) -/

/-- A map entry of this die that SYNC_BIND refuses, valid or not (R284). -/
def bindBad (s : State) (job e : Nat) : Bool :=
  let u := epIndex (bitsOf e 0 24) - 0xF80
  let i := bitsOf e 24 10
  epChip (bitsOf e 0 24) == s.chip &&
  (if bitAt e 34 then !s.bars.any (fun b => b.inst == i % 256 && b.job == job)
   else !(0xF80 ≤ epIndex (bitsOf e 0 24) && u < s.build.units && s.semOn u i && s.semJob u i == job))

/-- SYNC_BIND starts: MAP, FIRST, COUNT, MAPP, SRC. -/
def runSyncBind (r : Nat) (s : State) (c : Cmd) : State :=
  let n := c.par 2
  if s.mapLimit (c.par 0) < c.par 1 + n || !s.srcOk (c.par 3) then s.finishCmd r c.idx stBADCMD 0
  else if n == 0 then s.finishCmd r c.idx stOK 0
  else s.srcRead r c.idx (c.par 3) (c.par 4) (8 * n) 0

/-- Entries of a map dropped from every NI cache of the die. -/
def dropMap (s : State) (m first n : Nat) : State :=
  let keepIt := fun (kv : Nat × Nat) => !(m * 2 ^ 20 + first ≤ kv.1 && kv.1 < m * 2 ^ 20 + first + n)
  { s with smapC := (s.smapC.map (fun (e : Nat × List (Nat × Nat)) => (e.1, e.2.filter keepIt))).filter (fun e => !e.2.isEmpty) }

/-- SYNC_BIND: 0 its entries are here and are checked, 2 they are written. -/
def bindParam (s : State) (r : Nat) (c : Cmd) (step : Nat) (t : Txn) : State :=
  let m := c.par 0
  let a := s.mapAddr m (c.par 1)
  if t.st != stOK then s.finishCmd r c.idx t.st 0
  else if step != 0 then (s.dropMap m (c.par 1) (c.par 2)).finishCmd r c.idx stOK 0
  else
    let es := unpackN (leNat t.bytes) 64 (c.par 2)
    if es.any (s.bindBad (s.get (8 * m) F.SYN_MAPm_CTL_JOB)) then s.finishCmd r c.idx stDENIED 0
    else if s.flag (8 * m) F.SYN_MAPm_CTL_LOC then
      s.bigWrite 0xF7E 0 (s.get (8 * m) F.SYN_MAPm_CTL_MAPP) a (entryBytes 8 es) (.param r c.idx 2)
    else s.writeMem .store a (entryBytes 8 es) [] (.param r c.idx 2)

/-! ### Barriers (R301, R302) -/

/-- Fields of a BAR_INIT descriptor. -/
def bdInst (x : Nat) : Nat := bitsOf x 0 8
def bdNrem (x : Nat) : Nat := bitsOf x 60 5
def bdMaskv (x : Nat) : Bool := bitAt x 120

/-- BAR_INIT starts: MAPP, DESC. -/
def runBarInit (r : Nat) (s : State) (c : Cmd) : State :=
  if !s.srcOk (c.par 0) then s.finishCmd r c.idx stBADCMD 0 else s.srcRead r c.idx (c.par 0) (c.par 1) 64 0

/-- Member TAPs of a domain, from the mask. -/
def barSlice (b : Build) (mask : Nat) (u : Nat) : List Nat :=
  (upFrom 0 (4 * b.nodes)).filter (fun t => bitAt mask t && b.nodeDom (t / 4) == u)

/-- The instance of a descriptor written into every unit that runs, at epoch 0 (R302). -/
def barCreate (s : State) (x mask : Nat) : State :=
  let b := s.build
  let root := bdInst x % b.units
  let slices := (upFrom 0 b.units).map (fun u => (u, barSlice b mask u))
  let ndom := (slices.filter (fun z => !z.2.isEmpty)).length
  let rt : BarRoot :=
    { timed := bitAt x 18, lead := bitsOf x 19 8, parv := bitAt x 27, pinst := bitsOf x 28 8, parent := bitsOf x 36 24, nrem := bdNrem x
      ndom := ndom, epoch := 0, doms := [], ups := [], kids := [] }
  let new := (slices.filter (fun z => s.unitOn z.1)).map (fun z =>
    ({ unit := z.1, inst := bdInst x, job := bitsOf x 8 10, slice := z.2, arrived := [], epoch := 0, due := none
       root := if z.1 == root then some rt else none } : Bar))
  { s with bars := s.bars ++ new }

/-- The checks that need the mask, and the instance made (R301). A domain that is not Lit is seen before the GOOD bits of its
cores, and the root's unit must run (DEDUCED, log 29). -/
def barFinish (s : State) (r : Nat) (c : Cmd) (x mask : Nat) : State :=
  let b := s.build
  let ts := (upFrom 0 (4 * b.nodes)).filter (fun t => bitAt mask t)
  if ts.any (fun t => s.dom (b.nodeDom (t / 4)) != 3) || !s.unitOn (bdInst x % b.units) then s.finishCmd r c.idx stDOMAIN_OFF 0
  else if s.bars.any (fun y => y.inst == bdInst x) then s.finishCmd r c.idx stDENIED 0
  else if ts.any (fun t => !s.coreGood (t / 4) (t % 4)) then s.finishCmd r c.idx stDENIED 0
  else (s.barCreate x mask).finishCmd r c.idx stOK 0

/-- BAR_INIT: 0 its descriptor is here, 1 the mask table. -/
def barParam (s : State) (r : Nat) (c : Cmd) (step : Nat) (t : Txn) : State :=
  if t.st != stOK then s.finishCmd r c.idx t.st 0
  else if step == 0 then
    let x := leNat t.bytes
    if 16 < bdNrem x || (!bdMaskv x && bdNrem x == 0) || (bitAt x 18 && bitsOf x 19 8 == 0) ||
        (bdMaskv x && s.build.isS) then s.finishCmd r c.idx stBADCMD 0
    else if s.bars.any (fun b => b.inst == bdInst x) then s.finishCmd r c.idx stDENIED 0
    else if bdMaskv x then
      (s.keep r c [x]).bigRead 0xF7E 0 (bitsOf x 113 7) (bitsOf x 65 48) (ceilDiv (4 * s.build.nodes) 8) (.param r c.idx 1)
    else s.barFinish r c x 0
  else s.barFinish r c ((c.data[0]?).getD 0) (leNat t.bytes % 2 ^ (4 * s.build.nodes))

/-- BAR_FREE: INST. -/
def runBarFree (r : Nat) (s : State) (c : Cmd) : State :=
  let i := c.par 0
  let live := s.watches.filter (fun w => 3 ≤ w.kind && w.index == i && !w.fired)
  if !s.bars.any (fun b => b.inst == i) then s.finishCmd r c.idx stOK 0
  else if !live.isEmpty && !c.force then s.finishCmd r c.idx stDENIED 0
  else
    let s := live.foldl (fun s w => s.endWatch w stSQUASHED) s
    State.finishCmd { s with bars := s.bars.filter (fun b => b.inst != i) } r c.idx stOK 0

/-! ### Realign slots (R309) -/

/-- REALIGN_SET: UNIT, SLOT, A, B, K, EN, TOL, FIRST, RA, RB. The slot is written at once, and the reply when the edge of FIRST
has passed. -/
def runRealignSet (r : Nat) (s : State) (c : Cmd) : State :=
  s.atUnitCmd r c (fun s =>
    let u := c.par 0
    let st := s.turnCheck (c.par 7)
    if c.par 4 == 0 then s.finishCmd r c.idx stBADCMD 0
    else if s.semJob u (c.par 2) != s.semJob u (c.par 3) then s.finishCmd r c.idx stDENIED 0
    else if st != stOK then s.finishCmd r c.idx st 0
    else
      let x : Realign :=
        { unit := u, slot := c.par 1, en := c.par 5 == 1, a := c.par 2, b := c.par 3, k := c.par 4, tol := c.par 6, ra := c.par 8
          rb := c.par 9, turn := c.par 7, drift := 0, delta := 0, status := 0 }
      { s with realigns := s.realigns.filter (fun y => !(y.unit == u && y.slot == c.par 1)) ++ [x] })

/-- REALIGN_SET commands whose edge has passed complete. -/
def realignedAll (s : State) : State :=
  let l := s.rings.flatMap (fun rc => (rc.2.filter (fun c => c.opc == 0x47 && c.stage == .running && s.turnCome (c.par 7))).map
    (fun c => (rc.1, c.idx)))
  l.foldl (fun s x => s.finishCmd x.1 x.2 stOK 0) s

end State
end Sys2Proof.Machine
end

