-- ==== Sys2Proof/Machine/LinkRx.lean ====
section
/-! DEFINITION. Nuoka Link and die-to-die ports: receiving frames and cells (R339-R345), training and admission (R350,
R358), lanes and the spare (R351-R353), the timers of a link (R344, R350, R360), and the writes of NKL_CTL (R350, R370). -/
namespace Sys2Proof.Machine
namespace State

/-! ### Link retry (R342-R344) -/

/-- The cells before ACK `a` leave the replay buffer (R342). -/
def takeAck (s : State) (p a : Nat) : State :=
  let l := s.link p
  match l.held with
  | [] => s
  | h :: _ =>
    let d := subMod 10 a h.seq
    if d == 0 || l.held.length < d then s
    else
      let rest := l.held.drop d
      s.updLink p (fun l => { l with
        held := (match rest with | x :: r => { x with at' := s.cyc } :: r | [] => [])
        replay := l.replay.filter (fun q => rest.any (fun x => x.seq == q))
        tries := 0 })

/-- The SEQs of held cells from `a` on (R342); all of them where `a` is older than the oldest (R369). -/
def heldFrom (l : LinkPort) (a : Option Nat) : List Nat :=
  let all := l.held.map (·.seq)
  match a, all with
  | some q, h :: _ => let d := subMod 10 q h; if d ≤ all.length then all.drop d else all
  | _, _ => all

/-- A replay of the held cells from SEQ `a` on, or the end of the link after MAXREPLAY of them without progress (R344). Where no
cell is held from there on, there is nothing to replay. -/
def startReplay (s : State) (p : Nat) (a : Option Nat) : State :=
  let l := s.link p
  let from' := heldFrom l a
  if from'.isEmpty then s
  else if s.get (portBase p) F.NKL_LINK_MAXREPLAY ≤ l.tries then s.linkDown p 3
  else
    (s.bump (portBase p) F.NKL_REPLAY_CNT_COUNT 1).updLink p (fun l => { l with replay := from', tries := l.tries + 1 })

/-- A DATA cell, or a cell that cannot be read, is discarded: a NAK is due at the first one (R343). -/
def discardCell (s : State) (p : Nat) : State :=
  if (s.link p).nakOk && !s.isD2d p then s.updLink p (fun l => { l with nakDue := true, nakOk := false }) else s

/-! ### Lanes (R350-R353) -/

/-- A swap of an active lane with the spare begins in the sending direction, at a frame at least 64 ahead (R352). -/
def beginSwap (s : State) (p lane : Nat) (cmd : Option (Nat × Nat)) : State :=
  let sp := s.get (portBase p) F.NKL_STAT_SPARE_LANE
  s.updLink p (fun l => { l with swapTx := some ⟨lane, sp, (l.fnum + 64) % 65536, false, true, cmd⟩, txCalN := 0 })

/-- The port holds a spare lane of a link that is ISOLATED or UP. -/
def hasSpare (s : State) (p : Nat) : Bool := s.spared p && 2 ≤ s.linkState p

/-- A swap of the sending direction that another failed lane can still take the spare from: its frame has not come (R353;
DEDUCED, log 39). -/
def swapEarly (l : LinkPort) : Bool := match l.swapTx with
  | none => true
  | some x => let d := subMod 16 x.frame l.fnum; 0 < d && d ≤ 64

/-- The command that waits for the swap of a link ends DENIED: the spare is taken by a lane that failed (DEDUCED, log 39). -/
def denySwap (s : State) (p : Nat) : State :=
  match (s.link p).swapTx.bind (·.cmd) with
  | some (r, i) => s.finishCmd r i stDENIED 0
  | none => s

/-- LANE_FAIL (R353): a calibrated spare is swapped in at once, or the link goes down with reason SIGNAL. A lane that is being
swapped already is only noted; a spare that fails loses its calibration, unless a swap needs it (DEDUCED, log 39). -/
def laneFail (s : State) (p lane : Nat) : State :=
  let b := portBase p
  let l := s.link p
  let given := fun (g : LaneSwap → Bool) => (l.swapTx.map g).getD false
  if s.linkState p == 0 || s.isD2d p || !l.lock || 8 ≤ lane then s
  else if !s.hasSpare p then s.linkDown p 1
  else if given (fun x => x.lane == lane) && s.flag b F.NKL_STAT_SPARE_V then s.nklEvt p F.NKL_EVT_LANE_FAIL (openSt 21)
  else if lane == s.get b F.NKL_STAT_SPARE_LANE then
    if l.swapTx.isSome then s.linkDown p 1 else s.set b F.NKL_STAT_SPARE_V 0
  else if s.flag b F.NKL_STAT_SPARE_V && swapEarly l then
    ((s.denySwap p).beginSwap p lane none).nklEvt p F.NKL_EVT_LANE_FAIL (openSt 21)
  else s.linkDown p 1

/-- SPARE_ROTATE: every ROT × 1,024 turns (R352). -/
def spareRotate (s : State) (p : Nat) : State :=
  let rot := s.get (portBase p) F.NKL_CTL_ROT
  let l := s.link p
  if rot == 0 || !s.hasSpare p || l.swapTx.isSome then s
  else
    let s := s.passTo (l.rotAt + rot * 1024 * 2048)
    let sp := s.get (portBase p) F.NKL_STAT_SPARE_LANE
    let lane := if l.rotNext == sp then (sp + 1) % 8 else l.rotNext
    (s.updLink p (fun l => { l with rotAt := s.tmo, rotNext := (lane + 1) % 8 })).beginSwap p lane none

/-- SPARE_CALIBRATE: 2^20 symbols of the spare have been compared: the count of those that differed is shown, and a calibration
begins anew at the next marker (R351). `count` of them the way upset beyond those that differ in the frames received (log 39). -/
def spareCalibrate (s : State) (p count : Nat) : State :=
  let b := portBase p
  let l := s.link p
  if !s.hasSpare p || l.calSyms < 2 ^ 20 then s
  else
    let d := min (2 ^ 20) (l.calDiff + count)
    let s := s.updLink p (fun l => { l with calC := none, calSyms := 0, calDiff := 0 })
    (s.set b F.NKL_SPARE_ERR_COUNT d).set b F.NKL_STAT_SPARE_V (if d ≤ 16 then 1 else s.get b F.NKL_STAT_SPARE_V)

/-- LINK_SWAP (R352): status for one that does not start. -/
def swapLane (s : State) (p lane r i : Nat) : State :=
  if !s.hasSpare p || lane == s.get (portBase p) F.NKL_STAT_SPARE_LANE then s.finishCmd r i stBADCMD 0
  else if (s.link p).swapTx.isSome then s.finishCmd r i stDENIED 0
  else s.beginSwap p lane (some (r, i))

/-- One lane of a direction in the place of another, under its number. -/
def replaced (lanes : List (Nat × Nat)) (lane spare : Nat) : List (Nat × Nat) :=
  lanes.map (fun x => if x.2 == lane then (x.1, spare) else x)

/-- A swap of the sending direction ends: the lane given up is no longer driven with its own symbols and is the spare (R352). -/
def endSwap (s : State) (p : Nat) (x : LaneSwap) : State :=
  let b := portBase p
  let s := s.updLink p (fun l =>
    let ls := replaced l.txLanes x.lane x.spare
    { l with swapTx := none, txLanes := ls, txCopy := nextLane ls x.lane, txCalN := 0 })
  let s := (s.set b F.NKL_STAT_SPARE_LANE x.lane).set b F.NKL_STAT_SPARE_V 0
  let s := s.nklEvt p F.NKL_EVT_SWAP (openSt 21)
  match x.cmd with | some (r, i) => s.finishCmd r i stOK 0 | none => s

/-- A LANE cell (R352): it answers the swap of this port's sending direction, or begins one of the receiving direction. One that
the receiver has carried out is answered again. The lanes are the peer's physical lanes, each joined to the lane of the same
number here (DEDUCED, log 39). -/
def takeLane (s : State) (p : Nat) (x : Nat) : State :=
  let lane := bitsOf x 0 3
  let spare := bitsOf x 3 3
  let l := s.link p
  if bitAt x 22 then
    match l.swapTx with
    | some w => if w.lane == lane && w.spare == spare then s.endSwap p w else s
    | none => s
  else if l.rxSpare == lane && l.rxLanes.any (fun y => y.2 == spare) then
    s.updLink p (fun l => { l with swapRx := some ⟨lane, spare, bitsOf x 6 16, true, true, none⟩ })
  else if l.swapRx.any (fun w => w.lane == lane && w.spare == spare && !w.read) then s
  else
    let same := l.calC.isSome && l.calC == (l.rxLanes.find? (fun y => y.2 == lane)).map (·.1)
    s.updLink p (fun l => { l with
      swapRx := some ⟨lane, spare, bitsOf x 6 16, false, false, none⟩
      calC := if same then l.calC else none, calSyms := if same then l.calSyms else 0, calDiff := if same then l.calDiff else 0 })

/-- From frame F the receiver reads the spare in place of the lane, and its answer is due (R352). -/
def switchRx (s : State) (p : Nat) : State :=
  let l := s.link p
  match l.swapRx with
  | none => s
  | some w =>
    if w.read || 2 ^ 15 ≤ subMod 16 l.rxNum w.frame then s
    else
      let s := s.updLink p (fun l => { l with
        swapRx := some { w with read := true, due := true }, rxLanes := replaced l.rxLanes w.lane w.spare, rxSpare := w.lane
        calC := none, calSyms := 0, calDiff := 0 })
      (s.set (portBase p) F.NKL_STAT_SPARE_V 0).nklEvt p F.NKL_EVT_SWAP (openSt 21)

/-- The lane order that the markers of a frame show (R339, R350): every number once, and no lane more than 160 symbols behind the
first. Where two lanes carry one number, the spare is the one that has been it. -/
def alignLanes (lanes : List LaneSyms) (need spare : Nat) : Option (List (Nat × Nat)) :=
  let seen := fun (k : Nat) => (lanes[k]?).bind (fun x => x.mark.map (fun m => (m, k, x.delay)))
  let cand := (((upFrom 0 8).filter (· != spare)) ++ [spare]).filterMap seen
  let ls := (upFrom 0 8).filterMap (fun m => cand.find? (fun x => x.1 == m))
  let first := ls.foldl (fun a x => min a x.2.2) ((ls.head?.map (·.2.2)).getD 0)
  if ls.length == need && ls.all (fun x => x.2.2 ≤ first + 160) then some (ls.map (fun x => (x.1, x.2.1))) else none

/-- A receiver that has no lane order, or still trains, takes it from the markers before a frame (R350). -/
def alignRx (s : State) (p : Nat) (lanes : List LaneSyms) : State :=
  let l := s.link p
  if !l.rxLanes.isEmpty && s.linkState p != 1 then s
  else match alignLanes lanes (if s.spared p then 7 else 8) l.rxSpare with
    | none => s
    | some ls => s.updLink p (fun l => { l with rxLanes := ls, rxNum := 0, rxMiss := [], calC := none, calSyms := 0, calDiff := 0 })

/-- At a frame that markers come before, each lane that lacks its own is noted; the lanes that lack it the second time in
succession (R353). -/
def noteMarks (s : State) (p : Nat) (lanes : List LaneSyms) : List Nat × State :=
  let l := s.link p
  if l.rxNum % 1024 != 0 then ([], s)
  else
    let read := (upFrom 0 8).filter (fun k => l.rxLanes.any (fun x => x.2 == k) || (s.spared p && k == l.rxSpare))
    let lost := read.filter (fun k => ((lanes[k]?).bind (·.mark)).isNone)
    let twice := lost.filter (fun k => nget l.rxMiss 0 k == 1)
    (twice, s.updLink p (fun l => { l with rxMiss := (lost.filter (fun k => !twice.contains k)).map (fun k => (k, 1)) }))

/-- The symbols of the spare compared with those of the lane whose number its last marker carried, from that marker on, until
2^20 have been compared (R351). -/
def compareSpare (s : State) (p : Nat) (lanes : List LaneSyms) : State :=
  let l := s.link p
  if !s.spared p then s
  else
    let at' := fun (k : Nat) => ((lanes[k]?).map (·.syms)).getD []
    let mark := if l.rxNum % 1024 == 0 then (lanes[l.rxSpare]?).bind (·.mark) else none
    let fresh := mark.isSome && mark != l.calC && l.calSyms < 2 ^ 20
    let c := if fresh then mark else l.calC
    let n0 := if fresh then 0 else l.calSyms
    let d0 := if fresh then 0 else l.calDiff
    match c.bind (fun m => l.rxLanes.find? (fun x => x.1 == m)) with
    | none => s
    | some x =>
      let both := ((at' l.rxSpare).zip (at' x.2)).take (2 ^ 20 - n0)
      s.updLink p (fun l => { l with calC := c, calSyms := n0 + both.length, calDiff := d0 + (both.filter (fun y => y.1 != y.2)).length })

/-- The 1,088 symbols of a frame read from the lanes in turn (R339), and the receiver ready for the next frame. -/
def readFrame (s : State) (p : Nat) (lanes : List LaneSyms) : List Nat × State :=
  let l := s.link p
  let k := if l.rxNum % 1024 == 0 then 0 else l.rxPtr
  let ls := l.rxLanes.map (fun x => (((lanes[x.2]?).map (·.syms)).getD []).map (·.toNat))
  (gatherSyms 1088 k ls, s.updLink p (fun l => { l with rxPtr := (k + 1088) % max 1 ls.length, rxNum := (l.rxNum + 1) % 65536 }))

/-! ### The payloads -/

/-- A DATA cell taken in order: its bytes join the packet of its stream (R341, R343). A first cell for which no buffer is held, which
needs a peer that sends without a grant, is taken without one, as R343 says, where R85 would not accept it (DESIGN CHOICE, log 39). The packet takes its
invocation counter with its first cell, as its sender does, since a glint packet may come whole within a bulk one (R354). -/
def takeData (s : State) (p head : Nat) (pay : List Byte) : State :=
  let glint := bitAt head 4
  let eop := bitAt head 6
  let n := if eop then bitsOf head 8 8 else 244
  let s := s.updLink p (fun l => { l with exp := (l.exp + 1) % 1024, nakOk := true })
  let l := s.link p
  let cur : RxPkt := match (if bitAt head 5 then none else if glint then l.rxG else l.rxB) with
    | some x => x
    | none => ⟨glint, bitAt head 7, [], if glint then l.bufG.head? else l.bufB.head?, nget l.ctrs 0 (phaseIx true (bit (bitAt head 7)))⟩
  let x := { cur with bytes := cur.bytes ++ pay.take n }
  let s := if bitAt head 5 then
      let s := if s.flag (portBase p) F.NKL_CTL_ENC then s.spendCtr p true (bit (bitAt head 7)) else s
      s.updLink p (fun l => if glint then { l with bufG := l.bufG.drop 1 } else { l with bufB := l.bufB.drop 1 })
    else s
  s.updLink p (fun l =>
    let l := if eop then { l with whole := l.whole ++ [x] } else l
    if glint then { l with rxG := if eop then none else some x } else { l with rxB := if eop then none else some x })

/-- A CTRL cell (R345, R348, R349): grants, and an alignment sample. A count that would allow more packets than the stream's
buffers is refused; the buffers are counted as this port's own (DEDUCED, log 25). -/
def takeCtrl (s : State) (p : Nat) (x : Nat) : State :=
  let b := portBase p
  let l := s.link p
  let gB := bitsOf x 0 16
  let gG := bitsOf x 16 16
  let okB := subMod 16 gB l.stB ≤ s.get b F.NKL_CTL_BBUF
  let okG := subMod 16 gG l.stG ≤ s.get b F.NKL_CTL_GBUF
  let s := s.updLink p (fun l => { l with pgB := if okB then gB else l.pgB, pgG := if okG then gG else l.pgG })
  let s := if okB && okG then s else s.nklErr p F.NKL_ERR_CREDIT (openSt 22)
  let now := s.time19
  let s := s.offsetSample p (bitsOf x 51 19) (bitsOf x 70 19) (bitsOf x 32 19) now
  s.updLink p (fun l => { l with peerTtx := bitsOf x 32 19, peerArr := now })

/-- A BEACON (R46-R48, R348). -/
def takeBeaconCell (s : State) (p : Nat) (x : Nat) : State :=
  let b := portBase p
  let s := (s.set b F.NKL_STAT_PEER_LOCKED (bitsOf x 40 1)).set b F.NKL_STAT_PEER_STRATUM (bitsOf x 41 4)
  let s := s.updLink p (fun l => { l with peerTtx := bitsOf x 57 19, peerArr := s.time19 })
  s.takeBeacon p (bitsOf x 0 40) (bitAt x 40) (bitsOf x 41 4)

/-- The peer's RESP checks under this port's admission key (R358). -/
def respOk (s : State) (p resp chip port : Nat) : Bool :=
  let c := (s.link p).chal
  match s.keySlot (s.get (portBase p) F.NKL_CTL_KSLOT) with
  | none => false
  | some k => k.kind == 3 &&
    leNat (bytesOf (gcmTag (aesSchedule (natsOf (leBytes k.key 32))) (natsOf (leBytes c 12))
      (natsOf (leBytes (Config.admitData (BitVec.ofNat 128 c) (BitVec.ofNat 12 chip) (BitVec.ofNat 7 port)).toNat 19)) [])) == resp

/-- An ADMIT cell (R350, R358): with the one sent here it ends training, and while ISOLATED the peer is authenticated by it. -/
def takeAdmit (s : State) (p : Nat) (x : Nat) : State :=
  let b := portBase p
  let st := s.linkState p
  let chip := bitsOf x 0 12
  let port := bitsOf x 12 7
  let s := (s.set b F.NKL_PEER_CHIP_ID chip).set b F.NKL_PEER_PORT port
  let s := (s.set b F.NKL_STAT_PEER_LOCKED (bitsOf x 19 1)).set b F.NKL_STAT_PEER_STRATUM (bitsOf x 20 4)
  let s := s.updLink p (fun l => { l with
    pEpoch := bitsOf x 27 16, pFlags := bitsOf x 24 3, pTxic := bitsOf x 43 64, pChal := some (bitsOf x 107 128) })
  if st == 1 then (if (s.link p).admSent then s.isolated p else s)
  else if st != 2 then s
  else
    let auth := s.flag b F.NKL_CTL_AUTH
    let enc := s.flag b F.NKL_CTL_ENC
    let keyed := !enc || ((s.phaseKey p false (s.get b F.NKL_STAT_KPH_TX)).isSome && (s.phaseKey p true (s.get b F.NKL_STAT_KPH_RX)).isSome)
    let ok := bitAt x 24 == s.flag b F.NKL_CTL_SPARE && bitAt x 25 == enc && keyed &&
      (if auth then bitAt x 26 && s.respOk p (bitsOf x 235 128) chip port else !bitAt x 26)
    let s := s.updLink p (fun l => { l with authOk := ok })
    if ok then s else (s.nklErr p F.NKL_ERR_AUTH stDENIED).violation 4 p

/-- A good cell of 256 bytes (R340, R342, R343, R357); one of a reserved type is counted as bad and ignored. -/
def goodCell (s : State) (p : Nat) (c : List Byte) : State :=
  let head := leNat (c.take 8)
  let pay := (c.drop 8).take 244
  let x := leNat pay
  let st := s.linkState p
  let type := bitsOf head 0 4
  let a := bitsOf head 26 10
  if 5 < type then s.nklErr p F.NKL_ERR_CRC (openSt 22)
  else
  let s := if bitAt head 36 then s.takeAck p a else s
  let s := if bitAt head 36 && bitAt head 37 then s.startReplay p (some a) else s
  if s.linkState p != st then s
  else if type == 1 then
    if st == 3 then (if s.isD2d p || bitsOf head 16 10 == (s.link p).exp then s.takeData p head pay else s.discardCell p)
    else if st == 2 && bitAt head 5 then s.bump (portBase p) F.NKL_DISC_CNT_COUNT 1
    else s
  else if type == 2 then (if 2 ≤ st then s.takeCtrl p x else s)
  else if type == 3 then (if 2 ≤ st then s.takeBeaconCell p x else s)
  else if type == 4 then s.takeAdmit p x
  else if type == 5 then (if 2 ≤ st then s.takeLane p x else s)
  else s

/-- A cell of a good frame: its CRC is checked (R340, R368). -/
def takeCell (p : Nat) (s : State) (c : List Byte) : State :=
  if leNat (c.drop 252) == crc32 (c.take 252) then s.goodCell p c
  else
    let s := s.nklErr p F.NKL_ERR_CRC (openSt 22)
    if s.isD2d p then s.linkDown p 3 else s.discardCell p

/-- A frame read from the lanes in its order: its codewords decoded and its cells taken (R339, R344), the cells once 1,024 good
frames have come (R350). -/
def takeFrame (s : State) (p : Nat) (sy : List Nat) : State :=
  let b := portBase p
  match frameDecode sy with
    | none =>
      let s := ((s.bump b F.NKL_UNCOR_CNT_COUNT 1).nklErr p F.NKL_ERR_FEC_UNCOR (openSt 22)).countSeverity 2 1
      (s.updLink p (fun l => { l with good := 0 })).discardCell p
    | some (bytes, n) =>
      let s := if n == 0 then s else (s.bump b F.NKL_CORR_CNT_COUNT n).countSeverity 1 n
      let s := s.updLink p (fun l => { l with good := min 1024 (l.good + 1), lastGood := s.tmo, rxNum := (leNat (bytes.take 2) + 1) % 65536 })
      if s.linkState p == 1 && (s.link p).good < 1024 then s
      else (upFrom 0 5).foldl (fun s k => if s.linkState p == 0 then s else takeCell p s ((bytes.drop (5 + 256 * k)).take 256)) s

/-- FRAME_RECEIVE: a frame of a Nuoka Link port as its lanes bring it (R339), or at a die-to-die port one cell as its 256 bytes,
one in the low bits of each symbol of the first lane (R368; DESIGN CHOICE, log 26). A frame that comes before the lanes are in order
is not read. -/
def frameReceive (s : State) (p : Nat) (lanes : List LaneSyms) : State :=
  if s.linkState p == 0 || !(s.link p).lock || (s.link p).idle.isSome then s
  else if s.isD2d p then
    let s := s.updLink p (fun l => { l with lastGood := s.tmo })
    takeCell p s (((((lanes[0]?).map (·.syms)).getD []).take 256).map (·.setWidth 8))
  else
    let s := s.alignRx p lanes
    if (s.link p).rxLanes.isEmpty then s
    else
      let m := (s.switchRx p).noteMarks p lanes
      let r := (m.2.compareSpare p lanes).readFrame p lanes
      m.1.foldl (fun s k => s.laneFail p k) (r.2.takeFrame p r.1)

/-! ### Training (R350, R357) -/

/-- A port begins to bring its link up (R350): fresh challenge, numbers from zero. -/
def startTraining (s : State) (p : Nat) : State :=
  let l := s.link p
  let s := (s.setLinkState p 1).setMask p true
  let sp := s.get (portBase p) F.NKL_STAT_SPARE_LANE
  let ls := lanesBut (if s.spared p then some sp else none)
  let s := s.setLink p { LinkPort.reset with
    ctrs := l.ctrs, salts := l.salts, fnum := l.fnum, whole := l.whole, began := s.tmo, lastGood := s.tmo, admitAt := s.cyc
    rotAt := s.tmo, rxSpare := sp, txLanes := ls, txCopy := nextLane ls sp, chal := (Config.freshChallenge (2 * s.free)).toNat }
  s.drawFree

/-- Lanes of a port that trains (R350, R351): all eight, or seven and a spare, the lane without lock or, where all have it, the lane
that has been the spare (DEDUCED, log 39). -/
def noteLanes (s : State) (p lanes : Nat) : State :=
  let b := portBase p
  if s.isD2d p then s
  else if s.flag b F.NKL_CTL_SPARE then
    let sp := ((upFrom 0 8).find? (fun k => !bitAt lanes k)).getD (s.get b F.NKL_STAT_SPARE_LANE)
    let ls := lanesBut (some sp)
    ((s.set b F.NKL_STAT_LANES 7).set b F.NKL_STAT_SPARE_LANE sp).updLink p (fun l => { l with
      rxSpare := sp, txLanes := ls, txPtr := 0, txCopy := nextLane ls sp, txCalN := 0, rotNext := (sp + 1) % 8 })
  else s.set b F.NKL_STAT_LANES 8

/-- PHY_LOCK: lock on at least seven lanes with a spare, or on all eight; of a die-to-die port, that its adapter is Active
(R350, R452). -/
def phyLock (s : State) (p lanes : Nat) : State :=
  let n := ((upFrom 0 8).filter (bitAt lanes)).length
  let need := if s.isD2d p then 0 else if s.flag (portBase p) F.NKL_CTL_SPARE then 7 else 8
  if s.linkState p != 1 || (s.link p).idle.isSome || n < need || (s.link p).lock then s
  else (s.updLink p (fun l => { l with lock := true, good := 0, lastGood := s.tmo })).noteLanes p lanes

/-- ADMIT_SEND: every 1,024 cycles while training ends and while ISOLATED (R358). -/
def admitSend (s : State) (p : Nat) : State :=
  let l := s.link p
  let st := s.linkState p
  if st == 2 || (st == 1 && l.lock && (s.isD2d p || l.good == 1024)) then
    let s := s.passCyc (l.admitAt + 1024)
    s.updLink p (fun l => { l with admDue := true, admitAt := s.cyc })
  else s

/-- TRAINING_TIMEOUT: not ISOLATED within 2,048 turns (R350): electrical idle, then training again. -/
def trainingTimeout (s : State) (p : Nat) : State :=
  let l := s.link p
  if s.linkState p != 1 || l.idle.isSome then s
  else
    let s := s.passTo (l.began + 2048 * 2048 + 1)
    s.updLink p (fun l => { l with idle := some s.tmo, lock := false, good := 0 })

/-- LINK_IDLE_END: 1,024 notches of electrical idle are over; the port trains again while EN is 1 (R350, R360). -/
def idleEnd (s : State) (p : Nat) : State :=
  match (s.link p).idle with
  | none => s
  | some t =>
    let s := s.passTo (t + 1024 + 1)
    if s.flag (portBase p) F.NKL_CTL_EN then s.startTraining p else s.updLink p (fun l => { l with idle := none })

/-! ### Timers (R344, R360) -/

/-- REPLAY_TIMEOUT: the oldest held cell has been held for RTMO cycles without an ACK that frees any (R344). -/
def replayTimeout (s : State) (p : Nat) : State :=
  match (s.link p).held with
  | [] => s
  | h :: _ => (s.passCyc (h.at' + s.get (portBase p) F.NKL_LINK_RTMO)).startReplay p none

/-- LINK_DEAD: no good frame for DEAD notches (R360). -/
def linkDead (s : State) (p : Nat) : State :=
  if s.linkState p < 2 then s
  else (s.passTo ((s.link p).lastGood + s.get (portBase p) F.NKL_LINK_DEAD + 1)).linkDown p 2

/-! ### The adapter of a die-to-die port -/

/-- FDI_ERROR: an adapter state other than Active, or pl_error (R452). -/
def fdiError (s : State) (p : Nat) : State :=
  if !s.isD2d p then s
  else
    let s := s.updLink p (fun l => { l with lock := false })
    s.linkDown p 1

/-! ### Admission (R359) -/

/-- LINK_ADMIT: its status, and the port UP where it is accepted. -/
def linkAdmit (s : State) (p epoch : Nat) : Nat × State :=
  let b := portBase p
  let s := s.set b F.NKL_LEPOCH_EPOCH epoch
  let l := s.link p
  if s.linkState p != 2 || !l.authOk || !s.flag b F.NKL_STAT_PEER_LOCKED || !s.flag 0 F.SPN_STAT_LOCKED || l.pEpoch != epoch ||
      s.get b F.NKL_PEER_CHIP_ID == 0xFFF || s.flag 0 F.KEY_STAT_SEALED then (stDENIED, s)
  else
    let s := (s.setLinkState p 3).setMask p false
    let s := s.updLink p (fun l => { l with
      ctrs := mapSet l.ctrs 0 (phaseIx true (s.get b F.NKL_STAT_KPH_RX)) l.pTxic, ctrlAt := s.tmo })
    (stOK, (s.nklEvt p F.NKL_EVT_ADMITTED (openSt 21)).grant' p)

/-! ### Register writes (R350, R368, R370) -/

/-- NKL_CTL_WRITE: EN brings the link up or down; the other fields change only while DOWN. -/
def nklCtlWrite (s : State) (p data : Nat) : Nat × State :=
  let b := portBase p
  let a := b + 0x6000
  let old := (s.word a).toNat
  let new := data % 2 ^ 27
  if s.isD2d p && bitsOf new 1 3 != 0 then (stBADCMD, s)
  else
    let down := s.linkState p == 0
    let other := bitsOf new 1 26 != bitsOf old 1 26
    let st := if !down && other then stDENIED else stOK
    let s := s.setWord a (BitVec.ofNat 32 (if down then new else putBits old 0 1 (bitsOf new 0 1)))
    let en := bitAt new 0
    if en && !bitAt old 0 && (s.link p).idle.isNone then (st, if down then s.startTraining p else s)
    else if !en && bitAt old 0 then
      let s := s.linkDown p 5
      (st, s)
    else (st, s)

/-- A write of NKL_KEY: a phase that names another slot has its key installed, and its counter starts at 0 (R354). -/
def nklKeyWrite (s : State) (p data : Nat) : State :=
  let a := portBase p + 0x6014
  let old := (s.word a).toNat
  let s := s.setWord a (BitVec.ofNat 32 (data % 65536))
  (upFrom 0 4).foldl (fun s i =>
    if bitsOf old (4 * i) 4 == bitsOf data (4 * i) 4 then s
    else s.updLink p (fun l => { l with ctrs := mapDel l.ctrs i, salts := mapDel l.salts i })) s

end State

/-! ### Rows -/

/-- Runs an effect at a link port: nothing happens where the build has none (R3, log 35), or its link layer does not run. -/
def atLink (p : Nat) (s : State) (f : State → State) : Host.Outcome State Fault Refusal :=
  act (s.build.isLink p && s.linkOn p) s f

end Sys2Proof.Machine
end

