-- ==== Sys2Proof/Machine/KeyStore.lean ====
section
/-! DEFINITION. The Key Store: KEY_LOAD, KEY_ERASE, tampering, the fuse key and the lock (R433-R437, R440, R456). -/
namespace Sys2Proof.Machine
namespace State

/-- The fuse key, and whether its sampled parity fails (R456). -/
def fuseKey (s : State) : List Nat := natsOf (leBytes s.fuse 32)
def fuseBad (s : State) : Bool := (upFrom 0 32).any (fun i => parity (bitsOf s.fuse (8 * i) 8) 8 != bitAt s.fuse (256 + i))

/-- A slot is named by a phase or as the admission key of a port that is not DOWN (R434). -/
def slotNamed (s : State) (k : Nat) : Bool :=
  s.linkPorts.any (fun p => s.linkState p != 0 &&
    (s.get (portBase p) F.NKL_CTL_KSLOT == k || (upFrom 0 4).any (fun i => bitsOf (s.word (portBase p + 0x6014)).toNat (4 * i) 4 == k)))

/-- KEY_LOAD starts: SLOT, KIND, MAPP, SRC. The parity of the fuse key is checked at every one (R434, R456). -/
def runKeyLoad (r : Nat) (s : State) (c : Cmd) : State :=
  let mapp := c.par 2
  let v := s.flag 0 F.KEY_STAT_FUSE_V
  let n := if v then 48 else 40
  let s' := if s.fuseBad then s.violation 1 (c.par 0) else s
  if !s.srcOk mapp then s'.finishCmd r c.idx stBADCMD 0
  else if s.slotNamed (c.par 0) || (!v && !s.flag 0 F.KEY_CTL_PLAIN) || (v && s.fuseBad) then s'.finishCmd r c.idx stDENIED 0
  else s'.srcRead r c.idx mapp (c.par 3) n 0

/-- The blob of a KEY_LOAD is here. -/
def keyParam (s : State) (r : Nat) (c : Cmd) (t : Txn) : State :=
  let plain := if t.len == 48 then keyUnwrap s.fuseKey (natsOf t.bytes) else some (natsOf t.bytes)
  let bad := (s.finishCmd r c.idx stDENIED 0).violation 2 (c.par 0)
  if t.st != stOK then s.finishCmd r c.idx t.st 0
  else match plain with
    | none => bad
    | some l =>
      let x := leNat (bytesOf l)
      if bitsOf x 288 8 != c.par 1 || bitsOf x 296 8 != c.par 0 then bad
      else (s.putKey ⟨c.par 0, c.par 1, bitsOf x 0 256, bitsOf x 256 32⟩).finishCmd r c.idx stOK 0

/-- KEY_ERASE: SLOT (R434). -/
def runKeyErase (r : Nat) (s : State) (c : Cmd) : State :=
  if s.slotNamed (c.par 0) then s.finishCmd r c.idx stDENIED 0
  else (s.putKey ⟨c.par 0, 0, 0, 0⟩).finishCmd r c.idx stOK 0

/-- SEC_TAMPER: the tamper input is asserted (R437, R440). While RST_N is low only the slots clear, and the violation waits for
its release. Where the clock has stopped, the slots clear under policy 2 or 3, and nothing follows, since fclk does not run again (R412). -/
def tamper (s : State) : State :=
  let s := s.set 0 F.KEY_STAT_TAMPER 1
  if s.boot == 1 || (s.boot == 3 && 2 ≤ bitsOf (s.get 0 F.KEY_POLICY_POL) 0 2) then ({ s with keys := [] }).noteKeys
  else if s.boot == 3 then s
  else
    let s := s.violation 0 0
    if bitsOf (s.get 0 F.KEY_POLICY_POL) 0 2 < 2 then s
    else
      let l := s.rings.flatMap (fun rc => (rc.2.filter (fun c => c.opc == 0x68 && c.stage == .running)).map (fun c => (rc.1, c.idx)))
      l.foldl (fun s x => s.finishCmd x.1 x.2 stDENIED 0) s

/-- FUSE_V_FALL: SEC_FK_VALID falls (R436). -/
def fuseFall (s : State) : State :=
  if s.flag 0 F.KEY_STAT_FUSE_V then (s.set 0 F.KEY_STAT_FUSE_V 0).violation 1 0 else s

/-- KEY_LOCK: a write of 1 to KEY_LOCK.LOCK (R435). -/
def lockKeys (s : State) : State := s.set 0 F.KEY_LOCK_LOCK 1

end State
end Sys2Proof.Machine
end

