-- ==== Sys2Proof/Machine/HdsUnits.lean ====
section
/-! DEFINITION. The Headstock commands that act on collective engines (R257, R259, R276), on links (R352, R356, R359, R360), on
the Lathe plane (R170-R174) and on the counters (R424). -/
namespace Sys2Proof.Machine
namespace State

/-! ### Collectives -/

/-- Runs a command at a collective engine: a Bowl port block of Configuration A whose domain runs (R254). -/
def atEngine (r : Nat) (s : State) (c : Cmd) (f : State → State) : State :=
  let p := c.par 0
  if s.build.isS || !s.build.isBowlPort p then s.finishCmd r c.idx stBADCMD 0
  else if !s.portOn p then s.finishCmd r c.idx stDOMAIN_OFF 0
  else f s

/-- COL_GROUP_SET starts: PB, G, MAPP, REC. -/
def runGroupSet (r : Nat) (s : State) (c : Cmd) : State :=
  s.atEngine r c (fun s =>
    if !s.srcOk (c.par 2) then s.finishCmd r c.idx stBADCMD 0 else s.srcRead r c.idx (c.par 2) (c.par 3) 64 0)

/-- COL_GROUP_SET: 0 its record is here, 1 its own member-list entry (R257). -/
def groupParam (s : State) (r : Nat) (c : Cmd) (step : Nat) (t : Txn) : State :=
  let p := c.par 0
  let g := c.par 1
  let x := if step == 0 then leNat t.bytes else (c.data[0]?).getD 0
  let st := if t.st != stOK then t.st else s.groupCheck p g x c.force
  -- a failed read of the member list (R279)
  let s := if step == 1 && t.st != stOK then s.colErr p F.COL_ERR_MLIST t.st (grGroup x) else s
  if st != stOK then s.finishCmd r c.idx st 0
  else if step == 0 then (s.keep r c [x]).ownRead (0xF00 + p) (grCtx x) (grMap x) (grMlist x + 4 * grQ x) 4 (.param r c.idx 1)
  else if leNat t.bytes % 2 ^ 24 != s.engineId p then s.finishCmd r c.idx stBADCMD 0
  else (s.groupSet p g x).finishCmd r c.idx stOK 0

/-- COL_ISSUE starts: PB, MAPP, DESC. -/
def runColIssue (r : Nat) (s : State) (c : Cmd) : State :=
  s.atEngine r c (fun s =>
    if !s.srcOk (c.par 1) then s.finishCmd r c.idx stBADCMD 0 else s.srcRead r c.idx (c.par 1) (c.par 2) 64 0)

/-- The descriptor of a COL_ISSUE is here (R259, R375). -/
def issueParam (s : State) (r : Nat) (c : Cmd) (t : Txn) : State :=
  let p := c.par 0
  let d := leNat t.bytes
  if t.st != stOK then s.finishCmd r c.idx t.st 0
  else match s.recOf p (cdGroup d) with
    | some g =>
      if grJob g.bits != s.ringJob r then s.refuseJob r c
      else let a := s.colIssue p d; a.2.2.finishCmd r c.idx a.1 a.2.1
    | none => let a := s.colIssue p d; a.2.2.finishCmd r c.idx a.1 0

/-- COL_PEER_GONE: PB, CHIP. It completes when the member lists that it must read have been read (R276). -/
def runPeerGone (r : Nat) (s : State) (c : Cmd) : State :=
  s.atEngine r c (fun s =>
    let s := s.colDepart (c.par 0) (c.par 1) (some (r, c.idx))
    if s.scans.any (fun k => k.cmd == some (r, c.idx)) then s else s.finishCmd r c.idx stOK 0)

/-! ### Links -/

/-- Runs a command at a link port whose link layer runs. -/
def atLinkCmd (r : Nat) (s : State) (c : Cmd) (f : State → Nat → State) : State :=
  let p := c.par 0
  if !s.build.isLink p then s.finishCmd r c.idx stBADCMD 0
  else if !s.linkOn p then s.finishCmd r c.idx stDOMAIN_OFF 0
  else f s p

/-- LINK_ADMIT: PORT, EPOCH. A seal refuses it whatever the port's state (R437). -/
def runLinkAdmit (r : Nat) (s : State) (c : Cmd) : State :=
  if s.build.isLink (c.par 0) && s.flag 0 F.KEY_STAT_SEALED then s.finishCmd r c.idx stDENIED 0
  else s.atLinkCmd r c (fun s p => let a := s.linkAdmit p (c.par 1); a.2.finishCmd r c.idx a.1 0)
/-- LINK_DOWN: PORT. -/
def runLinkDown (r : Nat) (s : State) (c : Cmd) : State :=
  s.atLinkCmd r c (fun s p => (s.linkDown p 5).finishCmd r c.idx stOK 0)
/-- LINK_SWAP: PORT, LANE. -/
def runLinkSwap (r : Nat) (s : State) (c : Cmd) : State :=
  s.atLinkCmd r c (fun s p => s.swapLane p (c.par 1) r c.idx)
/-- LINK_REKEY: PORT, DIR, KSLOT, SSLOT. -/
def runLinkRekey (r : Nat) (s : State) (c : Cmd) : State :=
  s.atLinkCmd r c (fun s p => let a := s.rekey p (c.par 1 == 1) (c.par 2) (c.par 3); a.2.finishCmd r c.idx a.1 0)

/-! ### The Lathe plane -/

/-- LTH_SWAP: NI, CTX, TURN (R171). -/
def runLthSwap (r : Nat) (s : State) (c : Cmd) : State :=
  let st := s.turnCheck (c.par 2)
  if !s.build.epBuilt (c.par 0) || c.par 0 == 0xF7E then s.finishCmd r c.idx stBADCMD 0
  else if s.flag 0 F.LTH_STAT_SWAP_PEND then s.finishCmd r c.idx stDENIED 0
  else if st != stOK then s.finishCmd r c.idx st 0
  else s.set 0 F.LTH_STAT_SWAP_PEND 1

end State
end Sys2Proof.Machine
end

