-- ==== Sys2Proof/Machine/ScaleOut.lean ====
section
/-! DEFINITION. Scale-out packets at the exit and entry port blocks (R79-R86), and end-to-end retransmission (R361-R366). -/
namespace Sys2Proof.Machine

/-- A WRITE, READ or SEND that is not multicast: its reply acknowledges it (R362). -/
def byReply (pk : Pkt) : Bool :=
  (pk.hdr.ptype == tWRITE || pk.hdr.ptype == tREAD || pk.hdr.ptype == tSEND) && classOf pk.hdr.vcn != 1
/-- A REDUCE, or a multicast: an E2E acknowledgement acknowledges it (R362). -/
def byE2e (pk : Pkt) : Bool :=
  pk.hdr.ptype == tREDUCE || ((pk.hdr.ptype == tWRITE || pk.hdr.ptype == tSEND) && classOf pk.hdr.vcn == 1)
/-- A reply, a NACK or a credit return. -/
def isReply (pk : Pkt) : Bool := 8 ≤ pk.hdr.ptype && pk.hdr.ptype ≤ 11
/-- An E2E acknowledgement (R364). -/
def isE2eAck (h : Hdr) : Bool := h.ptype == tWACK && h.job == 0x3FE && h.chan == 0x3FF
/-- A reply, or the notification of a sync unit, that began on this die and leaves it: its hop list comes from the exit port block's
route table (R77, R78). A credit update (UPD = 1) and an E2E acknowledgement bring the hop list of a path of their own (R330, R364). -/
def wantsHops (pk : Pkt) : Bool :=
  (pk.hdr.ptype == tRDATA || pk.hdr.ptype == tWACK || pk.hdr.ptype == tNACK || pk.hdr.ptype == tSYNC_NTF ||
    (pk.hdr.ptype == tCREDIT && !bitAt pk.hdr.addr 33)) &&
  pk.ext.port == 127 && !isE2eAck pk.hdr
/-- A packet of the glint stream of a link: class 3, and the SN types (R79, R341). -/
def glintStream (pk : Pkt) : Bool := pk.hdr.ptype == tSYNC_OP || pk.hdr.ptype == tSYNC_NTF || classOf pk.hdr.vcn == 3
/-- The key of a retransmit entry, packed for a memory access. -/
def RtxEnt.key (e : RtxEnt) : Nat := e.num + 4096 * (e.psn + 2 ^ 24 * e.src)

namespace State

/-! ### Leaving the die (R82) -/

/-- This port is the packet's origin, and holds packets of its class (R361, R362). -/
def holds' (s : State) (p : Nat) (pk : Pkt) : Bool :=
  epChip pk.ext.src == s.chip && pk.ext.psn / 2 ^ 17 == p && (byReply pk || byE2e pk)

/-- Retransmit entries of a port in use. -/
def rtxOf (s : State) (p : Nat) : List RtxEnt := s.rtx.filter (fun e => e.port == p)

/-- NKL_RTX_STAT as the entries of the port give it. -/
def noteRtx (s : State) (p : Nat) : State :=
  (s.set (portBase p) F.NKL_RTX_STAT_HELD (s.rtxOf p).length).set (portBase p) F.NKL_RTX_STAT_INREG
    ((s.rtxOf p).filter (fun e => 2 ≤ e.region && e.region ≤ 4)).length

/-- A packet is handed to the link, or, where the port is not UP, discarded and counted, or left to its retransmit entry
(R341, R357, R360). -/
def sendOn (s : State) (p : Nat) (pk : Pkt) (buf : Option Nat) (held : Bool) : State :=
  let pk := if pk.bad.isEmpty then pk else { pk with hdr := pk.hdr.setFlag fPOISON true }
  if s.linkState p == 3 then
    s.updLink p (fun l => if glintStream pk then { l with qG := l.qG ++ [⟨pk, buf⟩] } else { l with qB := l.qB ++ [⟨pk, buf⟩] })
  else if held then s
  else (s.freePb p buf).bump (portBase p) F.NKL_DISC_CNT_COUNT 1

/-- Address of a retransmit entry's packet in the region (R363). -/
def rtxAddr (s : State) (p num : Nat) : Nat := s.get (portBase p) F.NKL_RTX_BASE_BASE * 65536 + 8256 * num

def updRtx (s : State) (e : RtxEnt) (f : RtxEnt → RtxEnt) : State :=
  { s with rtx := updFirst (fun x => x.port == e.port && x.key == e.key) f s.rtx }

/-- A held packet goes to the retransmit region where pool 2 of its port block has no more than LOW free buffers (R363). -/
def moveOut (s : State) (e : RtxEnt) : State :=
  let p := e.port
  let b := portBase p
  if e.region != 0 || s.get b F.NKL_RTX_CTL_LOW < s.blankFree (0xF00 + p) 2 then s
  else
    (s.updRtx e (fun x => { x with region := 1 })).bigWrite (0xF00 + p) 0 (s.get b F.NKL_RTX_CTL_MAPP) (s.rtxAddr p e.num)
      (scaleOutHeader e.pkt false ++ e.pkt.pay) (.rtx p e.key 0)

/-- Every packet that lies in a buffer looked at again (R363). -/
def moveAll (s : State) : State := s.rtx.foldl (fun s e => s.moveOut e) s

/-- An origin takes a packet into a retransmit entry and sends it (R363). -/
def holdPkt (s : State) (p : Nat) (pk : Pkt) (buf : Option Nat) : State :=
  let used := (s.rtxOf p).map (·.num)
  let num := ((upFrom 0 (used.length + 1)).find? (fun k => !used.contains k)).getD 0
  let s := { s with rtx := s.rtx ++ [(⟨p, num, pk.ext.src, pk.ext.psn, pk, buf, 0, p, none, 1, 1, s.tmo, false⟩ : RtxEnt)] }
  ((s.noteRtx p).sendOn p pk none true).moveAll

/-- A reply that goes back off the die, or a NACK of this port block, takes its hop list from the path set of the chip in
table set NKL_RTX_CTL.TSET (R78, R84): the first valid path through this port, else the first valid path. -/
def exitRoute (s : State) (x : ExitPkt) : State :=
  let p := x.port
  let ep := 0xF00 + p
  let t := s.get (portBase p) F.NKL_RTX_CTL_TSET
  let lost := fun (s : State) => (s.freePb p x.buf).bump (portBase p) F.NKL_DISC_CNT_COUNT 1
  if !s.tsetV t then lost s
  else match s.look ep 0 t true (epChip x.pkt.ext.dest) with
    | (none, s) => { s with exits := s.exits ++ [x] }
    | (some ps, s) =>
      let np := bitsOf ps 0 3
      let ws := (upFrom 1 np).map (pathWord ps)
      let own := ws.find? (fun w => bitsOf w 0 7 == p && s.pathOk w)
      match (if own.isSome then own else (s.validFrom np ws 0).bind (fun i => ws[i]?)) with
      | none => lost s
      | some w =>
        match s.routeBy ep x.pkt.ext.dest w (classOf x.pkt.hdr.vcn) with
        | none => lost s
        | some (rh, re) =>
          let e := { x.pkt.ext with ford := re.ford, hcnt := re.hcnt, hops := re.hops, port := 127 }
          let sn := planeOf x.pkt.hdr.ptype == some pSN
          let h := { x.pkt.hdr with
            vcn := if sn then 0 else rh.vcn, ord := if sn then 0 else rh.ord
            dcol := rh.dcol, drow := rh.drow, exitp := rh.exitp, scol := rh.scol, srow := rh.srow }
          let pk := { x.pkt with hdr := h, ext := e }
          if rh.exitp == p then s.sendOn p pk x.buf false
          else if sn then (s.freePb p x.buf).sendFrom ep pk
          else (segments pk (max 1 (ceilDiv pk.pay.length 2048))).foldl (fun s g => s.sendFrom ep g) (s.freePb p x.buf)

/-- Every packet that waits for a hop list looked at again. -/
def exitAll (s : State) : State :=
  let l := s.exits
  l.foldl (fun s x => s.exitRoute x) { s with exits := [] }

/-- A whole packet at its exit port block (R82, R363). -/
def exitWhole (s : State) (p : Nat) (pk : Pkt) (buf : Option Nat) : State :=
  if wantsHops pk then ({ s with exits := s.exits ++ [(⟨p, pk, buf⟩ : ExitPkt)] }).exitAll
  else if s.holds' p pk then s.holdPkt p pk buf
  else s.sendOn p pk buf false

/-- The packet that its segments make. -/
def joinSegs (l : List Pkt) : Pkt :=
  let n := l.length
  let seg := fun k => (l.find? (fun g => g.ext.seg == k))
  match seg 0 with
  | none => Pkt.bare Hdr.zero Ext.none
  | some g =>
    { g with
      pay := ((upFrom 0 n).map (fun k => ((seg k).map (·.pay)).getD [])).flatten
      bad := (upFrom 0 n).flatMap (fun k => (((seg k).map (·.bad)).getD []).map (fun i => i + 32 * k)) }

/-- An arrival on its way off the die that the exit port block can take: it belongs to a packet being put together, or
there is a buffer of pool 2 for it, and an entry where it is to be held (R82, R363). -/
def exitTakes (s : State) (p : Nat) (a : Arrival) : Bool :=
  !a.lt && s.leaving a.pkt &&
  (s.chip == 0xFFF || s.asms.any (fun x => x.port == p && x.src == a.pkt.ext.src && x.psn == a.pkt.ext.psn) ||
   ((s.allocIn (0xF00 + p) 2).1.isSome &&
    (!s.holds' p a.pkt || (s.rtxOf p).length + (s.asms.filter (fun x => x.port == p)).length < 4096)))

/-- SCALEOUT_EXIT: a segment joins its packet; with the last one the packet is transmitted (R82, R86). -/
def scaleoutExit (s : State) (p : Nat) : State :=
  match s.takeArrival (0xF00 + p) (s.exitTakes p) with
  | none => s
  | some (a, s) =>
    let pk := a.pkt
    if s.chip == 0xFFF then s.bump (portBase p) F.NKL_DISC_CNT_COUNT 1
    else
      let mine := fun (x : Asm) => x.port == p && x.src == pk.ext.src && x.psn == pk.ext.psn
      let r := match s.asms.find? mine with
        | some x => (x, s)
        | none => match s.allocIn (0xF00 + p) 2 with
          | (b, s) => ((⟨p, pk.ext.src, pk.ext.psn, [], b⟩ : Asm), s)
      let segs := r.1.segs.filter (fun g => g.ext.seg != pk.ext.seg) ++ [pk]
      let s := { r.2 with asms := r.2.asms.filter (fun x => !mine x) }
      if segs.length < max 1 (ceilDiv pk.ext.slen 2048) then { s with asms := s.asms ++ [{ r.1 with segs := segs }] }
      else s.exitWhole p (joinSegs segs) r.1.buf

/-! ### End-to-end retransmission (R363-R366) -/

/-- A retransmit entry freed. -/
def dropRtx (s : State) (e : RtxEnt) : State :=
  (({ s with rtx := s.rtx.filter (fun x => !(x.port == e.port && x.key == e.key)) }).freePb e.port e.buf).noteRtx e.port

/-- An origin gives a packet up with a status (R366). -/
def abandon (s : State) (e : RtxEnt) (st : Nat) : State :=
  let s := (s.dropRtx e).bump (portBase e.port) F.NKL_ABANDON_CNT_COUNT 1
  let s := s.report 0x12 (srcPort e.port) st (0xFF + 256 * e.port)
  if byReply e.pkt then s.sendFrom (0xF00 + e.port) (s.nackFor e.pkt st (s.posNode (0xF00 + e.port))) else s

/-- The path that the copies of an entry have used last: the first send's is found by what its packet took from it
(DEDUCED, log 27). -/
def lastPath (e : RtxEnt) (ws : List Nat) : Nat :=
  match e.path with
  | some i => i
  | none => ((upFrom 0 ws.length).find? (fun i =>
      let w := (ws[i]?).getD 0
      bitsOf w 0 7 == e.exit && bitsOf w 9 3 == e.pkt.ext.hcnt && bitsOf w 12 42 == e.pkt.ext.hops)).getD (ws.length - 1)

/-- A copy that is wanted is sent where its path and its bytes are here (R366). -/
def rtxTry (s : State) (e : RtxEnt) : State :=
  let p := e.port
  let ep := 0xF00 + p
  let b := portBase p
  let t := s.get b F.NKL_RTX_CTL_TSET
  if !e.want || e.region == 3 then s
  else if !s.tsetV t then s.abandon e stPEER_GONE
  else match s.look ep 0 t true (epChip e.pkt.ext.dest) with
    | (none, s) => s
    | (some ps, s) =>
      let np := bitsOf ps 0 3
      let ws := (upFrom 1 np).map (pathWord ps)
      match (if np == 0 then none else s.validFrom np ws ((lastPath e ws + 1) % np)) with
      | none => s.abandon e stPEER_GONE
      | some i =>
        if e.region == 2 then
          (s.updRtx e (fun x => { x with region := 3 })).bigRead ep 0 (s.get b F.NKL_RTX_CTL_MAPP) (s.rtxAddr p e.num)
            (48 + e.pkt.ext.slen) (.rtx p e.key 1)
        else match s.routeBy ep e.pkt.ext.dest ((ws[i]?).getD 0) (classOf e.pkt.hdr.vcn) with
          | none => s.abandon e stPEER_GONE
          | some (rh, re) =>
            let ext := { re with src := e.src, psn := e.psn, mepoch := e.pkt.ext.mepoch, slen := e.pkt.ext.slen }
            let mc := classOf e.pkt.hdr.vcn == 1
            let h := { e.pkt.hdr with
              vcn := if mc then e.pkt.hdr.vcn else rh.vcn, ord := if mc then e.pkt.hdr.ord else rh.ord
              dcol := rh.dcol, drow := rh.drow, exitp := rh.exitp, scol := rh.scol, srow := rh.srow }
            let pk := { e.pkt with hdr := h, ext := ext }
            let s := s.bump b F.NKL_RETX_CNT_COUNT 1
            let s := if rh.exitp == p then s.sendOn p pk none true
              else (segments pk (max 1 (ceilDiv pk.ext.slen 2048))).foldl (fun s g => s.sendFrom ep g) s
            s.updRtx e (fun x => { x with
              path := some i, exit := rh.exitp, sends := x.sends + 1, want := false
              region := if x.region == 4 then 2 else x.region
              pkt := if x.region == 4 then { x.pkt with pay := [], bad := [] } else x.pkt })

/-- Every copy that waits looked at again. -/
def rtxAll (s : State) : State := s.rtx.foldl (fun s e => s.rtxTry e) s

/-- An access to the retransmit region has ended (R363): a failed write leaves the packet in its buffer; a failed read
leaves this copy unsent (DESIGN CHOICE, log 27). -/
def rtxDone (s : State) (p key step : Nat) (t : Txn) : State :=
  match s.rtx.find? (fun e => e.port == p && e.key == key) with
  | none => s
  | some e =>
    if step == 0 then
      if t.st != stOK then s.updRtx e (fun x => { x with region := 5 })
      else
        ((s.freePb p e.buf).updRtx e (fun x => { x with region := 2, buf := none, pkt := { x.pkt with pay := [], bad := [] } })).noteRtx p
    else if t.st != stOK && t.st != stPOISON then s.updRtx e (fun x => { x with region := 2, want := false })
    else
      let s := s.updRtx e (fun x => { x with
        region := 4, pkt := { x.pkt with pay := t.bytes.drop 48, bad := if t.poison.isEmpty then [] else upFrom 0 (ceilDiv x.pkt.ext.slen 64) } })
      match s.rtx.find? (fun x => x.port == p && x.key == key) with
      | some x => s.rtxTry x
      | none => s

/-- E2E_ACK: an acknowledgement frees the entry that it names (R364). -/
def e2eAck (s : State) (p : Nat) : State :=
  match s.takeArrival (0xF00 + p) (fun a => isE2eAck a.pkt.hdr && !a.lt && !s.leaving a.pkt) with
  | none => s
  | some (a, s) =>
    match s.rtx.find? (fun e => e.port == p && e.psn == a.pkt.hdr.tag && e.src == a.pkt.hdr.aux % 2 ^ 24) with
    | some e => s.dropRtx e
    | none => s.nklErr p F.NKL_ERR_UNACK (openSt 22)

/-- The n-th retransmit entry of a port. -/
def rtxAt (s : State) (p num : Nat) : Option RtxEnt := s.rtx.find? (fun e => e.port == p && e.num == num)

/-- E2E_RETRANSMIT: RTO × (2^k − 1) notches after the first send, for the k-th copy, before the age limit (R366). -/
def e2eRetransmit (s : State) (p num : Nat) : State :=
  match s.rtxAt p num with
  | none => s
  | some e =>
    let at' := s.get (portBase p) F.NKL_RTX_CTL_RTO * (2 ^ e.k - 1)
    if e.want || s.get 0 F.NKL_E2E_CTL_KEEP - 1024 ≤ at' then s
    else
      let s := (s.passTo (e.first + at' + 1)).updRtx e (fun x => { x with want := true, k := x.k + 1 })
      match s.rtxAt p num with
      | some e => s.rtxTry e
      | none => s

/-- E2E_ABANDON: the packet's age reaches KEEP − 1,024 notches (R366). -/
def e2eAbandon (s : State) (p num : Nat) : State :=
  match s.rtxAt p num with
  | none => s
  | some e => (s.passTo (e.first + (s.get 0 F.NKL_E2E_CTL_KEEP - 1024) + 1)).abandon e stTIMEOUT

/-! ### Entering the die (R84, R85, R355, R364, R365) -/

/-- NKL_FILT_STAT as the filter gives it. -/
def noteFilt (s : State) : State := s.set 0 F.NKL_FILT_STAT_USED s.filt.length

/-- FILTER_EXPIRE: the k-th entry leaves KEEP notches after it was recorded (R365). -/
def filterExpire (s : State) (k : Nat) : State :=
  match s.filt[k]? with
  | none => s
  | some f =>
    let s := s.passTo (f.at' + s.get 0 F.NKL_E2E_CTL_KEEP + 1)
    ({ s with filt := s.filt.eraseIdx k }).noteFilt

/-- Where an entry port block places a packet (R84): column, row and EXITP with the extension left; none for a bad
route. -/
def placeEntry (s : State) (pk : Pkt) : Option ((Nat × Nat × Nat) × Ext) :=
  let b := s.build
  let e := pk.ext
  if 0 < e.hcnt then
    let h0 := bitsOf e.hops 0 7
    if b.isLink h0 then
      let a := (b.attach h0).getD (0, 0)
      some ((a.1, a.2, h0), { e with hcnt := e.hcnt - 1, hops := e.hops / 2 ^ 7 + 0x7F * 2 ^ 35 })
    else none
  else if epChip e.dest != s.chip then none
  else
    let i := epIndex e.dest
    if (i < 0xF00 && i < b.nodes) || (0xF00 ≤ i && i < 0xF7E && b.portKind (i - 0xF00) != 0) || (0xF80 ≤ i && i - 0xF80 < b.units) then
      some (dstPos b i, e)
    else none

/-- The limit of R80 on LEN of a scale-out packet. -/
def lenOver (pk : Pkt) : Bool :=
  let t := pk.hdr.ptype
  let limit := if t == tSYNC_OP || t == tSYNC_NTF then 0 else if classOf pk.hdr.vcn == 0 then 8192 else classMax (classOf pk.hdr.vcn)
  limit < pk.ext.slen

/-- The E2E acknowledgement that a destination chip's entry port block sends, on the glint class (R364). -/
def ackBack (s : State) (p : Nat) (src psn : Nat) : State :=
  let h := { Hdr.zero with ptype := tWACK, vcn := 6, job := 0x3FE, chan := 0x3FF, opc := stOK, tag := psn, aux := src }
  let f : FarReq := ⟨0xF00 + p, 0, s.get (portBase p) F.NKL_RTX_CTL_TSET, epChip src * 4096 + 0xF00 + psn / 2 ^ 17, 0,
    Pkt.bare h Ext.none, false, .nothing⟩
  State.routeAll { s with farq := s.farq ++ [f] }

/-- The acknowledgement sent on the die for a reply that has come from another chip (R364). -/
def ackHere (s : State) (p : Nat) (pk : Pkt) : State :=
  let o := pk.ext.psn / 2 ^ 17
  if !s.build.isLink o then s
  else
    let a := (s.build.attach o).getD (0, 0)
    let me := srcPos s.build (0xF00 + p)
    s.sendFrom (0xF00 + p) (Pkt.bare { Hdr.zero with
      ptype := tWACK, dcol := a.1, drow := a.2, exitp := o, scol := me.1, srow := me.2, job := 0x3FE, chan := 0x3FF
      opc := stOK, tag := pk.ext.psn, aux := pk.ext.dest, ts := s.ts } Ext.none)

/-- The segments of a packet injected in order (R82, R83, R85). -/
def injectSegs (s : State) (p : Nat) (pk : Pkt) : State :=
  let ep := 0xF00 + p
  if planeOf pk.hdr.ptype == some pSN then s.sendFrom ep { pk with hdr := { pk.hdr with len := 32 }, pay := [], bad := [] }
  else
    let add := pk.hdr.ptype == tWRITE || pk.hdr.ptype == tRDATA
    (upFrom 0 (max 1 (ceilDiv pk.ext.slen 2048))).foldl (fun s k =>
      let pay := (pk.pay.drop (2048 * k)).take 2048
      s.sendFrom ep {
        hdr := { pk.hdr with len := pay.length, addr := if add then (pk.hdr.addr + 2048 * k) % 2 ^ 48 else pk.hdr.addr }
        ext := { pk.ext with seg := k }
        pay := pay
        bad := if pk.hdr.flag fPOISON then upFrom 0 (ceilDiv pay.length 64) else [] }) s

/-- A packet of another chip that an entry port block does not place: every request is answered, one of the multicast class too,
and anything else discarded and counted (R84). -/
def refuseEntry (s : State) (p : Nat) (pk : Pkt) (st : Nat) : State :=
  if isRequest pk.hdr.ptype then
    let n := s.nackFor pk st (s.posNode (0xF00 + p))
    ({ s with exits := s.exits ++ [(⟨p, n, none⟩ : ExitPkt)] }).exitAll
  else s.bump (portBase p) F.NKL_DISC_CNT_COUNT 1

/-- The age of a packet exceeds `n` notches under R42. -/
def olderThan (s : State) (ts n : Nat) : Bool :=
  let age := subMod 16 s.ts ts
  n < age && age ≤ 32767

/-- A packet for this chip passes the stale check and the arrival filter (R365); what is to be injected. -/
def arrivalCheck (s : State) (p : Nat) (pk : Pkt) : Bool × State :=
  let b := portBase p
  if s.running && s.olderThan pk.hdr.ts (s.get 0 F.NKL_E2E_CTL_KEEP - 512) then
    (false, (s.nklErr p F.NKL_ERR_STALE (openSt 22)).bump b F.NKL_DISC_CNT_COUNT 1)
  else if !byE2e pk then (true, s)
  else if s.filt.any (fun f => f.src == pk.ext.src && f.psn == pk.ext.psn) then
    (false, (s.bump b F.NKL_DUP_CNT_COUNT 1).ackBack p pk.ext.src pk.ext.psn)
  else if 65536 ≤ s.filt.length then (false, s.nklErr p F.NKL_ERR_FILT_FULL (openSt 22))
  else (true, ({ s with filt := s.filt ++ [(⟨pk.ext.src, pk.ext.psn, s.tmo⟩ : FiltEnt)] }).noteFilt)

/-- A packet of SRC and PSN still lies in a send queue of a port block, or is on its way out of it. -/
def stillHere (s : State) (x : InjPkt) : Bool :=
  (upFrom 0 5).any (fun pl =>
    let link := s.epInject (0xF00 + x.port) pl
    ((mapGet s.sendq link).getD []).any (fun pk => pk.ext.xv == 1 && pk.ext.src == x.src && pk.ext.psn == x.psn) ||
    ((mapGet s.own link).bind (·.key)) == some (x.src, x.psn))

/-- A packet injected whole: its buffer is granted again, and an E2E acknowledgement is sent where it calls for one (R345, R364). -/
def injDone (s : State) (x : InjPkt) : State :=
  let s := (s.freePb x.port x.buf).grant' x.port
  if x.ack then s.ackBack x.port x.src x.psn else s

/-- Every packet on its way into the mesh looked at again. -/
def injAll (s : State) : State :=
  let done := s.injecting.filter (fun x => !s.stillHere x)
  done.foldl (fun s x => s.injDone x) { s with injecting := s.injecting.filter (fun x => s.stillHere x) }

/-- A packet placed and injected, with the acknowledgement that a reply calls for (R83, R84, R364); of one that is injected, whether
an E2E acknowledgement follows. -/
def enterPkt (s : State) (p : Nat) (pk : Pkt) : Option Bool × State :=
  let me := srcPos s.build (0xF00 + p)
  let pk := { pk with ext := { pk.ext with port := p }, hdr := { pk.hdr with scol := me.1, srow := me.2 } }
  let t := pk.hdr.ptype
  if (planeOf t).isNone || !classAllowed t (classOf pk.hdr.vcn) || !reduceLegal pk.hdr pk.ext.slen then
    -- R67: a reserved type, a class that the type does not allow, or the format of a REDUCE (R203, R224)
    (none, (s.bump (portBase p) F.NKL_DISC_CNT_COUNT 1).report 0xF (srcPort p) stBADCMD (0xFF + 256 * p))
  else if t == tCFG_RD || t == tCFG_WR || t == tCFG_RSP || lenOver pk then (none, s.refuseEntry p pk stBADCMD)
  else match s.placeEntry pk with
    | none => (none, s.refuseEntry p pk stROUTE)
    | some (at', e) =>
      let here := pk.ext.hcnt == 0
      let r := if here then s.arrivalCheck p pk else (true, s)
      if !r.1 then (none, r.2)
      else
        let s := r.2.injectSegs p { pk with ext := e, hdr := { pk.hdr with dcol := at'.1, drow := at'.2.1, exitp := at'.2.2 } }
        let update := pk.hdr.ptype == tCREDIT && bitAt pk.hdr.addr 33
        (some (here && byE2e pk), if here && isReply pk && !isE2eAck pk.hdr && !update then s.ackHere p pk else s)

/-- A packet whose tag fails (R355). -/
def tagFail (s : State) (p : Nat) : State :=
  let s := (s.bump (portBase p) F.NKL_TAG_CNT_COUNT 1).nklErr p F.NKL_ERR_TAG stDENIED
  let s := s.updLink p (fun l => { l with tags := l.tags + 1 })
  if 16 ≤ (s.link p).tags then s.linkDown p 4 else s

/-- A packet that came over the link opened (R354, R355): its header and payload, or none where its tag fails. The header's
ENC bit must be the port's ENC (DEDUCED, log 28). -/
def openPkt (s : State) (p : Nat) (x : RxPkt) : Option (Pkt × State) :=
  let hd := x.bytes.take 48
  let body := x.bytes.drop 48
  let r := ofScaleOut hd body
  let enc := s.flag (portBase p) F.NKL_CTL_ENC
  if r.2 != enc then none
  else if !enc then some ({ r.1 with pay := body.take r.1.ext.slen }, s)
  else match s.phaseKey p true (bit x.kph) with
    | none => none
    | some (w, salt, _) =>
      let iv := gcmIv salt x.ctr
      let ct := natsOf (body.take r.1.ext.slen)
      if bytesOf (gcmTag w iv (natsOf hd) ct) != (body.drop r.1.ext.slen).take 16 then none
      else some ({ r.1 with pay := bytesOf (gcmCrypt w iv ct) }, s)

/-- SCALEOUT_ENTRY: the next whole packet of a link is checked and enters the die (R84, R85). Its buffer is granted again when it has
been injected whole, or discarded (R345). -/
def scaleoutEntry (s : State) (p : Nat) : State :=
  match (s.link p).whole with
  | [] => s
  | x :: r =>
    let s := s.updLink p (fun l => { l with whole := r })
    let opened := s.openPkt p x
    let r := match opened with
      | none => (none, s.tagFail p)
      | some (pk, _) =>
        let s := s.updLink p (fun l => { l with tags := 0 })
        let s := if s.get (portBase p) F.NKL_STAT_KPH_RX == bit x.kph then s
          else (s.set (portBase p) F.NKL_STAT_KPH_RX (bit x.kph)).nklEvt p F.NKL_EVT_REKEY (openSt 21)
        if s.chip == 0xFFF then (none, s.bump (portBase p) F.NKL_DISC_CNT_COUNT 1)
        else
          let s := if classOf pk.hdr.vcn == 3 && planeOf pk.hdr.ptype != some pSN then s.glintTime p pk.hdr.ts else s
          let r := s.enterPkt p pk
          (r.1.map (fun ack => (⟨p, x.glint, pk.ext.src, pk.ext.psn, x.buf, ack⟩ : InjPkt)), r.2)
    match r.1 with
    | some i => State.injAll { r.2 with injecting := r.2.injecting ++ [i] }
    | none => (r.2.freePb p x.buf).grant' p

end State
end Sys2Proof.Machine
end

