-- ==== Sys2Proof/Machine/Domain.lean ====
section
/-! DEFINITION. Power domains: their parts and boundaries, router emptiness, isolation, loss of state, and lighting
(R26, R105, R117, R395, R400-R405, R313). -/
namespace Sys2Proof.Machine

namespace Build

/-- Nodes of a mesh domain. -/
def domNodes (b : Build) (d : Nat) : List Nat :=
  if d < b.nmesh then (upFrom 0 b.domh).flatMap (fun j => (upFrom 0 b.domw).map (fun i => b.unitNode d + j * b.cols + i)) else []
/-- Port blocks whose station side lies in a quadrant domain. -/
def domPorts (b : Build) (d : Nat) : List Nat := (b.stations.filter (fun x => b.portDom x.port == d)).map (·.port)
/-- Link ports whose port block or link layer lies in a domain. -/
def domLinks (b : Build) (d : Nat) : List Nat :=
  (b.stations.filter (fun x => x.kind != 1 && (b.portDom x.port == d || b.linkDom x.port == d))).map (·.port)
/-- Attach nodes of a port block's stations (R25). -/
def stationNodes (b : Build) (x : Station) : List Nat :=
  b.node x.col x.row :: (if x.pair then
    [if x.side == 1 || x.side == 3 then b.node x.col (x.row + 1) else b.node (x.col + 1) x.row] else [])

/-- The router ports on the boundary of a domain: node, port, the domain on the other side, and whether the router lies in the
domain (R402). -/
def edges (b : Build) (d : Nat) : List (Nat × Nat × Nat × Bool) :=
  ((b.domNodes d).flatMap (fun n => (upFrom 1 4).filterMap (fun p =>
    match b.neighbour n p with
    | some m => if b.nodeDom m == d then none else some (n, p, b.nodeDom m, true)
    | none =>
      let x := b.stationOn n p
      if x == 127 then none else some (n, p, if x == 126 then b.cfgDom else b.portDom x, true)))) ++
  (b.stations.filter (fun x => b.portDom x.port == d)).flatMap (fun x =>
    (b.stationNodes x).map (fun n => (n, x.side + 1, b.nodeDom n, false)))

/-- A domain lies in a half, a link group in each half in which a ring station of its ports attaches (R20, R416). -/
def domIn (b : Build) (d : Nat) (east : Bool) : Bool :=
  if d < b.nmesh then b.east (b.col (b.unitNode d)) == east
  else if d < b.nmesh + 4 then (b.halves && (d == b.quadDom 1 || d == b.quadDom 2)) == east
  else (b.stations.filter (fun x => x.kind != 1 && b.linkDom x.port == d)).any (fun x => b.east x.col == east)

/-- Domains on which the reset of a half acts, in index order (R416). -/
def halfDoms (b : Build) (east : Bool) : List Nat :=
  (upFrom 0 (b.nmesh + 4 + b.nlg)).filter (fun d => b.domIn d east)

end Build

namespace State

/-! ### Routers (R114, R118) -/

/-- RTR_STAT.EMPTY of a plane: no flit buffered and no packet in progress. -/
def planeEmpty (s : State) (n pl : Nat) : Bool :=
  !s.buf.any (fun e => e.1 / 8 / 30 == n && e.1 / 8 / 6 % 5 == pl) &&
  !s.own.any (fun e => e.1 < 0x100000 && e.1 / 30 == n && e.1 / 6 % 5 == pl)

/-- The combiner and the reflector of a node are empty. -/
def burlEmpty (s : State) (n : Nat) : Bool := !s.burl.any (fun e => e.node == n)
def reflEmpty (s : State) (n : Nat) : Bool := ((mapGet s.refl n).getD []).isEmpty

/-- What a drain waits for: QB, PB, SN, the combiner and the reflector (R114). -/
def drained (s : State) (n : Nat) : Bool :=
  s.planeEmpty n pQB && s.planeEmpty n pPB && s.planeEmpty n pSN && s.burlEmpty n && s.reflEmpty n

/-- RTR_STAT (R118): SEAMF shows a seam port of the node fenced under R21. -/
def rtrStat (s : State) (n : Nat) : Nat :=
  packFields ((upFrom 0 5).map (fun pl => (1, bit (s.planeEmpty n pl))) ++
    [(1, bit (s.burlEmpty n)), (1, bit (s.reflEmpty n)), (1, bit ((upFrom 1 4).any (fun p => s.seamFenced n p)))])

/-! ### Output states across a boundary -/

/-- State of an output: DISABLED stays. -/
def setOut (s : State) (n port v : Nat) : State := if s.rtrOut n port == 4 then s else s.setRtrOut n port v

/-- State of the output that drives input `port` of node n: the neighbour's, or the station's inward path (R114). -/
def setFacing (s : State) (n port v : Nat) : State :=
  match s.build.neighbour n port with
  | some m => if 1 ≤ port && port ≤ 4 then s.setOut m (Build.opposite port) v else s
  | none => [pQB, pPB, pSN].foldl (fun s pl => { s with injSt := mapSet s.injSt 0 (epLink n pl port) v }) s

/-- The same, read: for an inward path that of QB. -/
def facing (s : State) (n port : Nat) : Nat :=
  match s.build.neighbour n port with
  | some m => s.rtrOut m (Build.opposite port)
  | none => nget s.injSt 0 (epLink n pQB port)

/-- RTR_STATE of a node: 0 OPEN, 1 DRAINING, 2 FENCED (R113). -/
def rtrState (s : State) (n : Nat) : Nat := s.get (nodeBase n) F.RTR_STATE_STATE

/-- The state that the output from node n toward `port` is given when it is opened: a fenced or draining router at either end
keeps what its drain has set (R114). -/
def openOut (s : State) (n port : Nat) : Nat :=
  let far := match s.build.neighbour n port with | some m => s.rtrState m | none => 0
  if s.rtrState n == 2 || far == 2 then 2 else if far == 1 then 1 else 0
/-- The same for the output that drives input `port` of node n. -/
def openFacing (s : State) (n port : Nat) : Nat :=
  let far := match s.build.neighbour n port with | some m => s.rtrState m | none => 0
  if s.rtrState n == 2 || far == 2 then 2 else if s.rtrState n == 1 then 1 else 0

/-! ### Rejoins (R117) -/

/-- Every credit counter of a link at its buffer size. -/
def fullCredits (s : State) (link : Nat) : State :=
  { s with
    owed := s.owed.filter (fun e => e.1 / 8 != link)
    crw := s.crw.filter (fun e => e.1 / 8 != link) }

/-- The failure bits of a router port cleared on every plane. -/
def clearFail (s : State) (n port : Nat) : State :=
  (upFrom 0 5).foldl (fun s pl =>
    let s := s.set (nodeBase n) F.RTR_FAIL_IN_FAIL (putBits (s.get (nodeBase n) F.RTR_FAIL_IN_FAIL) (5 * pl + port) 1 0)
    s.set (nodeBase n) F.RTR_FAIL_OUT_FAIL (putBits (s.get (nodeBase n) F.RTR_FAIL_OUT_FAIL) (5 * pl + port) 1 0)) s

/-- The link rejoin of R117 on the links of a router port, on all five planes and in both directions. -/
def rejoinLink (s : State) (n port : Nat) : State :=
  let s := (upFrom 0 5).foldl (fun s pl => (s.fullCredits (outKey n pl port)).fullCredits (feed s.build n pl port)) s
  let s := s.clearFail n port
  match s.build.neighbour n port with
  | some m => s.clearFail m (Build.opposite port)
  | none => s

/-! ### Packets cut off (R105) -/

/-- A packet that is still entering one VC of an input when its far side is lost: one that has started on an output is
completed with filler flits, any other is discarded (R105). -/
def cutVc (n pl port : Nat) (s : State) (vc : Nat) : State :=
  let k := inKey n pl port vc
  match mapGet s.cur k with
  | none => s
  | some c =>
    let s := { s with cur := mapDel s.cur k }
    if c.drop then s
    else
      let l := s.bufOf k
      let ps := splitPackets l
      let fill := fillIn vc c
      match ps.getLast? with
      | none => s.setBuf k fill
      | some p =>
        let headHere := match p.head? with | some f => f.flit.hd | none => false
        if !headHere || (ps.length == 1 && s.startedVc n pl port vc p) then s.setBuf k (l ++ fill)
        else ((s.setBuf k ps.dropLast.flatten).giveCredit (feed s.build n pl port) vc p.length).discarded n 1

/-- The far side of a router input is lost: flits on the way are dropped, and packets still entering are cut off; how many
flits were dropped. -/
def cutInput (s : State) (n port : Nat) : Nat × State :=
  (upFrom 0 5).foldl (fun (a : Nat × State) pl =>
    let link := feed a.2.build n pl port
    let gone := (((mapGet a.2.wires link).getD []).filter (·.valid)).length
    let s := { a.2 with wires := mapDel a.2.wires link, own := mapDel a.2.own link }
    (a.1 + gone, (upFrom 0 8).foldl (cutVc n pl port) s)) (0, s)

/-! ### What a domain holds -/

/-- A link is driven by, or leads to an endpoint of, a domain. -/
def linkTo (s : State) (link : Nat) : Nat :=
  if link < 0x100000 then
    (match outDest s.build (link / 30) (link / 6 % 5) (link % 6) with
     | .router m _ => s.build.nodeDom m
     | .ep e => s.destDom e
     | .nowhere => s.build.cfgDom)
  else s.build.nodeDom ((link - 0x100000) / 30)

/-- What is held in a domain, with the place where it is counted (R402): packets and flits of its routers, links and endpoints,
notifications of its sync unit, requests to its TAPs and MAPs, and packets of its port blocks. -/
def heldIn (s : State) (d : Nat) : List (Nat × Nat) :=
  let l := s.buf.map (fun e => (blockEp (e.1 / 8 / 30), (splitPackets e.2).length)) ++
    s.burl.map (fun e => (blockEp e.node, 1)) ++ s.refl.map (fun e => (blockEp e.1, e.2.length)) ++
    (s.wires.filter (fun e => s.linkTo e.1 == d)).map (fun e =>
      (if e.1 < 0x100000 then (match outDest s.build (e.1 / 30) (e.1 / 6 % 5) (e.1 % 6) with | .router m _ => blockEp m | _ => blockEp (e.1 / 30))
       else blockEp ((e.1 - 0x100000) / 30), (e.2.filter (·.valid)).length)) ++
    (s.sendq.filter (fun e => s.driverDom e.1 == d)).map (fun e =>
      (s.injector ((e.1 - 0x100000) / 30) ((e.1 - 0x100000) % 6), e.2.length)) ++
    s.arrivals.map (fun e => (e.1, e.2.length)) ++
    s.rx.map (fun e => (match outDest s.build (e.1 / 16 / 30) (e.1 / 16 / 6 % 5) (e.1 / 16 % 6) with | .ep x => x | _ => blockEp (e.1 / 16 / 30), e.2.length)) ++
    s.ntfq.map (fun e => (0xF80 + e.1, 1)) ++ s.relayq.map (fun e => (e.1, 1)) ++
    s.accJobs.map (fun x => (x.ep, 1)) ++ s.tapq.map (fun x => (x.tap / 4, 1)) ++ s.tapw.map (fun x => (x.tap / 4, 1)) ++
    ((s.txns.filter (fun t => !(t.todo.isEmpty && t.live.isEmpty))).map (fun t =>
      (if t.map then 0xF00 + t.port else t.port / 4, t.live.length + t.todo.length))) ++
    (s.asms.map (·.port) ++ s.exits.map (·.port) ++ s.rtx.map (·.port) ++ s.injecting.map (·.port)).map (fun p => (0xF00 + p, 1))
  l.filter (fun e => s.destDom e.1 == d)

/-- Everything that the network parts of a domain hold, gone. -/
def emptyNet (s : State) (d : Nat) : State :=
  { s with
    buf := s.buf.filter (fun e => s.build.nodeDom (e.1 / 8 / 30) != d)
    cur := s.cur.filter (fun e => s.build.nodeDom (e.1 / 8 / 30) != d)
    burl := s.burl.filter (fun e => s.build.nodeDom e.node != d)
    refl := s.refl.filter (fun e => s.build.nodeDom e.1 != d)
    wires := s.wires.filter (fun e => s.linkTo e.1 != d && s.driverDom e.1 != d)
    own := s.own.filter (fun e => s.driverDom e.1 != d)
    probing := s.probing.filter (fun e => s.driverDom (e.1 / 8) != d)
    sendq := s.sendq.filter (fun e => s.driverDom e.1 != d)
    rx := s.rx.filter (fun e => s.linkTo (e.1 / 16) != d && s.driverDom (e.1 / 16) != d)
    arrivals := s.arrivals.filter (fun e => s.destDom e.1 != d) }

/-- The inputs outside a domain that its outputs feed lose their far side (R105). -/
def cutEdges (s : State) (d : Nat) : State :=
  (s.build.edges d).foldl (fun s e =>
    if e.2.2.2 then
      (match s.build.neighbour e.1 e.2.1 with
       | some m => (s.cutInput m (Build.opposite e.2.1)).2
       | none => s)
    else (s.cutInput e.1 e.2.1).2) s

/-- What the units of a domain hold beside its network parts, gone: their buffers are free again, and what an NI waits for at a TAP or
MAP ends with DOMAIN_OFF, while a request that it was serving is not answered (R402). -/
def emptyUnits (s : State) (d : Nat) : State :=
  let b := s.build
  let at' := fun (p : Nat) => b.portDom p == d
  let mine := fun (t : Txn) => !(t.todo.isEmpty && t.live.isEmpty) && (if t.map then at' t.port else b.nodeDom (t.port / 4) == d)
  let served := fun (t : Txn) => match t.purp with | .serve _ _ => true | _ => false
  let bufs := (s.asms.map (fun x => (x.port, x.buf)) ++ s.exits.map (fun x => (x.port, x.buf)) ++ s.rtx.map (fun x => (x.port, x.buf)) ++
    s.injecting.map (fun x => (x.port, x.buf))).filter (fun x => at' x.1)
  let s := bufs.foldl (fun s x => s.freePb x.1 x.2) s
  { s with
    ntfq := s.ntfq.filter (fun e => e.1 != d)
    relayq := s.relayq.filter (fun e => b.epDom e.1 != d)
    accJobs := s.accJobs.filter (fun x => b.epDom x.ep != d)
    tapq := s.tapq.filter (fun x => b.nodeDom (x.tap / 4) != d)
    tapw := s.tapw.filter (fun x => b.nodeDom (x.tap / 4) != d)
    txns := s.txns.filter (fun t => !mine t) ++ (s.txns.filter (fun t => mine t && !served t)).map (fun (t : Txn) =>
      { t with map := false, port := 0, todo := [], live := [], st := firstSt t.st stDOMAIN_OFF })
    asms := s.asms.filter (fun x => !at' x.port)
    exits := s.exits.filter (fun x => !at' x.port)
    rtx := s.rtx.filter (fun x => !at' x.port)
    injecting := s.injecting.filter (fun x => !at' x.port) }

/-- What a domain still holds when it enters Umbra under FORCE is discarded and counted (R402), with the packets that its NIs have formed
and not launched, which fail with DOMAIN_OFF. -/
def dropHeld (s : State) (d : Nat) : State :=
  let s := (s.heldIn d).foldl (fun s e => s.xdrop e.1 e.2) s
  let s := ((s.emptyNet d).cutEdges d).emptyUnits d
  (s.reqs.filter (fun q => q.stage.unsent && s.build.epDom q.ep == d)).foldl (fun s q => (s.xdrop q.ep 1).failReq q stDOMAIN_OFF) s

/-! ### Isolation (R402) -/

/-- The outputs into a domain OFF, its own toward the outside FENCED, and ISO_EN asserted. -/
def isolate (s : State) (d : Nat) : State :=
  let s := (s.build.edges d).foldl (fun s e =>
    if e.2.2.2 then (s.setFacing e.1 e.2.1 3).setOut e.1 e.2.1 2 else (s.setOut e.1 e.2.1 3).setFacing e.1 e.2.1 2) s
  { s with isoLow := s.isoLow.filter (· != d) }

/-! ### Loss of state (R313, R403, R416) -/

/-- A half in which a domain lies is in reset (R416). -/
def halfDown (s : State) (d : Nat) : Bool :=
  s.build.halves && d < s.build.cfgDom &&
    [true, false].any (fun east => s.build.domIn d east && s.halfReset east)

/-- A register address belongs to a domain (R26, R318, R370). -/
def addrDom (s : State) (a : Nat) : Nat :=
  let b := s.build
  match locate b a with
  | .glob off => if 0x2000 ≤ off && off < 0x3000 && (off - 0x2000) / 64 < b.units then (off - 0x2000) / 64 else b.cfgDom
  | .node n _ => b.nodeDom n
  | .port p off => if 0x6000 ≤ off && off < 0x7000 && b.isLink p then b.linkDom p else b.portDom p
  | .syncWin off => if off / 0x100000 < b.units then off / 0x100000 else b.cfgDom
  | .bowlWin off =>
    if b.bowlSlots ≤ off / 0x10000 then b.cfgDom
    else s.bankDom (if b.isS then 0 else off / 0x10000 / (b.bowlSlots / 4))
  | _ => b.cfgDom

/-- The endpoint of the NI that waits for an access. -/
def purpEp (s : State) : Purp → Option Nat
  | .op o _ => (s.opOf o).map (·.ep)
  | .opWrite o _ _ => (s.opOf o).map (·.ep)
  | .source q => (s.reqs.find? (fun x => x.id == q)).map (·.ep)
  | .table ep _ _ _ _ => some ep
  | .smap ep _ _ => some ep
  | .serve ep _ => some ep
  | .unhold ep _ _ _ _ _ => some ep
  | .spill ep _ _ _ _ _ => some ep
  | .spillHead ep _ _ _ _ _ => some ep
  | .acc ep _ _ => some ep
  | .rtx p _ _ => some (0xF00 + p)
  | .col p _ _ _ _ _ => some (0xF00 + p)
  | .mlist p _ _ => some (0xF00 + p)
  | .stage ep _ _ => some ep
  | .mcRetry h _ => (s.holds.find? (fun x => x.id == h)).map (·.ep)
  | _ => none

/-- The parameter of a command that an access brings: the command. -/
def purpCmd : Purp → Option (Nat × Nat)
  | .param r i _ => some (r, i)
  | _ => none

/-- Headstock commands that wait for something in a domain, and end with it (DEDUCED, log 31). -/
def waitingOn (s : State) (d : Nat) : List (Nat × Nat) :=
  let inD := fun (ep : Nat) => s.build.epDom ep == d
  (s.ops.filter (fun o => inD o.ep && !o.ended)).filterMap (fun o => match o.who with | .cmd r i => some (r, i) | _ => none) ++
  (s.reqs.filter (fun q => inD q.ep)).filterMap (fun q => purpCmd q.purp) ++
  (s.scans.filter (fun x => s.build.portDom x.port == d)).filterMap (·.cmd) ++
  (s.links.filter (fun x => s.build.linkDom x.1 == d)).filterMap (fun x => x.2.swapTx.bind (·.cmd))

/-- The bank of a Bowl slot (R237). -/
def slotBank (s : State) (x : BSlot) : Nat := if s.build.isS then 0 else x.slot / (s.build.bowlSlots / 4)

/-- Everything a domain keeps returns to its reset value; what lay in it is gone. -/
def loseDomain (s : State) (d : Nat) : State :=
  let b := s.build
  let s := (s.bslots.filter (fun x => s.bankDom (s.slotBank x) == d)).foldl (fun s x => s.slotFall x) s
  let s := (s.waitingOn d).foldl (fun s c => s.finishCmd c.1 c.2 stDOMAIN_OFF 0) s
  let s := (s.emptyNet d).cutEdges d
  let out := fun (ep : Nat) => b.epDom ep != d
  let outP := fun (p : Nat) => b.portDom p != d
  let purpOut := fun (p : Purp) => match s.purpEp p with | some ep => out ep | none => true
  let spilled := (s.rslots.filter (fun x => !out x.ep)).flatMap (fun x => x.held.filterMap (·.spill))
  let pools := (b.domPorts d).map (fun p => ramBase (.pool p) / 0x1000000)
  let dark := s.lathe
  { s with
    regs := s.regs.filter (fun e => s.addrDom e.1 != d)
    tlm := s.tlm.filter (fun e => s.addrDom e.1 != d)
    snapTlm := s.snapTlm.filter (fun e => s.addrDom e.1 != d)
    snapDepth := s.snapDepth.filter (fun e => s.addrDom e.1 != d)
    owed := s.owed.filter (fun e => s.driverDom (e.1 / 8) != d)
    crw := s.crw.filter (fun e => s.driverDom (e.1 / 8) != d && s.linkTo (e.1 / 8) != d)
    rr := s.rr.filter (fun e => s.driverDom (e.1 / 2) != d)
    injSt := s.injSt.filter (fun e =>
      if 0x300000 ≤ e.1 then (e.1 - 0x300000) / 2 != d
      else if 0x200000 ≤ e.1 then e.1 - 0x200000 != d
      else s.driverDom e.1 != d || b.nmesh ≤ d)
    ram := s.ram.filter (fun e => !pools.contains (e.1 / 0x1000000))
    ramBad := s.ramBad.filter (fun u => !pools.contains (u * 64 / 0x1000000))
    txns := s.txns.filter (fun t =>
      if t.todo.isEmpty && t.live.isEmpty then purpOut t.purp
      else if t.map then outP t.port else b.nodeDom (t.port / 4) != d)
    deadTags := s.deadTags.filter (fun t => outP t.1)
    tapw := s.tapw.filter (fun x => b.nodeDom (x.tap / 4) != d)
    mwNext := s.mwNext.filter (fun e => b.nodeDom (e.1 / 4) != d)
    lathe := { dark with
      staged := dark.staged.filter (fun x => out x.ep)
      going := dark.going.filter (fun x => out x.ep)
      seqs := dark.seqs.filter (fun e => out (e.1 / 8))
      discs := dark.discs.filter out }
    ops := s.ops.filter (fun o => out o.ep)
    reqs := s.reqs.filter (fun q => out q.ep)
    sslots := s.sslots.filter (fun x => out x.ep)
    rslots := s.rslots.filter (fun x => out x.ep)
    gens := s.gens.filter (fun e => out (e.1 / 4096))
    rankC := s.rankC.filter (fun e => out e.1)
    pathC := s.pathC.filter (fun e => out e.1)
    smapC := s.smapC.filter (fun e => out e.1)
    blank := s.blank.filter (fun e => out (e.1 / 4))
    spills := s.spills.filter (fun k => !spilled.contains k)
    holds := s.holds.filter (fun h => out h.ep)
    relayq := s.relayq.filter (fun e => out e.1)
    farq := s.farq.filter (fun f => out f.ep)
    tapq := s.tapq.filter (fun t => b.nodeDom (t.tap / 4) != d)
    smsgs := s.smsgs.filter (fun m => out m.ep)
    rlands := s.rlands.filter (fun m => out m.ep)
    lazies := s.lazies.filter (fun m => out m.ep)
    selPtr := s.selPtr.filter (fun e => out (e.1 / 4))
    bigs := s.bigs.filter (fun x => purpOut x.purp)
    accJobs := s.accJobs.filter (fun x => out x.ep)
    ownAns := s.ownAns.filter (fun e => outP e.port)
    colrecs := s.colrecs.filter (fun e => outP e.port)
    colls := s.colls.filter (fun e => outP e.port)
    readys := s.readys.filter (fun e => outP e.port)
    scans := s.scans.filter (fun e => outP e.port)
    trackers := s.trackers.filter (fun e => outP e.port)
    auxSeen := s.auxSeen.filter (fun e => outP e.1)
    buckets := s.buckets.filter (fun e => out (e.1 / 4))
    psns := s.psns.filter (fun e => out e.1)
    sems := s.sems.filter (fun e => e.1 / 1024 != d)
    watches := s.watches.filter (fun w => w.unit != d)
    ntfq := s.ntfq.filter (fun e => e.1 != d)
    bars := s.bars.filter (fun x => x.unit != d)
    realigns := s.realigns.filter (fun x => x.unit != d)
    armed := s.armed.filter (fun x => out x.ep)
    links := s.links.filter (fun e => b.linkDom e.1 != d)
    asms := s.asms.filter (fun x => outP x.port)
    exits := s.exits.filter (fun x => outP x.port)
    rtx := s.rtx.filter (fun x => outP x.port)
    injecting := s.injecting.filter (fun x => outP x.port) }

/-- A domain that goes Dark: its links go down first, then everything in it is lost (R403, R406, R416). -/
def goDark (s : State) (d : Nat) : State :=
  let s := ((s.build.domLinks d).filter (fun p => s.linkState p != 0)).foldl (fun s p => s.linkDown p 1) s
  ((s.isolate d).setDom d 0).loseDomain d

/-! ### Penumbra, quiescence, Umbra, Lit (R400-R405) -/

/-- NIs of a domain, as endpoints. -/
def domEps (s : State) (d : Nat) : List Nat :=
  (if s.build.isS then [] else s.build.domNodes d) ++ (s.build.domPorts d).map (fun p => 0xF00 + p)

/-- A domain enters Penumbra (R400): its NIs stop injection, and its combiners release what they hold. -/
def enterPenumbra (s : State) (d : Nat) : State :=
  let s := s.setDom d 2
  let mine := s.contexts.filter (fun c => s.build.epDom c.1 == d)
  let s := mine.foldl (fun s c => s.unform c.1 c.2) s
  (s.build.domNodes d).foldl (fun s n => s.burlReleaseAll n) s

/-- Requests wait at a link or the MAP of a port block. -/
def portWaits (s : State) (p : Nat) : Bool :=
  let l := s.link p
  s.txns.any (fun t => t.map && t.port == p) || !l.txB.isEmpty || !l.txG.isEmpty || !l.qB.isEmpty || !l.qG.isEmpty ||
  s.rtx.any (fun e => e.port == p)

/-- The domain is quiescent (R401). -/
def quiescent (s : State) (d : Nat) : Bool :=
  (s.build.domNodes d).all (fun n => (upFrom 0 5).all (fun pl => s.planeEmpty n pl) && s.burlEmpty n && s.reflEmpty n) &&
  (s.domEps d).all (fun ep => s.outUsed ep == 0 && !s.reqs.any (fun q => q.ep == ep && q.stage.unsent)) &&
  !s.ntfq.any (fun q => q.1 == d && d < s.build.nmesh) &&
  (s.build.stations.filter (fun x => s.build.portDom x.port == d || (x.kind != 1 && s.build.linkDom x.port == d))).all
    (fun x => !s.portWaits x.port)

/-- The domain enters Umbra (R402). -/
def enterUmbra (s : State) (d : Nat) (forced : Bool) : State :=
  let s := (s.isolate d).setDom d 1
  if forced then s.dropHeld d else s

/-- A link between two Lit domains rejoined and its outputs opened (R405). -/
def joinEdge (s : State) (n p : Nat) : State :=
  let s := s.rejoinLink n p
  (s.setOut n p (s.openOut n p)).setFacing n p (s.openFacing n p)

/-- A domain returns from Penumbra to Lit: a link to a neighbour that was set OFF while this domain was not Lit is rejoined now
(R404, R405). -/
def relight (s : State) (d : Nat) : State :=
  let s := (s.build.edges d).foldl (fun s e =>
    if s.dom e.2.2.1 == 3 && s.rtrOut e.1 e.2.1 == 3 then s.joinEdge e.1 e.2.1 else s) s
  (s.domEps d).foldl (fun s ep => s.form ep) (s.setDom d 3)

/-- The rejoins have completed and the domain is Lit, its outputs set by what stands beyond them (R405). -/
def light (s : State) (d : Nat) : State :=
  let s := (s.build.edges d).foldl (fun s e =>
    let n := e.1
    let p := e.2.1
    if s.dom e.2.2.1 == 3 then s.joinEdge n p
    else if e.2.2.2 then s.setOut n p 3 else s.setFacing n p 3) s
  let s := s.setDom d 3
  (s.domEps d).foldl (fun s ep => s.form ep) s

end State
end Sys2Proof.Machine
end

