-- ==== Sys2Proof/Machine/Power.lean ====
section
/-! DEFINITION. Domain transitions, router drains and their checks, power switches and staggered steps (R113-R117, R395-R407). -/
namespace Sys2Proof.Machine
namespace State

/-! ### Routes through a place (R115, R399) -/

/-- `x` lies between two ends. -/
def between (a b x : Nat) : Bool := min a b ≤ x && x ≤ max a b

/-- A position lies on the route between two others: X first, or Y first where `yx` (R87). -/
def onRoute (yx : Bool) (a z n : Nat × Nat) : Bool :=
  if yx then (n.1 == a.1 && between a.2 z.2 n.2) || (n.2 == z.2 && between a.1 z.1 n.1)
  else (n.2 == a.2 && between a.1 z.1 n.1) || (n.1 == z.1 && between a.2 z.2 n.2)

/-- A route from the NI of endpoint `src` to a position, or port block, passes through or ends at one of these nodes or ring
stations. -/
def routeHits (b : Build) (ns ps : List Nat) (src : Nat) (yx : Bool) (dst : Nat × Nat × Nat) : Bool :=
  ns.any (fun n => onRoute yx (srcPos b src) (dst.1, dst.2.1) (b.col n, b.row n)) ||
  (0xF00 ≤ src && ps.contains (src - 0xF00)) || ps.contains dst.2.2

/-- A route ends at one of these nodes or ring stations, whatever NI takes it. -/
def routeEnds (b : Build) (ns ps : List Nat) (dst : Nat × Nat × Nat) : Bool :=
  ns.any (fun n => b.col n == dst.1 && b.row n == dst.2.1) || ps.contains dst.2.2

/-- NIs that take routes from a table set: those with an enabled context on it; the port blocks whose NKL_RTX_CTL names it, while their
link is not DOWN or they hold packets to send again (R364, R366); and for set 0, where the spill region lies on another chip, the NIs with a
receive slot (R140). -/
def sources (s : State) (t : Nat) : List Nat :=
  let ctxs : List Nat := (s.contexts.filter (fun c => s.ctxTset c.1 c.2 == t)).map (·.1)
  (ctxs ++
    (s.linkPorts.filter (fun p => s.get (portBase p) F.NKL_RTX_CTL_TSET == t &&
      (s.linkState p != 0 || s.rtx.any (fun e => e.port == p)))).map (0xF00 + ·) ++
    (if t == 0 && s.flag 0 F.NI_SPILL_DEST_EN && epChip (s.get 0 F.NI_SPILL_DEST_EP) != s.chip then s.rslots.map (fun (x : RecvSlot) => x.ep) else [])).eraseDups

/-- Table sets that hold routes, in the route store or behind a MAP. -/
def routeSets (s : State) (far : Bool) : List Nat :=
  (upFrom 0 16).filter (fun t => s.tsetV t && s.flag (8 * t) F.NI_TSET_CTL_LOC == far)

/-- The paths of a path set. -/
def setPaths (ps : Nat) : List Nat := (upFrom 0 (ps % 8)).map (fun k => bitsOf ps (64 * (k + 1)) 64)

/-- Paths of a bank that leave the die hit the place. -/
def exitHits (s : State) (ns ps : List Nat) (t : Nat) (sets : List Nat) : Bool :=
  let hit := fun (w : Nat) =>
    let a := (s.build.attach (w % 128)).getD (0, 0)
    let dst := (a.1, a.2, w % 128)
    routeEnds s.build ns ps dst || (s.sources t).any (fun ep => routeHits s.build ns ps ep (bitAt w 7) dst)
  sets.any (fun x => (setPaths x).any (fun w => s.build.isLink (w % 128) && hit w))

/-- The orders of the paths of a path set that stay on this die. -/
def dieOrders (x : Nat) : List Nat := ((setPaths x).filter (fun w => w % 128 == 127)).map (fun w => bitsOf w 7 1)

/-- Routes to the ranks of this die hit the place. -/
def dieHits (s : State) (ns ps : List Nat) (t : Nat) (orders entries : List Nat) : Bool :=
  (entries.filter (fun e => bitAt e 31 && epChip (bitsOf e 0 24) == s.chip)).any (fun e =>
    let dst := dstPos s.build (epIndex (bitsOf e 0 24))
    orders.any (fun o => routeEnds s.build ns ps dst || (s.sources t).any (fun ep => routeHits s.build ns ps ep (o == 1) dst)))

/-- Path sets of a bank, and entries of a rank table, from their bytes. -/
def bankOf (bytes : List Byte) : List Nat := unpackN (leNat bytes) 512 4096
def ranksOf (bytes : List Byte) : List Nat := unpackN (leNat bytes) 32 65536

/-- A route of the active bank of a table set in the route store hits the place. -/
def storeHits (s : State) (ns ps : List Nat) (t : Nat) : Bool :=
  let base := ramBase .store
  let sets := bankOf (s.ramRead (base + s.tableAddr t true 0 (s.get (8 * t) F.NI_TSET_CTL_ACTIVE)) 262144)
  s.exitHits ns ps t sets ||
  s.dieHits ns ps t (dieOrders ((sets[s.chip]?).getD 0)) (ranksOf (s.ramRead (base + s.tableAddr t false 0 0) 262144))

/-- The nodes and ring stations that a command is about to take out of service. -/
def cmdArea (s : State) (c : Cmd) : List Nat × List Nat :=
  if c.opc == 0x38 then (s.build.domNodes (c.par 0), s.build.domPorts (c.par 0)) else ([c.par 0], [])

/-- The plan reserves in a router: the active one, or a valid shadow plan (R115, R175). -/
def planReserves (s : State) (n : Nat) (shadow : Bool) : Bool :=
  let bk := s.get 0 F.LTH_STAT_BANK
  let some' := fun (bk : Nat) => (upFrom 0 127).any (fun sl => (upFrom 0 5).any (fun p => (s.slotEntry n bk sl p).1 ≤ 4))
  (s.lathe.active && some' bk) || (shadow && s.flag 0 F.LTH_STAT_SHADOW_V && some' (1 - bk))

/-! ### Checks before Penumbra (R399) -/

/-- Bases of the completion queues of port-block NIs whose registers have been written. -/
def portQueues (s : State) : List Nat := s.regs.filterMap (fun e => match locate s.build e.1 with
  | .port p off => if 0x1404 ≤ off && off < 0x1504 && off % 16 == 4 then some (portBase p + off - 0x1404) else none
  | _ => none)

/-- Something enabled lies behind a MAP of the domain. -/
def mapUsed (s : State) (d : Nat) : Bool :=
  let mine := fun (p : Nat) => s.isMap p && s.build.portDom p == d
  (upFrom 0 16).any (fun t => s.tsetV t && s.flag (8 * t) F.NI_TSET_CTL_LOC && mine (s.get (8 * t) F.NI_TSET_CTL_MAPP)) ||
  (upFrom 0 16).any (fun m => s.mapV m && s.flag (8 * m) F.SYN_MAPm_CTL_LOC && mine (s.get (8 * m) F.SYN_MAPm_CTL_MAPP)) ||
  (upFrom 0 16).any (fun r => s.ringState r != 0 && s.flag (0x20 * r) F.HDS_RINGr_CTL_LOC && mine (s.get (0x20 * r) F.HDS_RINGr_CTL_MAPP)) ||
  s.portQueues.any (fun b => s.flag b F.NI_CQc_CTL_EN && s.flag b F.NI_CQc_CTL_LOC && mine (s.get b F.NI_CQc_CTL_MAPP)) ||
  (s.flag 0 F.NI_SPILL_DEST_EN && epChip (s.get 0 F.NI_SPILL_DEST_EP) == s.chip && 0xF00 ≤ epIndex (s.get 0 F.NI_SPILL_DEST_EP) &&
    mine (epIndex (s.get 0 F.NI_SPILL_DEST_EP) - 0xF00)) ||
  s.linkPorts.any (fun p => s.linkState p != 0 && mine (s.get (portBase p) F.NKL_RTX_CTL_MAPP))

/-- Watches that have not fired. -/
def liveWatches (s : State) (u : Nat) : List Watch := s.watches.filter (fun w => w.unit == u && !w.fired)

/-- A condition of R399 other than its first holds. -/
def downBarred (s : State) (d : Nat) : Bool :=
  let b := s.build
  (d < b.nmesh && (s.rankCnt.any (fun e => b.nodeDom (e.1 / 4) == d && e.2 != 0) || (b.domNodes d).any (fun n => s.planReserves n true) ||
    !(s.liveWatches d).isEmpty)) ||
  s.bslots.any (fun x => s.bankDom (s.slotBank x) == d) ||
  s.colls.any (fun x => b.portDom x.port == d) ||
  (b.domLinks d).any (fun p => s.linkState p != 0) ||
  (b.nmesh ≤ d && d < b.nmesh + 4 && s.mapUsed d)

/-- What FORCE does about them (R399, R312, R252, R278, R360). -/
def downForced (s : State) (d : Nat) : State :=
  let s := (if d < s.build.nmesh then s.liveWatches d else []).foldl (fun s w => s.fire w.unit w.ent stDOMAIN_OFF (s.watchValue w)) s
  let s := (s.bslots.filter (fun x => s.bankDom (s.slotBank x) == d)).foldl (fun s x => s.slotFall x) s
  let s := ((s.build.domPorts d).filter (fun p => s.colls.any (fun x => x.port == p))).foldl (fun s p => s.colEndPort p stDOMAIN_OFF) s
  ((s.build.domLinks d).filter (fun p => s.linkState p != 0)).foldl (fun s p => s.linkDown p 5) s

/-! ### Transitions (R397) -/

/-- A transition begins, or goes on to another phase: one of automatic power-up among those under way (R397, R417), or that of
a command. -/
def setTrans (s : State) (t : Trans) : State :=
  let old := t.cmd.isNone && s.autos.any (fun x => x.dom == t.dom)
  let s := if t.cmd.isNone then { s with autos := s.autos.filter (fun x => x.dom != t.dom) ++ [t] } else { s with trans := some t }
  if old then s else (s.set 0 F.PWR_STAT_BUSY 1).set 0 F.PWR_STAT_DOM t.dom
def phaseTo (s : State) (t : Trans) (ph born : Nat) : State := s.setTrans { t with phase := ph, born := born }

/-- The transition of a domain that is under way. -/
def transOf (s : State) (d : Nat) : Option Trans :=
  match s.trans with
  | some t => if t.dom == d then some t else s.autos.find? (fun x => x.dom == d)
  | none => s.autos.find? (fun x => x.dom == d)

/-- A transition is over with a status: its command completes. -/
def closeTrans (s : State) (t : Trans) (st : Nat) : State :=
  let s := if t.cmd.isNone then { s with autos := s.autos.filter (fun x => x.dom != t.dom) } else { s with trans := none }
  let s := (s.set 0 F.PWR_STAT_BUSY (bit (s.trans.isSome || !s.autos.isEmpty))).set 0 F.PWR_STAT_LAST st
  match t.cmd with
  | some c => s.finishCmd c.1 c.2 st 0
  | none => s

/-- A command that waits for its turn or for its checks ends without a transition. -/
def dropTrans (s : State) (r idx st : Nat) : State := ({ s with trans := none, drain := none }).finishCmd r idx st 0

/-- Penumbra, the checks having passed or been overridden (R399, R400). -/
def goDown (s : State) (r : Nat) (c : Cmd) (hit : Bool) : State :=
  let d := c.par 0
  let barred := hit || s.downBarred d
  if barred && !c.force then s.dropTrans r c.idx stDENIED
  else
    let s := if barred then (s.downForced d).errBit 0 F.PWR_ERR_FORCED 0x17 (srcGlob 4) (openSt 31) d else s
    (s.setTrans ⟨d, false, c.par 1, c.par 2, c.force, some (r, c.idx), 0, s.tmo⟩).enterPenumbra d

/-- DOM_UP, or automatic power-up, of a domain: by its state (R404). -/
def goUp (s : State) (d : Nat) (cmd : Option (Nat × Nat)) : State :=
  let fin := fun (s : State) (st : Nat) => match cmd with
    | some c => s.finishCmd c.1 c.2 st 0
    | none => s
  let ds := s.dom d
  let t : Trans := ⟨d, true, 3, 0, false, cmd, 3, s.tmo⟩
  if s.halfDown d then fin s stDOMAIN_OFF
  else if ds == 3 then fin s stOK
  else if ds == 2 then ((s.setTrans t).relight d).closeTrans t stOK
  else if ds == 1 then { s.phaseTo t 6 s.cyc with isoLow := s.isoLow ++ [d] }
  else s.setTrans t

/-! ### Drains (R113-R117) -/

/-- Ports of a router that lead to a neighbour or a ring station. -/
def sides (s : State) (n : Nat) : List Nat := (upFrom 1 4).filter (fun p => (s.build.neighbour n p).isSome || s.build.stationOn n p != 127)

/-- The inputs of a router that a drain holds: its sides, its NI's injection, and that of its sync unit on SN (R114). -/
def holdLocal (s : State) (n old v : Nat) : State :=
  let put := fun (s : State) (l : Nat) => if nget s.injSt 0 l == old then { s with injSt := mapSet s.injSt 0 l v } else s
  let s := if s.build.isS then s else [pQB, pPB, pSN].foldl (fun s pl => put s (epLink n pl 0)) s
  if (s.build.unitAt n).isSome then put s (epLink n pSN 5) else s

/-- States of the outputs that lead into a router: those that are `old` become `v`. -/
def holdInputs (s : State) (n old v : Nat) : State :=
  ((s.sides n).foldl (fun s p => if s.facing n p == old then s.setFacing n p v else s) s).holdLocal n old v

/-- A router enters DRAINING (R114): HOLD on what leads into it, and its combiner releases. -/
def startDrain (s : State) (r : Nat) (c : Cmd) (hit : Bool) : State :=
  let n := c.par 0
  if (hit || s.planReserves n false) && !c.force then s.dropTrans r c.idx stDENIED
  else
    let s := (s.holdInputs n 0 1).set (nodeBase n) F.RTR_STATE_STATE 1
    let s := (s.burlReleaseAll n).set 0 F.HDS_STAT_DRAINING 1
    { s with drain := some ⟨n, c.par 1, c.force, r, c.idx, s.tmo, false⟩ }

/-- A drained router is fenced (R114 step 4). -/
def fence (s : State) (n : Nat) : State :=
  let s := s.holdInputs n 1 2
  let s := (upFrom 0 5).foldl (fun s p => s.setOut n p 2) s
  let s := match s.build.unitAt n with
    | some u => { s with injSt := mapSet s.injSt 0 (unitOut u) 2 }
    | none => s
  s.set (nodeBase n) F.RTR_STATE_STATE 2

/-- The packets held in a router are discarded, but for those in progress on an output, which complete there (R115, R99). -/
def discardHeld (s : State) (n : Nat) : State :=
  let s := (s.buf.filter (fun e => e.1 / 8 / 30 == n && e.1 / 8 / 6 % 5 != pCQ && e.1 / 8 / 6 % 5 != pCP)).foldl (fun s e =>
    let k := e.1
    let o := k / 8
    let ps := splitPackets e.2
    let going := match ps.head? with
      | some (f :: _) => !f.flit.hd || (upFrom 0 6).any (fun x => match mapGet s.own (o / 6 * 6 + x) with
          | some g => g.fromBuf && g.port == o % 6 && g.vc == k % 8
          | none => false)
      | _ => false
    let keep := if going then ps.take 1 else []
    let lost := ps.drop keep.length
    let s := (s.setBuf k keep.flatten).giveCredit (s.feedOf k) (k % 8) (lost.map List.length).sum
    let s := if lost.isEmpty then s
      else { s with cur := match mapGet s.cur k with | some x => mapPut s.cur k { x with drop := true } | none => s.cur }
    s.discarded n lost.length) s
  let busy := fun (id : Nat) => s.own.any (fun e => e.2.burl == some id)
  let k := ((mapGet s.refl n).getD []).length + (s.burl.filter (fun e => e.node == n && !busy e.id)).length
  { s.discarded n k with refl := mapDel s.refl n, burl := s.burl.filter (fun e => e.node != n || busy e.id) }

/-- The drain that runs ends with a status. -/
def closeDrain (s : State) (st : Nat) : State :=
  match s.drain with
  | none => s
  | some x => (({ s with drain := none }).set 0 F.HDS_STAT_DRAINING 0).finishCmd x.ring x.idx st 0

/-! ### Commands in turn (R397) -/

/-- The checks of a command are over: `hit` says that a route of an active bank uses the place. -/
def checksDone (s : State) (r : Nat) (c : Cmd) (hit : Bool) : State :=
  if c.opc == 0x38 then s.goDown r c hit else s.startDrain r c hit

/-- The table sets behind MAPs from number `t` on are read for the check: the bank of the next one. -/
def readSets (s : State) (r : Nat) (c : Cmd) (t : Nat) : State :=
  match (s.routeSets true).find? (fun x => t ≤ x) with
  | none => s.checksDone r c false
  | some t => s.tsetRead r c t (s.tableAddr t true 0 (s.get (8 * t) F.NI_TSET_CTL_ACTIVE)) 262144 (16 + t)

/-- The checks of a command begin. -/
def beginChecks (s : State) (r : Nat) (c : Cmd) : State :=
  let a := s.cmdArea c
  if (s.routeSets false).any (fun t => s.storeHits a.1 a.2 t) then s.checksDone r c true else s.readSets r c 0

/-- A command whose turn has come. -/
def takeTurn (s : State) (r : Nat) (c : Cmd) : State :=
  let d := c.par 0
  if c.opc == 0x30 then
    (if s.dom (s.build.nodeDom d) != 3 then s.finishCmd r c.idx stDOMAIN_OFF 0
     else if s.rtrState d == 2 then s.finishCmd r c.idx stOK 0
     else ({ s with drain := some ⟨d, c.par 1, c.force, r, c.idx, s.tmo, true⟩ }).beginChecks r c)
  else if c.opc == 0x39 then s.goUp d (some (r, c.idx))
  else
    let level := if c.par 1 == 0 then 2 else if c.par 1 == 1 then 1 else 0
    let t : Trans := ⟨d, false, c.par 1, c.par 2, c.force, some (r, c.idx), 8, s.tmo⟩
    if s.dom d ≤ level then s.finishCmd r c.idx stOK 0
    else if s.dom d == 1 then s.phaseTo t 1 s.tmo
    else if s.dom d == 2 then s.phaseTo t 0 s.tmo
    else ({ s with trans := some t }).beginChecks r c

/-- The command names a domain with which automatic power-up has not finished (R397). -/
def upBlocks (s : State) (c : Nat × Nat) : Bool :=
  match s.cmdAt c.1 c.2 with
  | some x => x.opc != 0x30 && (s.upq.contains (x.par 0) || s.autos.any (fun t => t.dom == x.par 0))
  | none => false

/-- The command that waits for its turn and is not held back by automatic power-up (R397). -/
def nextCmd (s : State) : Option (Nat × Nat) := s.transq.find? (fun c => !s.upBlocks c)

/-- Commands that wait, and automatic power-up, take their turns while nothing runs; `k` bounds how many. A command runs between
two automatic transitions. Automatic power-up brings a Dark domain up from the step boundary at which its switch changes; clearing
AUTOUP stops it after the domains in progress (R397, R417). -/
def nextTrans (s : State) : Nat → State
  | 0 => s
  | k + 1 =>
    if s.trans.isSome || s.drain.isSome then s
    else match s.nextCmd with
      | some x =>
        if !s.autos.isEmpty then s
        else
          let s := { s with transq := delFirst (fun c => c == x) s.transq }
          (match s.cmdAt x.1 x.2 with
           | some c => (s.takeTurn x.1 c).nextTrans k
           | none => s.nextTrans k)
      | none =>
        match s.upq with
        | [] => if s.autos.isEmpty then s.set 0 F.PWR_STAT_UPSEQ 0 else s
        | d :: l =>
          if !s.flag 0 F.PWR_CTL_AUTOUP then ({ s with upq := [] }).nextTrans k
          else if s.dom d == 0 && !s.halfDown d then s
          else (({ s with upq := l }).goUp d none).nextTrans k

/-- The next in turn. -/
def turns (s : State) : State := s.nextTrans (s.transq.length + s.upq.length + 2)

/-- A transition ends and the next one takes its turn. -/
def endTrans (s : State) (t : Trans) (st : Nat) : State := (s.closeTrans t st).turns

/-- DOM_DOWN: DOM, TARGET, TMO (R396, R397). -/
def runDomDown (r : Nat) (s : State) (c : Cmd) : State :=
  let d := c.par 0
  if s.build.cfgDom ≤ d || d == s.build.nodeDom 0 || c.par 1 == 3 || c.par 2 == 0 then s.finishCmd r c.idx stBADCMD 0
  else ({ s with transq := s.transq ++ [(r, c.idx)] }).turns
/-- DOM_UP: DOM (R396, R397). -/
def runDomUp (r : Nat) (s : State) (c : Cmd) : State :=
  if s.build.cfgDom ≤ c.par 0 then s.finishCmd r c.idx stBADCMD 0
  else ({ s with transq := s.transq ++ [(r, c.idx)] }).turns
/-- RTR_DRAIN: NODE, TMO (R114). -/
def runDrain (r : Nat) (s : State) (c : Cmd) : State :=
  if s.build.nodes ≤ c.par 0 || c.par 1 == 0 then s.finishCmd r c.idx stBADCMD 0
  else ({ s with transq := s.transq ++ [(r, c.idx)] }).turns

/-- What the check of a command reads has come (R115, R399): 16 + t a bank, 32 + t a rank table of table set t. -/
def checkParam (s : State) (r : Nat) (c : Cmd) (step : Nat) (x : Txn) : State :=
  let a := s.cmdArea c
  let t := step % 16
  if x.st != stOK then (s.dropTrans r c.idx x.st).turns
  else if step < 32 then
    let sets := bankOf x.bytes
    let os := dieOrders ((sets[s.chip]?).getD 0)
    if s.exitHits a.1 a.2 t sets then (s.checksDone r c true).turns
    else if os.isEmpty then (s.readSets r c (t + 1)).turns
    else (s.keep r c os).tsetRead r c t (s.tableAddr t false 0 0) 262144 (32 + t)
  else if s.dieHits a.1 a.2 t c.data (ranksOf x.bytes) then (s.checksDone r c true).turns
  else (s.readSets r c (t + 1)).turns

/-! ### Events of a drain -/

/-- RTR_DRAIN_DONE: the drained router is empty and is fenced (R114). -/
def drainDone (s : State) : State :=
  match s.drain with
  | none => s
  | some x => if x.checking || !s.drained x.node then s else ((s.fence x.node).closeDrain stOK).turns

/-- RTR_DRAIN_TIMEOUT (R114, R115). -/
def drainTimeout (s : State) : State :=
  match s.drain with
  | none => s
  | some x =>
    if x.checking || s.drained x.node then s
    else
      let s := s.passTo (x.born + x.tmo + 1)
      if x.force then (((s.discardHeld x.node).fence x.node).closeDrain stOK).turns else (s.closeDrain stTIMEOUT).turns

/-- The output toward side `p` of a router has failed on each plane that follows the port's state (R107, R109). -/
def sideFailed (s : State) (n p : Nat) : Bool := [pQB, pPB, pSN].all (fun pl => s.failed true n pl p)

/-- The rejoins of R117 are allowed: what drives the links into and out of the router is neither OPEN nor HOLD, or has failed, or
belongs to a domain that is not Lit or a half in reset. The states of the routers do not matter. -/
def mayReopen (s : State) (n : Nat) : Bool :=
  (s.sides n).all (fun p =>
    let far := match s.build.neighbour n p with
      | some m => s.dom (s.build.nodeDom m) != 3 || s.halfReset (s.build.east (s.build.col m)) || s.sideFailed m (Build.opposite p)
      | none => s.dom (if s.build.stationOn n p == 126 then s.build.cfgDom else s.build.portDom (s.build.stationOn n p)) != 3
    (2 ≤ s.rtrOut n p || s.sideFailed n p) && (2 ≤ s.facing n p || far))

/-- RTR_REOPEN: NODE (R117). A failed Local input or output, of which R117 clears nothing though R108 has failures end at a reopen, stays
failed (DESIGN CHOICE, log 37). -/
def runReopen (r : Nat) (s : State) (c : Cmd) : State :=
  let n := c.par 0
  let b := s.build
  if b.nodes ≤ n then s.finishCmd r c.idx stBADCMD 0
  else if s.dom (b.nodeDom n) != 3 then s.finishCmd r c.idx stDOMAIN_OFF 0
  else if !s.mayReopen n then s.finishCmd r c.idx stDENIED 0
  else
    let s := (s.sides n).foldl (fun s p => s.rejoinLink n p) s
    let s := s.set (nodeBase n) F.RTR_STATE_STATE 0
    let lit := fun (p : Nat) => match b.neighbour n p with
      | some m => s.dom (b.nodeDom m) == 3
      | none => if b.stationOn n p == 126 then true else s.dom (b.portDom (b.stationOn n p)) == 3
    let s := (s.sides n).foldl (fun s p =>
      if lit p then (s.setOut n p (s.openOut n p)).setFacing n p (s.openFacing n p) else s.setOut n p 3) s
    let s := s.setOut n 0 0
    let s := match b.unitAt n with
      | some u => { s with injSt := mapDel s.injSt (unitOut u) }
      | none => s
    (s.holdLocal n 2 0).finishCmd r c.idx stOK 0

/-! ### Events of a transition -/

/-- The domain of the running transition is quiescent, or is taken as such (R401, R402). -/
def quiescentNow (s : State) (t : Trans) (forced : Bool) : State :=
  if t.target == 0 then s.endTrans t stOK
  else
    let s := s.enterUmbra t.dom forced
    if t.target == 1 then s.endTrans t stOK else s.phaseTo t 1 s.tmo

/-- DOMAIN_QUIESCENT (R401). -/
def domainQuiescent (s : State) : State :=
  match s.trans with
  | none => s
  | some t => if t.phase == 0 && s.quiescent t.dom then s.quiescentNow t false else s

/-- DOM_DOWN_TIMEOUT (R401). -/
def domDownTimeout (s : State) : State :=
  match s.trans with
  | none => s
  | some t =>
    if t.phase != 0 || s.quiescent t.dom then s
    else
      let s := s.passTo (t.born + t.tmo + 1)
      if t.force then s.quiescentNow t true else s.endTrans t stTIMEOUT

/-- A power switch changes (R403, R404, R407). -/
def switch (s : State) (t : Trans) : State :=
  let s := { s with
    lastSw := some s.tmo
    upq := if t.cmd.isNone then s.upq.filter (· != t.dom) else s.upq
    pswEn := if t.phase == 3 then s.pswEn ++ [t.dom] else s.pswEn.filter (· != t.dom) }
  if t.phase == 1 then s.phaseTo t 2 s.tmo
  else if t.phase == 3 then s.phaseTo t 4 s.tmo
  else s.endTrans t stTIMEOUT

/-- The transition whose switch is due to change: one whose acknowledge failed, that of a command, or the next of automatic
power-up, which begins with its switch (R404, R407, R417). -/
def dueSwitch (s : State) : Option Trans :=
  match s.autos.find? (fun t => t.phase == 7), s.trans with
  | some t, _ => some t
  | none, some t => if t.phase == 1 || t.phase == 3 || t.phase == 7 then some t else none
  | none, none =>
    if s.drain.isSome || s.nextCmd.isSome || !s.flag 0 F.PWR_CTL_AUTOUP then none
    else match s.upq with
      | d :: _ => some ⟨d, true, 3, 0, false, none, 3, s.lastSw.getD 0⟩
      | [] => none

/-- STEP_BOUNDARY: the switch change that is due is made at a boundary (R407). In RUN it is the first boundary after the
change became due. -/
def stepBoundary (s : State) : State :=
  match s.dueSwitch with
  | none => s
  | some t =>
    let step := s.get 0 F.PWR_STEP_STEP
    if s.running then
      if s.notchCount % step == s.get 0 F.PWR_STEP_PHASE && t.born < s.tmo && s.lastSw != some s.tmo then s.switch t else s
    else match s.lastSw with
      | none => s.switch t
      | some l => (s.passTo (l + step)).switch t

/-- A bit of PWR_ERR set and logged (R420, R428). -/
def pwrErr (s : State) (f : Fld) (st obj : Nat) : State := s.errBit 0 f 0x16 (srcGlob 4) st obj

/-- PSW_ACK falls while PSW_EN is high (R406). -/
def ackLost (s : State) (d : Nat) : State :=
  if !s.pswEn.contains d then s
  else
    let s := s.goDark d
    let s := { s with pswEn := s.pswEn.filter (· != d), lastSw := some s.tmo }
    let s := s.pwrErr F.PWR_ERR_ACKLOST stINTERNAL d
    match s.transOf d with
    | some t => s.endTrans t stINTERNAL
    | none => s

/-- PSW_ACK_FALL (R403). -/
def ackFall (s : State) (d : Nat) : State :=
  match s.trans with
  | some t => if t.dom == d && t.phase == 2 then (s.goDark d).endTrans t stOK else s
  | none => s

/-- PSW_ACK_RISE (R404, R468). -/
def ackRise (s : State) (d : Nat) : State :=
  if !s.pswEn.contains d then s.report 0x1A (srcGlob 4) stINTERNAL (0xFF + 256 * d)
  else match s.transOf d with
    | some t => if t.phase == 4 then s.phaseTo t 5 s.cyc else s
    | none => s

/-- PSW_ACK_TIMEOUT (R403, R404). -/
def ackTimeout (s : State) (d : Nat) : State :=
  match s.transOf d with
  | none => s
  | some t =>
    if !(t.phase == 2 || t.phase == 4) then s
    else
      let s := (s.passTo (t.born + s.get 0 F.PWR_CTL_ACKTMO + 1)).pwrErr F.PWR_ERR_ACK stTIMEOUT d
      if t.phase == 2 then s.endTrans t stTIMEOUT else s.phaseTo t 7 s.tmo

/-- Cycles of a domain's initialisation (R404). -/
def initCycles (s : State) (d : Nat) : Nat := if s.build.nmesh ≤ d && d < s.build.nmesh + 4 then 4096 else 2048

/-- DOMAIN_INIT_DONE: everything in the domain holds its reset value, and the step to Lit begins (R404). -/
def initDone (s : State) (d : Nat) : State :=
  match s.transOf d with
  | none => s
  | some t =>
    if t.phase != 5 then s
    else
      let s := s.passCyc (t.born + 16 + s.initCycles d)
      let s := ((s.loseDomain d).isolate d).setDom d 1
      { s.phaseTo t 6 s.cyc with isoLow := s.isoLow ++ [d] }

/-- DOMAIN_LIT (R405). -/
def domainLit (s : State) (d : Nat) : State :=
  match s.transOf d with
  | none => s
  | some t => if t.phase == 6 then (s.light d).endTrans t stOK else s

end State
end Sys2Proof.Machine
end

