-- ==== Sys2Proof/Machine/Reset.lean ====
section
/-! DEFINITION. Resets of the block and of its halves, stopped clocks, crossings and start-up (R408-R417, R468). -/
namespace Sys2Proof.Machine
namespace State

/-! ### RST_N and start-up (R413, R417) -/

/-- RST_N_ASSERT: everything is lost. What outlives it is not the block's: what has been driven, the commands that wait, the
model's count of free values, and the level of the tamper input (R468). -/
def rstAssert (s : State) : State :=
  let t := s.get 0 F.KEY_STAT_TAMPER
  ({ State.resetOf s.build with out := s.out, pending := s.pending, free := s.free, boot := 1 }).set 0 F.KEY_STAT_TAMPER t

/-- RST_N_RELEASE: the fuse inputs are sampled and the configuration domain begins to initialise (R417, R456). A tamper input
that is still high raises its violation (R468); no command says whether it has fallen since, so that its level is a free value (log 42). -/
def rstRelease (s : State) (key par : Nat) (valid : Bool) : State :=
  if s.boot != 1 then s
  else
    let s := { s with boot := 2, cyc := 0, fuse := key % 2 ^ 256 + 2 ^ 256 * (par % 2 ^ 32) }
    let s := s.set 0 F.KEY_STAT_FUSE_V (bit valid)
    if !s.flag 0 F.KEY_STAT_TAMPER then s
    else if (Config.openWord 11 s.free).toNat % 2 == 0 then s.drawFree.set 0 F.KEY_STAT_TAMPER 0
    else s.drawFree.violation 0 0

/-- Automatic power-up of domains, in index order (R416, R417). -/
def autoUp (s : State) (l : List Nat) : State :=
  if s.flag 0 F.PWR_CTL_AUTOUP then (({ s with upq := s.upq ++ l }).set 0 F.PWR_STAT_UPSEQ 1).turns else s

/-- CFG_INIT_DONE (R417). -/
def cfgInitDone (s : State) : State :=
  if s.boot != 2 then s else (({ s with boot := 0 }).passCyc 40960).autoUp (upFrom 0 s.build.cfgDom)

/-! ### Halves (R20, R21, R416) -/

/-- The PWR_STAT bit of a half. -/
def halfBit (east : Bool) : Fld := if east then F.PWR_STAT_ERST else F.PWR_STAT_WRST

/-- The seam ports of the half that goes on running: node and port. -/
def seamPorts (s : State) (lost : Bool) : List (Nat × Nat) :=
  let b := s.build
  let c := if lost then b.cols / 2 - 1 else b.cols / 2
  (upFrom 0 b.rows).map (fun r => (b.node c r, if lost then 2 else 4))

/-- A half is reset (R416): its domains are Dark, what it held is lost, and the seam behaves as fenced (R21); what was on its way
across the seam, in either direction, is dropped and counted (R414). -/
def resetHalf (s : State) (east : Bool) : State :=
  if s.halfReset east then s
  else
    let s := s.set 0 (halfBit east) 1
    let ds := s.build.halfDoms east
    let s := { s with
      upq := s.upq.filter (fun d => !ds.contains d)
      pswEn := s.pswEn.filter (fun d => !ds.contains d)
      lathe := { s.lathe with half := s.lathe.active } }
    let s := s.set 0 F.LTH_STAT_SHADOW_V 0
    let cut := (s.seamPorts east).foldl (fun (a : Nat × State) p =>
      let r := a.2.cutInput p.1 p.2
      (a.1 + r.1, r.2)) (0, s)
    let out := (s.seamPorts east).flatMap (fun p => (upFrom 0 5).map (fun pl => outKey p.1 pl p.2))
    let lost := out.map (fun k => (((mapGet cut.2.wires k).getD []).filter (·.valid)).length)
    let s := { cut.2 with wires := cut.2.wires.filter (fun e => !out.contains e.1) }
    let s := s.bump 0 F.PWR_SEAM_DROP_COUNT (cut.1 + lost.sum)
    let s := ds.foldl (fun s d => s.goDark d) s
    let s := match s.trans with
      | some t => if ds.contains t.dom then s.closeTrans t stDOMAIN_OFF else s
      | none => s
    let s := (s.autos.filter (fun t => ds.contains t.dom)).foldl (fun s t => s.closeTrans t stDOMAIN_OFF) s
    let s := match s.drain with
      | some x => if ds.contains (s.build.nodeDom x.node) then s.closeDrain stDOMAIN_OFF else s
      | none => s
    s.turns

/-- The informational event of a far-side reset (R414). -/
def farReset (s : State) (obj : Nat) : State := s.errBit 0 F.PWR_ERR_XRESET 0x17 (srcGlob 4) (openSt 32) obj

/-- The crossings whose far side is held. -/
def heldX (s : State) (x : Crossing) : Option XHold := s.xheld.find? (fun h => h.x == x)
def dropX (s : State) (x : Crossing) : State := { s with xheld := s.xheld.filter (fun h => h.x != x) }
/-- A crossing is held, from the present cycle on; `stopped` where its far-side clock has stopped. -/
def holdX (s : State) (x : Crossing) (stopped : Bool) : State :=
  let stopped := stopped || (s.heldX x).any (·.stopped)
  let s := s.dropX x
  { s with xheld := s.xheld ++ [(⟨x, false, 0, stopped, s.cyc⟩ : XHold)] }

/-- HALF_RESET (R416). -/
def halfResetRow (s : State) (east : Bool) : State :=
  if s.halfReset east then s else ((s.resetHalf east).holdX (.seam east) false).farReset (bit east)

/-- A half is released (R416): the seam rejoins on all five planes, and its domains come up when AUTOUP is 1. -/
def releaseHalf (s : State) (east : Bool) : State :=
  let s := (s.dropX (.seam east)).set 0 (halfBit east) 0
  let s := (s.seamPorts east).foldl (fun s p =>
    (upFrom 0 5).foldl (fun s pl => (s.fullCredits (outKey p.1 pl p.2)).fullCredits (feed s.build p.1 pl p.2)) s) s
  s.autoUp ((s.build.halfDoms east).filter (fun d => !s.halfDown d))

/-- HALF_RESET_RELEASE: a half that is held for its stopped clock waits for EAST_CLOCK_RESTART. -/
def halfReleaseRow (s : State) (east : Bool) : State :=
  if !s.halfReset east || (s.heldX (.seam east)).any (·.stopped) then s else s.releaseHalf east

/-! ### Crossings (R412, R414, R415) -/

/-- What is held at a TAP or MAP crossing is flushed (R414): requests under way and writes that wait in a TAP's buffer are dropped and
counted, and a Lathe write lost so is told the plan (R468); what the NI itself waits for ends with TIMEOUT, and a request that it was
serving is not answered. -/
def flushMem (s : State) (map : Bool) (port : Nat) : State :=
  let mine := fun (t : Txn) => t.map == map && t.port == port && !(t.todo.isEmpty && t.live.isEmpty)
  let n := ((s.txns.filter mine).map (fun t => t.live.length + t.todo.length)).sum
  let served := fun (t : Txn) => match t.purp with | .serve _ _ => true | _ => false
  let lost := s.txns.filter (fun t => mine t && !served t)
  let wr := if map then 0 else s.tapWaiting port
  let lathe := !map && s.tapw.any (fun x => x.tap == port && x.lathe)
  let q := if map then 0 else (s.tapq.filter (fun t => t.tap == port)).length
  let s := if lathe then s.planSt stINTERNAL else s
  let s := { s with
    tapw := if map then s.tapw else s.tapw.filter (fun x => x.tap != port)
    txns := s.txns.filter (fun t => !mine t) ++
      lost.map (fun (t : Txn) => { t with map := false, port := 0, todo := [], live := [], st := firstSt t.st stTIMEOUT })
    deadTags := if map then s.deadTags.filter (fun d => d.1 != port) else s.deadTags
    tapq := if map then s.tapq else s.tapq.filter (fun t => t.tap != port) }
  s.crossDrop (if map then .map port else .tap port) (n + q + wr)

/-- A crossing that the build does not have. -/
def noCrossing (b : Build) : Crossing → Bool
  | .seam _ => !b.halves
  | .tap t => b.isS || 4 * b.nodes ≤ t
  | .map m => b.portKind m != 1
  | .nkp p l => b.portKind p != 2 || 8 ≤ l
  | .d2d p => b.portKind p != 3
  | .spx => false
  | .cfg => false
  | .dbg => false

/-- The number by which a report names a crossing: its TAP, MAP or port. -/
def crossObj : Crossing → Nat
  | .seam e => bit e
  | .tap t => t
  | .map m => m
  | .nkp p _ => p
  | .d2d p => p
  | _ => 0

/-- The running side's answer to a far side that is reset, or whose clock has stopped (R414). -/
def farSideGone (s : State) (x : Crossing) (stopped : Bool) : State :=
  match x with
  | .seam e => (s.resetHalf e).holdX x stopped
  | .tap t => if s.nodeOn (t / 4) then (s.flushMem false t).holdX x stopped else s
  | .map m => if s.portOn m then (s.flushMem true m).holdX x stopped else s
  | .nkp p l => (s.laneFail p l).holdX x stopped
  | .d2d p => (s.fdiError p).holdX x stopped
  | .spx => s.holdX x stopped
  | .dbg => s.holdX x stopped
  -- the access in progress is abandoned; its effect at the register stands where it had been accepted
  | .cfg => ({ s with accs := s.accs.filter (fun (a : CfgAcc) => a.asker != Asker.cfg), cfgWait := none }).holdX x stopped

/-- CROSSING_FAR_RESET (R414). -/
def crossingReset (s : State) (x : Crossing) : State := (s.farSideGone x false).farReset (crossObj x)

/-- CLOCK_STOP (R412): the far-side clock stops, and the crossing sees it when XTMO cycles have passed without a count (R4). The clock of the West half, or of a single field, is that of the configuration/Headstock domain: with it
everything stops until RST_N, and the East half's ports, or those of the build, hold electrical idle. A reset seen on the crossing in
the same cycle is all that happens (R419). -/
def clockStop (s : State) (x : Crossing) : State :=
  if x == .seam false then
    let s := (s.linkPorts.filter (fun p => s.linkState p != 0)).foldl (fun s p => s.linkDown p 1) s
    let s := (upFrom 0 s.build.cfgDom).foldl (fun s d => s.setDom d 0) s
    { s with boot := 3 }
  else if (s.heldX x).any (fun h => !h.stopped && h.seen == s.cyc) then s
  else
    let s := s.passCyc (s.cyc + s.get 0 F.PWR_CTL_XTMO)
    ((s.farSideGone x true).farReset (crossObj x)).pwrErr F.PWR_ERR_CLKSTOP stINTERNAL (crossObj x)

/-- The watch slots of a core are FREE, and their generations have advanced (R415). -/
def freeSlots (s : State) (t : Nat) : State :=
  let ep := t / 4
  (upFrom (16 * (t % 4)) 16).foldl (fun s k =>
    let b := wslotBase ep k
    let s := s.set b F.NI_WSLOTs_HI_GEN (s.get b F.NI_WSLOTs_HI_GEN + 1)
    let s := s.set b F.NI_WSLOTs_HI_STATE 0
    { s with armed := s.armed.filter (fun a => !(a.ep == ep && a.slot == k)) }) s

/-- JOIN (R415): the flush is complete, so that the crossing rejoins. -/
def joinRow (s : State) (x : Crossing) : State :=
  match s.heldX x with
  | none => s
  | some _ =>
    if x == .seam true || x == .seam false then s     -- the seam rejoins with the release of its half (R412, R416)
    else
      let s := s.dropX x
      match x with
      | .tap t => if s.nodeOn (t / 4) then s.freeSlots t else s
      | .d2d p => s.updLink p (fun l => { l with idle := some s.tmo })
      | _ => s

/-- JOIN_TIMEOUT: a JOIN that the block has signalled is not answered within XTMO cycles; it is signalled again every 1,024 cycles,
and the crossing stays held (R4, R415). -/
def joinTimeout (s : State) (x : Crossing) : State :=
  let s := if (s.heldX x).isSome then s else s.holdX x false
  let start := match s.heldX x with
    | some h => if h.joined then h.at' + 1024 else s.cyc
    | none => s.cyc
  let s := s.passCyc (start + s.get 0 F.PWR_CTL_XTMO)
  let s := { s with xheld := s.xheld.map (fun (h : XHold) => if h.x == x then { h with joined := true, at' := start } else h) }
  s.pwrErr F.PWR_ERR_REJOIN stTIMEOUT (crossObj x)

/-- EAST_CLOCK_RESTART: the East fclk has run again for 64 cycles (R412). -/
def eastRestart (s : State) : State :=
  if (s.heldX (.seam true)).any (·.stopped) then (s.passCyc (s.cyc + 64)).releaseHalf true else s

end State
end Sys2Proof.Machine
end

