-- ==== Sys2Proof/Machine/RegAccess.lean ====
section
/-! DEFINITION. Register accesses: the checks of R9-R11, one read and one write for every register of the configuration
window, with what its own rule adds to its field types. -/
namespace Sys2Proof.Machine

/-- Who makes a register access: the CFG host (R453), the maintenance/debug port (R438), a command of a ring (R379). -/
inductive AccBy where
  | cfg
  | dbg
  | ring (r : Nat)
  deriving DecidableEq, Repr

/-- The source under which an access is recorded (R428). -/
def AccBy.src : AccBy → Nat
  | .cfg => srcAcc 0
  | .dbg => srcAcc 1
  | .ring r => srcRing r

/-- The new value of one field when `new` is written over `old` (00_scope.md, Register access types; R118). `data` is the whole
word written; `locked` says that KEY_LOCK is set. -/
def fieldWrite (locked : Bool) (old new data : Nat) (ty : RTy) : Nat :=
  match ty with
  | .RW => new
  | .RWS => new
  | .RO => old
  | .WO => 0
  | .W1C => old - Nat.land old new
  | .RWL => if locked then old else new
  | .CLR => if data == 0 then 0 else old
  | .TLM => old

/-- The word of a register after a write under its field types. -/
def wordWrite (locked : Bool) (flds : List RegFld) (old data : Nat) : Nat :=
  flds.foldl (fun acc f => acc + fieldWrite locked (bitsOf old f.lo f.w) (bitsOf data f.lo f.w) data f.ty * 2 ^ f.lo) 0

/-- A write would change a frozen field (R435). -/
def changesLocked (flds : List RegFld) (old data : Nat) : Bool :=
  flds.any (fun f => f.ty == .RWL && bitsOf old f.lo f.w != bitsOf data f.lo f.w)

/-- Ones among the low `n` bits. -/
def popCount (x n : Nat) : Nat := ((upFrom 0 n).filter (fun i => bitAt x i)).length

namespace State

/-! ### The checks (R9-R11) -/

/-- A word of the sync debug window exists (R318). -/
def inSyncWin (o : Nat) : Bool :=
  o < 0x2000 || (0x40000 ≤ o && o < 0x50000) || (0x80000 ≤ o && o < 0x84000) || (0xC0000 ≤ o && o < 0xC0100)

/-- An address names a register (R8, R9). -/
def mapped (s : State) (a : Nat) : Bool :=
  match locate s.build a with
  | .syncWin off => off / 0x100000 < s.build.units && inSyncWin (off % 0x100000)
  | .bowlWin off => off / 0x10000 < s.build.bowlSlots
  | .unmapped => false
  | _ => (rowAt s.build a).isSome

/-- The status of an access to an address (R9-R11). -/
def accCheck (s : State) (a : Nat) : Nat :=
  if a % 4 != 0 then stBADCMD
  else if !s.mapped a then stDENIED
  else if !s.domOn (s.addrDom a) then stDOMAIN_OFF
  else stOK

/-- An access recorded in class ACCESS, where its status is not OK (R9-R11, R428). -/
def recordAcc (s : State) (by' : AccBy) (wr : Bool) (a data st : Nat) : State :=
  if st == stOK then s
  else s.report 0 by'.src st (packFields [(28, a), (1, bit wr), (1, bit (by' == .dbg)), (2, 0), (32, if wr then data else 0)])

/-! ### Reads -/

/-- A word of the sync debug window (R291, R318). The layout of barrier state and realign slots is not given: a free value. -/
def syncWinRead (s : State) (u o : Nat) : Word × State :=
  if o < 0x2000 then (BitVec.ofNat 32 (bitsOf (s.sem u (o / 8)) (o % 8 * 8) 32), s)
  else if o < 0x50000 then
    let w := match s.watches.find? (fun w => w.unit == u && w.ent == (o - 0x40000) / 32) with
      | none => 0
      | some w => packFields [(1, 1), (1, bit w.fired), (3, w.kind), (10, w.index), (40, w.n), (24, w.tag), (10, w.job), (4, w.ctx),
          (7, w.scol), (6, w.srow), (7, w.port), (24, w.src), (24, w.psn), (16, w.mepoch), (32, w.deadline), (4, w.status)]
    (BitVec.ofNat 32 (bitsOf w (o % 32 * 8) 32), s)
  else (Config.openWord 9 s.free, s.drawFree)

/-- A word of the Bowl debug window: an accumulator of a slot (R253). A slot that holds no grant shows what was left in it, which
the spec does not give: a free value (R240 zeroes a slot when it is granted). -/
def bowlWinRead (s : State) (off : Nat) : Word × State :=
  match s.bslots.find? (fun x => x.slot == off / 0x10000) with
  | some x => (BitVec.ofNat 32 ((x.sums[off % 0x10000 / 4]?).getD 0), s)
  | none => (Config.openWord 10 s.free, s.drawFree)

/-- Turns until the active plan completes under TURNS (R177). -/
def turnsLeft (s : State) : Nat :=
  match s.lathe.endTurn with
  | some t => if s.lathe.active then min 65535 (subMod 40 t s.spn.turn) else 0
  | none => 0

/-- FAB_CORES_GOOD (R34). -/
def coresGood (s : State) : Nat :=
  (s.regs.map (fun e => match locate s.build e.1 with
    | .node _ 0x1000 => popCount e.2.toNat 4
    | _ => 0)).sum

/-- A read of a global or Headstock register. -/
def readGlob (s : State) (a : Nat) : Word × State :=
  let plain := (s.word a, s)
  let val := fun (x : Nat) => (BitVec.ofNat 32 x, s)
  if a == 0x8 then val s.coresGood
  else if a == 0x110 then s.spnNowRead
  else if a == 0x21C then val s.spills.length
  else if a == 0x40C then val s.turnsLeft
  else if a == 0x604 then val (s.build.bowlSlots - s.bslots.length + 65536 * s.bents.length)
  else if a == 0x608 then val (s.build.replyRecs + 65536 * (s.build.replyRecs - s.replyUsed))
  else if a == 0x738 then
    val (packFields [(13, (s.bents.filter (fun e => e.state == 0)).length),
      (1, bit (match s.lathe.load with | some l => l.granted | none => false)), (1, bit s.bslots.isEmpty)])
  else if 0x2000 ≤ a && a < 0x3000 then
    if a % 64 != 0 then plain
    else
      let u := (a - 0x2000) / 64
      val (packFields [(12, (s.watches.filter (fun w => w.unit == u)).length),
        (11, (s.sems.filter (fun e => e.1 / 1024 == u && bitAt e.2 50)).length), (9, (s.bars.filter (fun x => x.unit == u && (!x.slice.isEmpty || x.root.isSome))).length)])
  else if s.isTlm a then s.tlmLoRead a
  else if 0x4000 ≤ a && a < 0x4800 then (s.logWord ((a - 0x4000) / 32) (a % 32 / 4), s)
  else if 0x80000 ≤ a && a < 0xC0000 then (s.traceWord ((a - 0x80000) / 64) (a % 64 / 4), s)
  else if a == 0x100004 then
    val (packFields [(1, bit s.hdsIdle), (9, s.hwatch.length), (1, s.get 0 F.HDS_STAT_DRAINING)])
  else if 0x110000 ≤ a && a < 0x120000 then val (s.ramWord (ramBase .cmem + (a - 0x110000)))
  else plain

/-- A read of an NI register of an endpoint, at an offset of its block. -/
def readNi (s : State) (ep off : Nat) : Word × State :=
  let a := niBase ep + off
  let plain := (s.word a, s)
  let val := fun (x : Nat) => (BitVec.ofNat 32 x, s)
  if off == 0x1004 then val (s.roQuota ep + 65536 * s.roUsed ep)
  else if off == 0x1014 then val (s.outUsed ep)
  else if 0x1100 ≤ off && off < 0x1200 then
    let c := (off - 0x1100) / 16
    if off % 16 == 0 then (setWordField (s.word a) 15 1 (bit (s.ctxStopped ep c)), s)
    else if off % 16 == 8 then val (s.ctxOut ep c)
    else plain
  else if off == 0x1224 then (s.blkAvail ep 0, s)
  else if off == 0x1228 then (s.blkAvail ep 2, s)
  else if off == 0x1324 then
    val (packFields [(2, s.relayLen ep), (2, 0), (4, s.nackQueue ep), (13, (s.holds.filter (fun h => h.ep == ep && !h.past)).length)])
  else if ep < 0xF00 && 0x1C10 ≤ off && off < 0x1C20 then s.selRead ep ((off - 0x1C10) / 4)
  else plain

/-- A read of a register of a node block; a node number from 0xF00 on names no NI (R17). -/
def readNode (s : State) (n off : Nat) : Word × State :=
  let a := nodeBase n + off
  if off == 0xC then (BitVec.ofNat 32 (s.rtrStat n), s)
  else if off == 0x44 then (BitVec.ofNat 32 (s.burl.filter (fun e => e.node == n)).length, s)
  else if s.isTlm a then s.tlmLoRead a
  else if 0xD00 ≤ off && off < 0xE00 then (s.depthWord a, s)
  else if 0x1000 ≤ off && off < 0x2000 && n < 0xF00 then s.readNi n off
  else (s.word a, s)

/-- A read of a register of a port block. -/
def readPort (s : State) (p off : Nat) : Word × State :=
  if off == 0x4004 then
    let mine := s.colls.filter (fun c => c.port == p)
    (BitVec.ofNat 32 (packFields [(7, (mine.filter (·.running)).length), (9, mine.length),
      (11, s.readyHeld p)]), s)
  else if 0x5000 ≤ off && off < 0x6000 then
    let g := (off - 0x5000) / 64
    (BitVec.ofNat 32 (match s.colrecs.find? (fun r => r.port == p && r.g == g) with
      | some r => bitsOf r.bits (off % 64 * 8) 32
      | none => 0), s)
  else if 0x1000 ≤ off && off < 0x2000 then s.readNi (0xF00 + p) off
  else (s.word (portBase p + off), s)

/-- A read that its checks allow: the data, and what the read itself changes. -/
def readReg (s : State) (a : Nat) : Word × State :=
  match rowAt s.build a with
  | some (_, true) => (0, s)
  | _ =>
    match locate s.build a with
    | .glob off => s.readGlob off
    | .node n off => s.readNode n off
    | .port p off => s.readPort p off
    | .syncWin off => s.syncWinRead (off / 0x100000) (off % 0x100000)
    | .bowlWin off => s.bowlWinRead off
    | .unmapped => (0, s)

/-! ### Writes -/

/-- A write under the field types alone, with the lock of R435. -/
def plainWrite (s : State) (a data : Nat) : Nat × State :=
  match rowAt s.build a with
  | none => (stOK, s)
  | some (r, _) =>
    let old := (s.word a).toNat
    let locked := s.flag 0 F.KEY_LOCK_LOCK
    let s' := s.setWord a (BitVec.ofNat 32 (wordWrite locked r.flds old data))
    if locked && changesLocked r.flds old data then (stDENIED, s'.violation 5 0) else (stOK, s')

/-- A locked write would change an RWL field of its register (R435). -/
def locksOut (s : State) (a data : Nat) : Bool :=
  s.flag 0 F.KEY_LOCK_LOCK && ((rowAt s.build a).map (fun r => changesLocked r.1.flds (s.word a).toNat data)).getD false

/-- A plain write where a condition holds, or its refusal; under the lock the refused write of a frozen field is a violation all the
same (R435). -/
def writeIf (s : State) (ok : Bool) (st a data : Nat) : Nat × State :=
  if ok then s.plainWrite a data
  else if s.locksOut a data then (stDENIED, s.violation 5 0)
  else (st, s)

/-- An enabled context of the die names a table set. -/
def tsetUsed (s : State) (t : Nat) : Bool := s.contexts.any (fun c => s.ctxTset c.1 c.2 == t)

/-- A context with NI_CTX_SYN.EN = 1 names a sync map (R285). -/
def smapUsed (s : State) (m : Nat) : Bool :=
  s.regs.any (fun e => match locate s.build e.1 with
    | .node _ off => 0x1100 ≤ off && off < 0x1200 && off % 16 == 12 && bitAt e.2.toNat 4 && e.2.toNat % 16 == m
    | _ => false)

/-- Writes of a table set's registers (R124, R127). -/
def tsetRegWrite (s : State) (t : Nat) (ctl : Bool) (data : Nat) : Nat × State :=
  let a := 0x280 + 8 * t + 4 * bit ctl
  let loc := if ctl then bitAt data 1 else s.flag (8 * t) F.NI_TSET_CTL_LOC
  let base := if ctl then s.get (8 * t) F.NI_TSET_BASE_BASE else data
  let change := ctl && bitsOf data 0 9 != bitsOf (s.word a).toNat 0 9
  if change && s.tsetUsed t then (stDENIED, s)
  else if !loc && 20 < base then (stBADCMD, s)
  else
    let r := s.plainWrite a data
    (r.1, r.2.dropCaches t)

/-- Writes of a sync map's registers (R284, R285). -/
def smapWrite (s : State) (m : Nat) (ctl : Bool) (data : Nat) : Nat × State :=
  let a := 0x880 + 8 * m + 4 * bit ctl
  let loc := if ctl then bitAt data 1 else s.flag (8 * m) F.SYN_MAPm_CTL_LOC
  let base := if ctl then s.get (8 * m) F.SYN_MAPm_BASE_BASE else data
  let limit := if ctl then bitsOf data 9 9 else s.get (8 * m) F.SYN_MAPm_CTL_LIMIT
  if s.smapUsed m then (stDENIED, s)
  else if !loc && 0x200000 < base * 65536 + limit * 32768 then (stBADCMD, s)
  else s.plainWrite a data

/-- A write of CLM_REVOKE (R248): the maintenance port revokes; from elsewhere it is refused and raises a PRIV violation. -/
def revokeWrite (s : State) (by' : AccBy) (data : Nat) : Nat × State :=
  if by' != .dbg then (stDENIED, s.violation 6 0)
  else if bitAt data 11 then (stOK, s.pwRevoke)
  else (stOK, match s.bslots.find? (fun x => x.slot == data % 2048) with
    | some x => s.slotFall x
    | none => s)

/-- A write of CLM_CTL (R246, R253). -/
def clmCtlWrite (s : State) (data : Nat) : Nat × State :=
  if bitsOf data 2 4 == 0 then (stBADCMD, s)
  else
    let r := s.plainWrite 0x700 data
    (r.1, if bitAt data 0 then r.2 else r.2.clmTake)

/-- A write of GOV_CTL (R151, R152). -/
def govCtlWrite (s : State) (data : Nat) : Nat × State :=
  if bitsOf data 1 10 < 8 then (stBADCMD, s)
  else
    let r := s.plainWrite 0x300 data
    (r.1, if bitAt data 0 then r.2 else r.2.set 0 F.GOV_STAT_B 64)

/-- A write of a register of ring r (R372, R394). -/
def ringWrite (s : State) (r off data : Nat) : Nat × State :=
  if off == 0x8 then s.ringCtlWrite r data
  else if off == 0xC then s.doorbellWrite r (data % 65536) (bitAt data 16)
  else s.plainWrite (0x101000 + 0x20 * r + off) data

/-- A write of a global or Headstock register. -/
def writeGlob (s : State) (by' : AccBy) (a data : Nat) : Nat × State :=
  let plain := s.plainWrite a data
  if a == 0x100 then s.spnCtlWrite data
  else if a == 0x210 then s.writeIf (!(bitAt data 31 && 508400 < s.get 0 F.NI_SPILL_SLOTS_N)) stBADCMD a data
  else if a == 0x214 || a == 0x218 then s.writeIf (!s.flag 0 F.NI_SPILL_DEST_EN) stDENIED a data
  else if 0x280 ≤ a && a < 0x300 then s.tsetRegWrite ((a - 0x280) / 8) (a % 8 == 4) data
  else if a == 0x300 then s.govCtlWrite data
  else if a == 0x304 then s.writeIf (40 ≤ data % 256 && data % 256 ≤ 240) stBADCMD a data
  else if a == 0x400 then s.writeIf (1 ≤ data % 16 && data % 16 ≤ 8) stBADCMD a data
  else if a == 0x500 then s.writeIf (data % 128 ≤ 64) stBADCMD a data
  else if a == 0x700 then s.clmCtlWrite data
  else if 0x710 ≤ a && a < 0x730 then (stOK, s.clmPrioWrite a (BitVec.ofNat 32 data))
  else if a == 0x730 then (stOK, s.clmPrioWrite a (BitVec.ofNat 32 (data % 4)))
  else if a == 0x734 then (stOK, if bitAt data 0 then s.clmTake else s)
  else if a == 0x73C then s.revokeWrite by' data
  else if a == 0x800 then s.writeIf (data % 2 ^ 20 != 0) stBADCMD a data
  else if 0x880 ≤ a && a < 0x900 then s.smapWrite ((a - 0x880) / 8) (a % 8 == 4) data
  else if a == 0x900 then s.writeIf (1024 ≤ data % 2 ^ 14 && data % 2 ^ 14 ≤ 16000) stBADCMD a data
  else if a == 0xA00 then
    let r := s.writeIf (16 ≤ bitsOf data 1 11 && 64 ≤ bitsOf data 12 11) stBADCMD a data
    (r.1, r.2.turns)
  else if a == 0xA04 then s.writeIf (1 ≤ data % 65536 && data / 65536 < data % 65536) stBADCMD a data
  else if a == 0xB08 then (stOK, if bitAt data 0 then s.popLog else s)
  else if a == 0xC04 then (stOK, if bitAt data 14 then s.trigClear else s)
  else if a == 0xD04 then (stOK, if bitAt data 0 then s.lockKeys else s)
  else if s.isTlm a then (stOK, s.tlmLoWrite a data)
  else if a == 0x100000 then s.hdsCtlWrite data
  else if (0x100100 ≤ a && a < 0x100180) || (0x108000 ≤ a && a < 0x10C000) then s.writeIf s.hdsIdle stDENIED a data
  else if 0x101000 ≤ a && a < 0x101200 then s.ringWrite ((a - 0x101000) / 32) (a % 32) data
  else if 0x110000 ≤ a && a < 0x120000 then
    (stOK, s.ramStore (ramBase .cmem + (a - 0x110000)) (leBytes data 4) [])
  else plain

/-- NIs that share the reorder bank of an NI (R138). -/
def bankNis (s : State) (ep : Nat) : List Nat :=
  let d := (s.build.roBank ep).1
  if ep < 0xF00 then s.build.domNodes d else (s.build.domPorts d).map (fun p => 0xF00 + p)

/-- A write of NI_RO_QUOTA (R138). -/
def quotaWrite (s : State) (ep data : Nat) : Nat × State :=
  let q := data % 65536
  let old := s.roQuota ep
  let total := ((s.bankNis ep).map s.roQuota).sum
  if (old < q && (s.build.roBank ep).2 < total - old + q) || q < s.roUsed ep then (stDENIED, s)
  else (stOK, s.set (niBase ep) F.NI_RO_QUOTA_QUOTA q)

/-- A write of NI_CTX_CTL (R119, R124, R153). -/
def ctxCtlWrite (s : State) (ep c data : Nat) : Nat × State :=
  let a := niBase ep + 0x1100 + 16 * c
  let old := (s.word a).toNat
  let job := bitsOf data 1 10
  let t := bitsOf data 11 4
  if job == 0x3FE || job == 0x3FF then (stDENIED, s)
  else if bitAt old 0 && bitsOf old 1 14 != bitsOf data 1 14 then (stDENIED, s)
  else if bitAt data 0 && 0xF00 ≤ ep && s.flag (8 * t) F.NI_TSET_CTL_LOC then (stDENIED, s)
  else s.plainWrite a data

/-- A write of NI_CTX_SYN (R285, R318). -/
def ctxSynWrite (s : State) (ep c data : Nat) : Nat × State :=
  let a := niBase ep + 0x110C + 16 * c
  let old := (s.word a).toNat
  let m := data % 16
  if bitAt old 4 && old % 16 != m then (stDENIED, s)
  else if bitAt data 4 && !bitAt old 4 &&
      !(s.mapV m && s.get (8 * m) F.SYN_MAPm_CTL_JOB == s.ctxJob ep c) then (stDENIED, s)
  else s.plainWrite a data

/-- A write of a deposit window's registers (R201). -/
def dwinWrite (s : State) (ep w : Nat) (ctl : Bool) (data : Nat) : Nat × State :=
  let a := niBase ep + 0x1300 + 8 * w + 4 * bit ctl
  let en := s.flag (niBase ep + 8 * w) F.NI_DWINw_CTL_EN
  let change := if ctl then bitsOf (s.word a).toNat 0 28 != bitsOf data 0 28 else (s.word a).toNat != data % 2 ^ 30
  if en && change then (stDENIED, s)
  else if ctl && bitAt data 31 && !s.coreGood ep (bitsOf data 16 2) then (stDENIED, s)
  else s.plainWrite a data

/-- A write of an accumulate window's registers (R235). -/
def awinWrite (s : State) (ep w k data : Nat) : Nat × State :=
  let a := niBase ep + 0x1340 + 16 * w + 4 * k
  let en := s.flag (niBase ep + 16 * w) F.NI_AWINw_CTL_EN
  let n := if k == 0 then 32 else if k == 1 then 24 else if k == 2 then 31 else 17
  if en && bitsOf (s.word a).toNat 0 n != bitsOf data 0 n then (stDENIED, s)
  else if k == 2 && bitAt data 31 && ep < 0xF00 && !s.coreGood ep (bitsOf data 29 2) then (stDENIED, s)
  else s.plainWrite a data

/-- A write of a completion queue's registers (R394). -/
def cqWrite (s : State) (ep c k data : Nat) : Nat × State :=
  let a := niBase ep + 0x1400 + 16 * c + 4 * k
  let en := s.flag (niBase ep + 16 * c) F.NI_CQc_CTL_EN
  let old := (s.word a).toNat
  if k == 2 then s.cqHeadWrite ep c data
  else if en && (if k == 0 then old != data else k == 1 && bitsOf old 1 15 != bitsOf data 1 15) then (stDENIED, s)
  else s.plainWrite a data

/-- A write of a receive queue's registers (R322, R330, R335). -/
def rqWrite (s : State) (ep q k data : Nat) : Nat × State :=
  let a := niBase ep + 0x1800 + 32 * q + 4 * k
  let old := (s.word a).toNat
  if k == 1 then s.rqCtlWrite ep q data
  else if k == 4 then s.headWrite ep q data
  else if (k == 2 || k == 3) && s.rqOn ep q && bitsOf old 0 28 != bitsOf data 0 28 then (stDENIED, s)
  else s.plainWrite a data

/-- A write of a send queue's registers (R322, R335). -/
def sqWrite (s : State) (ep q k data : Nat) : Nat × State :=
  let a := niBase ep + 0x1A00 + 32 * q + 4 * k
  let old := (s.word a).toNat
  if k == 0 then s.sqCtlWrite ep q data
  else if (k == 1 && s.sqOn ep q && bitsOf old 0 20 != bitsOf data 0 20) ||
      (k == 2 && s.sqOn ep q && bitsOf old 0 18 != bitsOf data 0 18) then (stDENIED, s)
  else s.plainWrite a data

/-- A write of NI_THR: the glint class unthrottled is at level 0 with a full bucket (R149). -/
def thrWrite (s : State) (ep data : Nat) : Nat × State :=
  let r := s.plainWrite (niBase ep + 0x100C) data
  (r.1, if bitAt data 24 && s.flag (niBase ep) F.NI_THR_GLINT_EN then r.2 else (r.2.setThrLevel ep 3 0).setBucket ep 3 ⟨0, 0⟩)

/-- A write of an NI register of an endpoint, at an offset of its block. -/
def writeNi (s : State) (ep off data : Nat) : Nat × State :=
  let a := niBase ep + off
  let node := ep < 0xF00
  let k := off % 16 / 4
  if off == 0x1000 then
    let old := (s.word a).toNat
    let rank := (upFrom 0 4).any (fun i => bitAt old i && !bitAt data i && 0 < nget s.rankCnt 0 (4 * ep + i))
    s.writeIf (!rank) stDENIED a data
  else if off == 0x1004 then s.quotaWrite ep data
  else if off == 0x100C then s.thrWrite ep data
  else if 0x1100 ≤ off && off < 0x1200 then
    let c := (off - 0x1100) / 16
    if k == 0 then s.ctxCtlWrite ep c data else if k == 3 && node then s.ctxSynWrite ep c data else s.plainWrite a data
  else if 0x1200 ≤ off && off < 0x1220 then
    let n := (off - 0x1200) / 8
    if off % 8 == 4 then s.poolCfgWrite ep n data
    else s.writeIf (!(s.poolOn ep n && (s.word a).toNat != data)) stDENIED a data
  else if off == 0x1220 then s.blkFreeWrite ep data
  else if 0x1300 ≤ off && off < 0x1320 && node then s.dwinWrite ep ((off - 0x1300) / 8) (off % 8 == 4) data
  else if 0x1340 ≤ off && off < 0x1380 then s.awinWrite ep ((off - 0x1340) / 16) k data
  else if 0x1400 ≤ off && off < 0x1500 then s.cqWrite ep ((off - 0x1400) / 16) k data
  else if 0x1600 ≤ off && off < 0x1800 && node then
    if off % 8 == 4 then s.wslotWrite ep ((off - 0x1600) / 8) data else (stOK, s)
  else if 0x1800 ≤ off && off < 0x1A00 && node then s.rqWrite ep ((off - 0x1800) / 32) (off % 32 / 4) data
  else if 0x1A00 ≤ off && off < 0x1C00 && node then s.sqWrite ep ((off - 0x1A00) / 32) (off % 32 / 4) data
  else s.plainWrite a data

/-- A write of a slot-table word (R160): the shadow bank but during LTH_LOAD, the active bank only while the router is FENCED. -/
def slotWrite (s : State) (n off data : Nat) : Nat × State :=
  let bank := (off - 0x2000) / 0x800
  let load := match s.lathe.load with | some l => l.granted | none => false
  let ok := if bank == s.get 0 F.LTH_STAT_BANK then s.rtrState n == 2 else !load
  s.writeIf ok stDENIED (nodeBase n + off) data

/-- A write of a register of a node block. -/
def writeNode (s : State) (n off data : Nat) : Nat × State :=
  let a := nodeBase n + off
  if s.isTlm a then (stOK, s.tlmLoWrite a data)
  else if off == 0x40 then
    let r := s.plainWrite a data
    -- EN cleared releases every entry (R232)
    (r.1, if bitAt data 0 then r.2 else r.2.burlReleaseAll n)
  else if 0x2000 ≤ off && off < 0x3000 then s.slotWrite n off data
  else if 0x1000 ≤ off && off < 0x2000 && n < 0xF00 then s.writeNi n off data
  else s.plainWrite a data

/-- A write of a register of a port block. -/
def writePort (s : State) (p off data : Nat) : Nat × State :=
  let a := portBase p + off
  if off == 0x4000 then s.writeIf (1 ≤ data % 16 && data % 16 ≤ 8) stBADCMD a data
  else if off == 0x6000 then s.nklCtlWrite p data
  else if off == 0x6014 then
    let r := s.plainWrite a data
    if s.flag 0 F.KEY_LOCK_LOCK then r else (r.1, s.nklKeyWrite p data)
  else if off == 0x6018 || off == 0x601C then s.writeIf (!s.rtx.any (fun e => e.port == p)) stDENIED a data
  else if 0x1000 ≤ off && off < 0x2000 then s.writeNi (0xF00 + p) off data
  else s.plainWrite a data

/-- A write that its checks allow: the status it reports, and its effect. -/
def writeReg (s : State) (by' : AccBy) (a data : Nat) : Nat × State :=
  match rowAt s.build a with
  | some (_, true) => (stOK, s)
  | _ =>
    match locate s.build a with
    | .glob off => s.writeGlob by' off data
    | .node n off => s.writeNode n off data
    | .port p off => s.writePort p off data
    | .syncWin _ => (stDENIED, s)
    | .bowlWin _ => (stDENIED, s)
    | .unmapped => (stOK, s)

/-! ### Whole accesses -/

/-- An access made at its register: its status, its read data, and its effect; one whose status is not OK is recorded. -/
def access (s : State) (by' : AccBy) (wr : Bool) (a data : Nat) : Nat × Word × State :=
  let st := s.accCheck a
  if st != stOK then (st, 0, s.recordAcc by' wr a data st)
  else if wr then
    let r := s.writeReg by' a data
    (r.1, 0, r.2.recordAcc by' wr a data r.1)
  else
    let r := s.readReg a
    (stOK, r.1, r.2)

end State
end Sys2Proof.Machine
end

