-- ==== Sys2Proof/Machine/Station.lean ====
section
/-! DEFINITION. The CFG and DBG ports and the Headstock station: register accesses at once or over CQ and CP, their responses
and timeouts, and what the station does with everything that is routed to it (R9-R11, R68, R416, R438, R439, R453, R454,
R469). -/
namespace Sys2Proof.Machine

/-- The source of an access by who asked for it. -/
def Asker.by' : Asker → AccBy
  | .cfg => .cfg
  | .cmd r _ => .ring r

/-- Where an access to a register of a node or port block travels: column, row and exit port (R68); none for a register that
the Headstock reaches by itself. -/
def cfgDest (b : Build) (a : Nat) : Option (Nat × Nat × Nat) :=
  match locate b a with
  | .node n _ => some (b.col n, b.row n, 127)
  | .port p _ => some (dstPos b (0xF00 + p))
  | _ => none

namespace State

/-- While a half is in reset: the CQ or CP path of an access leads through a domain that is not Lit (R416). -/
def pathDown (s : State) (a : Nat) (d : Nat × Nat × Nat) : Bool :=
  let b := s.build
  let off := fun (k : Nat) => k != s.addrDom a && s.dom k != 3
  (s.halfReset true || s.halfReset false) &&
  ((upFrom 0 b.nodes).any (fun n => off (b.nodeDom n) &&
      (onRoute false (0, 0) (d.1, d.2.1) (b.col n, b.row n) || onRoute false (d.1, d.2.1) (0, 0) (b.col n, b.row n))) ||
    (d.2.2 != 127 && off (b.portDom d.2.2)))

/-- An access has completed: CFG_ACK rises (R453), or the command that made it completes (R379). -/
def accEnd (s : State) (k : Asker) (data : Word) (st : Nat) : State :=
  match k with
  | .cfg => State.drive { s with cfgAck := some (data, st) } (.cfgAck data st)
  | .cmd r i => s.finishCmd r i st data.toNat

/-- A CFG_RD or CFG_WR leaves the Headstock station (R68). Its TAG is the access's number, and CHAN 1 tells the NACKs of
accesses from those of the station's memory requests (DESIGN CHOICE, log 12). -/
def sendCfg (s : State) (k : Asker) (wr : Bool) (a data : Nat) (d : Nat × Nat × Nat) : State :=
  let id := s.nextId
  let h := { Hdr.zero with
    ptype := if wr then tCFG_WR else tCFG_RD
    dcol := d.1, drow := d.2.1, exitp := d.2.2, job := 0x3FF, chan := 1, tag := id % 2 ^ 24, addr := a, aux := data
    ts := s.ts }
  let s := { s with accs := s.accs ++ [(⟨id, k, wr, a, s.cyc, data⟩ : CfgAcc)], nextId := id + 1 }
  s.sendFrom 0xF7E (Pkt.bare h Ext.none)

/-- A register access of the CFG host or of a command: refused, made at once, or sent on its way. -/
def regAccess (s : State) (k : Asker) (wr : Bool) (a data : Nat) : State :=
  let d := cfgDest s.build a
  let blocked := match d with
    | some x => s.pathDown a x
    | none => false
  let st := s.accCheck a
  let st := if st == stOK && blocked then stDOMAIN_OFF else st
  if st != stOK then (s.recordAcc k.by' wr a data st).accEnd k 0 st
  else match d with
    | some x => s.sendCfg k wr a data x
    | none =>
      let r := s.access k.by' wr a data
      r.2.2.accEnd k r.2.1 r.1

/-- What a receiver takes of a value that crosses by double sampling: that of the first of the four pairs whose samples agree; none
where no pair does (R410). -/
def agreed {α : Type} [DecidableEq α] (pairs : List (α × α)) : Option α :=
  ((pairs.take 4).find? (fun p => p.1 == p.2)).map (·.1)

/-- An access comes over the crossing of the CFG or DBG port (R408, R410): the value the receiver goes on with, which is the
previous one, with a report, where no pair agreed (R428: class INTERNAL). `port` is 0 for CFG, 1 for DBG. -/
def crossed (s : State) (port : Nat) (old : Bool × Nat × Nat) (pairs : List ((Bool × Nat × Nat) × (Bool × Nat × Nat))) : (Bool × Nat × Nat) × State :=
  match agreed pairs with
  | some v => (v, s)
  | none => (old, s.report 0x1A (srcAcc port) stINTERNAL 0xFF)

/-- The samples of a value that its sender holds stable for the 12 cycles that it must (R410). -/
def steady (v : Bool × Nat × Nat) : List ((Bool × Nat × Nat) × (Bool × Nat × Nat)) := List.replicate 4 (v, v)

/-- An access of the CFG host. While RST_N is low and while the block initialises it waits (R454). The host raises none while its
crossing is held or its last access has not been acknowledged (R414, R453), so that nothing happens then (log 1). -/
def cfgAccess (s : State) (wr : Bool) (a data : Nat) : State :=
  if (s.heldX .cfg).isSome || s.cfgWait.isSome || s.accs.any (fun x => x.asker == Asker.cfg) then s
  else
    let r := s.crossed 0 s.cfgVal (steady (wr, a, data))
    let s := { r.2 with cfgVal := r.1, cfgAck := none }
    if s.boot != 0 then { s with cfgWait := some r.1 } else s.regAccess .cfg r.1.1 r.1.2.1 r.1.2.2

/-- The access that has waited for the end of the initialisation (R417, R454). -/
def cfgWaited (s : State) : State :=
  match s.cfgWait with
  | none => s
  | some (wr, a, data) => if s.boot != 0 then s else ({ s with cfgWait := none }).regAccess .cfg wr a data

/-- The access of the maintenance port has completed: what the next Capture-DR takes (R438). -/
def dbgEnd (s : State) (data : Word) (st : Nat) : State :=
  State.drive { s with jtag := { s.jtag with data := data, status := st, done := true } } (.dbgDone data st)

/-- An access of the maintenance/debug port (R438). Under KEY_LOCK with DBG_EN 0 it reads zero, has no effect and raises a
DEBUG violation; its status is not given (DEDUCED: DENIED, log 12) (R439). While RST_N is low nothing can be reached, and with the JTAG clock stopped nothing comes over its crossing (R412). -/
def dbgAccess (s : State) (wr : Bool) (a data : Nat) : State :=
  if s.boot == 3 || (s.heldX .dbg).isSome then s
  else
    let v := s.crossed 1 s.jtag.access (steady (wr, a, data))
    let s := { v.2 with jtag := { v.2.jtag with ir := 0x3A, access := v.1 } }
    if s.boot == 1 then s.dbgEnd 0 stDOMAIN_OFF
    else if s.flag 0 F.KEY_LOCK_LOCK && !s.flag 0 F.KEY_CTL_DBG_EN then (s.violation 7 0).dbgEnd 0 stDENIED
    else
      let r := s.access .dbg v.1.1 v.1.2.1 v.1.2.2
      r.2.2.dbgEnd r.2.1 r.1

/-- The accesses under way whose response cannot return while a half is in reset (R416). -/
def accsDown (s : State) : List CfgAcc :=
  s.accs.filter (fun x => ((cfgDest s.build x.addr).map (s.pathDown x.addr)).getD false)

/-- The access that a packet answers, by its TAG. -/
def accOf (s : State) (tag : Nat) : Option CfgAcc := s.accs.find? (fun x => x.id % 2 ^ 24 == tag)

/-- An access is over. -/
def closeAcc (s : State) (x : CfgAcc) (data : Word) (st : Nat) : State :=
  State.accEnd { s with accs := delFirst (fun (y : CfgAcc) => y.id == x.id) s.accs } x.asker data st

/-- They complete at once, as an access to a domain that is off (R11, R416). -/
def closeDown (s : State) : State :=
  s.accsDown.foldl (fun (s : State) x =>
    (s.recordAcc x.asker.by' x.write x.addr x.data stDOMAIN_OFF).closeAcc x 0 stDOMAIN_OFF) s

/-- CFG_RD and CFG_WR at a node block or port block: the access is made there, and answered by a CFG_RSP on CP through the
station at which it arrived (R66, R68). -/
def cfgRow (s : State) (e : Nat) (wr : Bool) : State :=
  match s.takeArrival e (fun a => a.plane == pCQ && a.pkt.hdr.ptype == (if wr then tCFG_WR else tCFG_RD)) with
  | none => s
  | some (a, s) =>
    let h := a.pkt.hdr
    let by' := match s.accOf h.tag with
      | some x => x.asker.by'
      | none => AccBy.cfg
    let r := s.access by' wr h.addr h.aux
    let n := a.link / 30
    let back := { Hdr.zero with
      ptype := tCFG_RSP, dcol := h.scol, drow := h.srow, exitp := 126, scol := s.build.col n, srow := s.build.row n
      job := h.job, ctx := h.ctx, chan := h.chan, seq := h.seq, opc := r.1, tag := h.tag, aux := r.2.1.toNat, ts := s.ts }
    r.2.2.inject (epLink n pCP (a.link % 6)) (Pkt.bare back Ext.none)

/-- A packet that the station discards (R469). -/
def stationDisc (s : State) : State := s.bump (nodeBase 0) F.RTR_DISC_CNT_COUNT 1

/-- CFG_RSP: the Headstock takes the response to an access (R454, R469). -/
def cfgRspRow (s : State) : State :=
  match s.takeArrival 0xF7E (fun a => a.pkt.hdr.ptype == tCFG_RSP) with
  | none => s
  | some (a, s) => match s.accOf a.pkt.hdr.tag with
    | some x => s.closeAcc x (BitVec.ofNat 32 a.pkt.hdr.aux) (a.pkt.hdr.opc % 16)
    | none => s.stationDisc

/-- CFG_TIMEOUT: the k-th access under way has had no response for 65,536 cycles (R454). -/
def cfgTimeout (s : State) (k : Nat) : State :=
  match s.accs[k]? with
  | none => s
  | some x => (s.passCyc (x.at' + 65536)).closeAcc x 0 stTIMEOUT

/-- A NACK answers an access under way: it completes with the NACK's status (DEDUCED, log 12). -/
def accNack (s : State) (h : Hdr) : Option CfgAcc :=
  if h.ptype == tNACK && h.chan == 1 then s.accOf h.tag else none

/-- A packet at the station is the answer to a request of the Headstock, and has a row of its own. -/
def stationReply (s : State) (a : Arrival) : Bool :=
  let h := a.pkt.hdr
  h.ptype == tCFG_RSP || s.isGuardNtf a || (s.accNack h).isSome ||
  ((h.ptype == tRDATA || h.ptype == tWACK || h.ptype == tNACK || h.ptype == tCREDIT) && h.chan == 0 &&
    (s.matchReply 0xF7E h.tag).isSome)

/-- A READ of the route store (R469). The class under which a DENIED one is logged is not given (DEDUCED: HDS, node (0, 0), log 12). -/
def storeRead (s : State) (pk : Pkt) : State :=
  let n := pk.hdr.aux % 4096
  if classMax (classOf pk.hdr.vcn) < n then s.nackReq 0xF7E pk stBADCMD
  else
    let bad := ramSize s.build .store < pk.hdr.addr + n
    let s := if bad then s.report 0x15 (srcNode 0) stDENIED 0xFF else s
    s.readMem .store pk.hdr.addr n (.serve 0xF7E pk)

/-- HEADSTOCK_STATION_RECEIVE (R469): the next packet at the station that answers no request of the Headstock. -/
def stationReceive (s : State) : State :=
  match s.takeArrival 0xF7E (fun a => !s.stationReply a) with
  | none => s
  | some (a, s) =>
    let pk := a.pkt
    if pk.hdr.ptype == tREAD then s.storeRead pk
    else if isRequest pk.hdr.ptype then s.nackReq 0xF7E pk stROUTE
    else s.stationDisc

end State
end Sys2Proof.Machine
end

