-- ==== Sys2Proof/Machine/Settle.lean ====
section
/-! DEFINITION. What comes about without an event of its own once a memory access, a packet or an operation has ended: whoever
waits for it goes on (DESIGN CHOICE on the moment, log 2). -/
namespace Sys2Proof.Machine
namespace State

/-- The descriptor engine has not stopped before a command of a ring (R384). -/
def goesAhead (s : State) (r : Nat) (c : Cmd) : Bool :=
  (s.cmds r).all (fun x => completeCmd x || s.fromHead r c.idx < s.fromHead r x.idx ||
    ((notes x.opc).r && !x.fence && s.withinAhead r x))

/-- Bytes that a Headstock command reads have come: step 9 is a guard's map entry (R284); else the opcode says what goes on. -/
def paramDone (s : State) (r idx step : Nat) (t : Txn) : State :=
  match s.cmdAt r idx with
  | none => s
  | some c =>
    if step == 9 then
      (if t.st == stOK then s.guardEntry r c (leNat t.bytes) (!c.gtake && s.goesAhead r c) else s.guardFail r idx t.st)
    else if c.stage != .running then s
    else match c.opc with
      | 0x20 => s.rankParam r c step t
      | 0x21 => s.tableParam r c step t
      | 0x30 => s.checkParam r c step t
      | 0x38 => s.checkParam r c step t
      | 0x44 => s.bindParam r c step t
      | 0x45 => s.barParam r c step t
      | 0x50 => s.loadRead step t
      | 0x58 => s.groupParam r c step t
      | 0x59 => s.issueParam r c t
      | 0x68 => s.keyParam r c t
      | _ => s

/-- What a port block or the TAPs of a node wait for will not come: the packets that need it have no valid path (R78, R366),
and a SYNC fails with the read's status (R285). -/
def pathLost (s : State) (ep tset key st : Nat) : State :=
  if 0xF00 ≤ ep then
    let p := ep - 0xF00
    let here := s.get (portBase p) F.NKL_RTX_CTL_TSET == tset
    let gone := s.exits.filter (fun x => here && x.port == p && epChip x.pkt.ext.dest == key)
    let s := gone.foldl (fun s x => (s.freePb p x.buf).bump (portBase p) F.NKL_DISC_CNT_COUNT 1)
      { s with exits := s.exits.filter (fun x => !gone.contains x) }
    { s with rtx := s.rtx.map (fun e =>
        if here && e.port == p && e.want && epChip e.pkt.ext.dest == key then { e with want := false } else e) }
  else s.tapFailWaiting ep st (fun x =>
    let ctx := bitsOf x 0 4
    let m := s.get (niBase ep + 0x10 * ctx) F.NI_CTX_SYN_MAP
    s.ctxTset ep ctx == tset &&
    (s.mapCache ep).any (fun e => e.1 == m * 2 ^ 20 + bitsOf x 4 20 && epChip (bitsOf e.2 0 24) == key))

/-- A rank entry or path set has been read (R123). -/
def tableCame (s : State) (ep tset : Nat) (path : Bool) (key epoch : Nat) (t : Txn) : State :=
  let s := s.tableDone ep tset path key epoch t
  let s := if t.st != stOK && path then s.pathLost ep tset key t.st else s
  let s := s.routeAll.exitAll.rtxAll
  if ep < 0xF00 then s.tapRunAll ep else s

/-- A sync-map entry has been read; a failed read is logged and fails the SYNC that waits (R285). -/
def smapCame (s : State) (ep m vid : Nat) (t : Txn) : State :=
  let s := if t.st == stOK then s.smapDone ep m vid t
    else (s.niErr ep F.NI_ERR_TBL_READ t.st m).tapFailWaiting ep t.st (fun x =>
      bitsOf x 4 20 == vid && s.get (niBase ep + 0x10 * bitsOf x 0 4) F.NI_CTX_SYN_MAP == m)
  s.tapRunAll ep

/-- A finished access reaches what waits for it. -/
def txnDone (s : State) (t : Txn) : State :=
  match t.purp with
  | .nothing => s
  | .op _ _ => s
  | .opWrite o len st => s.opWriteDone o len st t
  | .source q => s.sourceDone q t
  | .table ep tset path key epoch => s.tableCame ep tset path key epoch t
  | .smap ep m vid => s.smapCame ep m vid t
  | .serve ep pk => s.served ep pk t
  | .unhold ep src ctx chan seq seg => s.heldRead ep src ctx chan seq seg t false
  | .spill ep src ctx chan seq seg => s.spillWritten ep src ctx chan seq seg t.st
  | .spillHead ep src ctx chan seq seg => s.heldRead ep src ctx chan seq seg t true
  | .acc _ id step => s.accStep id step t
  | .fetch _ _ => s
  | .reply _ _ => s
  | .param r idx step => s.paramDone r idx step t
  | .rtx p key step => s.rtxDone p key step t
  | .col p g n part chunk step => s.colMem p g n part chunk step t
  | .piece id off => s.pieceDone id off t
  | .mlist p g q => s.mlistDone p g q t
  | .stage ep k bk => s.stageDone ep k bk t
  | .mcRetry hold target => s.mcRetrySend hold target t
  | .bowlReply ent => s.resultAnswered ent t.st

/-- A ring takes the end of its fetches and replies in rows of its own (R373, R374). -/
def ringPurp : Purp → Bool
  | .fetch _ _ => true
  | .reply _ _ => true
  | _ => false

/-- The first finished access that does not end in a row of its own, taken. -/
def nextTxn (s : State) : Option (Txn × State) :=
  match s.txns.find? (fun t => t.todo.isEmpty && t.live.isEmpty && !ringPurp t.purp) with
  | none => none
  | some t => some (t, { s with txns := delFirst (fun (x : Txn) => x.id == t.id) s.txns })

/-- An operation that has ended tells its send queue or its collective engine. -/
def opOver (s : State) (o : Op) : State :=
  match o.who with
  | .msg q mtag _ => s.endMsg o q mtag
  | .pad q => s.endPad o q
  | .col g part chunk step =>
    State.colOpEnd { s with ops := delFirst (fun (x : Op) => x.id == o.id) s.ops } (o.ep - 0xF00) g part chunk step o.st
      (o.dest.getD 0)
  | _ => { s with ops := delFirst (fun (x : Op) => x.id == o.id) s.ops }

/-- One thing that waits to be told: a finished access, an ended operation, an event of a collective engine, or a formed packet
of the Headstock station, which has no throttle (log 12). -/
def settleOne (s : State) : Option State :=
  match s.nextTxn with
  | some (t, s) => some (s.txnDone t)
  | none => match s.ops.find? (·.ended) with
    | some o => some (s.opOver o)
    | none => match s.ownAns with
      | e :: r => some (State.colEvent { s with ownAns := r } e)
      | [] => match s.reqs.find? (fun q => q.ep == 0xF7E && q.stage == .formed && s.mayLaunch q) with
        | some q => some (s.launch q)
        | none => none

/-- A running collective does what it can without an event; `k` bounds its steps. -/
def colRun (s : State) (p g : Nat) : Nat → State
  | 0 => s
  | k + 1 => match s.colRunning p g with
    | none => s
    | some c =>
      let s' := s.colStep c
      if s'.colRunning p g == some c then s' else s'.colRun p g k

/-- Everything that may go on because something else has changed, looked at again. -/
def lookAgain (s : State) : State :=
  let s := (s.colls.filter (·.running)).foldl (fun s c => s.colRun c.port c.g 64) s
  let s := if s.smsgs.isEmpty then s else s.sqAll
  let s := if s.lazies.isEmpty then s else s.lazyAll
  let s := if s.farq.isEmpty then s else s.routeAll
  let s := if s.exits.isEmpty then s else s.exitAll
  let s := if s.rtx.isEmpty then s else s.moveAll
  let s := if s.rtx.any (·.want) then s.rtxAll else s
  let s := if s.injecting.isEmpty then s else s.injAll
  let s := s.traceGo
  let s := s.tapDrain.lathDrain.closeDown
  if s.rings.isEmpty then s
  else
    -- a snapshot command completes within 8 cycles while the Spindle is not in RUN (R424)
    let s := if s.running then s else s.snapCmds
    s.closedAll.realignedAll.prepareAll

/-- Things are told until nothing waits; `k` bounds how many. -/
def settleLoop (s : State) : Nat → State
  | 0 => s
  | k + 1 => match s.settleOne with
    | some s' => s'.settleLoop k
    | none =>
      let s' := s.lookAgain
      if s'.settleOne.isSome then s'.settleLoop k else s'

/-- The state once everything that comes about by itself has come about. Nothing happens while RST_N is low or the clock of the
configuration domain has stopped. -/
def settle (s : State) : State := if s.stopped then s else s.settleLoop 4096

end State

/-- Runs an access of the CFG host, which waits while RST_N is low; nothing answers it once the clock of the configuration
domain has stopped (R412, R453, R454). -/
def atHost (s : State) (wr : Bool) (a data : Nat) : Host.Outcome State Fault Refusal :=
  act (!(s.boot == 3)) s (fun s => (s.cfgAccess wr a data).settle)

end Sys2Proof.Machine
end

