-- ==== Sys2Proof/Machine/RowsNi.lean ====
section
/-! DEFINITION. The rows of the network interfaces: launching, receiving, replies, retries, Blank pools, multicast, reduction
(R119-R149, R184-R196, R226, R234). -/
namespace Sys2Proof.Machine

/-- Runs an effect at an NI, the Headstock station included: nothing happens where the build has none (R3, log 35), or where its
domain does not run. -/
def atNi (ep : Nat) (s : State) (f : State → State) : Host.Outcome State Fault Refusal :=
  act (s.build.epBuilt ep && s.epOn ep && !s.stopped) s (fun s => (f s).settle)

/-- The same at an NI of a node or port block: the station has none of these events. -/
def atBlockNi (ep : Nat) (s : State) (f : State → State) : Host.Outcome State Fault Refusal :=
  if ep == 0xF7E then act false s f else atNi ep s f

/-- An access to a register of the NI of a node or port block, which is mapped or not (R3, R9): its status is recorded, and no host
handshake belongs to it (log 1). No other endpoint has NI registers. -/
def niAccess (ep : Nat) (wr : Bool) (off : Nat) (data : Word) (s : State) : Host.Outcome State Fault Refusal :=
  act (ep < 0xF7E && !s.stopped) s (fun s => (s.access .cfg wr (niBase ep + off) data.toNat).2.2.settle)

/-- A write of a register of an NI, as R9-R11 let it happen; its status is recorded, and no host handshake belongs to it (log 1). -/
def niWrite (ep off : Nat) (data : Word) (s : State) : Host.Outcome State Fault Refusal := niAccess ep true off data s

namespace State

/-- A reply at an NI on its way to a request of that NI: not a packet that leaves the die, and at the station one that answers a
request of the Headstock (R469). -/
def replyHere (s : State) (ep ptype : Nat) (a : Arrival) : Bool :=
  a.pkt.hdr.ptype == ptype && !a.lt && !(ep != 0xF7E && 0xF00 ≤ ep && s.leaving a.pkt) && (ep != 0xF7E || s.stationReply a)

/-- A reply that answers an outstanding packet, or a late one (R145, R146). -/
def replyTaken (s : State) (ep : Nat) (pk : Pkt) : State :=
  match s.matchReply ep pk.hdr.tag with
  | some q => s.takeReply q pk
  | none => s.lateReply ep

/-- A reply row of an NI. -/
def replyRow (s : State) (ep ptype : Nat) (p : Arrival → Bool) : State :=
  match s.takeArrival ep (fun a => s.replyHere ep ptype a && p a) with
  | none => s
  | some (a, s) => s.replyTaken ep a.pkt

/-- A NACK at an NI: one on a reduce VC is counted, one of a register access completes it, any other is a reply (R146, R226). -/
def nackRow (s : State) (ep : Nat) : State :=
  match s.takeArrival ep (fun a => s.replyHere ep tNACK a && classOf a.pkt.hdr.vcn != 1) with
  | none => s
  | some (a, s) =>
    if ep == 0xF7E then
      match s.accNack a.pkt.hdr with
      | some x =>
        let st := a.pkt.hdr.opc % 16
        (s.recordAcc x.asker.by' x.write x.addr a.pkt.hdr.aux st).closeAcc x 0 st
      | none => s.replyTaken ep a.pkt
    else if classOf a.pkt.hdr.vcn == 2 then s.reduceNack ep a.pkt
    else s.replyTaken ep a.pkt

/-- The next segment of a packet that has begun to launch, or else the first formed packet of an NI that may, launched (R82, R148). -/
def niLaunch (s : State) (ep : Nat) : State :=
  match s.reqs.findSome? (fun q => if q.ep == ep && 0 < q.left then (s.nextSeg q).map (fun pk => (q, pk)) else none) with
  | some (q, pk) => s.launchSeg q pk
  | none => match s.reqs.find? (fun q => q.ep == ep && s.mayLaunch q) with
    | some q => s.launch q
    | none => s

/-- The outstanding packet that holds a table entry (R145). -/
def outAt (s : State) (ep idx : Nat) : Option Req := s.reqs.find? (fun q => q.ep == ep && q.entry == some idx)

/-- An outstanding packet reaches its TMO (R146). -/
def reqTimeout (s : State) (ep idx : Nat) : State :=
  match s.outAt ep idx with
  | none => s
  | some q => match q.stage with
    | .flying at' => (s.passTo (at' + s.ctxTmo ep q.ctx + 1)).retryOrFail q true stTIMEOUT
    | _ => s

/-- The backoff of a failed packet ends, and it is sent again (R147). -/
def reqRetry (s : State) (ep idx : Nat) : State :=
  match s.outAt ep idx with
  | none => s
  | some q => match q.stage with
    | .backoff at' => (s.passTo (retryDue q at')).resend q
    | _ => s

/-- A multicast packet at a target NI (R184). -/
def mcRow (s : State) (ep : Nat) : State :=
  match s.takeArrival ep (s.mcArrival ep) with
  | none => s
  | some (a, s) => s.mcTarget ep a.pkt

/-- A per-target NACK at the source of a multicast (R192). -/
def mcNackRow (s : State) (ep : Nat) : State :=
  match s.takeArrival ep (fun a => s.replyHere ep tNACK a && classOf a.pkt.hdr.vcn == 1) with
  | none => s
  | some (a, s) => s.targetNack ep a.pkt

/-- A REDUCE packet that is not for a Bowl is for the accumulate windows (R233); one of KIND BOWL at an NI without a Bowl matches
none (DEDUCED, log 14). -/
def accRow (s : State) (ep : Nat) : State :=
  match s.takeArrival ep (s.accArrival ep) with
  | none => s
  | some (a, s) =>
    if bitAt a.pkt.hdr.opc 4 then
      (s.redDisc ep).errBit (niBase ep) F.NI_RED_ERR_NOWIN 8 (srcEp ep) stBADCMD (a.pkt.hdr.tag % 4096)
    else s.takeAcc ep a.pkt

end State

/-- NI_LAUNCH (R148). -/
def execNiLaunch (ep : Nat) (s : State) : Host.Outcome State Fault Refusal := atNi ep s (fun s => s.niLaunch ep)

/-- THROTTLE_UPDATE (R148): the four classes of an NI at a notch edge. -/
def execThrottleUpdate (ep : Nat) (s : State) : Host.Outcome State Fault Refusal :=
  atBlockNi ep s (fun s => (upFrom 0 4).foldl (State.throttleCls ep) s)

/-- GOV_WINDOW_END (R151). -/
def execGovWindowEnd (s : State) : Host.Outcome State Fault Refusal := act (!s.stopped) s (fun s => s.govWindowEnd)

/-- WRITE (R135). -/
def execWrite (ep : Nat) (s : State) : Host.Outcome State Fault Refusal := atBlockNi ep s (fun s => s.reqRow ep tWRITE)

/-- READ (R135). -/
def execRead (ep : Nat) (s : State) : Host.Outcome State Fault Refusal := atBlockNi ep s (fun s => s.reqRow ep tREAD)

/-- SEND (R327). -/
def execSend (ep : Nat) (s : State) : Host.Outcome State Fault Refusal := atBlockNi ep s (fun s => s.reqRow ep tSEND)

/-- RSLOT_HOLE_TIMEOUT (R136). -/
def execRslotHoleTimeout (ep src ctx chan : Nat) (s : State) : Host.Outcome State Fault Refusal :=
  atBlockNi ep s (fun s => s.holeExpire ep src ctx chan)

/-- RDATA (R146). -/
def execRdata (ep : Nat) (s : State) : Host.Outcome State Fault Refusal := atNi ep s (fun s => s.replyRow ep tRDATA (fun _ => true))

/-- WACK (R146). An E2E acknowledgement at a port block is E2E_ACK's (R364). -/
def execWack (ep : Nat) (s : State) : Host.Outcome State Fault Refusal :=
  atNi ep s (fun s => s.replyRow ep tWACK (fun a => !(0xF00 ≤ ep && isE2eAck a.pkt.hdr)))

/-- NACK (R146). -/
def execNack (ep : Nat) (s : State) : Host.Outcome State Fault Refusal := atNi ep s (fun s => s.nackRow ep)

/-- CREDIT (R329). -/
def execCredit (ep : Nat) (s : State) : Host.Outcome State Fault Refusal :=
  atNi ep s (fun s => match s.takeArrival ep (s.replyHere ep tCREDIT) with
    | none => s
    | some (a, s) => s.takeCredit' ep a.pkt)

/-- NI_REQUEST_TIMEOUT (R146). -/
def execNiRequestTimeout (ep idx : Nat) (s : State) : Host.Outcome State Fault Refusal := atNi ep s (fun s => s.reqTimeout ep idx)

/-- NI_RETRY (R147). -/
def execNiRetry (ep idx : Nat) (s : State) : Host.Outcome State Fault Refusal := atNi ep s (fun s => s.reqRetry ep idx)

/-- BLK_FREE (R143). -/
def execBlkFree (ep : Nat) (data : Word) (s : State) : Host.Outcome State Fault Refusal := niWrite ep 0x1220 data s

/-- BLK_POOL_ENABLE (R144): a write of BLK_POOLn_CFG. -/
def execBlkPoolEnable (ep pool : Nat) (data : Word) (s : State) : Host.Outcome State Fault Refusal :=
  niWrite ep (0x1204 + 8 * (pool % 4)) data s

/-- MC_TARGET_RECEIVE (R184). -/
def execMcTargetReceive (ep : Nat) (s : State) : Host.Outcome State Fault Refusal := atBlockNi ep s (fun s => s.mcRow ep)

/-- MC_RELAY (R195). -/
def execMcRelay (ep : Nat) (s : State) : Host.Outcome State Fault Refusal := atBlockNi ep s (fun s => s.relayLaunch ep)

/-- PER_TARGET_NACK (R192). -/
def execPerTargetNack (ep : Nat) (s : State) : Host.Outcome State Fault Refusal := atBlockNi ep s (fun s => s.mcNackRow ep)

/-- MC_UNICAST_RETRY (R192). -/
def execMcUnicastRetry (ep k : Nat) (s : State) : Host.Outcome State Fault Refusal := atBlockNi ep s (fun s => s.mcRetry ep k)

/-- MC_HOLD_EXPIRY (R191). -/
def execMcHoldExpiry (ep k : Nat) (s : State) : Host.Outcome State Fault Refusal := atBlockNi ep s (fun s => s.holdExpire ep k)

/-- REDUCE_ACC (R234). -/
def execReduceAcc (ep : Nat) (s : State) : Host.Outcome State Fault Refusal := atBlockNi ep s (fun s => s.accRow ep)

end Sys2Proof.Machine
end

