-- ==== Sys2Proof/Machine/RowsCore.lean ====
section
/-! DEFINITION. The rows of cores and their queues, memory ports, register blocks and the Lathe plane at the NIs (R68, R160-R168,
R286-R299, R319-R335, R444-R450). -/
namespace Sys2Proof.Machine

/-- Runs an effect at the NI of a node: nothing happens where there is none (R3, log 35) or where its domain does not run. -/
def atNodeNi (ep : Nat) (s : State) (f : State → State) : Host.Outcome State Fault Refusal :=
  act (ep < 0xF00 && s.epOn ep && !s.stopped) s (fun s => (f s).settle)

/-- Runs an effect at a TAP: nothing is taken where there is none (R3, R443), where the node does not run, or where the core's
side is in reset (R414). -/
def atTap (tap : Nat) (s : State) (f : State → State) : Host.Outcome State Fault Refusal :=
  act (!s.build.isS && s.nodeOn (tap / 4) && !s.stopped && (s.heldX (.tap tap)).isNone) s (fun s => (f s).settle)

/-- Runs an effect at a MAP: nothing happens where there is none (R3), or where its station does not run. -/
def atMap (m : Nat) (s : State) (f : State → State) : Host.Outcome State Fault Refusal :=
  act (s.build.portKind m == 1 && s.portOn m && !s.stopped && (s.heldX (.map m)).isNone) s (fun s => (f s).settle)

/-- Runs an effect at an NI that takes part in the Lathe plane (R164): no other NI has streams or launches (R3). -/
def atLathe (ep : Nat) (s : State) (f : State → State) : Host.Outcome State Fault Refusal :=
  act (s.lathNi ep && s.epOn ep && !s.stopped) s (fun s => (f s).settle)

namespace State

/-- A notification at a node NI (R297). -/
def ntfRow (s : State) (ep : Nat) : State :=
  match s.takeArrival ep (fun a => a.pkt.hdr.ptype == tSYNC_NTF && !a.lt) with
  | none => s
  | some (a, s) => s.takeNtf ep a.pkt

/-- The status of a MAP's error code (R450). -/
def mapErr (err : Nat) : Nat := if err == 0 then stOK else if err == 1 then stDENIED else stINTERNAL

/-- A response at a MAP (R450): one whose tag is not outstanding is discarded and logged; that of a request which has timed out
frees its tag (DEDUCED, log 33). -/
def mapAnswer (s : State) (m : Nat) (wr : Bool) (tag data : Nat) (bad : Bool) (st : Nat) : State :=
  match s.unitAnswered true m wr tag data bad st with
  | some s => s
  | none =>
    State.report { s with deadTags := s.deadTags.filter (fun d => d != (m, wr, tag)) } 0x1A (srcPort m) stINTERNAL (0xFF + 256 * tag)

/-- The unit request outstanding at a MAP under a tag. -/
def mapLive (s : State) (m : Nat) (wr : Bool) (tag : Nat) : Option Live :=
  (s.txns.filter (fun t => t.map && t.port == m && t.wr == wr)).findSome? (fun t => t.live.find? (fun l => l.tag == tag))

/-- A MAP request without a response for 65,536 cycles (R450): its tag stays out of use. -/
def mapTimeout (s : State) (m : Nat) (wr : Bool) (tag : Nat) : State :=
  match s.mapLive m wr tag with
  | none => s
  | some l =>
    let s := s.passCyc (l.at' + 65536)
    let s := { s with deadTags := s.deadTags ++ [(m, wr, tag)] }
    (s.unitAnswered true m wr tag 0 false stTIMEOUT).getD s

/-- Read data at a TAP (R448). -/
def tapData (s : State) (tap tag data : Nat) (poison err : Bool) : State :=
  (s.unitAnswered false tap false tag data poison (if err then stDENIED else if poison then stPOISON else stOK)).getD s

end State

/-! ### Register blocks -/

/-- CFG_RD (R68): at a node block, or at a port block. -/
def execCfgRd (isPort : Bool) (k : Nat) (s : State) : Host.Outcome State Fault Refusal :=
  if isPort then
    act (s.portOn k && !s.stopped) s (fun s => (s.cfgRow (0xF00 + k) false).settle)
  else act (s.nodeOn k && !s.stopped) s (fun s => (s.cfgRow (blockEp k) false).settle)

/-- CFG_WR (R68): at a node block, or at a port block. -/
def execCfgWr (isPort : Bool) (k : Nat) (s : State) : Host.Outcome State Fault Refusal :=
  if isPort then
    act (s.portOn k && !s.stopped) s (fun s => (s.cfgRow (0xF00 + k) true).settle)
  else act (s.nodeOn k && !s.stopped) s (fun s => (s.cfgRow (blockEp k) true).settle)

/-! ### The Lathe plane at an NI -/

/-- LATHE_STAGE (R167). -/
def execLatheStage (ep k : Nat) (s : State) : Host.Outcome State Fault Refusal := atLathe ep s (fun s => s.stageLaunch ep k)

/-- LATHE_LAUNCH (R166). -/
def execLatheLaunch (ep k : Nat) (s : State) : Host.Outcome State Fault Refusal := atLathe ep s (fun s => s.makeLaunch ep k)

/-- LATHE_DEPOSIT (R168). -/
def execLatheDeposit (ep : Nat) (s : State) : Host.Outcome State Fault Refusal := atLathe ep s (fun s => s.takeDeposit ep)

/-! ### Watch slots and TAPs -/

/-- SYNC_NTF (R297). -/
def execSyncNtf (ep : Nat) (s : State) : Host.Outcome State Fault Refusal := atNodeNi ep s (fun s => s.ntfRow ep)

/-- WSLOT_GUARD_EXPIRY (R298). -/
def execWslotGuardExpiry (ep slot : Nat) (s : State) : Host.Outcome State Fault Refusal :=
  atNodeNi ep s (fun s => s.guardExpire ep slot)

/-- WSLOT_FREE (R297): a write of NI_WSLOTs_HI with FREE 1. -/
def execWslotFree (ep slot : Nat) (s : State) : Host.Outcome State Fault Refusal :=
  niWrite ep (0x1604 + 8 * (slot % 64)) 0x80000000 s

/-- DESC (R446). -/
def execDesc (tap : Nat) (data : BitVec 512) (s : State) : Host.Outcome State Fault Refusal := atTap tap s (fun s => s.tapTake tap 1 data)

/-- SYNC (R286). -/
def execSync (tap : Nat) (data : BitVec 512) (s : State) : Host.Outcome State Fault Refusal := atTap tap s (fun s => s.tapTake tap 2 data)

/-- QSUBMIT (R323). -/
def execQsubmit (tap : Nat) (data : BitVec 512) (s : State) : Host.Outcome State Fault Refusal :=
  atTap tap s (fun s => s.tapTake tap 3 data)

/-- REG (R447). -/
def execReg (tap : Nat) (data : BitVec 512) (s : State) : Host.Outcome State Fault Refusal := atTap tap s (fun s => s.tapTake tap 4 data)

/-- TAP_RESERVED_OP (R444): 1 to 4 are no reserved codes. -/
def execTapReservedOp (tap op : Nat) (data : BitVec 512) (s : State) : Host.Outcome State Fault Refusal :=
  atTap tap s (fun s => if 1 ≤ op && op ≤ 4 then s else s.tapTake tap op data)

/-- TAP_READ_DATA (R448). -/
def execTapReadData (tap tag : Nat) (data : BitVec 512) (poison err : Bool) (s : State) : Host.Outcome State Fault Refusal :=
  atTap tap s (fun s => s.tapData tap tag data.toNat poison err)

/-! ### Core queues -/

/-- CQ_MESSAGE_START (R324). -/
def execCqMessageStart (ep sq : Nat) (s : State) : Host.Outcome State Fault Refusal := atNodeNi ep s (fun s => s.startMsg ep sq)

/-- CQ_STALL_TIMEOUT (R332). -/
def execCqStallTimeout (ep sq : Nat) (s : State) : Host.Outcome State Fault Refusal := atNodeNi ep s (fun s => s.stallExpire ep sq)

/-- CQU_HEAD_WRITE (R330): a write of CQU_RQq_HEAD. -/
def execCquHeadWrite (ep rq : Nat) (head : Word) (s : State) : Host.Outcome State Fault Refusal :=
  niWrite ep (0x1810 + 32 * (rq % 16)) head s

/-- CREDIT_UPDATE (R330). -/
def execCreditUpdate (ep rq : Nat) (s : State) : Host.Outcome State Fault Refusal := atNodeNi ep s (fun s => s.sendUpdate ep rq)

/-- CQU_SEL_READ (R331): a read of CQU_SELk. -/
def execCquSelRead (ep core : Nat) (s : State) : Host.Outcome State Fault Refusal :=
  niAccess ep false (0x1C10 + 4 * (core % 4)) 0 s

/-- CQU_ENABLE (R322): a write of CQU_RQq_CTL or CQU_SQs_CTL. -/
def execCquEnable (ep : Nat) (isSend : Bool) (q : Nat) (data : Word) (s : State) : Host.Outcome State Fault Refusal :=
  niWrite ep (if isSend then 0x1A00 + 32 * (q % 16) else 0x1804 + 32 * (q % 16)) data s

/-! ### Memory ports -/

/-- MAP_WRITE_RESPONSE (R450). -/
def execMapWriteResponse (map tag err : Nat) (s : State) : Host.Outcome State Fault Refusal :=
  atMap map s (fun s => s.mapAnswer map true tag 0 false (State.mapErr err))

/-- MAP_READ_DATA (R450). -/
def execMapReadData (map tag : Nat) (data : BitVec 512) (poison : Bool) (err : Nat) (s : State) : Host.Outcome State Fault Refusal :=
  atMap map s (fun s => s.mapAnswer map false tag data.toNat poison
    (if err == 0 && poison then stPOISON else State.mapErr err))

/-- MAP_TIMEOUT (R450). -/
def execMapTimeout (map : Nat) (write : Bool) (tag : Nat) (s : State) : Host.Outcome State Fault Refusal :=
  atMap map s (fun s => s.mapTimeout map write tag)

end Sys2Proof.Machine
end

