-- ==== Sys2Proof/Machine/RowsHds.lean ====
section
/-! DEFINITION. The rows of the Headstock: the start of each command of a ring, doorbells, fetches, replies, guards, and the later
events of its commands (R371-R394). -/
namespace Sys2Proof.Machine

/-- Runs an effect of a command ring. -/
def atRing (r : Nat) (s : State) (f : State → State) : Host.Outcome State Fault Refusal :=
  if r < 16 then act (!s.stopped) s (fun s => (f s).settle) else .fault .noSuchRing

/-- Runs an effect of the Headstock. -/
def atHds (s : State) (f : State → State) : Host.Outcome State Fault Refusal := act (!s.stopped) s (fun s => (f s).settle)

namespace State

/-- The next command of a ring starts, where its opcode is reserved (R376). -/
def reservedRow (s : State) (r : Nat) : State :=
  match (s.cmds r).find? (fun c => c.stage == .ready) with
  | none => s
  | some c => if (params c.opc).isNone then s.startRow r c.opc (fun s _ => s) else s

end State

/-! ### Commands -/

/-- NOP (R379). -/
def execNop (ring : Nat) (s : State) : Host.Outcome State Fault Refusal :=
  atRing ring s (fun s => s.startRow ring 0x00 (fun s c => s.finishCmd ring c.idx stOK 0))

/-- RING_ABORT (R386). -/
def execRingAbort (ring : Nat) (s : State) : Host.Outcome State Fault Refusal :=
  atRing ring s (fun s => s.startRow ring 0x01 (State.runAbort ring))

/-- JOB_KILL (R387). -/
def execJobKill (ring : Nat) (s : State) : Host.Outcome State Fault Refusal :=
  atRing ring s (fun s => s.startRow ring 0x02 (State.runKill ring))

/-- XFER (R379). -/
def execXfer (ring : Nat) (s : State) : Host.Outcome State Fault Refusal :=
  atRing ring s (fun s => s.startRow ring 0x10 (State.runXfer ring))

/-- XFER_MC (R181). -/
def execXferMc (ring : Nat) (s : State) : Host.Outcome State Fault Refusal :=
  atRing ring s (fun s => s.startRow ring 0x11 (State.runXfer ring))

/-- XFER_RED (R225). -/
def execXferRed (ring : Nat) (s : State) : Host.Outcome State Fault Refusal :=
  atRing ring s (fun s => s.startRow ring 0x12 (State.runXfer ring))

/-- RANK_BIND (R122). -/
def execRankBind (ring : Nat) (s : State) : Host.Outcome State Fault Refusal :=
  atRing ring s (fun s => s.startRow ring 0x20 (State.runRankBind ring))

/-- TABLE_WRITE (R126). -/
def execTableWrite (ring : Nat) (s : State) : Host.Outcome State Fault Refusal :=
  atRing ring s (fun s => s.startRow ring 0x21 (State.runTableWrite ring))

/-- TSET_SWAP (R127). -/
def execTsetSwap (ring : Nat) (s : State) : Host.Outcome State Fault Refusal :=
  atRing ring s (fun s => s.startRow ring 0x22 (State.runTsetSwap ring))

/-- INJ_STOP (R127). -/
def execInjStop (ring : Nat) (s : State) : Host.Outcome State Fault Refusal :=
  atRing ring s (fun s => s.startRow ring 0x23 (State.runInj true ring))

/-- INJ_RESUME (R127). -/
def execInjResume (ring : Nat) (s : State) : Host.Outcome State Fault Refusal :=
  atRing ring s (fun s => s.startRow ring 0x24 (State.runInj false ring))

/-- CHAN_OPEN (R131). -/
def execChanOpen (ring : Nat) (s : State) : Host.Outcome State Fault Refusal :=
  atRing ring s (fun s => s.startRow ring 0x25 (State.runChanOpen ring))

/-- CHAN_CLOSE (R137). -/
def execChanClose (ring : Nat) (s : State) : Host.Outcome State Fault Refusal :=
  atRing ring s (fun s => s.startRow ring 0x26 (State.runChanClose ring))

/-- RTR_DRAIN (R114). -/
def execRtrDrain (ring : Nat) (s : State) : Host.Outcome State Fault Refusal :=
  atRing ring s (fun s => s.startRow ring 0x30 (State.runDrain ring))

/-- RTR_REOPEN (R117). -/
def execRtrReopen (ring : Nat) (s : State) : Host.Outcome State Fault Refusal :=
  atRing ring s (fun s => s.startRow ring 0x31 (State.runReopen ring))

/-- DOM_DOWN (R399). -/
def execDomDown (ring : Nat) (s : State) : Host.Outcome State Fault Refusal :=
  atRing ring s (fun s => s.startRow ring 0x38 (State.runDomDown ring))

/-- DOM_UP (R404). -/
def execDomUp (ring : Nat) (s : State) : Host.Outcome State Fault Refusal :=
  atRing ring s (fun s => s.startRow ring 0x39 (State.runDomUp ring))

/-- SEM_INIT (R281). -/
def execSemInit (ring : Nat) (s : State) : Host.Outcome State Fault Refusal :=
  atRing ring s (fun s => s.startRow ring 0x40 (State.runSemInit ring))

/-- SEM_FREE (R281). -/
def execSemFree (ring : Nat) (s : State) : Host.Outcome State Fault Refusal :=
  atRing ring s (fun s => s.startRow ring 0x41 (State.runSemFree ring))

/-- SEM_SET (R311). -/
def execSemSet (ring : Nat) (s : State) : Host.Outcome State Fault Refusal :=
  atRing ring s (fun s => s.startRow ring 0x42 (State.runSemSet ring))

/-- SEM_READ (R379). -/
def execSemRead (ring : Nat) (s : State) : Host.Outcome State Fault Refusal :=
  atRing ring s (fun s => s.startRow ring 0x43 (State.runSemRead ring))

/-- SYNC_BIND (R284). -/
def execSyncBind (ring : Nat) (s : State) : Host.Outcome State Fault Refusal :=
  atRing ring s (fun s => s.startRow ring 0x44 (State.runSyncBind ring))

/-- BAR_INIT (R301). -/
def execBarInit (ring : Nat) (s : State) : Host.Outcome State Fault Refusal :=
  atRing ring s (fun s => s.startRow ring 0x45 (State.runBarInit ring))

/-- BAR_FREE (R301). -/
def execBarFree (ring : Nat) (s : State) : Host.Outcome State Fault Refusal :=
  atRing ring s (fun s => s.startRow ring 0x46 (State.runBarFree ring))

/-- REALIGN_SET (R309). -/
def execRealignSet (ring : Nat) (s : State) : Host.Outcome State Fault Refusal :=
  atRing ring s (fun s => s.startRow ring 0x47 (State.runRealignSet ring))

/-- LTH_LOAD (R170: MAPP, TMO, ADDR). -/
def execLthLoad (ring : Nat) (s : State) : Host.Outcome State Fault Refusal :=
  atRing ring s (fun s => s.startRow ring 0x50 (fun s c => s.startLoad ring c.idx (c.par 0) (c.par 1) (c.par 2)))

/-- LTH_SWAP (R171). -/
def execLthSwap (ring : Nat) (s : State) : Host.Outcome State Fault Refusal :=
  atRing ring s (fun s => s.startRow ring 0x51 (State.runLthSwap ring))

/-- LTH_RESUME (R174). -/
def execLthResume (ring : Nat) (s : State) : Host.Outcome State Fault Refusal :=
  atRing ring s (fun s => s.startRow ring 0x52 (fun s c => s.startResume ring c.idx))

/-- COL_GROUP_SET (R257). -/
def execColGroupSet (ring : Nat) (s : State) : Host.Outcome State Fault Refusal :=
  atRing ring s (fun s => s.startRow ring 0x58 (State.runGroupSet ring))

/-- COL_ISSUE (R259). -/
def execColIssue (ring : Nat) (s : State) : Host.Outcome State Fault Refusal :=
  atRing ring s (fun s => s.startRow ring 0x59 (State.runColIssue ring))

/-- COL_PEER_GONE (R276). -/
def execColPeerGone (ring : Nat) (s : State) : Host.Outcome State Fault Refusal :=
  atRing ring s (fun s => s.startRow ring 0x5A (State.runPeerGone ring))

/-- LINK_ADMIT (R359). -/
def execLinkAdmit (ring : Nat) (s : State) : Host.Outcome State Fault Refusal :=
  atRing ring s (fun s => s.startRow ring 0x60 (State.runLinkAdmit ring))

/-- LINK_DOWN (R360). -/
def execLinkDown (ring : Nat) (s : State) : Host.Outcome State Fault Refusal :=
  atRing ring s (fun s => s.startRow ring 0x61 (State.runLinkDown ring))

/-- LINK_SWAP (R352). -/
def execLinkSwap (ring : Nat) (s : State) : Host.Outcome State Fault Refusal :=
  atRing ring s (fun s => s.startRow ring 0x62 (State.runLinkSwap ring))

/-- LINK_REKEY (R356). -/
def execLinkRekey (ring : Nat) (s : State) : Host.Outcome State Fault Refusal :=
  atRing ring s (fun s => s.startRow ring 0x63 (State.runLinkRekey ring))

/-- KEY_LOAD (R434). -/
def execKeyLoad (ring : Nat) (s : State) : Host.Outcome State Fault Refusal :=
  atRing ring s (fun s => s.startRow ring 0x68 (State.runKeyLoad ring))

/-- KEY_ERASE (R434). -/
def execKeyErase (ring : Nat) (s : State) : Host.Outcome State Fault Refusal :=
  atRing ring s (fun s => s.startRow ring 0x69 (State.runKeyErase ring))

/-- REG_READ (R379: ADDR). -/
def execRegRead (ring : Nat) (s : State) : Host.Outcome State Fault Refusal :=
  atRing ring s (fun s => s.startRow ring 0x70 (fun s c => s.regAccess (.cmd ring c.idx) false (c.par 0) 0))

/-- REG_WRITE (R379: ADDR, DATA). -/
def execRegWrite (ring : Nat) (s : State) : Host.Outcome State Fault Refusal :=
  atRing ring s (fun s => s.startRow ring 0x71 (fun s c => s.regAccess (.cmd ring c.idx) true (c.par 0) (c.par 1)))

/-- MIR_SNAP (R424: the snapshot is taken, and the command completes, at the next notch edge). -/
def execMirSnap (ring : Nat) (s : State) : Host.Outcome State Fault Refusal :=
  atRing ring s (fun s => s.startRow ring 0x72 (fun s _ => s))

/-- HDS_RESERVED_OPCODE (R376). -/
def execHdsReservedOpcode (ring : Nat) (s : State) : Host.Outcome State Fault Refusal := atRing ring s (fun s => s.reservedRow ring)

/-! ### Rings -/

/-- DOORBELL (R372): a write through the CFG port. -/
def execDoorbell (ring : Nat) (data : Word) (s : State) : Host.Outcome State Fault Refusal :=
  if ring < 16 then atHost s true (0x10100C + 0x20 * ring) data.toNat else .fault .noSuchRing

/-- RING_RESUME (R388): RESUME written with TAIL as it stands. -/
def execRingResume (ring : Nat) (s : State) : Host.Outcome State Fault Refusal :=
  if ring < 16 then atHost s true (0x10100C + 0x20 * ring) (s.ringTail ring + 65536) else .fault .noSuchRing

/-- RING_ENABLE (R394): a write of HDS_RINGr_CTL. -/
def execRingEnable (ring : Nat) (data : Word) (s : State) : Host.Outcome State Fault Refusal :=
  if ring < 16 then atHost s true (0x101008 + 0x20 * ring) data.toNat else .fault .noSuchRing

/-- HDS_RUN (R392): a write of HDS_CTL. -/
def execHdsRun (data : Word) (s : State) : Host.Outcome State Fault Refusal := atHost s true 0x100000 data.toNat

/-- COMMAND_FETCH (R373). -/
def execCommandFetch (ring : Nat) (s : State) : Host.Outcome State Fault Refusal := atRing ring s (fun s => s.commandFetch ring)

/-- STATUS_REPLY (R374). -/
def execStatusReply (ring : Nat) (s : State) : Host.Outcome State Fault Refusal := atRing ring s (fun s => s.statusReply ring)

/-- GUARD_NOTIFY (R382). -/
def execGuardNotify (s : State) : Host.Outcome State Fault Refusal := atHds s (fun s => s.guardNotify)

/-- GUARD_EXPIRY (R383). -/
def execGuardExpiry (slot : Nat) (s : State) : Host.Outcome State Fault Refusal := atHds s (fun s => s.guardExpiry slot)

/-- TSET_SWAP_EDGE (R127). -/
def execTsetSwapEdge (ring : Nat) (s : State) : Host.Outcome State Fault Refusal := atRing ring s (fun s => s.tsetEdge ring)

/-- RTR_DRAIN_DONE (R114). -/
def execRtrDrainDone (s : State) : Host.Outcome State Fault Refusal := atHds s (fun s => s.drainDone)

/-- RTR_DRAIN_TIMEOUT (R114). -/
def execRtrDrainTimeout (s : State) : Host.Outcome State Fault Refusal := atHds s (fun s => s.drainTimeout)

/-- LTH_LOAD_DONE (R170). -/
def execLthLoadDone (s : State) : Host.Outcome State Fault Refusal := atHds s (fun s => s.loadDone)

/-- LTH_SWAP_EDGE (R171). -/
def execLthSwapEdge (s : State) : Host.Outcome State Fault Refusal := atHds s (fun s => s.swapEdge)

/-- LATHE_RESUME_EDGE (R174). -/
def execLatheResumeEdge (s : State) : Host.Outcome State Fault Refusal := atHds s (fun s => s.resumeEdge)

/-- PLAN_COMPLETE (R172). -/
def execPlanComplete (s : State) : Host.Outcome State Fault Refusal := atHds s (fun s => s.planOver)

/-! ### The station and the CFG and DBG ports -/

/-- HEADSTOCK_STATION_RECEIVE (R469). -/
def execHeadstockStationReceive (s : State) : Host.Outcome State Fault Refusal := atHds s (fun s => s.stationReceive)

/-- CFG_WRITE (R453). -/
def execCfgWrite (addr : BitVec 28) (data : Word) (s : State) : Host.Outcome State Fault Refusal :=
  atHost s true addr.toNat data.toNat

/-- CFG_TIMEOUT (R454). -/
def execCfgTimeout (k : Nat) (s : State) : Host.Outcome State Fault Refusal := atHds s (fun s => s.cfgTimeout k)

/-- CFG_RSP (R454). -/
def execCfgRsp (s : State) : Host.Outcome State Fault Refusal := atHds s (fun s => s.cfgRspRow)

/-- DBG_REG (R438): the port answers even while RST_N is low. -/
def execDbgReg (write : Bool) (addr : BitVec 28) (data : Word) (s : State) : Host.Outcome State Fault Refusal :=
  act true s (fun s => (s.dbgAccess write addr.toNat data.toNat).settle)

end Sys2Proof.Machine
end

