-- ==== Sys2Proof/Machine/RowsPort.lean ====
section
/-! DEFINITION. The rows of the port blocks: the Bowl and the Claim Arbiter, collectives, links and scale-out (R82-R86,
R236-R248, R257-R277, R336-R370). -/
namespace Sys2Proof.Machine

/-- Runs an effect at a Bowl port block: nothing happens where the build has none (R3, log 35) or its domain does not run. -/
def atBowl (p : Nat) (s : State) (f : State → State) : Host.Outcome State Fault Refusal :=
  act (s.build.isBowlPort p && s.portOn p && !s.stopped) s (fun s => (f s).settle)

/-- Runs an effect at a collective engine: those of the link port blocks of Configuration A (R254). -/
def atEngine (p : Nat) (s : State) (f : State → State) : Host.Outcome State Fault Refusal :=
  act (s.build.isBowlPort p && !s.build.isS && s.portOn p && !s.stopped) s (fun s => (f s).settle)

/-- Runs an effect at the port-block side of a link. -/
def atExit (p : Nat) (s : State) (f : State → State) : Host.Outcome State Fault Refusal :=
  act (s.build.isLink p && s.portOn p && !s.stopped) s (fun s => (f s).settle)

/-- Runs an effect at the link layer of a port, and what follows from it. -/
def onLink (p : Nat) (s : State) (f : State → State) : Host.Outcome State Fault Refusal :=
  atLink p s (fun s => if s.stopped then s else (f s).settle)

/-- Runs an effect of the global Bowl and claim units. -/
def atGlobal (s : State) (f : State → State) : Host.Outcome State Fault Refusal := act (!s.stopped) s (fun s => (f s).settle)

namespace State

/-- A Bowl control write at a Bowl port block (R239). -/
def bowlRow (s : State) (p : Nat) (commit : Bool) : State :=
  match s.takeArrival (0xF00 + p) (s.bowlArrival p commit) with
  | none => s
  | some (a, s) => s.bowlCtl p a.pkt

/-- A BOWL contribution at a Bowl port block (R240). -/
def bowlDataRow (s : State) (p : Nat) : State :=
  match s.takeArrival (0xF00 + p) (fun a => a.pkt.hdr.ptype == tREDUCE && bitAt a.pkt.hdr.opc 4 && !a.lt && !s.leaving a.pkt) with
  | none => s
  | some (a, s) => s.bowlData a.pkt.hdr.job a.pkt

/-- A READY or GDONE at an engine (R264, R271). -/
def readyRow (s : State) (p : Nat) (gdone : Bool) : State :=
  match s.takeArrival (0xF00 + p) (s.readyArrival p gdone) with
  | none => s
  | some (a, s) => s.takeReady p a.pkt

/-- The number by which CLAIM_ATTEMPT names the plan writer: one more than the waiting directory entries (DESIGN CHOICE, log 2). -/
def attemptOf (s : State) (who : Nat) : State :=
  if who == (s.bents.filter (fun e => e.state == 0)).length then s.pwRetry else s.claimAttempt who

end State

/-- CLAIM (R239). -/
def execClaim (port : Nat) (s : State) : Host.Outcome State Fault Refusal := atBowl port s (fun s => s.bowlRow port false)

/-- COMMIT (R239). -/
def execCommit (port : Nat) (s : State) : Host.Outcome State Fault Refusal := atBowl port s (fun s => s.bowlRow port true)

/-- REDUCE_BOWL (R240). -/
def execReduceBowl (port : Nat) (s : State) : Host.Outcome State Fault Refusal := atBowl port s (fun s => s.bowlDataRow port)

/-- BOWL_RESULT_DONE (R241). -/
def execBowlResultDone (slot : Nat) (s : State) : Host.Outcome State Fault Refusal := atGlobal s (fun s => s.resultDone slot)

/-- BOWL_SLOT_TIMEOUT (R242). -/
def execBowlSlotTimeout (slot : Nat) (s : State) : Host.Outcome State Fault Refusal := atGlobal s (fun s => s.slotTimeout slot)

/-- BOWL_ENTRY_EXPIRE (R239). -/
def execBowlEntryExpire (entry : Nat) (s : State) : Host.Outcome State Fault Refusal := atGlobal s (fun s => s.entExpire entry)

/-- CLAIM_ATTEMPT (R244). -/
def execClaimAttempt (who : Nat) (s : State) : Host.Outcome State Fault Refusal := atGlobal s (fun s => s.attemptOf who)

/-- CLM_COMMIT (R246): a write through the CFG port. -/
def execClmCommit (data : Word) (s : State) : Host.Outcome State Fault Refusal := atHost s true 0x734 data.toNat

/-- CLM_REVOKE (R248): through the maintenance/debug port, or through the CFG port, which is refused. -/
def execClmRevoke (dbg : Bool) (data : Word) (s : State) : Host.Outcome State Fault Refusal :=
  if dbg then act true s (fun s => (s.dbgAccess true 0x73C data.toNat).settle)
  else atHost s true 0x73C data.toNat

/-- READY (R264). -/
def execReady (port : Nat) (s : State) : Host.Outcome State Fault Refusal := atEngine port s (fun s => s.readyRow port false)

/-- GDONE (R271). -/
def execGdone (port : Nat) (s : State) : Host.Outcome State Fault Refusal := atEngine port s (fun s => s.readyRow port true)

/-- COL_STAGE_START (R263). -/
def execColStageStart (port g : Nat) (s : State) : Host.Outcome State Fault Refusal := atEngine port s (fun s => s.stageStart port g)

/-- COL_CHUNK_SEND (R266). -/
def execColChunkSend (port g part chunk : Nat) (s : State) : Host.Outcome State Fault Refusal :=
  atEngine port s (fun s => s.chunkStep port g part chunk)

/-- COL_PROGRESS_TIMEOUT (R268). -/
def execColProgressTimeout (port g : Nat) (s : State) : Host.Outcome State Fault Refusal :=
  atEngine port s (fun s => s.colTimeout port g)

/-! ### Links -/

/-- FRAME_RECEIVE (R339). -/
def execFrameReceive (port : Nat) (lanes : List LaneSyms) (s : State) : Host.Outcome State Fault Refusal :=
  onLink port s (fun s => s.frameReceive port lanes)

/-- REPLAY_TIMEOUT (R344). -/
def execReplayTimeout (port : Nat) (s : State) : Host.Outcome State Fault Refusal := onLink port s (fun s => s.replayTimeout port)

/-- ADMIT_SEND (R358). -/
def execAdmitSend (port : Nat) (s : State) : Host.Outcome State Fault Refusal := onLink port s (fun s => s.admitSend port)

/-- TRAINING_TIMEOUT (R350). -/
def execTrainingTimeout (port : Nat) (s : State) : Host.Outcome State Fault Refusal := onLink port s (fun s => s.trainingTimeout port)

/-- LANE_FAIL (R353). -/
def execLaneFail (port lane : Nat) (s : State) : Host.Outcome State Fault Refusal := onLink port s (fun s => s.laneFail port lane)

/-- SPARE_ROTATE (R352). -/
def execSpareRotate (port : Nat) (s : State) : Host.Outcome State Fault Refusal := onLink port s (fun s => s.spareRotate port)

/-- SPARE_CALIBRATE (R351). -/
def execSpareCalibrate (port count : Nat) (s : State) : Host.Outcome State Fault Refusal :=
  onLink port s (fun s => s.spareCalibrate port count)

/-- LINK_DEAD (R360). -/
def execLinkDead (port : Nat) (s : State) : Host.Outcome State Fault Refusal := onLink port s (fun s => s.linkDead port)

/-- LINK_IDLE_END (R360). -/
def execLinkIdleEnd (port : Nat) (s : State) : Host.Outcome State Fault Refusal := onLink port s (fun s => s.idleEnd port)

/-- NKL_CTL_WRITE (R350): a write of NKL_CTL, as R9-R11 let it happen. -/
def execNklCtlWrite (port : Nat) (data : Word) (s : State) : Host.Outcome State Fault Refusal :=
  act (port < 128 && !s.stopped) s (fun s => (s.access .cfg true (portBase port + 0x6000) data.toNat).2.2.settle)

/-- FDI_ERROR (R452). -/
def execFdiError (port : Nat) (s : State) : Host.Outcome State Fault Refusal := onLink port s (fun s => s.fdiError port)

/-- PHY_LOCK (R350). -/
def execPhyLock (port : Nat) (lanes : BitVec 8) (s : State) : Host.Outcome State Fault Refusal :=
  onLink port s (fun s => s.phyLock port lanes.toNat)

/-- CELL_BOUNDARY (R346). -/
def execCellBoundary (port : Nat) (s : State) : Host.Outcome State Fault Refusal := onLink port s (fun s => s.cellBoundary port)

/-! ### Scale-out -/

/-- SCALEOUT_EXIT (R82). -/
def execScaleoutExit (port : Nat) (s : State) : Host.Outcome State Fault Refusal := atExit port s (fun s => s.scaleoutExit port)

/-- SCALEOUT_ENTRY (R84). -/
def execScaleoutEntry (port : Nat) (s : State) : Host.Outcome State Fault Refusal := atExit port s (fun s => s.scaleoutEntry port)

/-- FILTER_EXPIRE (R365). -/
def execFilterExpire (k : Nat) (s : State) : Host.Outcome State Fault Refusal := atGlobal s (fun s => s.filterExpire k)

/-- E2E_ACK (R364). -/
def execE2eAck (port : Nat) (s : State) : Host.Outcome State Fault Refusal := atExit port s (fun s => s.e2eAck port)

/-- E2E_RETRANSMIT (R366). -/
def execE2eRetransmit (port entry : Nat) (s : State) : Host.Outcome State Fault Refusal :=
  atExit port s (fun s => s.e2eRetransmit port entry)

/-- E2E_ABANDON (R366). -/
def execE2eAbandon (port entry : Nat) (s : State) : Host.Outcome State Fault Refusal :=
  atExit port s (fun s => s.e2eAbandon port entry)

end Sys2Proof.Machine
end

