-- ==== Sys2Proof/Machine/RowsSys.lean ====
section
/-! DEFINITION. The rows of the Spindle, the observation unit, the Key Store, power, reset and the crossings (R36-R56, R395-R430,
R434-R437). -/
namespace Sys2Proof.Machine

/-- Runs an effect of a unit of the configuration/Headstock domain, and what follows from it. -/
def atUnitOfCfg (s : State) (f : State → State) : Host.Outcome State Fault Refusal := act (!s.stopped) s (fun s => (f s).settle)

/-- Runs an effect of a power domain with a switch: every domain of the build but the configuration/Headstock domain (R395). -/
def atDom (d : Nat) (s : State) (f : State → State) : Host.Outcome State Fault Refusal :=
  act (d < s.build.cfgDom && !s.stopped) s (fun s => (f s).settle)

/-- Runs an effect of a half of the die (R20): nothing happens on a single field (R3). -/
def atHalf (s : State) (f : State → State) : Host.Outcome State Fault Refusal :=
  act (s.build.halves && !s.stopped) s (fun s => (f s).settle)

/-- Runs an effect at a crossing (R414): nothing happens where the build has none (R3). -/
def atCross (x : Crossing) (s : State) (f : State → State) : Host.Outcome State Fault Refusal :=
  act (!State.noCrossing s.build x && !s.stopped) s (fun s => (f s).settle)

/-! ### The Spindle -/

/-- NOTCH_EDGE (R37). -/
def execNotchEdge (s : State) : Host.Outcome State Fault Refusal := atUnitOfCfg s (fun s => s.notchEdge)

/-- SYNTH_NOTCH (R46). -/
def execSynthNotch (s : State) : Host.Outcome State Fault Refusal := atUnitOfCfg s (fun s => s.synthNotch)

/-- TURN_EDGE (R38). In beacon mode the block makes its own turn edges at notch 2,047. -/
def execTurnEdge (s : State) : Host.Outcome State Fault Refusal :=
  atUnitOfCfg s (fun s => if s.beaconMode then (if s.spn.notch == 2047 then s.synthNotch else s) else s.turnEdgeRow)

/-- TCNT_ACCEPT (R38). -/
def execTcntAccept (s1 s2 s3 s4 s5 : BitVec 40) (s : State) : Host.Outcome State Fault Refusal :=
  atUnitOfCfg s (fun s => s.tcntAccept [s1.toNat, s2.toNat, s3.toNat, s4.toNat, s5.toNat])

/-- STALL_DETECT (R53). -/
def execStallDetect (s : State) : Host.Outcome State Fault Refusal := atUnitOfCfg s (fun s => s.stallDetect)

/-- BEACON_TIMEOUT (R47). -/
def execBeaconTimeout (s : State) : Host.Outcome State Fault Refusal := atUnitOfCfg s (fun s => s.beaconTimeout)

/-- SPN_CTL_WRITE (R56): a write through the CFG port. -/
def execSpnCtlWrite (data : Word) (s : State) : Host.Outcome State Fault Refusal :=
  atHost s true 0x100 data.toNat

/-- SPN_NOW_READ (R56): a read through the CFG port. -/
def execSpnNowRead (s : State) : Host.Outcome State Fault Refusal := atHost s false 0x110 0

/-! ### Observation and the Key Store -/

/-- ERROR_REPORT (R429). -/
def execErrorReport (cls src : Nat) (s : State) : Host.Outcome State Fault Refusal := atUnitOfCfg s (fun s => s.takeReport cls src)

/-- ERR_POP (R429): 1 written through the CFG port. -/
def execErrPop (s : State) : Host.Outcome State Fault Refusal := atHost s true 0xB08 1

/-- TLM_LO_READ (R421): a counter of the global range is read through the CFG port, one of a router at its block. -/
def execTlmLoRead (addr : BitVec 28) (s : State) : Host.Outcome State Fault Refusal :=
  if addr.toNat < 0x1000000 && s.isTlm addr.toNat then atHost s false addr.toNat 0
  else atUnitOfCfg s (fun s => if s.isTlm addr.toNat then (s.access .cfg false addr.toNat 0).2.2 else s)

/-- TRIG_CLEAR (R427): 1 written to MIR_STAT.TRIG through the CFG port. -/
def execTrigClear (s : State) : Host.Outcome State Fault Refusal := atHost s true 0xC04 0x4000

/-- ERROR_PACING_TURN (R430). -/
def execErrorPacingTurn (s : State) : Host.Outcome State Fault Refusal := atUnitOfCfg s (fun s => s.pacingTurn)

/-- KEY_LOCK (R435): 1 written through the CFG port. -/
def execKeyLock (s : State) : Host.Outcome State Fault Refusal := atHost s true 0xD04 1

/-- SEC_TAMPER (R437): also while RST_N is low (R468) or the clock stands. -/
def execSecTamper (s : State) : Host.Outcome State Fault Refusal := act true s (fun s => s.tamper.settle)

/-- FUSE_V_FALL (R436). -/
def execFuseVFall (s : State) : Host.Outcome State Fault Refusal := atUnitOfCfg s (fun s => s.fuseFall)

/-! ### Power -/

/-- DOMAIN_QUIESCENT (R401). -/
def execDomainQuiescent (s : State) : Host.Outcome State Fault Refusal := atUnitOfCfg s (fun s => s.domainQuiescent)

/-- DOM_DOWN_TIMEOUT (R401). -/
def execDomDownTimeout (s : State) : Host.Outcome State Fault Refusal := atUnitOfCfg s (fun s => s.domDownTimeout)

/-- STEP_BOUNDARY (R407). -/
def execStepBoundary (s : State) : Host.Outcome State Fault Refusal := atUnitOfCfg s (fun s => s.stepBoundary)

/-- PSW_ACK_FALL (R403). -/
def execPswAckFall (dom : Nat) (s : State) : Host.Outcome State Fault Refusal := atDom dom s (fun s => s.ackFall dom)

/-- PSW_ACK_RISE (R404). -/
def execPswAckRise (dom : Nat) (s : State) : Host.Outcome State Fault Refusal := atDom dom s (fun s => s.ackRise dom)

/-- PSW_ACK_TIMEOUT (R404). -/
def execPswAckTimeout (dom : Nat) (s : State) : Host.Outcome State Fault Refusal := atDom dom s (fun s => s.ackTimeout dom)

/-- PSW_ACK_LOST (R406). -/
def execPswAckLost (dom : Nat) (s : State) : Host.Outcome State Fault Refusal := atDom dom s (fun s => s.ackLost dom)

/-- DOMAIN_INIT_DONE (R404). -/
def execDomainInitDone (dom : Nat) (s : State) : Host.Outcome State Fault Refusal := atDom dom s (fun s => s.initDone dom)

/-- DOMAIN_LIT (R405). -/
def execDomainLit (dom : Nat) (s : State) : Host.Outcome State Fault Refusal := atDom dom s (fun s => s.domainLit dom)

/-! ### Reset and crossings -/

/-- RST_N_ASSERT (R413). -/
def execRstNAssert (s : State) : Host.Outcome State Fault Refusal := act true s (fun s => s.rstAssert)

/-- RST_N_RELEASE (R417). -/
def execRstNRelease (fuseKey : BitVec 256) (fusePar : BitVec 32) (fuseValid : Bool) (s : State) : Host.Outcome State Fault Refusal :=
  act true s (fun s => s.rstRelease fuseKey.toNat fusePar.toNat fuseValid)

/-- CFG_INIT_DONE (R417). -/
def execCfgInitDone (s : State) : Host.Outcome State Fault Refusal := atUnitOfCfg s (fun s => s.cfgInitDone.cfgWaited)

/-- HALF_RESET (R416). -/
def execHalfReset (east : Bool) (s : State) : Host.Outcome State Fault Refusal := atHalf s (fun s => s.halfResetRow east)

/-- HALF_RESET_RELEASE (R416). -/
def execHalfResetRelease (east : Bool) (s : State) : Host.Outcome State Fault Refusal := atHalf s (fun s => s.halfReleaseRow east)

/-- CROSSING_FAR_RESET (R414). -/
def execCrossingFarReset (x : Crossing) (s : State) : Host.Outcome State Fault Refusal := atCross x s (fun s => s.crossingReset x)

/-- JOIN (R415). -/
def execJoin (x : Crossing) (s : State) : Host.Outcome State Fault Refusal := atCross x s (fun s => s.joinRow x)

/-- JOIN_TIMEOUT (R415). -/
def execJoinTimeout (x : Crossing) (s : State) : Host.Outcome State Fault Refusal := atCross x s (fun s => s.joinTimeout x)

/-- CLOCK_STOP (R412). -/
def execClockStop (x : Crossing) (s : State) : Host.Outcome State Fault Refusal :=
  if x == .seam false then act (!s.stopped) s (fun s => s.clockStop x) else atCross x s (fun s => s.clockStop x)

/-- EAST_CLOCK_RESTART (R412). -/
def execEastClockRestart (s : State) : Host.Outcome State Fault Refusal := atHalf s (fun s => s.eastRestart)

end Sys2Proof.Machine
end

