-- ==== Sys2Proof/Machine/Dispatch.lean ====
section
/-! DEFINITION. The one dispatch of the block: each command of the table to its meaning. -/
namespace Sys2Proof.Machine

/-- The effect of a command on everything but the queue. -/
def exec (i : Instr) (s : State) : Host.Outcome State Fault Refusal :=
  match i with
  | .cfgWrite addr data => Sys2Proof.Machine.execCfgWrite addr data s
  | .cfgTimeout k => Sys2Proof.Machine.execCfgTimeout k s
  | .dbgReg write addr data => Sys2Proof.Machine.execDbgReg write addr data s
  | .notchEdge => Sys2Proof.Machine.execNotchEdge s
  | .synthNotch => Sys2Proof.Machine.execSynthNotch s
  | .turnEdge => Sys2Proof.Machine.execTurnEdge s
  | .tcntAccept s1 s2 s3 s4 s5 => Sys2Proof.Machine.execTcntAccept s1 s2 s3 s4 s5 s
  | .stallDetect => Sys2Proof.Machine.execStallDetect s
  | .beaconTimeout => Sys2Proof.Machine.execBeaconTimeout s
  | .spnCtlWrite data => Sys2Proof.Machine.execSpnCtlWrite data s
  | .spnNowRead => Sys2Proof.Machine.execSpnNowRead s
  | .flitReceive node plane port upset sbp => Sys2Proof.Machine.execFlitReceive node plane port upset sbp s
  | .creditReceive node plane port upset crp => Sys2Proof.Machine.execCreditReceive node plane port upset crp s
  | .packetLaunch node plane port => Sys2Proof.Machine.execPacketLaunch node plane port s
  | .reflect node plane port vc => Sys2Proof.Machine.execReflect node plane port vc s
  | .burlAbsorb node port vc => Sys2Proof.Machine.execBurlAbsorb node port vc s
  | .burlHoldExpiry node k => Sys2Proof.Machine.execBurlHoldExpiry node k s
  | .latheFlitSwitch node port upset => Sys2Proof.Machine.execLatheFlitSwitch node port upset s
  | .headstockStationReceive => Sys2Proof.Machine.execHeadstockStationReceive s
  | .niLaunch ep => Sys2Proof.Machine.execNiLaunch ep s
  | .throttleUpdate ep => Sys2Proof.Machine.execThrottleUpdate ep s
  | .govWindowEnd => Sys2Proof.Machine.execGovWindowEnd s
  | .write ep => Sys2Proof.Machine.execWrite ep s
  | .read ep => Sys2Proof.Machine.execRead ep s
  | .send ep => Sys2Proof.Machine.execSend ep s
  | .rslotHoleTimeout ep src ctx chan => Sys2Proof.Machine.execRslotHoleTimeout ep src ctx chan s
  | .cfgRd isPort k => Sys2Proof.Machine.execCfgRd isPort k s
  | .cfgWr isPort k => Sys2Proof.Machine.execCfgWr isPort k s
  | .cfgRsp => Sys2Proof.Machine.execCfgRsp s
  | .rdata ep => Sys2Proof.Machine.execRdata ep s
  | .wack ep => Sys2Proof.Machine.execWack ep s
  | .nack ep => Sys2Proof.Machine.execNack ep s
  | .credit ep => Sys2Proof.Machine.execCredit ep s
  | .niRequestTimeout ep idx => Sys2Proof.Machine.execNiRequestTimeout ep idx s
  | .niRetry ep idx => Sys2Proof.Machine.execNiRetry ep idx s
  | .blkFree ep data => Sys2Proof.Machine.execBlkFree ep data s
  | .blkPoolEnable ep pool data => Sys2Proof.Machine.execBlkPoolEnable ep pool data s
  | .nop ring => Sys2Proof.Machine.execNop ring s
  | .ringAbort ring => Sys2Proof.Machine.execRingAbort ring s
  | .jobKill ring => Sys2Proof.Machine.execJobKill ring s
  | .xfer ring => Sys2Proof.Machine.execXfer ring s
  | .xferMc ring => Sys2Proof.Machine.execXferMc ring s
  | .xferRed ring => Sys2Proof.Machine.execXferRed ring s
  | .rankBind ring => Sys2Proof.Machine.execRankBind ring s
  | .tableWrite ring => Sys2Proof.Machine.execTableWrite ring s
  | .tsetSwap ring => Sys2Proof.Machine.execTsetSwap ring s
  | .tsetSwapEdge ring => Sys2Proof.Machine.execTsetSwapEdge ring s
  | .injStop ring => Sys2Proof.Machine.execInjStop ring s
  | .injResume ring => Sys2Proof.Machine.execInjResume ring s
  | .chanOpen ring => Sys2Proof.Machine.execChanOpen ring s
  | .chanClose ring => Sys2Proof.Machine.execChanClose ring s
  | .rtrDrain ring => Sys2Proof.Machine.execRtrDrain ring s
  | .rtrDrainDone => Sys2Proof.Machine.execRtrDrainDone s
  | .rtrDrainTimeout => Sys2Proof.Machine.execRtrDrainTimeout s
  | .rtrReopen ring => Sys2Proof.Machine.execRtrReopen ring s
  | .domDown ring => Sys2Proof.Machine.execDomDown ring s
  | .domUp ring => Sys2Proof.Machine.execDomUp ring s
  | .semInit ring => Sys2Proof.Machine.execSemInit ring s
  | .semFree ring => Sys2Proof.Machine.execSemFree ring s
  | .semSet ring => Sys2Proof.Machine.execSemSet ring s
  | .semRead ring => Sys2Proof.Machine.execSemRead ring s
  | .syncBind ring => Sys2Proof.Machine.execSyncBind ring s
  | .barInit ring => Sys2Proof.Machine.execBarInit ring s
  | .barFree ring => Sys2Proof.Machine.execBarFree ring s
  | .realignSet ring => Sys2Proof.Machine.execRealignSet ring s
  | .lthLoad ring => Sys2Proof.Machine.execLthLoad ring s
  | .lthLoadDone => Sys2Proof.Machine.execLthLoadDone s
  | .lthSwap ring => Sys2Proof.Machine.execLthSwap ring s
  | .lthSwapEdge => Sys2Proof.Machine.execLthSwapEdge s
  | .lthResume ring => Sys2Proof.Machine.execLthResume ring s
  | .latheResumeEdge => Sys2Proof.Machine.execLatheResumeEdge s
  | .planComplete => Sys2Proof.Machine.execPlanComplete s
  | .latheStage ep k => Sys2Proof.Machine.execLatheStage ep k s
  | .latheLaunch ep k => Sys2Proof.Machine.execLatheLaunch ep k s
  | .latheDeposit ep => Sys2Proof.Machine.execLatheDeposit ep s
  | .colGroupSet ring => Sys2Proof.Machine.execColGroupSet ring s
  | .colIssue ring => Sys2Proof.Machine.execColIssue ring s
  | .colPeerGone ring => Sys2Proof.Machine.execColPeerGone ring s
  | .linkAdmit ring => Sys2Proof.Machine.execLinkAdmit ring s
  | .linkDown ring => Sys2Proof.Machine.execLinkDown ring s
  | .linkSwap ring => Sys2Proof.Machine.execLinkSwap ring s
  | .linkRekey ring => Sys2Proof.Machine.execLinkRekey ring s
  | .keyLoad ring => Sys2Proof.Machine.execKeyLoad ring s
  | .keyErase ring => Sys2Proof.Machine.execKeyErase ring s
  | .regRead ring => Sys2Proof.Machine.execRegRead ring s
  | .regWrite ring => Sys2Proof.Machine.execRegWrite ring s
  | .mirSnap ring => Sys2Proof.Machine.execMirSnap ring s
  | .doorbell ring data => Sys2Proof.Machine.execDoorbell ring data s
  | .ringResume ring => Sys2Proof.Machine.execRingResume ring s
  | .ringEnable ring data => Sys2Proof.Machine.execRingEnable ring data s
  | .hdsRun data => Sys2Proof.Machine.execHdsRun data s
  | .commandFetch ring => Sys2Proof.Machine.execCommandFetch ring s
  | .statusReply ring => Sys2Proof.Machine.execStatusReply ring s
  | .guardNotify => Sys2Proof.Machine.execGuardNotify s
  | .guardExpiry slot => Sys2Proof.Machine.execGuardExpiry slot s
  | .mcTargetReceive ep => Sys2Proof.Machine.execMcTargetReceive ep s
  | .mcRelay ep => Sys2Proof.Machine.execMcRelay ep s
  | .perTargetNack ep => Sys2Proof.Machine.execPerTargetNack ep s
  | .mcUnicastRetry ep k => Sys2Proof.Machine.execMcUnicastRetry ep k s
  | .mcHoldExpiry ep k => Sys2Proof.Machine.execMcHoldExpiry ep k s
  | .reduceAcc ep => Sys2Proof.Machine.execReduceAcc ep s
  | .claim port => Sys2Proof.Machine.execClaim port s
  | .commit port => Sys2Proof.Machine.execCommit port s
  | .reduceBowl port => Sys2Proof.Machine.execReduceBowl port s
  | .bowlResultDone slot => Sys2Proof.Machine.execBowlResultDone slot s
  | .bowlSlotTimeout slot => Sys2Proof.Machine.execBowlSlotTimeout slot s
  | .bowlEntryExpire entry => Sys2Proof.Machine.execBowlEntryExpire entry s
  | .claimAttempt who => Sys2Proof.Machine.execClaimAttempt who s
  | .clmCommit data => Sys2Proof.Machine.execClmCommit data s
  | .clmRevoke dbg data => Sys2Proof.Machine.execClmRevoke dbg data s
  | .ready port => Sys2Proof.Machine.execReady port s
  | .gdone port => Sys2Proof.Machine.execGdone port s
  | .colStageStart port g => Sys2Proof.Machine.execColStageStart port g s
  | .colChunkSend port g part chunk => Sys2Proof.Machine.execColChunkSend port g part chunk s
  | .colProgressTimeout port g => Sys2Proof.Machine.execColProgressTimeout port g s
  | .add unit => Sys2Proof.Machine.execAdd unit s
  | .sub unit => Sys2Proof.Machine.execSub unit s
  | .wait unit => Sys2Proof.Machine.execWait unit s
  | .waitTake unit => Sys2Proof.Machine.execWaitTake unit s
  | .syncRead unit => Sys2Proof.Machine.execSyncRead unit s
  | .cancel unit => Sys2Proof.Machine.execCancel unit s
  | .barArrive unit => Sys2Proof.Machine.execBarArrive unit s
  | .barWait unit => Sys2Proof.Machine.execBarWait unit s
  | .barUp unit => Sys2Proof.Machine.execBarUp unit s
  | .barDown unit => Sys2Proof.Machine.execBarDown unit s
  | .set unit => Sys2Proof.Machine.execSet unit s
  | .barTimedRelease unit inst => Sys2Proof.Machine.execBarTimedRelease unit inst s
  | .realign unit slot => Sys2Proof.Machine.execRealign unit slot s
  | .watchTimeout unit watch => Sys2Proof.Machine.execWatchTimeout unit watch s
  | .notificationLaunch unit => Sys2Proof.Machine.execNotificationLaunch unit s
  | .syncNtf ep => Sys2Proof.Machine.execSyncNtf ep s
  | .wslotGuardExpiry ep slot => Sys2Proof.Machine.execWslotGuardExpiry ep slot s
  | .wslotFree ep slot => Sys2Proof.Machine.execWslotFree ep slot s
  | .desc tap data => Sys2Proof.Machine.execDesc tap data s
  | .sync tap data => Sys2Proof.Machine.execSync tap data s
  | .qsubmit tap data => Sys2Proof.Machine.execQsubmit tap data s
  | .reg tap data => Sys2Proof.Machine.execReg tap data s
  | .cqMessageStart ep sq => Sys2Proof.Machine.execCqMessageStart ep sq s
  | .cqStallTimeout ep sq => Sys2Proof.Machine.execCqStallTimeout ep sq s
  | .cquHeadWrite ep rq head => Sys2Proof.Machine.execCquHeadWrite ep rq head s
  | .creditUpdate ep rq => Sys2Proof.Machine.execCreditUpdate ep rq s
  | .cquSelRead ep core => Sys2Proof.Machine.execCquSelRead ep core s
  | .cquEnable ep isSend q data => Sys2Proof.Machine.execCquEnable ep isSend q data s
  | .frameReceive port lanes => Sys2Proof.Machine.execFrameReceive port lanes s
  | .replayTimeout port => Sys2Proof.Machine.execReplayTimeout port s
  | .admitSend port => Sys2Proof.Machine.execAdmitSend port s
  | .trainingTimeout port => Sys2Proof.Machine.execTrainingTimeout port s
  | .laneFail port lane => Sys2Proof.Machine.execLaneFail port lane s
  | .spareRotate port => Sys2Proof.Machine.execSpareRotate port s
  | .spareCalibrate port count => Sys2Proof.Machine.execSpareCalibrate port count s
  | .linkDead port => Sys2Proof.Machine.execLinkDead port s
  | .linkIdleEnd port => Sys2Proof.Machine.execLinkIdleEnd port s
  | .nklCtlWrite port data => Sys2Proof.Machine.execNklCtlWrite port data s
  | .fdiError port => Sys2Proof.Machine.execFdiError port s
  | .scaleoutExit port => Sys2Proof.Machine.execScaleoutExit port s
  | .scaleoutEntry port => Sys2Proof.Machine.execScaleoutEntry port s
  | .filterExpire k => Sys2Proof.Machine.execFilterExpire k s
  | .e2eAck port => Sys2Proof.Machine.execE2eAck port s
  | .e2eRetransmit port entry => Sys2Proof.Machine.execE2eRetransmit port entry s
  | .e2eAbandon port entry => Sys2Proof.Machine.execE2eAbandon port entry s
  | .domainQuiescent => Sys2Proof.Machine.execDomainQuiescent s
  | .domDownTimeout => Sys2Proof.Machine.execDomDownTimeout s
  | .stepBoundary => Sys2Proof.Machine.execStepBoundary s
  | .pswAckFall dom => Sys2Proof.Machine.execPswAckFall dom s
  | .pswAckRise dom => Sys2Proof.Machine.execPswAckRise dom s
  | .pswAckTimeout dom => Sys2Proof.Machine.execPswAckTimeout dom s
  | .pswAckLost dom => Sys2Proof.Machine.execPswAckLost dom s
  | .domainInitDone dom => Sys2Proof.Machine.execDomainInitDone dom s
  | .domainLit dom => Sys2Proof.Machine.execDomainLit dom s
  | .rstNAssert => Sys2Proof.Machine.execRstNAssert s
  | .rstNRelease fuseKey fusePar fuseValid => Sys2Proof.Machine.execRstNRelease fuseKey fusePar fuseValid s
  | .cfgInitDone => Sys2Proof.Machine.execCfgInitDone s
  | .halfReset east => Sys2Proof.Machine.execHalfReset east s
  | .halfResetRelease east => Sys2Proof.Machine.execHalfResetRelease east s
  | .crossingFarReset x => Sys2Proof.Machine.execCrossingFarReset x s
  | .join x => Sys2Proof.Machine.execJoin x s
  | .joinTimeout x => Sys2Proof.Machine.execJoinTimeout x s
  | .clockStop x => Sys2Proof.Machine.execClockStop x s
  | .errorReport cls src => Sys2Proof.Machine.execErrorReport cls src s
  | .errPop => Sys2Proof.Machine.execErrPop s
  | .tlmLoRead addr => Sys2Proof.Machine.execTlmLoRead addr s
  | .trigClear => Sys2Proof.Machine.execTrigClear s
  | .keyLock => Sys2Proof.Machine.execKeyLock s
  | .secTamper => Sys2Proof.Machine.execSecTamper s
  | .mapWriteResponse map tag err => Sys2Proof.Machine.execMapWriteResponse map tag err s
  | .mapReadData map tag data poison err => Sys2Proof.Machine.execMapReadData map tag data poison err s
  | .mapTimeout map write tag => Sys2Proof.Machine.execMapTimeout map write tag s
  | .tapReadData tap tag data poison err => Sys2Proof.Machine.execTapReadData tap tag data poison err s
  | .phyLock port lanes => Sys2Proof.Machine.execPhyLock port lanes s
  | .cellBoundary port => Sys2Proof.Machine.execCellBoundary port s
  | .eastClockRestart => Sys2Proof.Machine.execEastClockRestart s
  | .fuseVFall => Sys2Proof.Machine.execFuseVFall s
  | .errorPacingTurn => Sys2Proof.Machine.execErrorPacingTurn s
  | .hdsReservedOpcode ring => Sys2Proof.Machine.execHdsReservedOpcode ring s
  | .tapReservedOp tap op data => Sys2Proof.Machine.execTapReservedOp tap op data s
  | .syncOpReserved unit => Sys2Proof.Machine.execSyncOpReserved unit s

end Sys2Proof.Machine
end

