-- ==== Sys2Proof/Machine/Tick.lean ====
section
/-! DEFINITION. One cycle of fclk in which no command comes: the clocks, the token buckets, the links, the credit
updates whose delay has run out, the packets injected whole, the trace,
and the flits of launch windows (R36, R71, R94, R148, R166, R330, R345, R426). It is what a step does on an empty queue (DESIGN CHOICE, log 1). -/
namespace Sys2Proof.Machine
namespace State

/-- The clocks move on by one cycle; the host has lowered CFG_REQ, so that CFG_ACK falls (R453; DESIGN CHOICE, log 42). -/
def tickClock (s : State) : State :=
  let s := s.passCyc (s.cyc + 1)
  { s with spn := { s.spn with ticked := true }, cfgAck := none }

/-- Links with a packet in progress, and injection links with packets waiting. -/
def busyLinks (s : State) : List Nat :=
  s.own.map (·.1) ++ ((s.sendq.map (·.1)).filter (fun k => (mapGet s.own k).isNone))

/-- One cycle. -/
def tick (s : State) : State :=
  let s := s.firstAttempts.tickClock
  let s := if s.lazyDue.isEmpty then s else s.lazyAll.routeAll
  let s := s.busyLinks.foldl (fun s k => (s.stallOwned k).advanceLink k) s
  let s := if s.injecting.isEmpty then s else s.injAll
  let s := s.traceGo
  s.tapDrain.lathDrain

end State
end Sys2Proof.Machine
end

