-- ==== Sys2Proof/Machine/Pins.lean ====
section
/-! DEFINITION. The levels of the output signals that follow from the state (R402-R407, R430, R437, R443, R451, R452, R459, R464), and when
a build is legal (R460, R461). What is presented for a cycle at a time is driven as a `PortOut` by the commands themselves. -/
namespace Sys2Proof.Machine
namespace State

/-- IRQ_ERR (R430); every interrupt output is low while RST_N is low (R459, R464). -/
def irqErr (s : State) : Bool := s.boot != 1 && s.flag 0 F.ERR_STAT_PEND && s.flag 0 F.ERR_CTL_IRQ_EN

/-- IRQ_FATAL (R430). -/
def irqFatal (s : State) : Bool := s.boot != 1 && s.flag 0 F.ERR_STAT_FATAL

/-- IRQ_SEC, the OR of the KEY_VIOL bits, not paced (R437). -/
def irqSec (s : State) : Bool := s.boot != 1 && s.get 0 F.KEY_VIOL_CLASS != 0

/-- IRQ_HDS[r] is bit r of HDS_IRQ (R459). -/
def irqHds (s : State) (r : Nat) : Bool := s.boot != 1 && bitAt (s.get 0 F.HDS_IRQ_RING) r

/-- SEC_ERASED (R437, R464). -/
def secErasedOut (s : State) : Bool := s.boot != 1 && s.flag 0 F.KEY_STAT_ERASED

/-- PSW_EN[d] (R403, R404, R464). -/
def pswEnOut (s : State) (d : Nat) : Bool := s.boot != 1 && s.pswEn.contains d

/-- ISO_EN[d] (R402, R405, R464). -/
def isoEnOut (s : State) (d : Nat) : Bool := s.boot == 1 || !s.isoLow.contains d

/-- CFG_ACK: high, with CFG_RDATA and CFG_STATUS, from the end of an access until the host has lowered CFG_REQ (R453); low while RST_N is
low and while the block initialises (R454, R464). -/
def cfgAckOut (s : State) : Bool := s.cfgAck.isSome
def cfgRdataOut (s : State) : Word := (s.cfgAck.map (·.1)).getD 0
def cfgStatusOut (s : State) : Nat := (s.cfgAck.map (·.2)).getD 0

/-- A link port's outputs are held as in reset: RST_N, a half in reset, a stopped clock, or a domain that is not on (R412, R416, R464). -/
def linkHeld (s : State) (p : Nat) : Bool :=
  s.stopped || !s.portOn p || !s.domOn (s.build.linkDom p) || s.halfDown (s.build.linkDom p)

/-- NKP_TXIDLE of a Nuoka Link port's lanes: electrical idle, with NKP_TXD at zero (R350, R360, R451, R464). -/
def nkpTxIdle (s : State) (p : Nat) : Bool := s.linkHeld p || s.linkState p == 0 || (s.link p).idle.isSome

/-- NKP_TXD of a lane: zero while it is idle, else the last word driven (R451, R464). -/
def nkpTxd (s : State) (p lane : Nat) : BitVec 160 :=
  if s.nkpTxIdle p then 0
  else (s.out.reverse.findSome? (fun o => match o with
    | .nkpTx q l w => if q == p && l == lane then some w else none
    | _ => none)).getD 0

/-- The symbols of a lane's NKP_RXD words, of which FRAME_RECEIVE takes those of a frame (R451). -/
def rxSymbols (ws : List (BitVec 160)) : List (BitVec 10) := ws.flatMap wordSyms

/-- lp_valid and lp_irdy of a D2D module: cells follow one another while its link is not DOWN, IDLE cells where nothing else is to
be sent (R346, R452, R464). -/
def lpValid (s : State) (p : Nat) : Bool := !s.linkHeld p && s.linkState p != 0 && (s.link p).idle.isNone

/-- lp_linkerror: the protocol layer reports no error of its own (PRESUMED: UCIe 2.0, log 42). -/
def lpLinkError (_ : State) (_ : Nat) : Bool := false

/-- lp_stallack and lp_clk_ack answer pl_stallreq and pl_clk_req where the module is not held (PRESUMED: UCIe 2.0, log 42). -/
def lpStallAck (s : State) (p : Nat) (plStallreq : Bool) : Bool := plStallreq && !s.linkHeld p
def lpClkAck (s : State) (p : Nat) (plClkReq : Bool) : Bool := plClkReq && !s.linkHeld p

/-- lp_state_req of a D2D module is Active, else NOP: only while NKL_CTL.EN is 1 (R452, R464). -/
def lpActive (s : State) (p : Nat) : Bool := !s.linkHeld p && s.flag (portBase p) F.NKL_CTL_EN

/-- lp_wake_req of a D2D module: it asks for its adapter while it requests Active (PRESUMED: UCIe 2.0, log 42). -/
def lpWakeReq (s : State) (p : Nat) : Bool := s.lpActive p

/-- MIR_TVALID: a record of the trace FIFO is on the trace output, or waits for it (R458, R464). -/
def mirTvalid (s : State) : Bool := s.boot != 1 && s.get 0 F.MIR_CTL_TRMODE == 3 && (s.cyc < s.mirAt || !s.trace.isEmpty)

/-! ### The 1149.1 segment (R438, R457) -/

/-- What the instruction register captures: 0b0000_0001. -/
def irCapture : Nat := 1

/-- The instruction that a code selects: every code that is no other selects BYPASS. -/
def irSelects (code : Nat) : Nat := if code == 0 || code == 1 || code == 0x3A then code else 0xFF

/-- An instruction loaded at Update-IR. -/
def loadIr (s : State) (code : Nat) : State := { s with jtag := { s.jtag with ir := irSelects (code % 256) } }

/-- TRST_N resets the segment only: its instruction is BYPASS. -/
def trst (s : State) : State := { s with jtag := { s.jtag with ir := 0xFF } }

/-- What Capture-DR takes: the length of the selected data register and its bits. DBG_REG: read data in [31:0], the status in [35:32],
DONE in [36]. The boundary register of EXTEST and SAMPLE/PRELOAD captures 0, and so does BYPASS. -/
def drCapture (s : State) : Nat × Nat :=
  if s.jtag.ir == 0x3A then
    (64, packFields [(32, s.jtag.data.toNat), (4, s.jtag.status), (1, bit s.jtag.done)])
  else (1, 0)

/-- TDO in Shift-DR and Shift-IR after `k` bits: the captured bits, least significant first. -/
def tdo (s : State) (ir : Bool) (k : Nat) : Bool := bitAt (if ir then irCapture else s.drCapture.2) k

/-- DBG_REG shifted in and updated: the access of address [27:0], write [28] and data [63:32], where DBG_REG is the instruction and bits
[31:29] are zero. -/
def dbgFields (x : Nat) : Bool × Nat × Nat := (bitAt x 28, bitsOf x 0 28, bitsOf x 32 32)

end State

/-- The attach positions of a port block: one, or two adjacent ones along its side (R24, R25), as column, row and side. -/
def Station.places (x : Station) : List (Nat × Nat × Nat) :=
  (x.col, x.row, x.side) ::
    (if !x.pair then [] else if x.side == 1 || x.side == 3 then [(x.col, x.row + 1, x.side)] else [(x.col + 1, x.row, x.side)])

/-- The place lies on an outward port of the mesh (R22, R461). -/
def Build.outward (b : Build) (x : Nat × Nat × Nat) : Bool :=
  x.1 < b.cols && x.2.1 < b.rows && x.2.2 < 4 && (b.neighbour (b.node x.1 x.2.1) (x.2.2 + 1)).isNone

/-- The ranges of the build parameters (R460). -/
def Build.inRange (b : Build) : Bool :=
  2 ≤ b.cols && b.cols ≤ 96 && 1 ≤ b.rows && b.rows ≤ 64 && 2 ≤ b.domw && b.domw ≤ 16 && 2 ≤ b.domh && b.domh ≤ 16 && b.pbmem < 3 &&
  (if b.isS then !b.halves && b.nmap == 0 && 2 ≤ b.nnkl && b.nnkl ≤ 72 && b.nd2d == 0 && [16, 32, 48, 64].contains b.bowlMB
   else [0, 16, 32, 48].contains b.nmap && b.nnkl ≤ 24 && b.nd2d ≤ 8 && [0, 4, 8, 12, 16].contains b.bowlMB)

/-- Port blocks are numbered MAPs first, then Nuoka Link ports, then D2D modules, each kind by its own index (R461). -/
def Build.numbered (b : Build) : Bool :=
  (b.stations.map (fun x => (x.port, x.kind, x.index))) ==
    (upFrom 0 b.nmap).map (fun i => (i, 1, i)) ++ (upFrom 0 b.nnkl).map (fun i => (b.nmap + i, 2, i)) ++
    (upFrom 0 b.nd2d).map (fun i => (b.nmap + b.nnkl + i, 3, i))

/-- A legal build (R460, R461). -/
def Build.legal (b : Build) : Bool :=
  let at' := b.stations.flatMap Station.places
  b.inRange && b.numbered && b.cols % b.domw == 0 && b.rows % b.domh == 0 &&
  (!b.halves || (b.cols % 2 == 0 && b.cols / 2 % b.domw == 0)) && b.nmesh ≤ 64 && (b.isS || b.nodes ≤ 3840) && b.nports ≤ 126 &&
  ((b.bowlMB == 0) == (b.nnkl + b.nd2d == 0)) && b.ndom ≤ 80 && at'.all b.outward && at'.eraseDups.length == at'.length &&
  b.stations.all (fun x => x.pair == (!b.isS && x.kind != 1) && (x.kind != 3 || x.side == (if b.d2dWest then 3 else 1))) &&
  !at'.contains (0, 0, 3)

end Sys2Proof.Machine
end

