-- ==== Sys2Proof/WellFormed.lean ====
section
/-! DEFINITION. Well-formed commands: every operand that names a part lies in the range the spec's address map and
numbering give that part in any build (R8, R15, R17, R23, R118, R280, R372). Whether a given build has the part is asked
of the State, not of the command. -/
namespace Sys2Proof

/-- The operands of a command that name a part, each with the number of such parts that the numbering allows. -/
def Instr.ranges : Instr → List (Nat × Nat)
  | .cfgWrite _ _ => []
  | .cfgTimeout _ => []
  | .dbgReg _ _ _ => []
  | .notchEdge => []
  | .synthNotch => []
  | .turnEdge => []
  | .tcntAccept _ _ _ _ _ => []
  | .stallDetect => []
  | .beaconTimeout => []
  | .spnCtlWrite _ => []
  | .spnNowRead => []
  | .flitReceive node plane port _ _ => [(node, 6144), (plane, 5), (port, 6)]
  | .creditReceive node plane port _ _ => [(node, 6144), (plane, 5), (port, 6)]
  | .packetLaunch node plane port => [(node, 6144), (plane, 5), (port, 6)]
  | .reflect node plane port vc => [(node, 6144), (plane, 5), (port, 6), (vc, 8)]
  | .burlAbsorb node port vc => [(node, 6144), (port, 5), (vc, 8)]
  | .burlHoldExpiry node _ => [(node, 6144)]
  | .latheFlitSwitch node port _ => [(node, 6144), (port, 5)]
  | .headstockStationReceive => []
  | .niLaunch ep => [(ep, 4096)]
  | .throttleUpdate ep => [(ep, 4096)]
  | .govWindowEnd => []
  | .write ep => [(ep, 4096)]
  | .read ep => [(ep, 4096)]
  | .send ep => [(ep, 4096)]
  | .rslotHoleTimeout ep _ _ _ => [(ep, 4096)]
  | .cfgRd _ _ => []
  | .cfgWr _ _ => []
  | .cfgRsp => []
  | .rdata ep => [(ep, 4096)]
  | .wack ep => [(ep, 4096)]
  | .nack ep => [(ep, 4096)]
  | .credit ep => [(ep, 4096)]
  | .niRequestTimeout ep _ => [(ep, 4096)]
  | .niRetry ep _ => [(ep, 4096)]
  | .blkFree ep _ => [(ep, 4096)]
  | .blkPoolEnable ep pool _ => [(ep, 4096), (pool, 4)]
  | .nop ring => [(ring, 16)]
  | .ringAbort ring => [(ring, 16)]
  | .jobKill ring => [(ring, 16)]
  | .xfer ring => [(ring, 16)]
  | .xferMc ring => [(ring, 16)]
  | .xferRed ring => [(ring, 16)]
  | .rankBind ring => [(ring, 16)]
  | .tableWrite ring => [(ring, 16)]
  | .tsetSwap ring => [(ring, 16)]
  | .tsetSwapEdge ring => [(ring, 16)]
  | .injStop ring => [(ring, 16)]
  | .injResume ring => [(ring, 16)]
  | .chanOpen ring => [(ring, 16)]
  | .chanClose ring => [(ring, 16)]
  | .rtrDrain ring => [(ring, 16)]
  | .rtrDrainDone => []
  | .rtrDrainTimeout => []
  | .rtrReopen ring => [(ring, 16)]
  | .domDown ring => [(ring, 16)]
  | .domUp ring => [(ring, 16)]
  | .semInit ring => [(ring, 16)]
  | .semFree ring => [(ring, 16)]
  | .semSet ring => [(ring, 16)]
  | .semRead ring => [(ring, 16)]
  | .syncBind ring => [(ring, 16)]
  | .barInit ring => [(ring, 16)]
  | .barFree ring => [(ring, 16)]
  | .realignSet ring => [(ring, 16)]
  | .lthLoad ring => [(ring, 16)]
  | .lthLoadDone => []
  | .lthSwap ring => [(ring, 16)]
  | .lthSwapEdge => []
  | .lthResume ring => [(ring, 16)]
  | .latheResumeEdge => []
  | .planComplete => []
  | .latheStage ep _ => [(ep, 4096)]
  | .latheLaunch ep _ => [(ep, 4096)]
  | .latheDeposit ep => [(ep, 4096)]
  | .colGroupSet ring => [(ring, 16)]
  | .colIssue ring => [(ring, 16)]
  | .colPeerGone ring => [(ring, 16)]
  | .linkAdmit ring => [(ring, 16)]
  | .linkDown ring => [(ring, 16)]
  | .linkSwap ring => [(ring, 16)]
  | .linkRekey ring => [(ring, 16)]
  | .keyLoad ring => [(ring, 16)]
  | .keyErase ring => [(ring, 16)]
  | .regRead ring => [(ring, 16)]
  | .regWrite ring => [(ring, 16)]
  | .mirSnap ring => [(ring, 16)]
  | .doorbell ring _ => [(ring, 16)]
  | .ringResume ring => [(ring, 16)]
  | .ringEnable ring _ => [(ring, 16)]
  | .hdsRun _ => []
  | .commandFetch ring => [(ring, 16)]
  | .statusReply ring => [(ring, 16)]
  | .guardNotify => []
  | .guardExpiry slot => [(slot, 256)]
  | .mcTargetReceive ep => [(ep, 4096)]
  | .mcRelay ep => [(ep, 4096)]
  | .perTargetNack ep => [(ep, 4096)]
  | .mcUnicastRetry ep _ => [(ep, 4096)]
  | .mcHoldExpiry ep _ => [(ep, 4096)]
  | .reduceAcc ep => [(ep, 4096)]
  | .claim port => [(port, 126)]
  | .commit port => [(port, 126)]
  | .reduceBowl port => [(port, 126)]
  | .bowlResultDone slot => [(slot, 4096)]
  | .bowlSlotTimeout slot => [(slot, 4096)]
  | .bowlEntryExpire entry => [(entry, 4096)]
  | .claimAttempt _ => []
  | .clmCommit _ => []
  | .clmRevoke _ _ => []
  | .ready port => [(port, 126)]
  | .gdone port => [(port, 126)]
  | .colStageStart port _ => [(port, 126)]
  | .colChunkSend port _ _ _ => [(port, 126)]
  | .colProgressTimeout port _ => [(port, 126)]
  | .add unit => [(unit, 126)]
  | .sub unit => [(unit, 126)]
  | .wait unit => [(unit, 126)]
  | .waitTake unit => [(unit, 126)]
  | .syncRead unit => [(unit, 126)]
  | .cancel unit => [(unit, 126)]
  | .barArrive unit => [(unit, 126)]
  | .barWait unit => [(unit, 126)]
  | .barUp unit => [(unit, 126)]
  | .barDown unit => [(unit, 126)]
  | .set unit => [(unit, 126)]
  | .barTimedRelease unit inst => [(unit, 126), (inst, 256)]
  | .realign unit slot => [(unit, 126), (slot, 8)]
  | .watchTimeout unit watch => [(unit, 126), (watch, 2048)]
  | .notificationLaunch unit => [(unit, 126)]
  | .syncNtf ep => [(ep, 4096)]
  | .wslotGuardExpiry ep slot => [(ep, 4096), (slot, 64)]
  | .wslotFree ep slot => [(ep, 4096), (slot, 64)]
  | .desc tap _ => [(tap, 15360)]
  | .sync tap _ => [(tap, 15360)]
  | .qsubmit tap _ => [(tap, 15360)]
  | .reg tap _ => [(tap, 15360)]
  | .cqMessageStart ep sq => [(ep, 4096), (sq, 16)]
  | .cqStallTimeout ep sq => [(ep, 4096), (sq, 16)]
  | .cquHeadWrite ep rq _ => [(ep, 4096), (rq, 16)]
  | .creditUpdate ep rq => [(ep, 4096), (rq, 16)]
  | .cquSelRead ep core => [(ep, 4096), (core, 4)]
  | .cquEnable ep _ q _ => [(ep, 4096), (q, 16)]
  | .frameReceive port lanes => [(port, 126), (lanes.length, 9), ((lanes.map (·.syms.length)).foldl max 0, 1089)]
  | .replayTimeout port => [(port, 126)]
  | .admitSend port => [(port, 126)]
  | .trainingTimeout port => [(port, 126)]
  | .laneFail port lane => [(port, 126), (lane, 8)]
  | .spareRotate port => [(port, 126)]
  | .spareCalibrate port _ => [(port, 126)]
  | .linkDead port => [(port, 126)]
  | .linkIdleEnd port => [(port, 126)]
  | .nklCtlWrite port _ => [(port, 126)]
  | .fdiError port => [(port, 126)]
  | .scaleoutExit port => [(port, 126)]
  | .scaleoutEntry port => [(port, 126)]
  | .filterExpire _ => []
  | .e2eAck port => [(port, 126)]
  | .e2eRetransmit port _ => [(port, 126)]
  | .e2eAbandon port _ => [(port, 126)]
  | .domainQuiescent => []
  | .domDownTimeout => []
  | .stepBoundary => []
  | .pswAckFall dom => [(dom, 126)]
  | .pswAckRise dom => [(dom, 126)]
  | .pswAckTimeout dom => [(dom, 126)]
  | .pswAckLost dom => [(dom, 126)]
  | .domainInitDone dom => [(dom, 126)]
  | .domainLit dom => [(dom, 126)]
  | .rstNAssert => []
  | .rstNRelease _ _ _ => []
  | .cfgInitDone => []
  | .halfReset _ => []
  | .halfResetRelease _ => []
  | .crossingFarReset _ => []
  | .join _ => []
  | .joinTimeout _ => []
  | .clockStop _ => []
  | .errorReport _ _ => []
  | .errPop => []
  | .tlmLoRead _ => []
  | .trigClear => []
  | .keyLock => []
  | .secTamper => []
  | .mapWriteResponse map tag err => [(map, 126), (tag, 4096), (err, 8)]
  | .mapReadData map tag _ _ err => [(map, 126), (tag, 4096), (err, 8)]
  | .mapTimeout map _ tag => [(map, 126), (tag, 4096)]
  | .tapReadData tap tag _ _ _ => [(tap, 15360), (tag, 4096)]
  | .phyLock port _ => [(port, 126)]
  | .cellBoundary port => [(port, 126)]
  | .eastClockRestart => []
  | .fuseVFall => []
  | .errorPacingTurn => []
  | .hdsReservedOpcode ring => [(ring, 16)]
  | .tapReservedOp tap _ _ => [(tap, 15360)]
  | .syncOpReserved unit => [(unit, 126)]

/-- Every part that a command names is one the numbering has. -/
def Instr.wf (i : Instr) : Bool := i.ranges.all (fun r => r.1 < r.2)

end Sys2Proof
end

