-- ==== Sys2Proof/Safety.lean ====
section
/-! DEFINITION. What counts as a safe step: the commands a build can be given, states in which nothing is under way, and runs of
a queue of commands. -/
namespace Sys2Proof.Safety
open Sys2Proof.Machine

/-- The step neither faults nor is refused. -/
def StepOk (s : State) : Prop := ∃ t, step s = .next t

/-- The command is answered by a next state. -/
def Answers (c : Instr) (s : State) : Prop := ∃ t, exec c s = .next t

/-- The endpoint is a built NI of a node or port block: every built endpoint but the Headstock station. -/
def niEp (b : Build) (ep : Nat) : Bool := ep != 0xF7E && b.epBuilt ep

/-- The endpoint is the built NI of a node. -/
def nodeEp (b : Build) (ep : Nat) : Bool := ep < 0xF00 && b.epBuilt ep

/-- The endpoint's NI takes part in the Lathe plane (R154, R164). -/
def latheEp (b : Build) (ep : Nat) : Bool :=
  !b.isS && (ep < 0xF00 && ep < b.nodes || 0xF00 ≤ ep && ep < 0xF7E && b.portKind (ep - 0xF00) == 1)

/-- The TAP is built (R3, R443). -/
def tapBuilt (b : Build) (t : Nat) : Bool := !b.isS && t < 4 * b.nodes

/-- The command names a part that the build has, or a place in its configuration window (R2, R8, R460, R461). -/
def built (b : Build) : Instr → Bool
  | .cfgWrite _ _ => true
  | .cfgTimeout _ => true
  | .dbgReg _ _ _ => true
  | .notchEdge => true
  | .synthNotch => true
  | .turnEdge => true
  | .tcntAccept _ _ _ _ _ => true
  | .stallDetect => true
  | .beaconTimeout => true
  | .spnCtlWrite _ => true
  | .spnNowRead => true
  | .flitReceive node _ _ _ _ => node < b.nodes
  | .creditReceive node _ _ _ _ => node < b.nodes
  | .packetLaunch node _ _ => node < b.nodes
  | .reflect node _ _ _ => node < b.nodes
  | .burlAbsorb node _ _ => node < b.nodes
  | .burlHoldExpiry node _ => node < b.nodes
  | .latheFlitSwitch node _ _ => node < b.nodes
  | .headstockStationReceive => true
  | .niLaunch ep => b.epBuilt ep
  | .throttleUpdate ep => niEp b ep
  | .govWindowEnd => true
  | .write ep => niEp b ep
  | .read ep => niEp b ep
  | .send ep => niEp b ep
  | .rslotHoleTimeout ep _ _ _ => niEp b ep
  | .cfgRd isPort k => if isPort then b.portKind k != 0 else k < b.nodes
  | .cfgWr isPort k => if isPort then b.portKind k != 0 else k < b.nodes
  | .cfgRsp => true
  | .rdata ep => b.epBuilt ep
  | .wack ep => b.epBuilt ep
  | .nack ep => b.epBuilt ep
  | .credit ep => b.epBuilt ep
  | .niRequestTimeout ep _ => b.epBuilt ep
  | .niRetry ep _ => b.epBuilt ep
  | .blkFree ep _ => ep < 0xF7E
  | .blkPoolEnable ep _ _ => ep < 0xF7E
  | .nop ring => ring < 16
  | .ringAbort ring => ring < 16
  | .jobKill ring => ring < 16
  | .xfer ring => ring < 16
  | .xferMc ring => ring < 16
  | .xferRed ring => ring < 16
  | .rankBind ring => ring < 16
  | .tableWrite ring => ring < 16
  | .tsetSwap ring => ring < 16
  | .tsetSwapEdge ring => ring < 16
  | .injStop ring => ring < 16
  | .injResume ring => ring < 16
  | .chanOpen ring => ring < 16
  | .chanClose ring => ring < 16
  | .rtrDrain ring => ring < 16
  | .rtrDrainDone => true
  | .rtrDrainTimeout => true
  | .rtrReopen ring => ring < 16
  | .domDown ring => ring < 16
  | .domUp ring => ring < 16
  | .semInit ring => ring < 16
  | .semFree ring => ring < 16
  | .semSet ring => ring < 16
  | .semRead ring => ring < 16
  | .syncBind ring => ring < 16
  | .barInit ring => ring < 16
  | .barFree ring => ring < 16
  | .realignSet ring => ring < 16
  | .lthLoad ring => ring < 16
  | .lthLoadDone => true
  | .lthSwap ring => ring < 16
  | .lthSwapEdge => true
  | .lthResume ring => ring < 16
  | .latheResumeEdge => true
  | .planComplete => true
  | .latheStage ep _ => latheEp b ep
  | .latheLaunch ep _ => latheEp b ep
  | .latheDeposit ep => latheEp b ep
  | .colGroupSet ring => ring < 16
  | .colIssue ring => ring < 16
  | .colPeerGone ring => ring < 16
  | .linkAdmit ring => ring < 16
  | .linkDown ring => ring < 16
  | .linkSwap ring => ring < 16
  | .linkRekey ring => ring < 16
  | .keyLoad ring => ring < 16
  | .keyErase ring => ring < 16
  | .regRead ring => ring < 16
  | .regWrite ring => ring < 16
  | .mirSnap ring => ring < 16
  | .doorbell ring _ => ring < 16
  | .ringResume ring => ring < 16
  | .ringEnable ring _ => ring < 16
  | .hdsRun _ => true
  | .commandFetch ring => ring < 16
  | .statusReply ring => ring < 16
  | .guardNotify => true
  | .guardExpiry _ => true
  | .mcTargetReceive ep => niEp b ep
  | .mcRelay ep => niEp b ep
  | .perTargetNack ep => niEp b ep
  | .mcUnicastRetry ep _ => niEp b ep
  | .mcHoldExpiry ep _ => niEp b ep
  | .reduceAcc ep => niEp b ep
  | .claim port => b.isBowlPort port
  | .commit port => b.isBowlPort port
  | .reduceBowl port => b.isBowlPort port
  | .bowlResultDone _ => true
  | .bowlSlotTimeout _ => true
  | .bowlEntryExpire _ => true
  | .claimAttempt _ => true
  | .clmCommit _ => true
  | .clmRevoke _ _ => true
  | .ready port => b.isBowlPort port && !b.isS
  | .gdone port => b.isBowlPort port && !b.isS
  | .colStageStart port _ => b.isBowlPort port && !b.isS
  | .colChunkSend port _ _ _ => b.isBowlPort port && !b.isS
  | .colProgressTimeout port _ => b.isBowlPort port && !b.isS
  | .add unit => unit < b.units
  | .sub unit => unit < b.units
  | .wait unit => unit < b.units
  | .waitTake unit => unit < b.units
  | .syncRead unit => unit < b.units
  | .cancel unit => unit < b.units
  | .barArrive unit => unit < b.units
  | .barWait unit => unit < b.units
  | .barUp unit => unit < b.units
  | .barDown unit => unit < b.units
  | .set unit => unit < b.units
  | .barTimedRelease unit _ => unit < b.units
  | .realign unit _ => unit < b.units
  | .watchTimeout unit _ => unit < b.units
  | .notificationLaunch unit => unit < b.units
  | .syncNtf ep => nodeEp b ep
  | .wslotGuardExpiry ep _ => nodeEp b ep
  | .wslotFree ep _ => ep < 0xF7E
  | .desc tap _ => tapBuilt b tap
  | .sync tap _ => tapBuilt b tap
  | .qsubmit tap _ => tapBuilt b tap
  | .reg tap _ => tapBuilt b tap
  | .cqMessageStart ep _ => nodeEp b ep
  | .cqStallTimeout ep _ => nodeEp b ep
  | .cquHeadWrite ep _ _ => ep < 0xF7E
  | .creditUpdate ep _ => nodeEp b ep
  | .cquSelRead ep _ => ep < 0xF7E
  | .cquEnable ep _ _ _ => ep < 0xF7E
  | .frameReceive port _ => b.isLink port
  | .replayTimeout port => b.isLink port
  | .admitSend port => b.isLink port
  | .trainingTimeout port => b.isLink port
  | .laneFail port _ => b.isLink port
  | .spareRotate port => b.isLink port
  | .spareCalibrate port _ => b.isLink port
  | .linkDead port => b.isLink port
  | .linkIdleEnd port => b.isLink port
  | .nklCtlWrite port _ => port < 128
  | .fdiError port => b.isLink port
  | .scaleoutExit port => b.isLink port
  | .scaleoutEntry port => b.isLink port
  | .filterExpire _ => true
  | .e2eAck port => b.isLink port
  | .e2eRetransmit port _ => b.isLink port
  | .e2eAbandon port _ => b.isLink port
  | .domainQuiescent => true
  | .domDownTimeout => true
  | .stepBoundary => true
  | .pswAckFall dom => dom < b.cfgDom
  | .pswAckRise dom => dom < b.cfgDom
  | .pswAckTimeout dom => dom < b.cfgDom
  | .pswAckLost dom => dom < b.cfgDom
  | .domainInitDone dom => dom < b.cfgDom
  | .domainLit dom => dom < b.cfgDom
  | .rstNAssert => true
  | .rstNRelease _ _ _ => true
  | .cfgInitDone => true
  | .halfReset _ => b.halves
  | .halfResetRelease _ => b.halves
  | .crossingFarReset x => !State.noCrossing b x
  | .join x => !State.noCrossing b x
  | .joinTimeout x => !State.noCrossing b x
  | .clockStop x => x == .seam false || !State.noCrossing b x
  | .errorReport _ _ => true
  | .errPop => true
  | .tlmLoRead _ => true
  | .trigClear => true
  | .keyLock => true
  | .secTamper => true
  | .mapWriteResponse map _ _ => b.portKind map == 1
  | .mapReadData map _ _ _ _ => b.portKind map == 1
  | .mapTimeout map _ _ => b.portKind map == 1
  | .tapReadData tap _ _ _ _ => tapBuilt b tap
  | .phyLock port _ => b.isLink port
  | .cellBoundary port => b.isLink port
  | .eastClockRestart => b.halves
  | .fuseVFall => true
  | .errorPacingTurn => true
  | .hdsReservedOpcode ring => ring < 16
  | .tapReservedOp tap _ _ => tapBuilt b tap
  | .syncOpReserved unit => unit < b.units

/-- The part that the command names is powered and clocked, so that the command acts: where it is not, nothing happens (R395, R412,
R413, R414). -/
def partOn (s : State) : Instr → Bool
  | .cfgWrite _ _ => !(s.boot == 3)
  | .cfgTimeout _ => !s.stopped
  | .dbgReg _ _ _ => true
  | .notchEdge => !s.stopped
  | .synthNotch => !s.stopped
  | .turnEdge => !s.stopped
  | .tcntAccept _ _ _ _ _ => !s.stopped
  | .stallDetect => !s.stopped
  | .beaconTimeout => !s.stopped
  | .spnCtlWrite _ => !(s.boot == 3)
  | .spnNowRead => !(s.boot == 3)
  | .flitReceive node plane port _ _ => s.nodeOn node || State.portOf plane port
  | .creditReceive node _ _ _ _ => s.nodeOn node
  | .packetLaunch node _ _ => s.nodeOn node
  | .reflect node _ _ _ => s.nodeOn node
  | .burlAbsorb node _ _ => s.nodeOn node
  | .burlHoldExpiry node _ => s.nodeOn node
  | .latheFlitSwitch node _ _ => s.nodeOn node
  | .headstockStationReceive => !s.stopped
  | .niLaunch ep => s.epOn ep && !s.stopped
  | .throttleUpdate ep => s.epOn ep && !s.stopped
  | .govWindowEnd => !s.stopped
  | .write ep => s.epOn ep && !s.stopped
  | .read ep => s.epOn ep && !s.stopped
  | .send ep => s.epOn ep && !s.stopped
  | .rslotHoleTimeout ep _ _ _ => s.epOn ep && !s.stopped
  | .cfgRd isPort k => (if isPort then s.portOn k else s.nodeOn k) && !s.stopped
  | .cfgWr isPort k => (if isPort then s.portOn k else s.nodeOn k) && !s.stopped
  | .cfgRsp => !s.stopped
  | .rdata ep => s.epOn ep && !s.stopped
  | .wack ep => s.epOn ep && !s.stopped
  | .nack ep => s.epOn ep && !s.stopped
  | .credit ep => s.epOn ep && !s.stopped
  | .niRequestTimeout ep _ => s.epOn ep && !s.stopped
  | .niRetry ep _ => s.epOn ep && !s.stopped
  | .blkFree _ _ => !s.stopped
  | .blkPoolEnable _ _ _ => !s.stopped
  | .nop _ => !s.stopped
  | .ringAbort _ => !s.stopped
  | .jobKill _ => !s.stopped
  | .xfer _ => !s.stopped
  | .xferMc _ => !s.stopped
  | .xferRed _ => !s.stopped
  | .rankBind _ => !s.stopped
  | .tableWrite _ => !s.stopped
  | .tsetSwap _ => !s.stopped
  | .tsetSwapEdge _ => !s.stopped
  | .injStop _ => !s.stopped
  | .injResume _ => !s.stopped
  | .chanOpen _ => !s.stopped
  | .chanClose _ => !s.stopped
  | .rtrDrain _ => !s.stopped
  | .rtrDrainDone => !s.stopped
  | .rtrDrainTimeout => !s.stopped
  | .rtrReopen _ => !s.stopped
  | .domDown _ => !s.stopped
  | .domUp _ => !s.stopped
  | .semInit _ => !s.stopped
  | .semFree _ => !s.stopped
  | .semSet _ => !s.stopped
  | .semRead _ => !s.stopped
  | .syncBind _ => !s.stopped
  | .barInit _ => !s.stopped
  | .barFree _ => !s.stopped
  | .realignSet _ => !s.stopped
  | .lthLoad _ => !s.stopped
  | .lthLoadDone => !s.stopped
  | .lthSwap _ => !s.stopped
  | .lthSwapEdge => !s.stopped
  | .lthResume _ => !s.stopped
  | .latheResumeEdge => !s.stopped
  | .planComplete => !s.stopped
  | .latheStage ep _ => s.epOn ep && !s.stopped
  | .latheLaunch ep _ => s.epOn ep && !s.stopped
  | .latheDeposit ep => s.epOn ep && !s.stopped
  | .colGroupSet _ => !s.stopped
  | .colIssue _ => !s.stopped
  | .colPeerGone _ => !s.stopped
  | .linkAdmit _ => !s.stopped
  | .linkDown _ => !s.stopped
  | .linkSwap _ => !s.stopped
  | .linkRekey _ => !s.stopped
  | .keyLoad _ => !s.stopped
  | .keyErase _ => !s.stopped
  | .regRead _ => !s.stopped
  | .regWrite _ => !s.stopped
  | .mirSnap _ => !s.stopped
  | .doorbell _ _ => !(s.boot == 3)
  | .ringResume _ => !(s.boot == 3)
  | .ringEnable _ _ => !(s.boot == 3)
  | .hdsRun _ => !(s.boot == 3)
  | .commandFetch _ => !s.stopped
  | .statusReply _ => !s.stopped
  | .guardNotify => !s.stopped
  | .guardExpiry _ => !s.stopped
  | .mcTargetReceive ep => s.epOn ep && !s.stopped
  | .mcRelay ep => s.epOn ep && !s.stopped
  | .perTargetNack ep => s.epOn ep && !s.stopped
  | .mcUnicastRetry ep _ => s.epOn ep && !s.stopped
  | .mcHoldExpiry ep _ => s.epOn ep && !s.stopped
  | .reduceAcc ep => s.epOn ep && !s.stopped
  | .claim port => s.portOn port && !s.stopped
  | .commit port => s.portOn port && !s.stopped
  | .reduceBowl port => s.portOn port && !s.stopped
  | .bowlResultDone _ => !s.stopped
  | .bowlSlotTimeout _ => !s.stopped
  | .bowlEntryExpire _ => !s.stopped
  | .claimAttempt _ => !s.stopped
  | .clmCommit _ => !(s.boot == 3)
  | .clmRevoke dbg _ => dbg || !(s.boot == 3)
  | .ready port => s.portOn port && !s.stopped
  | .gdone port => s.portOn port && !s.stopped
  | .colStageStart port _ => s.portOn port && !s.stopped
  | .colChunkSend port _ _ _ => s.portOn port && !s.stopped
  | .colProgressTimeout port _ => s.portOn port && !s.stopped
  | .add unit => s.unitOn unit
  | .sub unit => s.unitOn unit
  | .wait unit => s.unitOn unit
  | .waitTake unit => s.unitOn unit
  | .syncRead unit => s.unitOn unit
  | .cancel unit => s.unitOn unit
  | .barArrive unit => s.unitOn unit
  | .barWait unit => s.unitOn unit
  | .barUp unit => s.unitOn unit
  | .barDown unit => s.unitOn unit
  | .set unit => s.unitOn unit
  | .barTimedRelease unit _ => s.unitOn unit
  | .realign unit _ => s.unitOn unit
  | .watchTimeout unit _ => s.unitOn unit
  | .notificationLaunch unit => s.unitOn unit
  | .syncNtf ep => s.epOn ep && !s.stopped
  | .wslotGuardExpiry ep _ => s.epOn ep && !s.stopped
  | .wslotFree _ _ => !s.stopped
  | .desc tap _ => s.nodeOn (tap / 4) && !s.stopped && (s.heldX (.tap tap)).isNone
  | .sync tap _ => s.nodeOn (tap / 4) && !s.stopped && (s.heldX (.tap tap)).isNone
  | .qsubmit tap _ => s.nodeOn (tap / 4) && !s.stopped && (s.heldX (.tap tap)).isNone
  | .reg tap _ => s.nodeOn (tap / 4) && !s.stopped && (s.heldX (.tap tap)).isNone
  | .cqMessageStart ep _ => s.epOn ep && !s.stopped
  | .cqStallTimeout ep _ => s.epOn ep && !s.stopped
  | .cquHeadWrite _ _ _ => !s.stopped
  | .creditUpdate ep _ => s.epOn ep && !s.stopped
  | .cquSelRead _ _ => !s.stopped
  | .cquEnable _ _ _ _ => !s.stopped
  | .frameReceive port _ => s.linkOn port && !s.stopped
  | .replayTimeout port => s.linkOn port && !s.stopped
  | .admitSend port => s.linkOn port && !s.stopped
  | .trainingTimeout port => s.linkOn port && !s.stopped
  | .laneFail port _ => s.linkOn port && !s.stopped
  | .spareRotate port => s.linkOn port && !s.stopped
  | .spareCalibrate port _ => s.linkOn port && !s.stopped
  | .linkDead port => s.linkOn port && !s.stopped
  | .linkIdleEnd port => s.linkOn port && !s.stopped
  | .nklCtlWrite _ _ => !s.stopped
  | .fdiError port => s.linkOn port && !s.stopped
  | .scaleoutExit port => s.portOn port && !s.stopped
  | .scaleoutEntry port => s.portOn port && !s.stopped
  | .filterExpire _ => !s.stopped
  | .e2eAck port => s.portOn port && !s.stopped
  | .e2eRetransmit port _ => s.portOn port && !s.stopped
  | .e2eAbandon port _ => s.portOn port && !s.stopped
  | .domainQuiescent => !s.stopped
  | .domDownTimeout => !s.stopped
  | .stepBoundary => !s.stopped
  | .pswAckFall _ => !s.stopped
  | .pswAckRise _ => !s.stopped
  | .pswAckTimeout _ => !s.stopped
  | .pswAckLost _ => !s.stopped
  | .domainInitDone _ => !s.stopped
  | .domainLit _ => !s.stopped
  | .rstNAssert => true
  | .rstNRelease _ _ _ => true
  | .cfgInitDone => !s.stopped
  | .halfReset _ => !s.stopped
  | .halfResetRelease _ => !s.stopped
  | .crossingFarReset _ => !s.stopped
  | .join _ => !s.stopped
  | .joinTimeout _ => !s.stopped
  | .clockStop _ => !s.stopped
  | .errorReport _ _ => !s.stopped
  | .errPop => !(s.boot == 3)
  | .tlmLoRead addr => !s.stopped || !(s.boot == 3) && addr.toNat < 0x1000000 && s.isTlm addr.toNat
  | .trigClear => !(s.boot == 3)
  | .keyLock => !(s.boot == 3)
  | .secTamper => true
  | .mapWriteResponse map _ _ => s.portOn map && !s.stopped && (s.heldX (.map map)).isNone
  | .mapReadData map _ _ _ _ => s.portOn map && !s.stopped && (s.heldX (.map map)).isNone
  | .mapTimeout map _ _ => s.portOn map && !s.stopped && (s.heldX (.map map)).isNone
  | .tapReadData tap _ _ _ _ => s.nodeOn (tap / 4) && !s.stopped && (s.heldX (.tap tap)).isNone
  | .phyLock port _ => s.linkOn port && !s.stopped
  | .cellBoundary port => s.linkOn port && !s.stopped
  | .eastClockRestart => !s.stopped
  | .fuseVFall => !s.stopped
  | .errorPacingTurn => !s.stopped
  | .hdsReservedOpcode _ => !s.stopped
  | .tapReservedOp tap _ _ => s.nodeOn (tap / 4) && !s.stopped && (s.heldX (.tap tap)).isNone
  | .syncOpReserved unit => s.unitOn unit

/-- The command acts at this state: its part is built and runs. -/
def acts (c : Instr) (s : State) : Bool := built s.build c && partOn s c

/-- The next command of a ring to start is `c`; it has this opcode, nothing holds it back (R380), its guard, if it has one, is
satisfied (R382), and it passes the checks made at its start (R375, R376). -/
structure Starts (s : State) (r opc : Nat) (c : Cmd) : Prop where
  first : (s.cmds r).find? (fun x => x.stage == .ready) = some c
  opc : c.opc = opc
  startable : s.startable r c = true
  guard : c.gv = true → c.guard = .met
  check : s.cmdCheck r c = stOK

/-- The state in which a command of a ring has just started. -/
def started (s : State) (r : Nat) (c : Cmd) : State := s.updCmd r c.idx (fun x => { x with stage := .running, born := s.tmo })

/-- The rows that start a command of a ring: the ring, the opcode of R379, and what the command does once it has started. -/
def hdsRow : Instr → Option (Nat × Nat × (State → Cmd → State))
  | .nop ring => some (ring, 0x00, (fun s c => s.finishCmd ring c.idx stOK 0))
  | .ringAbort ring => some (ring, 0x01, (State.runAbort ring))
  | .jobKill ring => some (ring, 0x02, (State.runKill ring))
  | .xfer ring => some (ring, 0x10, (State.runXfer ring))
  | .xferMc ring => some (ring, 0x11, (State.runXfer ring))
  | .xferRed ring => some (ring, 0x12, (State.runXfer ring))
  | .rankBind ring => some (ring, 0x20, (State.runRankBind ring))
  | .tableWrite ring => some (ring, 0x21, (State.runTableWrite ring))
  | .tsetSwap ring => some (ring, 0x22, (State.runTsetSwap ring))
  | .injStop ring => some (ring, 0x23, (State.runInj true ring))
  | .injResume ring => some (ring, 0x24, (State.runInj false ring))
  | .chanOpen ring => some (ring, 0x25, (State.runChanOpen ring))
  | .chanClose ring => some (ring, 0x26, (State.runChanClose ring))
  | .rtrDrain ring => some (ring, 0x30, (State.runDrain ring))
  | .rtrReopen ring => some (ring, 0x31, (State.runReopen ring))
  | .domDown ring => some (ring, 0x38, (State.runDomDown ring))
  | .domUp ring => some (ring, 0x39, (State.runDomUp ring))
  | .semInit ring => some (ring, 0x40, (State.runSemInit ring))
  | .semFree ring => some (ring, 0x41, (State.runSemFree ring))
  | .semSet ring => some (ring, 0x42, (State.runSemSet ring))
  | .semRead ring => some (ring, 0x43, (State.runSemRead ring))
  | .syncBind ring => some (ring, 0x44, (State.runSyncBind ring))
  | .barInit ring => some (ring, 0x45, (State.runBarInit ring))
  | .barFree ring => some (ring, 0x46, (State.runBarFree ring))
  | .realignSet ring => some (ring, 0x47, (State.runRealignSet ring))
  | .lthLoad ring => some (ring, 0x50, (fun s c => s.startLoad ring c.idx (c.par 0) (c.par 1) (c.par 2)))
  | .lthSwap ring => some (ring, 0x51, (State.runLthSwap ring))
  | .lthResume ring => some (ring, 0x52, (fun s c => s.startResume ring c.idx))
  | .colGroupSet ring => some (ring, 0x58, (State.runGroupSet ring))
  | .colIssue ring => some (ring, 0x59, (State.runColIssue ring))
  | .colPeerGone ring => some (ring, 0x5A, (State.runPeerGone ring))
  | .linkAdmit ring => some (ring, 0x60, (State.runLinkAdmit ring))
  | .linkDown ring => some (ring, 0x61, (State.runLinkDown ring))
  | .linkSwap ring => some (ring, 0x62, (State.runLinkSwap ring))
  | .linkRekey ring => some (ring, 0x63, (State.runLinkRekey ring))
  | .keyLoad ring => some (ring, 0x68, (State.runKeyLoad ring))
  | .keyErase ring => some (ring, 0x69, (State.runKeyErase ring))
  | .regRead ring => some (ring, 0x70, (fun s c => s.regAccess (.cmd ring c.idx) false (c.par 0) 0))
  | .regWrite ring => some (ring, 0x71, (fun s c => s.regAccess (.cmd ring c.idx) true (c.par 0) (c.par 1)))
  | .mirSnap ring => some (ring, 0x72, (fun s _ => s))
  | _ => none

/-- Every field of a peer extension fits its width, and one with XV = 0 is all zero (R77). -/
def extFits (e : Ext) : Bool :=
  if e.xv == 0 then e == Ext.none
  else e.xv == 1 && e.ford < 2 && e.seg < 4 && e.hcnt < 8 && e.port < 128 && e.hops < 2 ^ 42 && e.dest < 2 ^ 24 && e.src < 2 ^ 24 &&
    e.psn < 2 ^ 24 && e.mepoch < 2 ^ 16 && e.slen < 2 ^ 14

/-- Nothing is under way that would go on by itself: no memory access, operation, formed packet, collective, packet of a port
block or of the retransmit region, packet being injected whole, core-queue message, credit update, trace record, TAP write, launch
window or first attempt of a claim, and no fetched command of a ring. -/
structure Quiet (s : State) : Prop where
  txns : s.txns = []
  ops : s.ops = []
  ownAns : s.ownAns = []
  reqs : s.reqs = []
  colls : s.colls = []
  farq : s.farq = []
  exits : s.exits = []
  rtx : s.rtx = []
  injecting : s.injecting = []
  smsgs : s.smsgs = []
  lazies : s.lazies = []
  traceq : s.traceq = []
  stream : s.trace = [] ∨ s.get 0 F.MIR_CTL_TRMODE ≠ 3
  snap : s.snapDue = none
  tapw : s.tapw = []
  going : s.lathe.going = []
  claims : s.freshClaims = []
  down : s.accsDown = []
  rings : s.rings = []

/-- The CFG port can take an access: the block is in service, the host's crossing is not held, and no access waits or is under way
(R414, R453). -/
structure CfgFree (s : State) : Prop where
  boot : s.boot = 0
  held : s.heldX .cfg = none
  accs : s.accs = []
  wait : s.cfgWait = none

/-- The commands that wait are all well formed. -/
def QueueWf (s : State) : Prop := ∀ c ∈ s.pending, c.wf = true

/-- `t` with the clocks of `s` and what moves with them: the cycle and notch counts, the phase, and the token buckets that fill. -/
def clocksOf (t s : State) : State :=
  { t with cyc := s.cyc, tmo := s.tmo, sub := s.sub, buckets := s.buckets, spn := { t.spn with phase := s.spn.phase, ticked := s.spn.ticked } }

/-- `t` with what the CFG port shows as in `s`: what has been driven, CFG_ACK, and the access that has come over its crossing. -/
def hostOf (t s : State) : State := { t with out := s.out, cfgAck := s.cfgAck, cfgVal := s.cfgVal }

/-- `s` once an access of the CFG port has come over its crossing (R410): its value is the one kept, and CFG_ACK is low. -/
def hostAsked (s : State) (wr : Bool) (a d : Nat) : State := { s with cfgVal := (wr, a, d), cfgAck := none }

/-- The shape of the hardware's own state: the memories keep their canonical form, the turn count its 40 bits (R36), and the notch
index its range. -/
structure HardwareWf (s : State) : Prop where
  ram : Memory.wf s.ram = true
  turn : s.spn.turn < 2 ^ 40
  notch : s.spn.notch < 2048

/-- The state after `n` steps, where each of them is answered by a next state. -/
def runs : Nat → State → Option State
  | 0, s => some s
  | n + 1, s => match step s with
    | .next t => runs n t
    | _ => none

end Sys2Proof.Safety
end

