-- ==== Sys2Proof/Certificates/Slice0/Obligations.lean ====
section
/-! DEFINITION. The statements for the provers. -/

open Sys2Proof Sys2Proof.Machine Sys2Proof.Safety

/-! ### The machine: queue, commands, reset -/

/-- A step with a command at the front of the queue is that command's `exec` on the state with the queue's rest. -/
def Obligations.StepRunsFront : Prop :=
  ∀ (s : State) (c : Instr) (r : List Instr), s.pending = c :: r → step s = exec c { s with pending := r }

/-- The model's choice (log 1): on an empty queue one cycle of fclk passes. The cycle counter rises by one, and where no packet is
on its way to a link or being injected whole, no credit update is owed, no claim is new, no write waits at a TAP, no reserved flit waits
for its cycle, no trace record waits and no snapshot is unfinished, nothing but clocks and token buckets changes, and CFG_ACK falls (log
42): every register, every byte of memory, every semaphore, watch, key and fetched command stays. -/
def Obligations.IdleStepIsOneCycle : Prop :=
  ∀ s : State, s.pending = [] → s.own = [] → s.sendq = [] → s.lazies = [] → s.injecting = [] → s.traceq = [] →
    (s.trace = [] ∨ s.get 0 F.MIR_CTL_TRMODE ≠ 3) → s.snapDue = none → s.tapw = [] → s.lathe.going = [] → s.freshClaims = [] →
    ∃ t, step s = .next t ∧ t.pending = [] ∧ t.cfgAck = none ∧ t.cyc = s.cyc + 1 ∧ t.spn.turn = s.spn.turn ∧ t.spn.notch = s.spn.notch ∧
      { clocksOf t s with cfgAck := s.cfgAck } = s

/-- Reset leaves the Spindle OFF at time zero with SOURCE none, STRATUM unknown and the Lathe plane suspended (R55, R56), every
semaphore with EN = 0 (R281), every Key Store slot empty (R434), no fetched command, no log entry, and every power domain Dark but
the configuration/Headstock domain, which is Lit (R395, R420), its switch open and its outputs clamped; no interrupt line and not
SEC_ERASED is high; the build is a legal one, the reference Configuration A (R24, R460, R461); the command queue is empty. -/
def Obligations.ResetLeavesTheSpecsValues : Prop :=
  State.reset.spn.turn = 0 ∧ State.reset.spn.notch = 0 ∧ State.reset.spnState = 0 ∧
  State.reset.get 0 F.SPN_STAT_SOURCE = 3 ∧ State.reset.get 0 F.SPN_STAT_STRATUM = 15 ∧
  State.reset.get 0 F.SPN_STAT_LATHE_SUSP = 1 ∧ State.reset.latheActive = false ∧
  (∀ u i, State.reset.semOn u i = false) ∧ State.reset.keys = [] ∧ State.reset.rings = [] ∧ State.reset.log = [] ∧
  (∀ d, d < State.reset.build.cfgDom → State.reset.dom d = 0 ∧ State.reset.pswEnOut d = false ∧ State.reset.isoEnOut d = true) ∧
  State.reset.dom State.reset.build.cfgDom = 3 ∧
  State.reset.irqErr = false ∧ State.reset.irqFatal = false ∧ State.reset.irqSec = false ∧ (∀ r, State.reset.irqHds r = false) ∧
  State.reset.secErasedOut = false ∧ State.reset.build.legal = true ∧ State.reset.build = referenceA false ∧ State.reset.pending = []

/-- Every well-formed command is answered by a next state, whatever the state and the build: it never stops, leaves the queue of
waiting commands to the step, and changes nothing of the build. The one fault is that of a ring number beyond the sixteen, which no
well-formed command has, and no command is refused. -/
def Obligations.EveryWellFormedCommandAnswers : Prop :=
  ∀ (c : Instr) (s : State),
    (c.wf = true → ∃ t, exec c s = .next t ∧ t.pending = s.pending ∧ t.build = s.build) ∧
    (∀ f, exec c s = .fault f → f = .noSuchRing ∧ c.wf = false) ∧ (∀ r, exec c s ≠ .refused r)

/-- A command at a part that the build does not have changes nothing, which is the model's choice (log 35, DEDUCED from R3); nor does one
at a part that is not powered and clocked (R395, R412, R413, R414). A ring number beyond the sixteen faults, also the model's choice
(log 35). -/
def Obligations.PartThatIsOffIgnoresItsCommands : Prop :=
  ∀ (c : Instr) (s : State), acts c s = false →
    exec c s = .next s ∨ (exec c s = .fault .noSuchRing ∧ c.wf = false)

/-- Every step keeps the queue well formed: from a state whose waiting commands are all well formed, a step leads to such a
state, with the same build; and such a step there is. -/
def Obligations.EveryStepKeepsTheQueueWellFormed : Prop :=
  ∀ s : State, QueueWf s → ∃ t, step s = .next t ∧ QueueWf t ∧ t.build = s.build

/-- Every step keeps the shape of the hardware's own state, in every state that has it: every memory stays in its canonical form, the
turn count within its 40 bits (R36) and the notch index within the turn, whatever command is at the front of the queue. -/
def Obligations.EveryStepKeepsTheHardwareWellFormed : Prop :=
  ∀ s t : State, HardwareWf s → step s = .next t → HardwareWf t

/-- Both invariants hold at reset. -/
def Obligations.InvariantsHoldAtReset : Prop := QueueWf State.reset ∧ State.reset.build = referenceA false ∧ HardwareWf State.reset

/-- A queue of well-formed commands runs to its end and beyond without a fault or a refusal: after any number of steps the
block is in a next state, the commands have been taken first in, first out, and the build is what it was. -/
def Obligations.QueueRunsFirstInFirstOut : Prop :=
  ∀ (n : Nat) (s : State), QueueWf s →
    ∃ t, runs n s = some t ∧ t.pending = s.pending.drop n ∧ t.build = s.build

/-! ### Encodings -/

/-- R69 whole: where a payload lies in the flits of QB and PB. -/
def Obligations.PayloadLiesInFlitsFromOne : Prop :=
  ∀ (p : Pkt) (plane : Nat), plane ≤ 1 → p.hdr.fits = true →
    bitsOf (p.flitData plane 0) 0 256 = p.hdr.toBits ∧ p.flitData plane 0 / 2 ^ 256 = p.ext.toBits ∧
    (∀ (i : Nat) (v : Byte), p.pay[i]? = some v → bitsOf (p.flitData plane (1 + i / 64)) (8 * (i % 64)) 8 = v.toNat) ∧
    flitsOf plane p.hdr.len = 1 + (p.hdr.len + 63) / 64

/-- Header units and peer extensions are read back from their bits, every field at every value its width admits (R62, R77). -/
def Obligations.HeaderUnitReadsBack : Prop :=
  (∀ h : Hdr, h.fits = true → h.toBits < 2 ^ 256 ∧ Hdr.ofBits h.toBits = h) ∧
  (∀ e : Ext, extFits e = true → e.toBits < 2 ^ 256 ∧ Ext.ofBits e.toBits = e)

/-- A packet cut into the flits of its plane is put together again unchanged: header, extension, every payload byte and the poison of
every flit (R59, R62, R68, R69, R77). -/
def Obligations.PacketSurvivesItsFlits : Prop :=
  (∀ (p : Pkt) (plane : Nat), plane ≤ 1 → p.hdr.fits = true → extFits p.ext = true → p.pay.length = p.hdr.len →
    p.bad = (upFrom 0 (ceilDiv p.hdr.len 64)).filter (fun i => p.bad.contains i) →
    Pkt.ofFlits plane ((upFrom 0 (flitsOf plane p.hdr.len)).map (fun i => (p.flitData plane i, p.flitBad plane i))) = p) ∧
  (∀ (p : Pkt) (plane : Nat), 2 ≤ plane → p.hdr.fits = true → extFits p.ext = true → p.pay = [] →
    (p.hdr.len = 0 → p.ext = Ext.none) →
    p.bad = (upFrom 0 (flitsOf plane p.hdr.len)).filter (fun i => p.bad.contains i) →
    Pkt.ofFlits plane ((upFrom 0 (flitsOf plane p.hdr.len)).map (fun i => (p.flitData plane i, p.flitBad plane i))) = p)

/-- The scale-out header has 48 bytes, and an entry port block reads from it every field that the exit port block wrote (R79, R83). -/
def Obligations.ScaleOutHeaderReadsBack : Prop :=
  ∀ (p : Pkt) (enc : Bool), p.hdr.fits = true → extFits p.ext = true → p.ext.xv = 1 →
    let q := ofScaleOut (scaleOutHeader p enc) p.pay
    (scaleOutHeader p enc).length = 48 ∧ q.2 = enc ∧ q.1.pay = p.pay ∧ q.1.hdr.ptype = p.hdr.ptype ∧ q.1.hdr.job = p.hdr.job ∧
    q.1.hdr.ctx = p.hdr.ctx ∧ q.1.hdr.chan = p.hdr.chan ∧ q.1.hdr.seq = p.hdr.seq ∧ q.1.hdr.flg = p.hdr.flg ∧
    q.1.hdr.span = p.hdr.span ∧ q.1.hdr.opc = p.hdr.opc ∧ q.1.hdr.tag = p.hdr.tag ∧ q.1.hdr.addr = p.hdr.addr ∧
    q.1.hdr.aux = p.hdr.aux ∧ q.1.hdr.ts = p.hdr.ts ∧ q.1.hdr.len = p.ext.slen ∧ q.1.hdr.ord = p.ext.ford ∧
    (p.hdr.ptype ≠ tSYNC_OP → p.hdr.ptype ≠ tSYNC_NTF → classOf q.1.hdr.vcn = classOf p.hdr.vcn) ∧
    q.1.ext.xv = 1 ∧ q.1.ext.ford = p.ext.ford ∧ q.1.ext.hcnt = p.ext.hcnt ∧ q.1.ext.hops = p.ext.hops ∧
    q.1.ext.dest = p.ext.dest ∧ q.1.ext.src = p.ext.src ∧ q.1.ext.psn = p.ext.psn ∧ q.1.ext.mepoch = p.ext.mepoch ∧
    q.1.ext.slen = p.ext.slen

/-- R60 whole: the check bits of a narrow flit, and what a decoder makes of single and double errors. A word that arrives as it was
sent is clean; a single-bit error is corrected; a double-bit error never yields data as if it were good. -/
def Obligations.NarrowFlitCode : Prop :=
  ∀ d : Nat, d < 2 ^ 64 →
    encodeNarrow d false < 2 ^ 72 ∧ bitsOf (encodeNarrow d false) 0 64 = d ∧
    (∀ i, i < 7 → bitAt (encodeNarrow d false) (64 + i) =
      ((upFrom 0 64).filter (fun j => bitAt d j && bitAt ((dataPos[j]?).getD 0) i)).length.bodd) ∧
    parity (encodeNarrow d false) 72 = false ∧
    (∀ j, j < 64 → (dataPos[j]?).getD 0 ∉ [0, 1, 2, 4, 8, 16, 32, 64] ∧ (dataPos[j]?).getD 0 ≤ 71 ∧
      (0 < j → (dataPos[j - 1]?).getD 0 < (dataPos[j]?).getD 0)) ∧
    decodeNarrow (encodeNarrow d false) = .clean d ∧
    (∀ i, i < 72 → decodeNarrow (Nat.xor (encodeNarrow d false) (2 ^ i)) = .fixed d) ∧
    (∀ i j x, i < 72 → j < 72 → i ≠ j →
      decodeNarrow (Nat.xor (Nat.xor (encodeNarrow d false) (2 ^ i)) (2 ^ j)) ≠ .clean x ∧
      decodeNarrow (Nat.xor (Nat.xor (encodeNarrow d false) (2 ^ i)) (2 ^ j)) ≠ .fixed x)

/-- A flit sent poisoned is read as poisoned, with its data, on the wide and on the narrow planes; a flit sent clean and received as
it was sent is never read as poisoned (R59, R102). -/
def Obligations.PoisonSurvivesTheWires : Prop :=
  (∀ d, d < 2 ^ 512 → decodeWide (encodeWide d true) = .poison d ∧ ∀ x, decodeWide (encodeWide d false) ≠ .poison x) ∧
  (∀ d, d < 2 ^ 64 → decodeNarrow (encodeNarrow d true) = .poison d ∧ ∀ x, decodeNarrow (encodeNarrow d false) ≠ .poison x)

/-- R42 whole: the half-range window, at 40 bits, at 51 bits and at every shorter width. -/
def Obligations.LiesAfterIsTheHalfRangeWindow : Prop :=
  ∀ w a b : Nat, 1 ≤ w →
    (liesAfter w a b = true ↔ 1 ≤ ((a : Int) - b) % 2 ^ w ∧ ((a : Int) - b) % 2 ^ w ≤ 2 ^ (w - 1) - 1)

/-- R212 whole: the fit of a magnitude, given as a number of units of 2^-149, is the smallest k with a / 2^k < T, where T is 7 for
KF4, 1.75 for KF3 and 1.5 for KT2. -/
def Obligations.FitIsTheSmallestScale : Prop :=
  ∀ (fmt n : Nat) (T : ℚ), (fmt = 2 ∧ T = 7) ∨ (fmt = 3 ∧ T = 7 / 4) ∨ (fmt = 4 ∧ T = 3 / 2) → 0 < n →
    (n : ℚ) * 2 ^ (-149 : ℤ) / 2 ^ (fit fmt n) < T ∧ ∀ k : ℤ, (n : ℚ) * 2 ^ (-149 : ℤ) / 2 ^ k < T → fit fmt n ≤ k

/-! ### Registers, memory, reports -/

/-- A register field holds what was stored in it; every other field of its register, every other register and everything else in the
state stays. -/
def Obligations.FieldHoldsWhatWasStored : Prop :=
  ∀ (s : State) (base v : Nat) (f : Fld), f.lo + f.w ≤ 32 → v < 2 ^ f.w →
    (s.set base f v).get base f = v ∧
    (∀ g : Fld, g.off = f.off → g.lo + g.w ≤ f.lo ∨ f.lo + f.w ≤ g.lo → g.lo + g.w ≤ 32 →
      (s.set base f v).get base g = s.get base g) ∧
    (∀ a, a ≠ base + f.off → (s.set base f v).word a = s.word a) ∧
    { s.set base f v with regs := s.regs } = s

/-- The access types of spec/00_scope.md on every register of the map: a write leaves in each field what its type says, RW and RWS
the written bits, RO the old ones, WO zero, W1C the old bits less those written as 1, RWL the written bits unless KEY_LOCK is set, and
a counter under R118 zero after a write of zero and its old value otherwise. -/
def Obligations.WrittenFieldsFollowTheirTypes : Prop :=
  ∀ r ∈ regTable, ∀ f ∈ r.flds, ∀ (locked : Bool) (old data : Nat), old < 2 ^ 32 → data < 2 ^ 32 →
    bitsOf (wordWrite locked r.flds old data) f.lo f.w =
      match f.ty with
      | .RW => bitsOf data f.lo f.w
      | .RWS => bitsOf data f.lo f.w
      | .RO => bitsOf old f.lo f.w
      | .WO => 0
      | .W1C => bitsOf old f.lo f.w - Nat.land (bitsOf old f.lo f.w) (bitsOf data f.lo f.w)
      | .RWL => if locked then bitsOf old f.lo f.w else bitsOf data f.lo f.w
      | .CLR => if data = 0 then 0 else bitsOf old f.lo f.w
      | .TLM => bitsOf old f.lo f.w

/-- R9 and R10, for every source of accesses and through the CFG port: an access that is not an aligned word, and one to an
address that names no register, reads zero, changes nothing but that one error is reported, and ends with status BADCMD and DENIED, with
the DETAIL of R428; CFG_ACK gives that status (R453). Such a report is coalesced: where one of its class and source is pending the list
of pending reports keeps its length (R428). An address both misaligned and unmapped ends with BADCMD: the model's choice (log 12). -/
def Obligations.MisalignedAndUnmappedAccesses : Prop :=
  (∀ (s : State) (by' : AccBy) (wr : Bool) (a data : Nat), a % 4 ≠ 0 ∨ s.mapped a = false →
    s.access by' wr a data =
      (if a % 4 ≠ 0 then stBADCMD else stDENIED, 0, s.report 0 by'.src (if a % 4 ≠ 0 then stBADCMD else stDENIED)
        (packFields [(28, a), (1, bit wr), (1, bit (by' == .dbg)), (2, 0), (32, if wr then data else 0)]))) ∧
  (∀ (s : State) (addr : BitVec 28) (data : Word), CfgFree s → Quiet s → addr.toNat % 4 ≠ 0 ∨ s.mapped addr.toNat = false →
    ∃ t, exec (.cfgWrite addr data) s = .next t ∧
      t.out = s.out ++ [.cfgAck 0 (if addr.toNat % 4 ≠ 0 then stBADCMD else stDENIED)] ∧
      t.cfgAck = some (0, if addr.toNat % 4 ≠ 0 then stBADCMD else stDENIED) ∧
      { hostOf t s with reports := s.reports } = s) ∧
  (∀ (s : State) (src st d : Nat), st = stBADCMD ∨ st = stDENIED →
    { s.report 0 src st d with reports := s.reports } = s ∧
    (if s.reports.any (fun r => r.cls == 0 && r.src == src) then (s.report 0 src st d).reports.length = s.reports.length
     else (s.report 0 src st d).reports = s.reports ++ [⟨0, src, st, 1, s.notchCount, s.notchCount, d, s.cyc⟩]))

/-- A write through the CFG port to a plain global register, one that no rule but its field types governs, leaves there the word of
those types, acknowledges OK and changes nothing else (R453; the access types of spec/00_scope.md), where no trace record waits to be
streamed. A write to a word of the command memory's window stores the word's four bytes, little-endian, at the word's offset, and leaves
every other byte of every memory and every register as it was (R5, R371, R394). -/
def Obligations.PlainRegisterAndCommandMemoryWrite : Prop :=
  (∀ (s : State) (addr : BitVec 28) (data : Word) (r : RegRow), CfgFree s → Quiet s → s.accCheck addr.toNat = stOK →
    addr.toNat ∈ [0xC, 0x120, 0x900, 0xB00, 0xC00] → rowAt s.build addr.toNat = some (r, false) →
    (addr.toNat = 0x900 → 1024 ≤ data.toNat % 2 ^ 14 ∧ data.toNat % 2 ^ 14 ≤ 16000) → s.get 0 F.KEY_LOCK_LOCK = 0 →
    (addr.toNat = 0xC00 → s.trace = []) →
    ∃ t, exec (.cfgWrite addr data) s = .next t ∧
      t.word addr.toNat = BitVec.ofNat 32 (wordWrite false r.flds (s.word addr.toNat).toNat data.toNat) ∧
      (∀ a, a ≠ addr.toNat → t.word a = s.word a) ∧ t.out = s.out ++ [.cfgAck 0 stOK] ∧ t.cfgAck = some (0, stOK) ∧ { hostOf t s with regs := s.regs } = s) ∧
  (∀ (s : State) (addr : BitVec 28) (data : Word), CfgFree s → Quiet s → s.accCheck addr.toNat = stOK →
    0x110000 ≤ addr.toNat → addr.toNat < 0x120000 →
    ∃ t, exec (.cfgWrite addr data) s = .next t ∧
      (∀ i, i < 4 → t.ramByte (addr.toNat - 0x110000 + i) = BitVec.ofNat 8 (data.toNat / 256 ^ i % 256)) ∧
      (∀ x, x < addr.toNat - 0x110000 ∨ addr.toNat - 0x110000 + 4 ≤ x → t.ramByte x = s.ramByte x) ∧
      t.out = s.out ++ [.cfgAck 0 stOK] ∧ { hostOf t s with ram := s.ram, ramBad := s.ramBad } = s)

/-- Bytes stored in an on-chip memory are read back, and every byte outside them reads as before; nothing but the memory and its
poison marks changes. Memories of the canonical form with equal contents are equal. -/
def Obligations.StoredBytesReadBack : Prop :=
  (∀ (s : State) (a : Nat) (bytes : List Byte) (bad : List Nat),
    (∀ i v, bytes[i]? = some v → (s.ramStore a bytes bad).ramByte (a + i) = v) ∧
    (s.ramStore a bytes bad).ramRead a bytes.length = bytes ∧
    (∀ x, x < a ∨ a + bytes.length ≤ x → (s.ramStore a bytes bad).ramByte x = s.ramByte x) ∧
    { s.ramStore a bytes bad with ram := s.ram, ramBad := s.ramBad } = s) ∧
  (∀ s t : State, Memory.wf s.ram = true → Memory.wf t.ram = true → (∀ a, s.ramByte a = t.ramByte a) → s.ram = t.ram)


/-! ### The Spindle -/

/-- A notch edge within a turn moves Spindle time on by one notch, in SPX mode at NOTCH_EDGE and in beacon mode at SYNTH_NOTCH; the
notch count and the clock of the timeouts both rise by one, and nothing but the clocks and the token buckets changes. While SPN_CTL.EN is 0 neither has an
effect (R36, R37, R45, R46, R55). -/
def Obligations.NotchMovesSpindleTime : Prop :=
  (∀ s : State, s.stopped = false → Quiet s → s.spnEn = true → s.spnState = 2 → s.spn.notch < 2047 →
    ∃ t, (if s.beaconMode then exec .synthNotch s else exec .notchEdge s) = .next t ∧
      t.notchCount = s.notchCount + 1 ∧ t.spn.notch = s.spn.notch + 1 ∧ t.spn.turn = s.spn.turn ∧ t.tmo = s.tmo + 1 ∧
      { clocksOf t s with spn := s.spn } = s) ∧
  (∀ s : State, s.stopped = false → Quiet s → s.spnEn = false → exec .notchEdge s = .next s ∧ exec .synthNotch s = .next s ∧
    exec .turnEdge s = .next s)

/-- A turn edge at notch 2,047 in RUN begins the next turn: the turn count rises by one modulo 2^40, the notch index is 0, and in SPX
mode the samples of SPX_TCNT are awaited. Besides the clocks and Spindle time it changes registers and reports, the plan, the log's
pacing, the trackers, a snapshot that is due, and what a link owes: a BEACON. Everything else stays: memory, semaphores, watches, keys,
packets, commands and what has been driven. In beacon mode the block makes the edge itself, as SYNTH_NOTCH or TURN_EDGE (R36, R38,
R46). -/
def Obligations.TurnEdgeBeginsTurn : Prop :=
  ∀ s : State, s.stopped = false → Quiet s → s.spnEn = true → s.spnState = 2 → s.spn.notch = 2047 →
    (∃ t, exec .turnEdge s = .next t ∧ t.spn.turn = (s.spn.turn + 1) % 2 ^ 40 ∧ t.spn.notch = 0 ∧ t.tmo = s.tmo + 1 ∧
      (s.beaconMode = false → t.spn.sample = some s.spn.turn) ∧
      t.links.map (fun x => (x.1, { x.2 with beacon := false })) = s.links.map (fun x => (x.1, { x.2 with beacon := false })) ∧
      { clocksOf t s with
        spn := s.spn, regs := s.regs, reports := s.reports, lathe := s.lathe, links := s.links, trackers := s.trackers
        pendTurn := s.pendTurn, paceEdge := s.paceEdge, snapTlm := s.snapTlm, snapDepth := s.snapDepth, snapDue := s.snapDue } = s) ∧
    (s.beaconMode = true → ∃ t, exec .synthNotch s = .next t ∧ t.spn.turn = (s.spn.turn + 1) % 2 ^ 40 ∧ t.spn.notch = 0)

/-- The samples of SPX_TCNT after a turn edge (R38, R39, R54, R55): the value of the first agreeing pair is accepted. In RUN it
becomes the turn count, with a jump reported where it is not the previous count + 1; without an agreeing pair the count stands and
TCNT is reported. In ACQUIRE or RESYNC an accepted count takes the block into RUN; without one the block stays in its state, and only
RESYNC reports TCNT. -/
def Obligations.TcntIsAccepted : Prop :=
  ∀ (s : State) (v : Fin 5 → BitVec 40) (old : Nat), s.stopped = false → Quiet s → s.beaconMode = false →
    s.spn.sample = some old → (s.spnState = 1 ∨ s.spnState = 2 ∨ s.spnState = 4) →
    (s.spnState = 2 → s.spn.turn = (old + 1) % 2 ^ 40) → s.flag 0 F.SPN_EVT_TCNT = false → s.flag 0 F.SPN_EVT_JUMP = false →
    ∃ t, exec (.tcntAccept (v 0) (v 1) (v 2) (v 3) (v 4)) s = .next t ∧ t.spn.sample = none ∧
      (∀ k : Fin 4, v k.castSucc = v k.succ → (∀ j : Fin 4, j < k → v j.castSucc ≠ v j.succ) →
        t.spnState = 2 ∧ t.spn.turn = (v k.succ).toNat ∧ t.flag 0 F.SPN_EVT_TCNT = false ∧
        (s.spnState = 2 → (t.flag 0 F.SPN_EVT_JUMP = true ↔ (v k.succ).toNat ≠ (old + 1) % 2 ^ 40))) ∧
      ((∀ j : Fin 4, v j.castSucc ≠ v j.succ) →
        t.spnState = s.spnState ∧ t.spn.turn = s.spn.turn ∧ (t.flag 0 F.SPN_EVT_TCNT = true ↔ s.spnState ≠ 1))

/-- The block enters STALLED (R53): in SPX mode in RUN when the watchdog expires, and in beacon mode after four turns in which no
port has yielded a valid beacon (R47). Spindle time stays at the last notch counted, STALL is set, SPN_STALLS rises by one up to 0xFFFF, every running timeout
is credited 8 notches, and the Lathe plane is suspended. Two turns without a beacon change the source to RPORT2 where it names a port,
and do nothing where it is 127. -/
def Obligations.StallFreezesSpindleTime : Prop :=
  (∀ (s : State) (c : Instr), s.stopped = false → Quiet s → s.running = true →
    (c = .stallDetect ∧ s.beaconMode = false) ∨ (c = .beaconTimeout ∧ s.beaconMode = true ∧ s.refChip = false ∧ s.beaconsGone = true) →
    ∃ t, exec c s = .next t ∧ t.spnState = 3 ∧ t.spn.turn = s.spn.turn ∧ t.spn.notch = s.spn.notch ∧ t.tmo = s.tmo + 8 ∧
      t.flag 0 F.SPN_EVT_STALL = true ∧ t.get 0 F.SPN_STALLS_COUNT = min (s.get 0 F.SPN_STALLS_COUNT + 1) 65535 ∧
      t.get 0 F.SPN_STAT_LATHE_SUSP = 1 ∧ t.latheActive = false ∧ (∀ a, t.ramByte a = s.ramByte a) ∧ t.sems = s.sems) ∧
  (∀ s : State, s.stopped = false → Quiet s → s.running = true → s.beaconMode = true → s.refChip = false → 2 ≤ s.spn.missed →
    s.beaconsGone = false → s.get 0 F.SPN_STAT_SOURCE = 1 →
    ∃ t, exec .beaconTimeout s = .next t ∧ t.spn = s.spn ∧
      (s.spn.rport2 = 127 → t = s) ∧
      (s.spn.rport2 ≠ 127 → t.get 0 F.SPN_STAT_SOURCE = 2 ∧ t.flag 0 F.SPN_EVT_FAILOVER = true))

/-- SPN_CTL through the CFG port (R55, R56): a write that changes SRC while EN is 1 has no effect and ends BADCMD; clearing EN returns
the block to OFF with Spindle time zero; setting EN enters ACQUIRE with the roles of that write; changing ROLE or a port while EN
stays 1 leaves the role in effect as it is until the next turn edge. A read of SPN_NOW_LO answers the low 32 bits of the turn count
and captures the rest of Spindle time. -/
def Obligations.SpindleControl : Prop :=
  (∀ (s : State) (data : Word), CfgFree s → Quiet s → s.accCheck 0x100 = stOK →
    ∃ t, exec (.spnCtlWrite data) s = .next t ∧ (∀ a, t.ramByte a = s.ramByte a) ∧ t.sems = s.sems ∧
      (if s.spnEn && (bitAt data.toNat 1 != s.beaconMode) then
         t.out = s.out ++ [.cfgAck 0 stBADCMD] ∧ t.spn = s.spn ∧ t.regs = s.regs
       else t.out = s.out ++ [.cfgAck 0 stOK] ∧ t.word 0x100 = BitVec.ofNat 32 (data.toNat % 2 ^ 18) ∧
         (bitAt data.toNat 0 = false → t.spnState = 0 ∧ t.spn.turn = 0 ∧ t.spn.notch = 0 ∧ t.get 0 F.SPN_STAT_LOCKED = 0 ∧
           t.get 0 F.SPN_STAT_SOURCE = 3 ∧ t.get 0 F.SPN_STAT_LATHE_SUSP = 1) ∧
         (bitAt data.toNat 0 = true → s.spnEn = false → t.spnState = 1 ∧ t.spn.role = bitsOf data.toNat 2 1 ∧
           t.spn.rport = bitsOf data.toNat 4 7 ∧ t.spn.rport2 = bitsOf data.toNat 11 7) ∧
         (bitAt data.toNat 0 = true → s.spnEn = true → t.spn = s.spn ∧ t.spnState = s.spnState))) ∧
  (∀ s : State, CfgFree s → Quiet s → s.accCheck 0x110 = stOK → s.spn.turn < 2 ^ 40 → s.spn.notch < 2048 → s.spn.phase < 8 →
    ∃ t, exec .spnNowRead s = .next t ∧ t.out = s.out ++ [.cfgAck (BitVec.ofNat 32 s.spn.turn) stOK] ∧
      t.get 0 F.SPN_NOW_HI_TURN_HI = s.spn.turn / 2 ^ 32 ∧ t.get 0 F.SPN_NOW_HI_NOTCH = s.spn.notch ∧
      t.get 0 F.SPN_NOW_HI_PHASE = s.spn.phase ∧ (∀ a, a ≠ 0x114 → t.word a = s.word a) ∧
      { hostOf t s with regs := s.regs } = s)

/-! ### Register accesses of the Headstock, the test port, the error log and the Key Store -/

/-- An access that the Headstock has sent to a node or port block (R68, R453, R454). At the block it is made there and answered by a
CFG_RSP on CP with its status in OPC, its data in AUX and its own TAG; at the station the response completes it with that data and
status, and CFG_ACK rises; 65,536 cycles without one complete it with status TIMEOUT, which the log does not record again: the model's
choice (log 12). -/
def Obligations.BlockAccessIsMadeAndAnswered : Prop :=
  (∀ (s s1 : State) (c : Instr) (isPort wr : Bool) (k : Nat) (a : Arrival), acts c s = true →
    c = (if wr then .cfgWr isPort k else .cfgRd isPort k) →
    s.takeArrival (if isPort then 0xF00 + k else blockEp k) (fun x => x.plane == pCQ && x.pkt.hdr.ptype == (if wr then tCFG_WR else tCFG_RD)) =
      some (a, s1) →
    ∃ (by' : AccBy) (back : Hdr),
      exec c s = .next (s.within (((s1.access by' wr a.pkt.hdr.addr a.pkt.hdr.aux).2.2.inject
        (epLink (a.link / 30) pCP (a.link % 6)) (Pkt.bare back Ext.none)).settle)) ∧
      back.ptype = tCFG_RSP ∧ back.opc = (s1.access by' wr a.pkt.hdr.addr a.pkt.hdr.aux).1 ∧
      back.aux = (s1.access by' wr a.pkt.hdr.addr a.pkt.hdr.aux).2.1.toNat ∧ back.tag = a.pkt.hdr.tag ∧
      back.dcol = a.pkt.hdr.scol ∧ back.drow = a.pkt.hdr.srow ∧ back.exitp = 126) ∧
  (∀ (s s1 : State) (a : Arrival) (x : CfgAcc), s.stopped = false →
    s.takeArrival 0xF7E (fun y => y.pkt.hdr.ptype == tCFG_RSP) = some (a, s1) → s1.accOf a.pkt.hdr.tag = some x → x.asker = .cfg →
    exec .cfgRsp s = .next (s.within (State.drive { s1 with
        accs := delFirst (fun y => y.id == x.id) s1.accs
        cfgAck := some (BitVec.ofNat 32 a.pkt.hdr.aux, a.pkt.hdr.opc % 16) }
      (.cfgAck (BitVec.ofNat 32 a.pkt.hdr.aux) (a.pkt.hdr.opc % 16))).settle)) ∧
  (∀ (s : State) (k : Nat) (x : CfgAcc), s.stopped = false → Quiet s → s.accs[k]? = some x → x.asker = .cfg →
    ∃ t, exec (.cfgTimeout k) s = .next t ∧ t.accs = delFirst (fun y => y.id == x.id) s.accs ∧
      t.out = s.out ++ [.cfgAck 0 stTIMEOUT] ∧ t.cyc = max s.cyc (x.at' + 65536) ∧
      t.cfgAck = some (0, stTIMEOUT) ∧ { clocksOf t s with accs := s.accs, out := s.out, cfgAck := s.cfgAck } = s)

/-- DBG_REG (R438, R439): a read or write of the test access port is made at once like one of CFG, and its data, its status and DONE are
what the data register captures next. After KEY_LOCK is set, and while KEY_CTL.DBG_EN is 0, it reads zero, writes nothing and raises a
DEBUG violation; the model answers DENIED, which is its choice (log 12). While RST_N is low it reaches nothing and captures DOMAIN_OFF
with data zero (R457). Where the clock of the configuration domain has stopped nothing happens, nor while the port's own crossing is
held (R412). -/
def Obligations.DebugAccess : Prop :=
  ∀ (s : State) (wr : Bool) (addr : BitVec 28) (data : Word),
    let v : State := { s with jtag := { s.jtag with ir := 0x3A, access := (wr, addr.toNat, data.toNat) } }
    let r := v.access .dbg wr addr.toNat data.toNat
    (s.heldX .dbg = none → s.boot = 0 ∨ s.boot = 2 → s.get 0 F.KEY_LOCK_LOCK = 0 ∨ s.get 0 F.KEY_CTL_DBG_EN = 1 →
      exec (.dbgReg wr addr data) s = .next (s.within (r.2.2.dbgEnd r.2.1 r.1).settle)) ∧
    (s.heldX .dbg = none → s.boot = 0 ∨ s.boot = 2 → s.get 0 F.KEY_LOCK_LOCK = 1 → s.get 0 F.KEY_CTL_DBG_EN = 0 →
      exec (.dbgReg wr addr data) s = .next (s.within ((v.violation 7 0).dbgEnd 0 stDENIED).settle)) ∧
    (s.heldX .dbg = none → s.boot = 1 → ∃ t, exec (.dbgReg wr addr data) s = .next t ∧ t.out = s.out ++ [.dbgDone 0 stDOMAIN_OFF] ∧
      t.drCapture = (64, stDOMAIN_OFF * 2 ^ 32 + 2 ^ 36) ∧ { t with out := s.out, jtag := s.jtag } = s) ∧
    (∀ (d : Word) (st : Nat), v.jtag.ir = 0x3A ∧ (v.dbgEnd d st).drCapture = (64, packFields [(32, d.toNat), (4, st), (1, 1)])) ∧
    ((s.heldX .dbg).isSome = true → Quiet s → exec (.dbgReg wr addr data) s = .next s) ∧
    (s.boot = 3 → exec (.dbgReg wr addr data) s = .next s)

/-- R429's three cases, and the pop: a pending report enters the log as a repeat of the entry with its key whose first event lies in
the same turn, as a new entry while fewer than 64 are valid, or in the lost counter of its class; a write of 1 to ERR_POP frees the
oldest entry. A report of the same cycle from a lower SRC is taken before it (R428, R440); that reports of one cycle arrive together is
the model's choice (log 20). -/
def Obligations.ErrorLogTakesReports : Prop :=
  (∀ (s : State) (r : Report), s.stopped = false → Quiet s →
    s.reports.find? (fun x => x.cls == r.cls && x.src == r.src) = some r → r.cls < 32 →
    (∀ x ∈ s.reports, x.at' = r.at' → r.src ≤ x.src) →
    ∃ t, exec (.errorReport r.cls r.src) s = .next t ∧ t.reports = delFirst (fun x => x == r) s.reports ∧
      (∀ a, t.ramByte a = s.ramByte a) ∧ t.sems = s.sems ∧ t.keys = s.keys ∧
      (if s.log.any (fun e => e.cls == r.cls && e.src == r.src && e.first / 2048 == r.first / 2048) then
         t.log = updFirst (fun e => e.cls == r.cls && e.src == r.src && e.first / 2048 == r.first / 2048)
           (fun e => { e with rep := min 0xFFFF (e.rep + r.count), last := r.last }) s.log ∧ t.regs = s.regs
       else if s.log.length < 64 then
         t.log = s.log ++ [⟨r.cls, r.status, r.src, min 0xFFFF (r.count - 1), r.first, r.last, r.detail⟩] ∧
         t.get 0 F.ERR_STAT_COUNT = s.log.length + 1
       else t.log = s.log ∧
         t.get (4 * r.cls) F.ERR_LOSTc_COUNT = min (s.get (4 * r.cls) F.ERR_LOSTc_COUNT + r.count) (2 ^ F.ERR_LOSTc_COUNT.w - 1))) ∧
  (∀ (s : State) (r q : Report), s.stopped = false → s.reports.find? (fun x => x.cls == r.cls && x.src == r.src) = some r →
    s.reports.filter (fun x => x.at' == r.at' && x.src < r.src) = [q] →
    exec (.errorReport r.cls r.src) s = .next (s.within (((s.takeOne q).takeOne r).settle))) ∧
  (∀ (s : State) (e : LogEntry) (l : List LogEntry), CfgFree s → Quiet s → s.accCheck 0xB08 = stOK → s.log = e :: l → l.length < 64 →
    ∃ t, exec .errPop s = .next t ∧ t.log = l ∧ t.get 0 F.ERR_STAT_OLDEST = (s.get 0 F.ERR_STAT_OLDEST + 1) % 64 ∧
      t.get 0 F.ERR_STAT_COUNT = l.length ∧ t.out = s.out ++ [.cfgAck 0 stOK] ∧ { hostOf t s with log := s.log, regs := s.regs } = s)

/-- Writing 1 to KEY_LOCK.LOCK sets the lock and nothing else. From then on a write to a register of the map keeps every RWL field and
gives every other field what its type says, and a write that would have changed an RWL field ends DENIED and raises a LOCKWR violation
(R435). -/
def Obligations.KeyLockFreezesRwlFields : Prop :=
  (∀ s : State, CfgFree s → Quiet s → s.accCheck 0xD04 = stOK →
    ∃ t, exec .keyLock s = .next t ∧ t.get 0 F.KEY_LOCK_LOCK = 1 ∧ (∀ a, a ≠ 0xD04 → t.word a = s.word a) ∧
      t.out = s.out ++ [.cfgAck 0 stOK] ∧ { hostOf t s with regs := s.regs } = s) ∧
  (∀ (s : State) (a data : Nat) (r : RegRow) (z : Bool), s.get 0 F.KEY_LOCK_LOCK = 1 → rowAt s.build a = some (r, z) → r ∈ regTable →
    data < 2 ^ 32 →
    (∀ f ∈ r.flds, f.ty = .RWL →
      bitsOf (wordWrite true r.flds (s.word a).toNat data) f.lo f.w = bitsOf (s.word a).toNat f.lo f.w) ∧
    (if changesLocked r.flds (s.word a).toNat data then
       s.plainWrite a data = (stDENIED, (s.setWord a (BitVec.ofNat 32 (wordWrite true r.flds (s.word a).toNat data))).violation 5 0)
     else s.plainWrite a data = (stOK, s.setWord a (BitVec.ofNat 32 (wordWrite true r.flds (s.word a).toNat data)))))

/-- Every violation is reported in class SECURITY by the Key Store, with status INTERNAL for TAMPER and FUSE and DENIED for the rest; under
policy 0 nothing else happens, under policy 1 its KEY_VIOL bit is set and no other register changes, under policy 2 and 3 every key slot
is emptied and ERASED is set as well, and policy 3 seals (R437). SEC_TAMPER in service
raises TAMPER, and where it erases every KEY_LOAD under way completes DENIED (R440); while RST_N is low, and where the clock has stopped under policy 2 or 3, it empties the slots. A fall of FUSE_V raises
FUSE. -/
def Obligations.ViolationsFollowTheirPolicy : Prop :=
  (∀ (s : State) (c obj : Nat), c < 8 →
    let p := bitsOf (s.get 0 F.KEY_POLICY_POL) (2 * c) 2
    let t := s.violation c obj
    (∃ r ∈ t.reports, r.cls = 0x18 ∧ r.src = srcGlob 5) ∧
    (s.reports.any (fun r => r.cls == 0x18 && r.src == srcGlob 5) = false →
      ∃ r ∈ t.reports, r.cls = 0x18 ∧ r.src = srcGlob 5 ∧ r.count = 1 ∧ r.status = if c ≤ 1 then stINTERNAL else stDENIED) ∧
    (p = 0 → { t with reports := s.reports } = s) ∧
    (p = 1 → (∀ a, a ≠ F.KEY_VIOL_CLASS.off → t.word a = s.word a) ∧ { t with reports := s.reports, regs := s.regs } = s) ∧
    (1 ≤ p → bitAt (t.get 0 F.KEY_VIOL_CLASS) c = true) ∧
    (2 ≤ p → t.keys = [] ∧ t.flag 0 F.KEY_STAT_ERASED = true) ∧
    (p = 3 → t.flag 0 F.KEY_STAT_SEALED = true)) ∧
  (∀ s : State, s.boot = 0 ∨ s.boot = 2 →
    let v := (s.set 0 F.KEY_STAT_TAMPER 1).violation 0 0
    let l := v.rings.flatMap (fun rc => (rc.2.filter (fun c => c.opc == 0x68 && c.stage == .running)).map (fun c => (rc.1, c.idx)))
    exec .secTamper s = .next (s.within (if bitsOf (s.get 0 F.KEY_POLICY_POL) 0 2 < 2 then v.settle
      else (l.foldl (fun s x => s.finishCmd x.1 x.2 stDENIED 0) v).settle))) ∧
  (∀ s : State, s.boot = 1 ∨ (s.boot = 3 ∧ 2 ≤ bitsOf (s.get 0 F.KEY_POLICY_POL) 0 2) →
    ∃ t, exec .secTamper s = .next t ∧ t.keys = [] ∧ t.flag 0 F.KEY_STAT_TAMPER = true ∧ t.get 0 F.KEY_SLOTS_KIND = 0 ∧
      { t with keys := s.keys, regs := s.regs } = s) ∧
  (∀ s : State, s.stopped = false → s.flag 0 F.KEY_STAT_FUSE_V = true →
    exec .fuseVFall s = .next (s.within (((s.set 0 F.KEY_STAT_FUSE_V 0).violation 1 0).settle)))

/-- Telemetry, trigger and pacing rows: a read of a counter's LO word answers COUNT[31:0] and leaves the rest of the counter in the HI
word (R421), or of its snapshot copy while VIEW is 1 (R424), and at a router's counter the access is made at the block; TRIG_CLEAR clears the trigger (R427); a paced turn moves HELD into PEND (R430). -/
def Obligations.ObservationRows : Prop :=
  (∀ (s : State) (a : BitVec 28) (k : Nat), k < 16 → a.toNat = 0xE14 + 32 * k → CfgFree s → Quiet s → s.accCheck a.toNat = stOK →
    s.probeOff a.toNat = false →
    let c := if s.flag 0 F.MIR_CTL_VIEW then (mapGet s.snapTlm a.toNat).getD ⟨0, false⟩ else s.tlmOf a.toNat
    ∃ t, exec (.tlmLoRead a) s = .next t ∧ t.out = s.out ++ [.cfgAck (BitVec.ofNat 32 c.cnt) stOK] ∧
      t.word (a.toNat + 4) = BitVec.ofNat 32 (packFields [(16, c.cnt / 2 ^ 32), (15, 0), (1, bit c.ovf)]) ∧
      t.tlm = s.tlm ∧ { hostOf t s with regs := s.regs } = s) ∧
  (∀ (s : State) (a : BitVec 28), 0x1000000 ≤ a.toNat → s.isTlm a.toNat = true → s.stopped = false →
    exec (.tlmLoRead a) s = .next (s.within ((s.access .cfg false a.toNat 0).2.2.settle))) ∧
  (∀ s : State, CfgFree s → Quiet s → s.accCheck 0xC04 = stOK →
    ∃ t, exec .trigClear s = .next t ∧ t.flag 0 F.MIR_STAT_TRIG = false ∧ t.flag 0 F.MIR_STAT_STOPPED = false ∧ t.postLeft = none ∧
      { hostOf t s with regs := s.regs, postLeft := s.postLeft, trace := s.trace } = s) ∧
  (∀ s : State, s.stopped = false → Quiet s → s.running = false →
    ∃ t, exec .errorPacingTurn s = .next t ∧ t.flag 0 F.ERR_STAT_HELD = false ∧ t.cyc = max s.cyc (s.paceEdge + 16384) ∧
      (s.flag 0 F.ERR_STAT_HELD = true → t.flag 0 F.ERR_STAT_PEND = true) ∧
      (s.flag 0 F.ERR_STAT_HELD = false → t.regs = s.regs))

/-! ### Power, reset and crossings -/

/-- The events of a domain transition (R401, R403, R404, R405, R406, R407), each at a state in which it can occur. A domain that is
quiescent, or whose DOM_DOWN_TIMEOUT comes under FORCE, goes on toward its target, and without FORCE the transition ends TIMEOUT; a
step boundary changes the power switch that is due; PSW_ACK ends the step to Dark or begins the reset and initialisation, and where it
does not follow within ACKTMO the ACK error is raised; a domain that has been initialised is in Umbra, and one whose links have rejoined
is lit; a PSW_ACK lost makes the domain Dark at once. That a forced timeout goes on as if the domain were quiescent, and that a lost
acknowledgement counts as the last switch change, are the model's choices (log 10). -/
def Obligations.PowerTransitionRows : Prop :=
  ∀ (s : State) (t : Trans) (d : Nat), s.stopped = false → d < s.build.cfgDom →
    (s.trans = some t → t.phase = 0 → s.quiescent t.dom = true →
      exec .domainQuiescent s = .next (s.within (s.quiescentNow t false).settle)) ∧
    (s.trans = some t → t.phase = 0 → s.quiescent t.dom = false →
      exec .domDownTimeout s = .next (s.within (if t.force then (s.passTo (t.born + t.tmo + 1)).quiescentNow t true
        else (s.passTo (t.born + t.tmo + 1)).endTrans t stTIMEOUT).settle)) ∧
    (s.dueSwitch = some t → s.running = false → s.lastSw = none → exec .stepBoundary s = .next (s.within (s.switch t).settle)) ∧
    (∀ l, s.dueSwitch = some t → s.running = false → s.lastSw = some l →
      exec .stepBoundary s = .next (s.within ((s.passTo (l + s.get 0 F.PWR_STEP_STEP)).switch t).settle)) ∧
    (s.dueSwitch = some t → s.running = true → s.notchCount % s.get 0 F.PWR_STEP_STEP = s.get 0 F.PWR_STEP_PHASE → t.born < s.tmo →
      s.lastSw ≠ some s.tmo → exec .stepBoundary s = .next (s.within (s.switch t).settle)) ∧
    (s.trans = some t → t.dom = d → t.phase = 2 →
      exec (.pswAckFall d) s = .next (s.within ((s.goDark d).endTrans t stOK).settle)) ∧
    (s.pswEn.contains d = true → s.transOf d = some t → t.phase = 4 →
      exec (.pswAckRise d) s = .next (s.within (s.phaseTo t 5 s.cyc).settle)) ∧
    (s.transOf d = some t → t.phase = 4 →
      let u := (s.passTo (t.born + s.get 0 F.PWR_CTL_ACKTMO + 1)).pwrErr F.PWR_ERR_ACK stTIMEOUT d
      exec (.pswAckTimeout d) s = .next (s.within (u.phaseTo t 7 u.tmo).settle)) ∧
    (s.transOf d = some t → t.phase = 2 →
      exec (.pswAckTimeout d) s = .next (s.within (((s.passTo (t.born + s.get 0 F.PWR_CTL_ACKTMO + 1)).pwrErr F.PWR_ERR_ACK stTIMEOUT
        d).endTrans t stTIMEOUT).settle)) ∧
    (s.pswEn.contains d = true → s.transOf d = none →
      exec (.pswAckLost d) s = .next (s.within (State.pwrErr { s.goDark d with
        pswEn := (s.goDark d).pswEn.filter (· != d), lastSw := some (s.goDark d).tmo } F.PWR_ERR_ACKLOST stINTERNAL d).settle)) ∧
    (s.transOf d = some t → t.phase = 5 →
      let u := (((s.passCyc (t.born + 16 + s.initCycles d)).loseDomain d).isolate d).setDom d 1
      exec (.domainInitDone d) s = .next (s.within (State.settle { u.phaseTo t 6 u.cyc with isoLow := (u.phaseTo t 6 u.cyc).isoLow ++ [d] }))) ∧
    (s.transOf d = some t → t.phase = 6 →
      exec (.domainLit d) s = .next (s.within ((s.light d).endTrans t stOK).settle))

/-- A mesh domain that loses power is Dark and everything in it is lost (R403, R313): its registers hold their reset values, its sync
unit has no enabled semaphore, no watch, no notification, no barrier and no realign slot, and its node NIs hold no operation, packet,
channel slot or reorder entry. No other domain changes its state. -/
def Obligations.DarkDomainLosesEverything : Prop :=
  ∀ (s : State) (d : Nat), s.build.ndom ≤ 80 → d < s.build.nmesh →
    (s.goDark d).dom d = 0 ∧ (∀ e, e ≠ d → e < s.build.ndom → (s.goDark d).dom e = s.dom e) ∧
    (∀ a, s.addrDom a = d → (s.goDark d).word a = resetWord s.build a) ∧
    (∀ i, i < 1024 → (s.goDark d).sem d i = 0) ∧ (∀ w ∈ (s.goDark d).watches, w.unit ≠ d) ∧
    (∀ e ∈ (s.goDark d).ntfq, e.1 ≠ d) ∧ (∀ x ∈ (s.goDark d).bars, x.unit ≠ d) ∧ (∀ x ∈ (s.goDark d).realigns, x.unit ≠ d) ∧
    (∀ o ∈ (s.goDark d).ops, s.build.epDom o.ep ≠ d) ∧ (∀ q ∈ (s.goDark d).reqs, s.build.epDom q.ep ≠ d) ∧
    (∀ x ∈ (s.goDark d).sslots, s.build.epDom x.ep ≠ d) ∧ (∀ x ∈ (s.goDark d).rslots, s.build.epDom x.ep ≠ d)

/-- Assertion of RST_N takes the block to the state right after reset, at any time, but for what has been driven at the ports, the
model's count of free values and the tamper level (log 31); its release latches the fuse key and begins the initialisation of the
configuration/Headstock domain; when that ends, after 40,960 cycles, the block is in service, and with AUTOUP 1 every other domain waits
to be powered up in index order (R413, R417, R456). A CFG access raised while RST_N is low or the block initialises waits, and is made
then (R454). A tamper input that was high while RST_N was low raises its violation at the release if it is still high (R468), which is a
free value of the model (log 42). -/
def Obligations.WholeBlockReset : Prop :=
  (∀ s : State, ∃ t, exec .rstNAssert s = .next t ∧ t.boot = 1 ∧ t.out = s.out ∧
    (∀ a, a ≠ 0xD14 → t.word a = resetWord s.build a) ∧
    { t with boot := 2, out := [], free := 0, regs := [], pending := [] } = State.resetOf s.build) ∧
  (∀ (s : State) (key : BitVec 256) (par : BitVec 32) (v : Bool), s.boot = 1 → s.flag 0 F.KEY_STAT_TAMPER = false →
    ∃ t, exec (.rstNRelease key par v) s = .next t ∧ t.boot = 2 ∧ t.fuse = key.toNat + 2 ^ 256 * par.toNat ∧
      t.flag 0 F.KEY_STAT_FUSE_V = v ∧ { t with boot := 1, fuse := s.fuse, cyc := s.cyc, regs := s.regs } = s) ∧
  (∀ (s : State) (key : BitVec 256) (par : BitVec 32) (v : Bool), s.boot = 1 → s.flag 0 F.KEY_STAT_TAMPER = true →
    let u := State.set { s with boot := 2, cyc := 0, fuse := key.toNat + 2 ^ 256 * par.toNat } 0 F.KEY_STAT_FUSE_V (bit v)
    exec (.rstNRelease key par v) s = .next (s.within (if (Config.openWord 11 s.free).toNat % 2 = 0
      then u.drawFree.set 0 F.KEY_STAT_TAMPER 0 else u.drawFree.violation 0 0))) ∧
  (∀ s : State, s.boot = 2 → Quiet s → s.flag 0 F.PWR_CTL_AUTOUP = false → s.cfgWait = none →
    ∃ t, exec .cfgInitDone s = .next t ∧ t.boot = 0 ∧ 40960 ≤ t.cyc ∧ { clocksOf t s with boot := 2 } = s) ∧
  (∀ (s : State) (addr : BitVec 28) (data : Word), s.boot = 1 ∨ s.boot = 2 → Quiet s → s.heldX .cfg = none → s.accs = [] →
    s.cfgWait = none → exec (.cfgWrite addr data) s = .next { s with
      cfgWait := some (true, addr.toNat, data.toNat), cfgVal := (true, addr.toNat, data.toNat), cfgAck := none }) ∧
  (∀ (s : State) (wr : Bool) (a data : Nat), s.boot = 2 → s.flag 0 F.PWR_CTL_AUTOUP = false → s.cfgWait = some (wr, a, data) →
    exec .cfgInitDone s = .next (s.within ((State.passCyc { s with boot := 0, cfgWait := none } 40960).regAccess .cfg wr a data).settle)) ∧
  (∀ s : State, s.boot = 2 → Quiet s → s.flag 0 F.PWR_CTL_AUTOUP = true → s.trans = none → s.drain = none → s.transq = [] →
    s.upq = [] → s.cfgWait = none → s.halfReset true = false → s.halfReset false = false → s.dom 0 = 0 → 0 < s.build.cfgDom →
    ∃ t, exec .cfgInitDone s = .next t ∧ t.boot = 0 ∧ t.upq = upFrom 0 s.build.cfgDom ∧ t.get 0 F.PWR_STAT_UPSEQ = 1)

/-- Reset of a half (R413, R416): its bit in PWR_STAT is set, and every domain of the half is Dark, where no transition or drain was
under way or waiting. Its release clears the bit, and without AUTOUP its domains stay Dark. -/
def Obligations.HalfResetDarkensItsDomains : Prop :=
  (∀ (s : State) (east : Bool), s.build.ndom ≤ 80 → s.stopped = false → s.build.halves = true → s.halfReset east = false → s.trans = none → s.autos = [] →
    s.drain = none → s.transq = [] → s.upq = [] →
    exec (.halfReset east) s = .next (s.within (((s.resetHalf east).holdX (.seam east) false).farReset (bit east)).settle) ∧
    (s.resetHalf east).halfReset east = true ∧ (∀ d ∈ s.build.halfDoms east, (s.resetHalf east).dom d = 0)) ∧
  (∀ (s : State) (east : Bool), s.stopped = false → s.build.halves = true → s.halfReset east = true → (s.heldX (.seam east)).any (·.stopped) = false →
    s.flag 0 F.PWR_CTL_AUTOUP = false →
    exec (.halfResetRelease east) s = .next (s.within (s.releaseHalf east).settle) ∧
    (s.releaseHalf east).halfReset east = false ∧ (∀ d, (s.releaseHalf east).dom d = s.dom d))

/-- The far side of a crossing (R412, R414, R415): its reset holds the crossing and sets XRESET; JOIN releases a held crossing: a
TAP's watch slots are then FREE with their generations advanced, a die-to-die port holds idle as after a link-down, and the seam itself
rejoins with its half. A JOIN
that is not answered within XTMO cycles sets REJOIN and is signalled again; a clock that has stopped for XTMO cycles holds the crossing
and sets XRESET and CLKSTOP, but a reset seen in the same cycle is all that happens (R419); the West clock stopping
takes every domain Dark, and nothing but RST_N acts from then on. A seam held because the East clock stopped is released when it has run
again. The model's choices: the West clock taking every domain Dark (log 11), when a stopped clock is seen and a JOIN is missed, and
that the seam rejoins with its half (log 41). -/
def Obligations.CrossingRows : Prop :=
  (∀ (s : State) (c : Instr), s.stopped = false → Quiet s → c = .crossingFarReset .spx ∨ c = .clockStop .spx →
    (c = .clockStop .spx → (s.heldX .spx).any (fun h => !h.stopped && h.seen == s.cyc) = false) →
    ∃ t, exec c s = .next t ∧ (t.heldX .spx).isSome = true ∧
      { clocksOf t s with xheld := s.xheld, regs := s.regs, reports := s.reports } = s ∧ t.flag 0 F.PWR_ERR_XRESET = true ∧ (c = .clockStop .spx → t.flag 0 F.PWR_ERR_CLKSTOP = true)) ∧
  (∀ (s : State) (x : Crossing), s.stopped = false → State.noCrossing s.build x = false →
    exec (.crossingFarReset x) s = .next (s.within ((s.farSideGone x false).farReset (State.crossObj x)).settle) ∧
    (x ≠ .seam false → Quiet s → (s.heldX x).any (fun h => !h.stopped && h.seen == s.cyc) = true → exec (.clockStop x) s = .next s) ∧
    (x ≠ .seam false → (s.heldX x).any (fun h => !h.stopped && h.seen == s.cyc) = false →
      exec (.clockStop x) s = .next (s.within (State.pwrErr (((s.passCyc (s.cyc + s.get 0 F.PWR_CTL_XTMO)).farSideGone x true).farReset
        (State.crossObj x)) F.PWR_ERR_CLKSTOP stINTERNAL (State.crossObj x)).settle))) ∧
  (∀ (s : State) (x : Crossing), s.stopped = false → Quiet s → State.noCrossing s.build x = false → (s.heldX x).isSome = true →
    x = .spx ∨ x = .cfg ∨ x = .dbg ∨ (∃ m, x = .map m) ∨ (∃ p l, x = .nkp p l) →
    ∃ t, exec (.join x) s = .next t ∧ t.heldX x = none ∧ { t with xheld := s.xheld } = s) ∧
  (∀ (s : State) (k : Nat), s.stopped = false → Quiet s → s.build.isS = false → k < 4 * s.build.nodes → s.nodeOn (k / 4) = true →
    (s.heldX (.tap k)).isSome = true →
    ∃ t, exec (.join (.tap k)) s = .next t ∧ t.heldX (.tap k) = none ∧
      (∀ j, j / 16 = k % 4 → t.get (State.wslotBase (k / 4) j) F.NI_WSLOTs_HI_STATE = 0 ∧
        t.get (State.wslotBase (k / 4) j) F.NI_WSLOTs_HI_GEN =
          (s.get (State.wslotBase (k / 4) j) F.NI_WSLOTs_HI_GEN + 1) % 2 ^ F.NI_WSLOTs_HI_GEN.w) ∧
      (∀ a, (∀ j, j / 16 = k % 4 → a ≠ State.wslotBase (k / 4) j + F.NI_WSLOTs_HI_GEN.off) → t.word a = s.word a) ∧
      t.armed = s.armed.filter (fun a => !(a.ep == k / 4 && a.slot / 16 == k % 4)) ∧
      { t with xheld := s.xheld, regs := s.regs, armed := s.armed } = s) ∧
  (∀ (s : State) (p : Nat), s.stopped = false → Quiet s → s.build.portKind p = 3 → (s.heldX (.d2d p)).isSome = true →
    ∃ t, exec (.join (.d2d p)) s = .next t ∧ t.heldX (.d2d p) = none ∧ t.link p = { s.link p with idle := some s.tmo } ∧
      (∀ q, q ≠ p → t.link q = s.link q) ∧ { t with xheld := s.xheld, links := s.links } = s) ∧
  (∀ (s : State) (e : Bool), s.stopped = false → Quiet s → exec (.join (.seam e)) s = .next s) ∧
  (∀ (s : State) (x : Crossing), s.stopped = false → Quiet s → State.noCrossing s.build x = false →
    ∃ t, exec (.joinTimeout x) s = .next t ∧ t.flag 0 F.PWR_ERR_REJOIN = true ∧ (t.heldX x).map (·.joined) = some true ∧
      ((s.heldX x).map (·.joined) ≠ some true → t.cyc = s.cyc + s.get 0 F.PWR_CTL_XTMO)) ∧
  (∀ s : State, s.build.ndom ≤ 80 → s.stopped = false →
    ∃ t, exec (.clockStop (.seam false)) s = .next t ∧ t.boot = 3 ∧ (∀ d, d < s.build.cfgDom → t.dom d = 0)) ∧
  (∀ (s : State) (h : XHold), s.stopped = false → s.build.halves = true → s.heldX (.seam true) = some h → h.stopped = true →
    exec .eastClockRestart s = .next (s.within ((s.passCyc (s.cyc + 64)).releaseHalf true).settle))

/-! ### Links and scale-out -/

/-- How a port block comes up and holds its lanes (R350, R351, R352, R358): PHY lock on at least seven lanes of a training port with a
spare, or on all eight of one without, is the first step, and the count of good frames starts from zero; without ISOLATED after 2,048
turns the port holds electrical idle; at the end of the idle time it trains again while EN is 1; when 2^20 symbols of the spare have
been compared, their count of differences is shown, and one of at most 16 sets SPARE_V (that the lane without lock becomes the spare, and
that the count is at most 2^20, are the model's choice, log 39); every 1,024 cycles an ADMIT cell becomes due;
a rotation swaps a lane with the spare, at a frame 64 ahead. -/
def Obligations.LinkTrainingRows : Prop :=
  ∀ (s : State) (p : Nat), s.build.isLink p = true → s.linkOn p = true → s.stopped = false → Quiet s →
    (∀ lanes : BitVec 8, s.linkState p = 1 → (s.link p).idle = none → (s.link p).lock = false → s.isD2d p = false →
      let n := ((upFrom 0 8).filter (bitAt lanes.toNat)).length
      let sp := s.flag (portBase p) F.NKL_CTL_SPARE
      (n < (if sp then 7 else 8) → exec (.phyLock p lanes) s = .next s) ∧
      ((if sp then 7 else 8) ≤ n →
        ∃ t, exec (.phyLock p lanes) s = .next t ∧ (t.link p).lock = true ∧ (t.link p).good = 0 ∧ t.linkState p = 1 ∧
          t.get (portBase p) F.NKL_STAT_LANES = (if sp then 7 else 8) ∧
          (∀ k, sp = true → k < 8 → bitAt lanes.toNat k = false → t.get (portBase p) F.NKL_STAT_SPARE_LANE = k) ∧
          (∀ q, q ≠ p → t.link q = s.link q) ∧ { t with regs := s.regs, links := s.links } = s)) ∧
    (s.linkState p = 1 → (s.link p).idle = none →
      ∃ t, exec (.trainingTimeout p) s = .next t ∧ (t.link p).idle = some t.tmo ∧ (t.link p).lock = false ∧
        t.tmo = max s.tmo ((s.link p).began + 2048 * 2048 + 1) ∧ (∀ q, q ≠ p → t.link q = s.link q) ∧
        { clocksOf t s with links := s.links } = s) ∧
    (∀ n, (s.link p).idle = some n →
      ∃ t, exec (.linkIdleEnd p) s = .next t ∧ (t.link p).idle = none ∧ t.tmo = max s.tmo (n + 1025) ∧
        (s.flag (portBase p) F.NKL_CTL_EN = true → t.linkState p = 1) ∧
        (s.flag (portBase p) F.NKL_CTL_EN = false → t.linkState p = s.linkState p) ∧ (∀ q, q ≠ p → t.link q = s.link q) ∧
        { clocksOf t s with links := s.links, regs := s.regs, free := s.free } = s) ∧
    (∀ count, s.hasSpare p = true → 2 ^ 20 ≤ (s.link p).calSyms →
      let d := min (2 ^ 20) ((s.link p).calDiff + count)
      ∃ t, exec (.spareCalibrate p count) s = .next t ∧ t.get (portBase p) F.NKL_SPARE_ERR_COUNT = d ∧
        (d ≤ 16 → t.flag (portBase p) F.NKL_STAT_SPARE_V = true) ∧
        (16 < d → t.get (portBase p) F.NKL_STAT_SPARE_V = s.get (portBase p) F.NKL_STAT_SPARE_V) ∧
        t.link p = { s.link p with calC := none, calSyms := 0, calDiff := 0 } ∧ (∀ q, q ≠ p → t.link q = s.link q) ∧
        t.linkState p = s.linkState p ∧ { t with regs := s.regs, links := s.links } = s) ∧
    (∀ count, (s.link p).calSyms < 2 ^ 20 → exec (.spareCalibrate p count) s = .next s) ∧
    (s.linkState p = 2 ∨ (s.linkState p = 1 ∧ (s.link p).lock = true ∧ (s.isD2d p = true ∨ (s.link p).good = 1024)) →
      ∃ t, exec (.admitSend p) s = .next t ∧ t.link p = { s.link p with admDue := true, admitAt := t.cyc } ∧
        t.cyc = max s.cyc ((s.link p).admitAt + 1024) ∧ { clocksOf t s with links := s.links } = s) ∧
    (s.get (portBase p) F.NKL_CTL_ROT ≠ 0 → s.hasSpare p = true → (s.link p).swapTx = none →
      ∃ t w, exec (.spareRotate p) s = .next t ∧ (t.link p).swapTx = some w ∧ w.spare = s.get (portBase p) F.NKL_STAT_SPARE_LANE ∧
        w.frame = ((s.link p).fnum + 64) % 65536 ∧ w.due = true ∧ w.lane ≠ w.spare ∧ { clocksOf t s with links := s.links } = s)

/-- The rows that take a link down (R344, R353, R360, R452), with the reason that DOWN_WHY then shows: 3 at the replay limit, 2 without
a good frame for DEAD notches, 1 for a lane without a calibrated spare and for a die-to-die adapter that is not Active. The port is DOWN
and idle, with nothing held for replay or half received, and the packets received whole stay, which is the model's choice (log 39); its NI_PORT_MASK bit is set (R357), and from ISOLATED or UP
PEER_GONE is set. Below the limit a
replay begins at the oldest held cell and is counted. A lane whose spare is calibrated is swapped in its place. -/
def Obligations.LinkDownRows : Prop :=
  (∀ (s : State) (p : Nat) (c : Instr) (why : Nat), s.build.isLink p = true → s.linkOn p = true → s.stopped = false → Quiet s →
    p < 126 → 0 < s.linkState p → (s.link p).qB = [] → (s.link p).qG = [] → (s.link p).swapTx = none →
    (c = .replayTimeout p ∧ why = 3 ∧ (s.link p).held ≠ [] ∧ s.get (portBase p) F.NKL_LINK_MAXREPLAY ≤ (s.link p).tries) ∨
    (c = .linkDead p ∧ why = 2 ∧ 2 ≤ s.linkState p) ∨
    (∃ lane, c = .laneFail p lane ∧ why = 1 ∧ lane < 8 ∧ s.isD2d p = false ∧ (s.link p).lock = true ∧ s.hasSpare p = false) ∨
    (c = .fdiError p ∧ why = 1 ∧ s.isD2d p = true) →
    ∃ t, exec c s = .next t ∧ t.linkState p = 0 ∧ t.get (portBase p) F.NKL_STAT_DOWN_WHY = why ∧ (t.link p).idle = some t.tmo ∧
      (t.link p).held = [] ∧ (t.link p).replay = [] ∧ (t.link p).whole = (s.link p).whole ∧ (t.link p).rxB = none ∧
      (t.link p).rxG = none ∧ t.get (portBase p) F.NKL_STAT_SPARE_V = 0 ∧
      (∀ q, q ≠ p → t.link q = s.link q) ∧ t.ram = s.ram ∧ t.sems = s.sems ∧ t.keys = s.keys ∧ t.out = s.out ∧
      (2 ≤ s.linkState p → t.flag (portBase p) F.NKL_EVT_PEER_GONE = true) ∧
      bitAt (t.word (0x200 + 4 * (p / 32))).toNat (p % 32) = true) ∧
  (∀ (s : State) (p : Nat), s.build.isLink p = true → s.linkOn p = true → s.stopped = false → Quiet s →
    (s.link p).held ≠ [] → (s.link p).tries < s.get (portBase p) F.NKL_LINK_MAXREPLAY →
    ∃ t, exec (.replayTimeout p) s = .next t ∧ (t.link p).replay = (s.link p).held.map (·.seq) ∧
      (t.link p).tries = (s.link p).tries + 1 ∧ t.linkState p = s.linkState p ∧
      t.cyc = max s.cyc ((((s.link p).held.head?).map (·.at')).getD 0 + s.get (portBase p) F.NKL_LINK_RTMO) ∧
      { clocksOf t s with regs := s.regs, links := s.links } = s) ∧
  (∀ (s : State) (p lane : Nat), s.build.isLink p = true → s.linkOn p = true → s.stopped = false → Quiet s → (s.link p).lock = true →
    lane < 8 → lane ≠ s.get (portBase p) F.NKL_STAT_SPARE_LANE → s.hasSpare p = true → s.flag (portBase p) F.NKL_STAT_SPARE_V = true →
    (s.link p).swapTx = none →
    ∃ t w, exec (.laneFail p lane) s = .next t ∧ (t.link p).swapTx = some w ∧ w.lane = lane ∧
      w.spare = s.get (portBase p) F.NKL_STAT_SPARE_LANE ∧ t.flag (portBase p) F.NKL_EVT_LANE_FAIL = true ∧ t.linkState p = s.linkState p)

/-- Frames and cells (R339, R344, R346, R350, R352, R360, R368). The frame of a Nuoka Link port is read from its lanes in turn: one that
cannot be decoded is counted in UNCOR_CNT, sets FEC_UNCOR and restarts the count of good frames; while the port trains, a good one raises
that count and only that; else its five cells are taken. No frame is read before the lanes are in order. A die-to-die port takes one cell.
At a cell boundary a due BEACON goes before a due ADMIT, that before the LANE cell of a swap, that before a replay, and a port that only
trains sends IDLE. The model's choices: in which lane a frame begins, and ADMIT before LANE, which R346 ranks alike (log 39); a die-to-die
cell in the low bits of the symbols (log 26). -/
def Obligations.FramesAndCells : Prop :=
  ∀ (s : State) (p : Nat), s.build.isLink p = true → s.linkOn p = true → s.stopped = false →
    (∀ lanes : List LaneSyms, 1 ≤ s.linkState p → (s.link p).lock = true → (s.link p).idle = none →
      let l := s.link p
      let sy := State.gatherSyms 1088 l.rxPtr (l.rxLanes.map (fun x => (((lanes[x.2]?).map (·.syms)).getD []).map (·.toNat)))
      let plain := s.isD2d p = false ∧ l.rxLanes ≠ [] ∧ (s.linkState p = 1 → State.alignLanes lanes (if s.spared p then 7 else 8) l.rxSpare = none) ∧
        l.swapRx = none ∧ l.rxNum % 1024 ≠ 0 ∧ (s.spared p = true → l.calC = none)
      let u := s.updLink p (fun l => { l with rxPtr := (l.rxPtr + 1088) % max 1 l.rxLanes.length, rxNum := (l.rxNum + 1) % 65536 })
      (plain → frameDecode sy = none → Quiet s →
        ∃ t, exec (.frameReceive p lanes) s = .next t ∧
          t.get (portBase p) F.NKL_UNCOR_CNT_COUNT = min (s.get (portBase p) F.NKL_UNCOR_CNT_COUNT + 1) (2 ^ 32 - 1) ∧
          t.flag (portBase p) F.NKL_ERR_FEC_UNCOR = true ∧ (t.link p).good = 0 ∧ (∀ q, q ≠ p → t.link q = s.link q) ∧
          { t with regs := s.regs, links := s.links, reports := s.reports } = s) ∧
      (∀ bytes n, plain → frameDecode sy = some (bytes, n) → s.linkState p = 1 → l.good < 1023 → Quiet s →
        ∃ t, exec (.frameReceive p lanes) s = .next t ∧ (t.link p).good = l.good + 1 ∧ (t.link p).lastGood = s.tmo ∧
          (t.link p).rxNum = (leNat (bytes.take 2) + 1) % 65536 ∧ (∀ q, q ≠ p → t.link q = s.link q) ∧
          t.get (portBase p) F.NKL_CORR_CNT_COUNT = min (s.get (portBase p) F.NKL_CORR_CNT_COUNT + n) (2 ^ 32 - 1) ∧
          { t with regs := s.regs, links := s.links } = s) ∧
      (∀ bytes, plain → frameDecode sy = some (bytes, 0) → 2 ≤ s.linkState p →
        exec (.frameReceive p lanes) s = .next (s.within (((upFrom 0 5).foldl (fun v k => if v.linkState p == 0 then v
          else State.takeCell p v ((bytes.drop (5 + 256 * k)).take 256)) (u.updLink p (fun l => { l with
            good := min 1024 (l.good + 1), lastGood := s.tmo, rxNum := (leNat (bytes.take 2) + 1) % 65536 }))).settle))) ∧
      (s.isD2d p = false → l.rxLanes = [] → State.alignLanes lanes (if s.spared p then 7 else 8) l.rxSpare = none → Quiet s →
        exec (.frameReceive p lanes) s = .next s) ∧
      (∀ x r, s.isD2d p = true → lanes = x :: r → exec (.frameReceive p lanes) s = .next (s.within
        ((State.takeCell p (s.updLink p (fun l => { l with lastGood := s.tmo })) ((x.syms.take 256).map (·.setWidth 8))).settle)))) ∧
    ((s.link p).idle = none → (s.link p).downDue = false → 1 ≤ s.linkState p →
      let u := if s.linkState p = 3 then (s.startPkt p true).startPkt p false else s
      let l := u.link p
      (l.beacon = true → 2 ≤ s.linkState p → exec (.cellBoundary p) s =
        .next (s.within ((u.updLink p (fun l => { l with beacon := false })).emitCell p 3 u.beaconPay).settle)) ∧
      (l.beacon = false ∨ s.linkState p = 1 → l.admDue = true → s.linkState p ≠ 1 ∨ l.pChal = none → exec (.cellBoundary p) s =
        .next (s.within ((u.updLink p (fun l => { l with admDue := false, admSent := true })).emitCell p 4
          (u.admitPay p)).settle)) ∧
      (l.beacon = false ∨ s.linkState p = 1 → l.admDue = false →
        (∀ x, l.swapTx = some x → x.due = true → exec (.cellBoundary p) s = .next (s.within ((u.updLink p (fun l =>
          { l with swapTx := l.swapTx.map (fun y => { y with due := false }) })).emitCell p 5 (State.lanePay x)).settle)) ∧
        (∀ x, l.swapTx = none → l.swapRx = some x → x.due = true → exec (.cellBoundary p) s = .next (s.within ((u.updLink p (fun l =>
          { l with swapRx := none })).emitCell p 5 (State.lanePay x)).settle)) ∧
        (l.swapTx = none → l.swapRx = none → l.replay ≠ [] → exec (.cellBoundary p) s = .next (s.within (u.sendReplay p).settle)) ∧
        (l.swapTx = none → l.swapRx = none → l.replay = [] → s.linkState p = 2 →
          exec (.cellBoundary p) s = .next (s.within (u.sendCtrl p).settle)) ∧
        (l.swapTx = none → l.swapRx = none → l.replay = [] → s.linkState p = 1 →
          exec (.cellBoundary p) s = .next (s.within (s.emitCell p 0 []).settle))))

/-- NKL_CTL of a port whose domain is on (R350, R360): a write that only clears EN takes the link down with reason COMMAND, and one that
only sets EN begins training. At a die-to-die port a write of ENC, SPARE or AUTH = 1 has no effect and is recorded with status BADCMD
(R368); while STATE is not DOWN a write of other fields than EN leaves them as they are and is recorded with status DENIED (R370). -/
def Obligations.LinkControl : Prop :=
  (∀ (s : State) (p : Nat) (d : Word), s.build.isLink p = true → s.stopped = false → s.accCheck (portBase p + 0x6000) = stOK →
    p < 126 →
    (s.isD2d p = true → bitsOf d.toNat 1 3 ≠ 0 →
      exec (.nklCtlWrite p d) s = .next (s.within (s.recordAcc .cfg true (portBase p + 0x6000) d.toNat stBADCMD).settle)) ∧
    (s.isD2d p = false ∨ bitsOf d.toNat 1 3 = 0 → s.linkState p ≠ 0 →
      bitsOf d.toNat 1 26 ≠ bitsOf (s.word (portBase p + 0x6000)).toNat 1 26 → bitAt d.toNat 0 = s.flag (portBase p) F.NKL_CTL_EN →
      ∃ u : State, exec (.nklCtlWrite p d) s =
          .next (s.within (u.recordAcc .cfg true (portBase p + 0x6000) d.toNat stDENIED).settle) ∧
        (∀ a, u.word a = s.word a) ∧ { u with regs := s.regs } = s)) ∧
  ∀ (s : State) (p : Nat) (d : Word), s.build.isLink p = true → s.stopped = false → Quiet s → p < 126 →
    s.accCheck (portBase p + 0x6000) = stOK → (s.link p).qB = [] → (s.link p).qG = [] → (s.link p).swapTx = none → (s.link p).idle = none →
    s.isD2d p = false → bitsOf d.toNat 1 26 = bitsOf (s.word (portBase p + 0x6000)).toNat 1 26 →
    (bitAt d.toNat 0 = false → s.flag (portBase p) F.NKL_CTL_EN = true → 0 < s.linkState p →
      ∃ t, exec (.nklCtlWrite p d) s = .next t ∧ t.linkState p = 0 ∧ t.get (portBase p) F.NKL_STAT_DOWN_WHY = 5 ∧
        t.flag (portBase p) F.NKL_CTL_EN = false ∧ (∀ q, q ≠ p → t.link q = s.link q) ∧ t.ram = s.ram) ∧
    (bitAt d.toNat 0 = true → s.flag (portBase p) F.NKL_CTL_EN = false → s.linkState p = 0 →
      ∃ t, exec (.nklCtlWrite p d) s = .next t ∧ t.linkState p = 1 ∧ t.flag (portBase p) F.NKL_CTL_EN = true ∧ (t.link p).good = 0 ∧
        (∀ q, q ≠ p → t.link q = s.link q) ∧ t.ram = s.ram)

/-- Scale-out (R82, R84, R364, R365, R366): the first segments of a packet wait at the exit port for the rest, and with the last one
the whole packet is sent on; the next whole packet of a link is opened and enters the die, where its buffer stays until it has been injected
whole, and one that fails its tag is a tag failure, as is one whose header's ENC bit is not the port's (the model's choice, log 28); an
entry of the
filter leaves it KEEP notches after it was recorded; an E2E acknowledgement frees the entry that it names, and one that names none
sets UNACK; an unacknowledged packet is wanted again when its time has come, and given up at KEEP - 1,024 notches. -/
def Obligations.ScaleOutRows : Prop :=
  (∀ (s s1 : State) (p : Nat) (a : Arrival), acts (.scaleoutExit p) s = true → s.takeArrival (0xF00 + p) (s.exitTakes p) = some (a, s1) →
    s1.chip ≠ 0xFFF → (s1.asms.any fun x => x.port == p && x.src == a.pkt.ext.src && x.psn == a.pkt.ext.psn) = false →
    let r := s1.allocIn (0xF00 + p) 2
    let rest := r.2.asms.filter fun x => !(x.port == p && x.src == a.pkt.ext.src && x.psn == a.pkt.ext.psn)
    exec (.scaleoutExit p) s = .next (s.within (State.settle (if 2048 < a.pkt.ext.slen then
        { r.2 with asms := rest ++ [⟨p, a.pkt.ext.src, a.pkt.ext.psn, [a.pkt], r.1⟩] }
      else { r.2 with asms := rest }.exitWhole p (State.joinSegs [a.pkt]) r.1)))) ∧
  (∀ (s s1 : State) (p : Nat) (a : Arrival), acts (.scaleoutExit p) s = true → s.takeArrival (0xF00 + p) (s.exitTakes p) = some (a, s1) →
    s1.chip = 0xFFF → exec (.scaleoutExit p) s = .next (s.within (s1.bump (portBase p) F.NKL_DISC_CNT_COUNT 1).settle)) ∧
  (∀ (s : State) (p : Nat) (x : RxPkt) (r : List RxPkt), acts (.scaleoutEntry p) s = true →
    (s.link p).whole = x :: r → (s.updLink p (fun l => { l with whole := r })).openPkt p x = none →
    exec (.scaleoutEntry p) s = .next (s.within ((((s.updLink p (fun l => { l with whole := r })).tagFail p).freePb p x.buf).grant' p).settle)) ∧
  (∀ (s : State) (p : Nat) (x : RxPkt) (r : List RxPkt) (pk : Pkt) (s2 : State), acts (.scaleoutEntry p) s = true →
    s.chip ≠ 0xFFF → (s.link p).whole = x :: r →
    s.get (portBase p) F.NKL_STAT_KPH_RX = bit x.kph → classOf pk.hdr.vcn ≠ 3 →
    (s.updLink p (fun l => { l with whole := r })).openPkt p x = some (pk, s2) →
    let v := ((s.updLink p (fun l => { l with whole := r })).updLink p (fun l => { l with tags := 0 })).enterPkt p pk
    exec (.scaleoutEntry p) s = .next (s.within (State.settle (match v.1 with
      | some ack => State.injAll { v.2 with injecting := v.2.injecting ++ [⟨p, x.glint, pk.ext.src, pk.ext.psn, x.buf, ack⟩] }
      | none => (v.2.freePb p x.buf).grant' p)))) ∧
  (∀ (s : State) (k : Nat) (f : FiltEnt), s.stopped = false → Quiet s → s.filt[k]? = some f →
    ∃ t, exec (.filterExpire k) s = .next t ∧ t.filt = s.filt.eraseIdx k ∧ t.tmo = max s.tmo (f.at' + s.get 0 F.NKL_E2E_CTL_KEEP + 1) ∧
      t.get 0 F.NKL_FILT_STAT_USED = (s.filt.length - 1) % 2 ^ 17) ∧
  (∀ (s s1 : State) (p : Nat) (a : Arrival), acts (.e2eAck p) s = true →
    s.takeArrival (0xF00 + p) (fun a => isE2eAck a.pkt.hdr && !a.lt && !s.leaving a.pkt) = some (a, s1) →
    (∀ e, s1.rtx.find? (fun e => e.port == p && e.psn == a.pkt.hdr.tag && e.src == a.pkt.hdr.aux % 2 ^ 24) = some e →
      exec (.e2eAck p) s = .next (s.within (s1.dropRtx e).settle)) ∧
    (s1.rtx.find? (fun e => e.port == p && e.psn == a.pkt.hdr.tag && e.src == a.pkt.hdr.aux % 2 ^ 24) = none →
      exec (.e2eAck p) s = .next (s.within (s1.nklErr p F.NKL_ERR_UNACK (openSt 22)).settle))) ∧
  (∀ (s : State) (p k : Nat) (e e' : RtxEnt), acts (.e2eRetransmit p k) s = true → s.rtxAt p k = some e → e.want = false →
    s.get (portBase p) F.NKL_RTX_CTL_RTO * (2 ^ e.k - 1) < s.get 0 F.NKL_E2E_CTL_KEEP - 1024 →
    let u := (s.passTo (e.first + s.get (portBase p) F.NKL_RTX_CTL_RTO * (2 ^ e.k - 1) + 1)).updRtx e (fun x => { x with want := true, k := x.k + 1 })
    u.rtxAt p k = some e' → exec (.e2eRetransmit p k) s = .next (s.within (u.rtxTry e').settle)) ∧
  (∀ (s : State) (p k : Nat) (e : RtxEnt), acts (.e2eAbandon p k) s = true → s.rtxAt p k = some e →
    exec (.e2eAbandon p k) s = .next (s.within ((s.passTo (e.first + (s.get 0 F.NKL_E2E_CTL_KEEP - 1024) + 1)).abandon e stTIMEOUT).settle))

/-! ### Routers -/

/-- A cycle of credit return (R72, R73, R74, R282), whatever bits of its 16 wires the way inverts: the wires carry for each VC as many
credits as are on their way back, at most one, and in Configuration S on QB and PB two; the sender of the link gets those that arrive, on
QB and PB on every VC, on a narrow plane on its one wire, and from a sync unit on one wire for each of the five lanes. Its counter never
rises above the buffer size, and an excess sets CRED_OVF. A CR value of 3 counts as three credits (log 18), and the lanes of a sync unit
answer as VCs 0 to 4 (log 38): the model's choices. A parity error on CRP gives nothing back, and marks the output as failed and
sets CRP (R107). -/
def Obligations.CreditsReturn : Prop :=
  ∀ (s : State) (n pl port : Nat) (upset : BitVec 16), n < s.build.nodes → s.nodeOn n = true → State.portOf pl port = true →
    let link := outKey n pl port
    let k := fun vc => link * 8 + vc
    let x := Nat.xor (s.crValue link) upset.toNat
    let got := fun vc => if pl ≤ 1 then bitsOf x (2 * vc) 2 else if port = 5 then (if vc < 5 then bitsOf x (2 * vc) 1 else 0)
      else if vc = 0 then x % 2 else 0
    (∀ vc, vc < 8 → bitsOf (s.crValue link) (2 * vc) 2 = min (nget s.crw 0 (k vc)) (if s.build.isS = true ∧ pl ≤ 1 then 2 else 1)) ∧
    (∃ t, exec (.creditReceive n pl port upset false) s = .next t ∧
      (∀ vc, vc < 8 → nget t.owed 0 (k vc) = nget s.owed 0 (k vc) - got vc ∧
        nget t.crw 0 (k vc) = nget s.crw 0 (k vc) - bitsOf (s.crValue link) (2 * vc) 2) ∧
      (∀ q, q / 8 ≠ link → nget t.owed 0 q = nget s.owed 0 q ∧ nget t.crw 0 q = nget s.crw 0 q) ∧
      ((∃ vc, vc < 8 ∧ nget s.owed 0 (k vc) < got vc) → t.flag (nodeBase n) F.RTR_ERR_CRED_OVF = true) ∧
      ((∀ vc, vc < 8 → got vc ≤ nget s.owed 0 (k vc)) → t.regs = s.regs ∧ t.reports = s.reports) ∧
      { t with owed := s.owed, crw := s.crw, regs := s.regs, reports := s.reports } = s) ∧
    (∃ t, exec (.creditReceive n pl port upset true) s = .next t ∧ t.owed = s.owed ∧ t.flag (nodeBase n) F.RTR_ERR_CRP = true ∧
      (port < 5 ∨ (s.build.unitAt n).isSome = true → t.failed true n pl port = true) ∧
      { t with crw := s.crw, regs := s.regs, reports := s.reports, injSt := s.injSt } = s)

/-- What a router does with a flit and with a packet (R61, R96, R97, R101, R106, R282, R402): a flit on a link into it is taken off,
decoded with the bits that the way inverted, and received; one with a sideband parity error fails the input, and a failed input discards
what comes; a reserved flit is left to its own row; one that comes to an isolated domain is discarded; the packet that owns an output
goes on, and each VC with a head that waits for it counts a STALL (R422); where nothing owns an output that is OPEN, the only packet that asks for it and has the credits is granted it; and the five
lanes into a sync unit each send the next packet of their own input. -/
def Obligations.RouterRows : Prop :=
  ∀ (s : State) (n pl port : Nat), n < s.build.nodes → State.portOf pl port = true →
    (∀ (f : Flit) (s1 : State) (upset : BitVec 544), s.nodeOn n = true → s.takeWire (feed s.build n pl port) = some (f, s1) →
      (f.lt = false → f.valid = true → s.failed false n pl port = false →
        let k := feed s.build n pl port
        let u := if pl ≤ 1 then s1.decodedFlit n pl port k f (decodeWide (Nat.xor (encodeWide f.data f.bad) upset.toNat))
            (bitsOf (Nat.xor (encodeWide f.data f.bad) upset.toNat) 0 512)
          else s1.decodedFlit n pl port k f (decodeNarrow (Nat.xor (encodeNarrow f.data f.bad) (upset.toNat % 2 ^ 72)))
            (bitsOf (Nat.xor (encodeNarrow f.data f.bad) (upset.toNat % 2 ^ 72)) 0 64)
        let v := if pl = pSN then (upFrom 0 5).foldl (fun s i => State.laneRun n i false 64 s) u else u
        exec (.flitReceive n pl port upset false) s = .next (s.within ((upFrom 0 5).foldl (fun s o => match outDest s.build n pl o with
          | .ep _ => s.pump (outKey n pl o) 64
          | _ => s) v))) ∧
      (f.lt = true → exec (.flitReceive n pl port upset false) s = .next s) ∧
      (f.lt = false → f.valid = false ∨ s.failed false n pl port = true →
        exec (.flitReceive n pl port upset false) s = .next (s.within (s1.failedFlit (feed s.build n pl port) f))) ∧
      exec (.flitReceive n pl port upset true) s = .next (s.within (s.failInput n pl port)) ∧
      (port < 5 ∨ (s.build.unitAt n).isSome = true → (s.failInput n pl port).failed false n pl port = true) ∧
      (s.failInput n pl port).flag (nodeBase n) F.RTR_ERR_SBP = true) ∧
    (∀ (f : Flit) (s1 : State) (upset : BitVec 544) (sbp : Bool), s.nodeOn n = false →
      s.takeWire (feed s.build n pl port) = some (f, s1) →
      exec (.flitReceive n pl port upset sbp) s = .next (s.within (if f.valid then s1.xdrop (blockEp n) 1 else s1))) ∧
    (∀ pr, s.nodeOn n = true → pl ≠ pSN ∨ port < 5 → mapGet s.own (outKey n pl port) = some pr →
      exec (.packetLaunch n pl port) s = .next (s.within ((s.stallOwned (outKey n pl port)).advanceOwned (outKey n pl port)))) ∧
    (∀ pr vc, mapGet s.own (outKey n pl port) = some pr → port < 5 → vc < State.vcsOf pl →
      let a := if pl ≤ 1 then nodeBase n + 0xA00 + 8 * (8 * (5 * pl + port) + vc) else nodeBase n + 0xC80 + 8 * (5 * pl + port - 10)
      ((s.requests n pl port).any (fun c => c.vc == vc) = true →
        ((s.stallOwned (outKey n pl port)).tlmOf a) = (s.tlmBump a).tlmOf a) ∧
      ((s.requests n pl port).any (fun c => c.vc == vc) = false → (s.stallOwned (outKey n pl port)).tlmOf a = s.tlmOf a)) ∧
    (∀ c, s.nodeOn n = true → pl ≠ pSN ∨ port < 5 → mapGet s.own (outKey n pl port) = none → s.outState n pl port = 0 →
      s.mcastBlocked n port = false → (pl = pPB → mapGet s.refl n = none) → (pl = pQB → s.latheAllows n port c.flits = true) →
      s.requests n pl port = [c] → c.flits ≤ s.credits (outKey n pl port) pl c.vc →
      exec (.packetLaunch n pl port) s = .next (s.within (match outDest s.build n pl port with
        | .ep _ => (s.grant n pl port c).pump (outKey n pl port) 64
        | _ => s.grant n pl port c))) ∧
    (s.nodeOn n = true → exec (.packetLaunch n pSN 5) s =
      .next (s.within ((upFrom 0 5).foldl (fun s i => State.laneRun n i true 64 s) s)))

/-- R109, R110, R111: a whole head packet that is routed into an output which is FENCED, OFF or DISABLED goes to the reflector, where a
request is answered by a NACK with status DOMAIN_OFF for OFF and ROUTE otherwise, with the request's job, context, channel, sequence
number and tag. A NACK at the head of the queue whose own output is not OPEN does not stay: it is discarded and counted. A queue of four
NACKs makes the packet wait; anything but a request is discarded and counted. -/
def Obligations.ClosedOutputsReflect : Prop :=
  ∀ (s : State) (n pl port vc o st : Nat) (f : BFlit) (r : List BFlit), n < s.build.nodes → s.nodeOn n = true →
    State.portOf pl port = true → vc < 8 → s.headFlits (inKey n pl port vc) = f :: r → s.closedBranch n pl f = some (o, st) →
    (f :: r).any (fun g => g.flit.tl) = true →
    let pk := State.flitsPkt pl (f :: r)
    let q := (mapGet s.refl n).getD []
    s.mcastBlocked n o = false ∨ branching pl pk.hdr = false →
    (State.reflectable pl pk.hdr = true → q.length < 4 →
      ∃ t nk, exec (.reflect n pl port vc) s = .next t ∧
        (mapGet t.refl n).getD [] = (q ++ [nk]).dropWhile (fun x => s.outState n pPB (unicastOut s.build n pPB x.hdr) != 0) ∧
        t.get (nodeBase n) F.RTR_DISC_CNT_COUNT = min (s.get (nodeBase n) F.RTR_DISC_CNT_COUNT + (q.length + 1 -
          ((q ++ [nk]).dropWhile (fun x => s.outState n pPB (unicastOut s.build n pPB x.hdr) != 0)).length)) (2 ^ 32 - 1) ∧
        nk.hdr.ptype = tNACK ∧ nk.pay = [] ∧
        nk.hdr.opc = (if st = 3 then stDOMAIN_OFF else stROUTE) ∧ nk.hdr.tag = pk.hdr.tag ∧ nk.hdr.job = pk.hdr.job ∧
        nk.hdr.ctx = pk.hdr.ctx ∧ nk.hdr.chan = pk.hdr.chan ∧ nk.hdr.seq = pk.hdr.seq ∧ nk.hdr.addr = pk.hdr.addr ∧
        nk.hdr.aux = pk.hdr.aux ∧ nk.hdr.scol = s.build.col n ∧ nk.hdr.srow = s.build.row n ∧
        t.get (nodeBase n) F.RTR_REFL_CNT_COUNT = min (s.get (nodeBase n) F.RTR_REFL_CNT_COUNT + 1) (2 ^ 32 - 1) ∧
        t.arrivals = s.arrivals ∧ t.ram = s.ram) ∧
    (State.reflectable pl pk.hdr = true → 4 ≤ q.length → exec (.reflect n pl port vc) s = .next s) ∧
    (State.reflectable pl pk.hdr = false →
      ∃ t, exec (.reflect n pl port vc) s = .next t ∧ t.refl = s.refl ∧
        t.get (nodeBase n) F.RTR_DISC_CNT_COUNT = min (s.get (nodeBase n) F.RTR_DISC_CNT_COUNT + 1) (2 ^ 32 - 1) ∧
        t.arrivals = s.arrivals ∧ t.ram = s.ram)

/-- The Burl combiner (R228, R229, R230, R231): an eligible whole head packet without a partner takes a free entry, and where all 32
are taken it is forwarded and BRL_PASS_CNT rises; one that partners a held entry merges into it, the weights adding up, and is absorbed
unless the weight would pass 4,095, which counts as well, or the escalation count 255; one with a poisoned flit is never combined (R209) nor counted, and one kept apart
by its escalation count is not counted either (the model's choice, log 38); a hold that has run out releases its entry. -/
def Obligations.BurlCombines : Prop :=
  (∀ (s : State) (n port vc : Nat), n < s.build.nodes → s.nodeOn n = true → port < 5 → vc < 8 →
    let fs := s.headFlits (inKey n pQB port vc)
    let pk := State.flitsPkt pQB fs
    fs.any (fun g => g.flit.tl) = true → s.burlEligible n pQB pk = true → fs.any (fun g => g.pass) = false →
    (pk.bad ≠ [] → ∃ t, exec (.burlAbsorb n port vc) s = .next t ∧ t.burl = s.burl ∧ t.regs = s.regs) ∧
    (pk.bad = [] → s.burl.any (fun e => e.node == n && !e.released && State.partners e.pkt pk) = false →
      ((s.burl.filter (fun e => e.node == n)).length < 32 →
        ∃ t id, exec (.burlAbsorb n port vc) s = .next t ∧ t.burl = s.burl ++ [⟨id, n, pk, 1, s.tmo, s.fanInMet n 1⟩] ∧
          (∀ e ∈ s.burl, e.id ≠ id) ∧ s.bufOf (inKey n pQB port vc) = fs ++ t.bufOf (inKey n pQB port vc) ∧ t.regs = s.regs) ∧
      (32 ≤ (s.burl.filter (fun e => e.node == n)).length →
        ∃ t, exec (.burlAbsorb n port vc) s = .next t ∧ t.burl = s.burl ∧
          t.get (nodeBase n) F.BRL_PASS_CNT_COUNT = min (s.get (nodeBase n) F.BRL_PASS_CNT_COUNT + 1) (2 ^ 32 - 1))) ∧
    (∀ e, pk.bad = [] → s.burl.find? (fun e => e.node == n && !e.released && State.partners e.pkt pk) = some e →
      (State.wtOf e.pkt.hdr + State.wtOf pk.hdr ≤ 4095 → State.esccOf e.pkt.hdr + State.esccOf pk.hdr ≤ 255 →
        ∃ t e', exec (.burlAbsorb n port vc) s = .next t ∧ t.burl = updFirst (fun x => x.id == e.id) (fun _ => e') s.burl ∧
          State.wtOf e'.pkt.hdr = State.wtOf e.pkt.hdr + State.wtOf pk.hdr ∧ State.esccOf e'.pkt.hdr = State.esccOf e.pkt.hdr + State.esccOf pk.hdr ∧
          e'.merged = e.merged + 1 ∧ e'.pkt.pay = (State.mergePay (pk.hdr.opc % 16) e.pkt.pay pk.pay).1 ∧
          (s.fanInMet n (e.merged + 1) = true → e'.released = true)) ∧
      (4095 < State.wtOf e.pkt.hdr + State.wtOf pk.hdr →
        ∃ t, exec (.burlAbsorb n port vc) s = .next t ∧ t.burl = s.burl ∧
          t.get (nodeBase n) F.BRL_PASS_CNT_COUNT = min (s.get (nodeBase n) F.BRL_PASS_CNT_COUNT + 1) (2 ^ 32 - 1)) ∧
      (State.wtOf e.pkt.hdr + State.wtOf pk.hdr ≤ 4095 → 255 < State.esccOf e.pkt.hdr + State.esccOf pk.hdr →
        ∃ t, exec (.burlAbsorb n port vc) s = .next t ∧ t.burl = s.burl ∧ t.regs = s.regs))) ∧
  (∀ (s : State) (n k : Nat) (e : BurlEnt), n < s.build.nodes → s.nodeOn n = true →
    (s.burl.filter (fun e => e.node == n && !e.released))[k]? = some e →
    ∃ t, exec (.burlHoldExpiry n k) s = .next t ∧
      t.burl = updFirst (fun x => x.id == e.id) (fun x => { x with released := true }) s.burl ∧
      t.tmo = max s.tmo (if s.get (nodeBase n) F.BRL_CTL_HOLD = 0 then e.born else e.born + s.get (nodeBase n) F.BRL_CTL_HOLD + 1) ∧
      { clocksOf t s with burl := s.burl } = s)

/-- A reserved flit at a router (R106, R157, R159, R173): it is taken off its link and copied to every output whose open window of the
plan names this input at its launch cycle, also in the first 512 cycles of a suspension; where there is none, where the plane is not
active, and later in a suspension, it is discarded and counted; a failed input discards it, counted in LTH_DISC_CNT alone
(the model's choice, log 38). -/
def Obligations.LatheFlitsFollowThePlan : Prop :=
  ∀ (s : State) (n port : Nat) (f : Flit) (r : List Flit) (d : Nat), n < s.build.nodes → s.nodeOn n = true → port < 5 →
    (mapGet s.wires (feed s.build n pQB port)).getD [] = f :: r → f.lt = true →
    decodeWide (encodeWide f.data f.bad) = .clean d →
    let k := feed s.build n pQB port
    let l := s.lathHop n port f.lat
    let v := { s with wires := mapSet s.wires [] k r }
    let u := v.noteRun (2 * k) l (l + 1)
    let outs := (upFrom 0 5).filter (fun o => (u.windows n o).any (fun w => w.2 == port && w.1 ≤ l && l < w.1 + 128))
    (s.failed false n pQB port = false → s.lathe.active = true → s.lathe.past = false →
      s.latheHeld = false ∨ s.cyc ≤ s.lathe.susp + 512 → outs ≠ [] →
      exec (.latheFlitSwitch n port 0) s = .next (s.within (outs.foldl (State.lathCopy n port { f with data := d, bad := false, lat := l }) u))) ∧
    (s.failed false n pQB port = false →
      s.lathe.active = false ∨ s.lathe.past = true ∨ outs = [] ∨ (s.latheHeld = true ∧ s.lathe.susp + 512 < s.cyc) →
      exec (.latheFlitSwitch n port 0) s = .next (s.within (u.lateDrop n port stINTERNAL)) ∧
      (u.lateDrop n port stINTERNAL).get (nodeBase n) F.LTH_NDISC_COUNT = min (s.get (nodeBase n) F.LTH_NDISC_COUNT + 1) (2 ^ 32 - 1)) ∧
    (∀ upset : BitVec 544, s.failed false n pQB port = true →
      exec (.latheFlitSwitch n port upset) s = .next (s.within (v.bump 0 F.LTH_DISC_CNT_COUNT 1)))

/-! ### Network interfaces -/

/-- The throttle levels and the governor (R148, R149, R150, R151). At a notch edge the level of a class rises by one while its backlog
exceeds HIGH x 8 flits, up to 6; else it falls by one when the run of RECOVER edges at or below LOW x 8 is complete; else it stays; the
glint class has level 0 unless it is throttled. Every word but NI_THR_STAT of that NI stays, and so does all else but the buckets. At the
end of a window the governor shows its estimate, and with EN its budget follows from the estimate and the ceiling as CEIL reads at that
end (log 19); the next window begins with the WIN that the register then holds (R152). -/
def Obligations.ThrottleAndGovernor : Prop :=
  (∀ (s : State) (ep cls : Nat), niEp s.build ep = true → s.epOn ep = true → s.stopped = false → cls < 4 →
    let b := s.backlog ep cls
    let l := s.thrLevel ep cls
    ∃ u : State, exec (.throttleUpdate ep) s = .next (s.within u.settle) ∧
      u.thrLevel ep cls =
        (if cls = 3 ∧ s.flag (niBase ep) F.NI_THR_GLINT_EN = false then 0
         else if s.get (niBase ep) F.NI_THR_HIGH * 8 < b then (if l < 6 then l + 1 else l)
         else if b ≤ s.get (niBase ep) F.NI_THR_LOW * 8 ∧ 0 < l ∧ s.get (niBase ep) F.NI_THR_RECOVER ≤ (s.bucket ep cls).run + 1 then l - 1
         else l) ∧
      (∀ a, a ≠ niBase ep + 0x1010 → u.word a = s.word a) ∧ { u with regs := s.regs, buckets := s.buckets } = s) ∧
  (∀ s : State, s.stopped = false →
    let p := s.govEstimate s.gov.wide s.gov.narrow s.gov.win
    let b := if s.flag 0 F.GOV_CTL_EN then State.govBudget (s.get 0 F.GOV_STAT_B) p (s.get 0 F.GOV_CEIL_CEIL) else 64
    ∃ t, exec .govWindowEnd s = .next t ∧ t.get 0 F.GOV_STAT_PEST = min p 65535 ∧ t.get 0 F.GOV_STAT_B = b ∧
      t.gov.wide = 0 ∧ t.gov.narrow = 0 ∧ t.gov.win = s.get 0 F.GOV_CTL_WIN ∧ t.gov.at' = s.gov.at' + s.gov.win ∧
      t.tmo = max s.tmo (s.gov.at' + s.gov.win) ∧
      (s.flag 0 F.GOV_CTL_EN = true → 16 * s.get 0 F.GOV_CEIL_CEIL < p → s.get 0 F.GOV_STAT_B = 1 → t.flag 0 F.GOV_EVT_OVER = true) ∧
      (s.get 0 F.GOV_STAT_B = 64 → b < 64 → t.flag 0 F.GOV_EVT_LIMITING = true) ∧
      { clocksOf t s with gov := s.gov, regs := s.regs, reports := s.reports } = s)

/-- The sending side of an NI (R145, R146, R147, R148, R166, R167, R226, R329). The next segment of a packet that has begun to launch goes on when its bucket
holds the flits, or else the first formed packet that may launch does; a reply
that names an outstanding packet is taken as its answer, and any other is late and counted; a NACK on a reduce VC is counted; a packet
without an answer after TMO is retried or fails with TIMEOUT; a retry goes out when its backoff ends; the bytes of a coming launch are
read ahead, two launches at a time at a node NI and eight at a port NI; at its window a launch whose bytes are staged sends its packets as
reserved flits, one without them, or in a held plane, or of a context that is off, is void and counted, and one whose stream is not valid
or complete is only over. The model's choices (log 38): the segments of a packet launch one by one as the bucket holds them, a launch that
is void drops what was staged for later launches of its stream, which is staged again from SENT, and a context that is off gives the plan
DENIED. -/
def Obligations.NiSendingRows : Prop :=
  ∀ (s s1 : State) (ep : Nat) (a : Arrival), s.build.epBuilt ep = true → s.epOn ep = true → s.stopped = false →
    (∀ q pk, s.reqs.findSome? (fun q => if q.ep == ep && 0 < q.left then (s.nextSeg q).map (fun pk => (q, pk)) else none) = some (q, pk) →
      exec (.niLaunch ep) s = .next (s.within (s.launchSeg q pk).settle)) ∧
    (∀ q, (∀ x ∈ s.reqs, x.ep = ep → x.left = 0) → s.reqs.find? (fun q => q.ep == ep && s.mayLaunch q) = some q →
      exec (.niLaunch ep) s = .next (s.within (s.launch q).settle)) ∧
    (∀ (c : Instr) (ty : Nat), (c = .rdata ep ∧ ty = tRDATA) ∨ (c = .wack ep ∧ ty = tWACK ∧ ep < 0xF00) →
      s.takeArrival ep (fun x => s.replyHere ep ty x && true) = some (a, s1) →
      (∀ q, s1.matchReply ep a.pkt.hdr.tag = some q → exec c s = .next (s.within (s1.takeReply q a.pkt).settle)) ∧
      (s1.matchReply ep a.pkt.hdr.tag = none → ep ≠ 0xF7E →
        exec c s = .next (s.within ((s1.bump (niBase ep) F.NI_LATE_CNT_COUNT 1).niErr ep F.NI_ERR_LATE stTIMEOUT 0).settle))) ∧
    (s.takeArrival ep (fun x => s.replyHere ep tNACK x && classOf x.pkt.hdr.vcn != 1) = some (a, s1) → ep ≠ 0xF7E →
      (classOf a.pkt.hdr.vcn = 2 → exec (.nack ep) s = .next (s.within (s1.reduceNack ep a.pkt).settle)) ∧
      (∀ q, classOf a.pkt.hdr.vcn ≠ 2 → s1.matchReply ep a.pkt.hdr.tag = some q →
        exec (.nack ep) s = .next (s.within (s1.retryOrFail q false (a.pkt.hdr.opc % 16)).settle))) ∧
    (s.takeArrival ep (s.replyHere ep tCREDIT) = some (a, s1) →
      (∀ w, bitAt a.pkt.hdr.addr 33 = true → s1.sqOf ep a.pkt.hdr.ctx a.pkt.hdr.chan = some w →
        exec (.credit ep) s = .next (s.within (s1.takeCreditHead ep w a.pkt).settle)) ∧
      (∀ q, bitAt a.pkt.hdr.addr 33 = false → s1.sqOf ep a.pkt.hdr.ctx a.pkt.hdr.chan = none →
        s1.matchReply ep a.pkt.hdr.tag = some q → exec (.credit ep) s = .next (s.within (s1.takeReply q a.pkt).settle))) ∧
    (∀ i q at', s.outAt ep i = some q → q.stage = .flying at' →
      exec (.niRequestTimeout ep i) s = .next (s.within ((s.passTo (at' + s.ctxTmo ep q.ctx + 1)).retryOrFail q true stTIMEOUT).settle)) ∧
    (∀ i q at', s.outAt ep i = some q → q.stage = .backoff at' →
      exec (.niRetry ep i) s = .next (s.within ((s.passTo (at' + 64 * 2 ^ (q.tries - 1) + 1)).resend q).settle)) ∧
    (∀ k b i start n, k < 96 → latheEp s.build ep = true → s.stageBank ep k = some b → s.stageable ep k b = some (i, start, n) →
      (s.lathe.staged.filter (fun x => x.ep == ep)).length < (if ep < 0xF00 then 2 else 8) →
      i = (s.launchEnt ep b k).2.2.2.1 ∧ start = s.sentAhead ep b i + s.stagedBytes ep b i ∧
      n = (s.launchPlan ep b k start).foldl (· + ·) 0 ∧ s.streamV ep b i = true ∧ 0 < n ∧
      let m := niMem s.build ep (s.streamFld ep b i 48 48 + start)
      exec (.latheStage ep k) s = .next (s.within (State.readMem { s with lathe := { s.lathe with
        staged := s.lathe.staged ++ [⟨ep, k, b, i, start, n, none⟩] } } m.1 m.2 n (.stage ep k b)).settle)) ∧
    (∀ k, k < 96 → latheEp s.build ep = true → s.lathe.active = true → s.lathe.past = false →
      let b := s.get 0 F.LTH_STAT_BANK
      let e := s.launchEnt ep b k
      let i := e.2.2.2.1
      let sent := s.sentAhead ep b i
      let mine := fun (x : Staged) => x.ep == ep && x.k == k && x.bank == b
      let ended := s.streamV ep b i = false ∨ s.streamLen ep b i ≤ sent
      e.2.2.1 = true → s.launchNow ep b k = true → s.lathe.fired.contains (128 * ep + k + 2 ^ 20 * (s.lathNotch / 2048)) = false →
      let u := { s with lathe := { s.lathe with fired := s.lathe.fired ++ [128 * ep + k + 2 ^ 20 * (s.lathNotch / 2048)] } }
      (∀ x bytes bad, s.latheHeld = false → ¬ ended → s.ctxOn ep (s.streamFld ep b i 1 4) = true →
        s.lathe.staged.find? (fun x => mine x && x.start == sent) = some x → x.got = some (bytes, bad) →
        exec (.latheLaunch ep k) s = .next (s.within (State.settle (State.launchPkts { u with lathe := { u.lathe with
          staged := delFirst mine s.lathe.staged } } ep b i sent (128 * e.1 + e.2.1) bytes bad (s.launchPlan ep b k sent))))) ∧
      (¬ ended → s.latheHeld = true ∨ (s.ctxOn ep (s.streamFld ep b i 1 4) = true ∧
          (s.lathe.staged.find? fun x => mine x && x.start == sent) = none) → Quiet s →
        ∃ t, exec (.latheLaunch ep k) s = .next t ∧
          t.lathe = { u.lathe with staged := s.lathe.staged.filter fun x => !(x.ep == ep && x.bank == b && x.stream == i) } ∧
          t.get 0 F.LTH_VOID_CNT_COUNT = min (s.get 0 F.LTH_VOID_CNT_COUNT + 1) (2 ^ 32 - 1) ∧
          (∀ a, a ≠ 0x410 → t.word a = s.word a) ∧ { t with lathe := s.lathe, regs := s.regs } = s) ∧
      (¬ ended → s.latheHeld = false → s.ctxOn ep (s.streamFld ep b i 1 4) = false →
        exec (.latheLaunch ep k) s = .next (s.within (((u.voidLaunch ep b i).planSt stDENIED).settle))) ∧
      (ended → Quiet s → ∃ t, exec (.latheLaunch ep k) s = .next t ∧ t.lathe = u.lathe ∧ { t with lathe := s.lathe } = s))

/-- The receiving side of an NI (R123, R128, R135, R136, R143, R144, R168, R469). A request for a core that is not good is answered by a
NACK of status DENIED, with NOTGOOD set, one of another epoch by EPOCH, both before its receive slot is looked at (the model's order, log
17); one without an ordered slot is performed, and one at an ordered slot is taken in the slot's order, or answered EPOCH where the slot is broken. A hole that runs out breaks its slot. BLK_FREE makes an allocated buffer free again; enabling a pool makes all
of its buffers free. -/
def Obligations.NiReceivingRows : Prop :=
  (∀ (s s1 : State) (ep ty : Nat) (c : Instr) (a : Arrival), acts c s = true →
    (c = .write ep ∧ ty = tWRITE) ∨ (c = .read ep ∧ ty = tREAD) ∨ (c = .send ep ∧ ty = tSEND) →
    s.takeArrival ep (s.unicastArrival ep ty) = some (a, s1) → ty ≠ tREAD ∨ a.pkt.hdr.aux % 4096 ≤ classMax (classOf a.pkt.hdr.vcn) →
    (s1.goodFor ep a.pkt = false →
      exec c s = .next (s.within ((s1.niErr ep F.NI_ERR_NOTGOOD stDENIED 0).nackReq ep a.pkt stDENIED).settle)) ∧
    (s1.goodFor ep a.pkt = true → s1.epochFor ep a.pkt = false →
      exec c s = .next (s.within ((s1.niErr ep F.NI_ERR_EPOCH_REJ stEPOCH 0).nackReq ep a.pkt stEPOCH).settle)) ∧
    (s1.goodFor ep a.pkt = true → s1.epochFor ep a.pkt = true →
      (s1.rslot ep (s1.srcOf a.pkt) a.pkt.hdr.ctx a.pkt.hdr.chan = none →
        exec c s = .next (s.within (s1.performReq ep a.pkt).settle)) ∧
      (∀ x, s1.rslot ep (s1.srcOf a.pkt) a.pkt.hdr.ctx a.pkt.hdr.chan = some x →
        exec c s = .next (s.within (s1.slotReq x a.pkt).settle) ∧
        (x.broken = true → exec c s = .next (s.within (s1.nackReq x.ep a.pkt stEPOCH).settle))))) ∧
  (∀ (s : State) (ep src ctx chan : Nat) (x : RecvSlot) (h : Held) (r : List Held), acts (.rslotHoleTimeout ep src ctx chan) s = true →
    s.rslot ep src ctx chan = some x → x.held = h :: r → x.broken = false →
    (x.held.any fun y => y.seq == x.next && y.seg == x.seg) = false →
    exec (.rslotHoleTimeout ep src ctx chan) s = .next (s.within (((s.passTo ((r.foldl (fun m y => min m y.born) h.born) +
      s.get (niBase ep) F.NI_RO_CTL_HOLE + 1)).niErr ep F.NI_ERR_HOLE stTIMEOUT 0).breakRslot ep src ctx chan stTIMEOUT).settle)) ∧
  (∀ (s : State) (ep n i : Nat) (d : Word), nodeEp s.build ep = true → s.build.isS = false → s.stopped = false → Quiet s → n < 4 →
    i < 4096 → s.accCheck (niBase ep + 0x1220) = stOK → s.poolOn ep n = true → i < s.poolCount ep n → d.toNat = n * 2 ^ 14 + i →
    (s.blankUsed ep n).contains i = true →
    ∃ t, exec (.blkFree ep d) s = .next t ∧ t.blankUsed ep n = (s.blankUsed ep n).filter (fun j => j != i) ∧
      { t with blank := s.blank } = s) ∧
  (∀ (s : State) (ep n k : Nat) (d : Word), nodeEp s.build ep = true → s.build.isS = false → s.stopped = false → Quiet s → n < 4 →
    k ≤ 4096 → s.accCheck (niBase ep + 0x1204 + 8 * n) = stOK → s.poolOn ep n = false → d.toNat = k + 2 ^ 15 →
    ∃ t, exec (.blkPoolEnable ep n d) s = .next t ∧ t.poolOn ep n = true ∧ t.poolCount ep n = k ∧ t.blankUsed ep n = [] ∧
      { t with blank := s.blank, regs := s.regs } = s) ∧
  (∀ (s s1 : State) (ep : Nat) (a : Arrival), acts (.latheDeposit ep) s = true → s.takeArrival ep (fun a => a.lt) = some (a, s1) →
    exec (.latheDeposit ep) s = .next (s.within (s1.lathDeposit ep a.pkt).settle)) ∧
  (∀ (s s1 : State) (a : Arrival), s.stopped = false → s.takeArrival 0xF7E (fun a => !s.stationReply a) = some (a, s1) →
    isRequest a.pkt.hdr.ptype = true → a.pkt.hdr.ptype ≠ tREAD →
    exec .headstockStationReceive s = .next (s.within (s1.nackReq 0xF7E a.pkt stROUTE).settle))

/-- Multicast and the accumulate windows at an NI (R184, R190, R191, R192, R195, R196, R233). A packet at a target lands and, where it
asks for a relay, is queued for it; the relay goes out when its bucket has the flits, its injection link is free and VC 3 has room; a
per-target NACK that comes after its hold has ended, or that no hold answers and whose status is not EPOCH, sets HOLD_LATE, and one of a
retryable status schedules a retry; the retry reads its hold buffer again; a hold without a scheduled retry ends; an ACC packet that
matches no window is discarded with NOWIN. The model's choices: a per-target NACK of status EPOCH that no hold answers reports EPOCH and
sets no HOLD_LATE (log 14), and a relay leaves in its row once the bucket, the link and VC 3 have room (log 38). -/
def Obligations.MulticastAndReduceRows : Prop :=
  ∀ (s s1 : State) (ep : Nat) (a : Arrival), niEp s.build ep = true → s.epOn ep = true → s.stopped = false →
    (s.takeArrival ep (s.mcArrival ep) = some (a, s1) →
      (State.relays a.pkt = false → exec (.mcTargetReceive ep) s = .next (s.within (s1.mcLand ep a.pkt).settle)) ∧
      (State.relays a.pkt = true → a.pkt.ext.xv = 0 →
        exec (.mcTargetReceive ep) s = .next (s.within (State.settle { s1.mcLand ep a.pkt with
          relayq := (s1.mcLand ep a.pkt).relayq ++ [(ep, (s1.mcLand ep a.pkt).relayed ep a.pkt)] })))) ∧
    (∀ r, s.relayq.find? (fun r => r.1 == ep) = some r →
      let n := 1 + ceilDiv r.2.hdr.len 64
      let link := s.epInject ep pQB
      let q := (mapGet s.sendq link).getD []
      (s.bucket ep 1).spent + n * 4096 ≤ 33 * 4096 → nget s.injSt 0 link = 0 → mapGet s.own link = none →
      (q.any fun pk => pk.hdr.vcn == 3) = false → n ≤ s.credits link pQB 3 → s.latheAllowsNi ep link n = true →
      exec (.mcRelay ep) s = .next (s.within (State.settle (State.startInjection (State.setBucket { s with
        relayq := delFirst (fun x => x.1 == ep) s.relayq
        sendq := mapSet s.sendq [] link ({ r.2 with hdr := { r.2.hdr with ts := s.ts } } :: q) } ep 1
          { s.bucket ep 1 with spent := (s.bucket ep 1).spent + n * 4096 }) link)))) ∧
    (s.takeArrival ep (fun x => s.replyHere ep tNACK x && classOf x.pkt.hdr.vcn == 1) = some (a, s1) →
      let st := a.pkt.hdr.opc % 16
      let target := s1.build.node a.pkt.hdr.scol a.pkt.hdr.srow
      (s1.holdOf ep a.pkt.hdr = none → st ≠ stEPOCH → exec (.perTargetNack ep) s = .next (s.within
        ((s1.errBit (niBase ep) F.NI_MC_ERR_HOLD_LATE 5 (srcEp ep) stTIMEOUT 0).postFail ep stTIMEOUT target 0 a.pkt.hdr).settle)) ∧
      (s1.holdOf ep a.pkt.hdr = none → st = stEPOCH → exec (.perTargetNack ep) s = .next (s.within
        (s1.postFail ep stEPOCH target 0 a.pkt.hdr).settle)) ∧
      (∀ x, s1.holdOf ep a.pkt.hdr = some x → x.past = true → exec (.perTargetNack ep) s = .next (s.within ((s1.errBit (niBase ep)
        F.NI_MC_ERR_HOLD_LATE 5 (srcEp ep) stTIMEOUT 0).postFail ep stTIMEOUT target (nget x.made 0 target) a.pkt.hdr).settle)) ∧
      (∀ x, s1.holdOf ep a.pkt.hdr = some x → x.past = false → st = stNOPOOL ∨ st = stPOISON →
        nget x.made 0 target < s1.get (niBase ep) F.NI_MC_CTL_RETRY →
        exec (.perTargetNack ep) s = .next (s.within (s1.updHold x.id (fun y => { y with
          due := y.due ++ [(target, nget x.made 0 target + 1, s1.tmo)], made := mapPut y.made target (nget x.made 0 target + 1) })).settle))) ∧
    (∀ k x d, ((s.holds.filter (fun x => x.ep == ep)).flatMap (fun x => x.due.map (fun d => (x, d))))[k]? = some (x, d) → d.2.1 ≠ 0 →
      let u := s.passTo (d.2.2 + 64 * 2 ^ (d.2.1 - 1) + 1)
      let m := u.bufAt ep x.buf
      exec (.mcUnicastRetry ep k) s = .next (s.within ((u.updHold x.id (fun y => { y with
        due := updFirst (fun e => e == d) (fun e => (e.1, 0, e.2.2)) y.due })).readMem m.1 m.2 x.pkt.hdr.len (.mcRetry x.id d.1)).settle)) ∧
    (∀ k x, (s.holds.filter (fun x => x.ep == ep && !x.past))[k]? = some x → x.due = [] →
      let u := (s.passTo (x.launched.getD 0 + s.get (niBase ep) F.NI_MC_CTL_HOLD + 1)).freeBuf ep x.buf
      exec (.mcHoldExpiry ep k) s = .next (s.within (State.settle ((u.updHold x.id (fun y => { y with past := true })).checkOp' x.op)))) ∧
    (s.takeArrival ep (s.accArrival ep) = some (a, s1) → bitAt a.pkt.hdr.opc 4 = false →
      (∀ w, s1.matchAwin ep a.pkt.hdr = some w → exec (.reduceAcc ep) s = .next (s.within (s1.accWindow ep w a.pkt).settle)) ∧
      (s1.matchAwin ep a.pkt.hdr = none → ep < 0xF00 → exec (.reduceAcc ep) s = .next (s.within ((s1.bump (niBase ep) F.NI_RED_DISC_CNT_COUNT
        1).errBit (niBase ep) F.NI_RED_ERR_NOWIN 8 (srcEp ep) stBADCMD (a.pkt.hdr.tag % 4096)).settle)))

/-! ### The Bowl, the Claim Arbiter and collectives -/

/-- The Bowl and the Claim Arbiter (R239, R240, R241, R242, R244, R246, R248). CLAIM and COMMIT are handled by the state of their key; a
contribution whose key has no entry is discarded and counted with LATE, and one to an open slot that is accepted without completing it
adds its values to the slot's sums at its place, and its groups to the counters unless it is poisoned; a slot whose results are answered ends OK, counted; an incomplete slot falls back when
STMO has run out; an entry that is DONE or FALLBACK leaves after MARK notches; the only claim that waits, and does so on a free slot of a pool that has granted none in this cycle (R243), is
granted it; GO makes every shadow priority effective; a revocation from CFG has no effect and ends DENIED, one from the
maintenance port makes the slot fall back. -/
def Obligations.BowlAndClaimRows : Prop :=
  (∀ (s s1 : State) (p : Nat) (a : Arrival), s.build.isBowlPort p = true → s.portOn p = true → s.stopped = false →
    (∀ commit, s.takeArrival (0xF00 + p) (s.bowlArrival p commit) = some (a, s1) →
      exec (if commit then .commit p else .claim p) s = .next (s.within (s1.bowlCtl p a.pkt).settle)) ∧
    (s.takeArrival (0xF00 + p) (fun a => a.pkt.hdr.ptype == tREDUCE && bitAt a.pkt.hdr.opc 4 && !a.lt && !s.leaving a.pkt) = some (a, s1) →
      let h := a.pkt.hdr
      let e? := s1.bentOf h.job (h.tag % 4096) (h.tag / 4096) (redChunk h)
      (e? = none → exec (.reduceBowl p) s = .next (s.within ((s1.bump 0 F.BWL_DISC_CNT_COUNT 1).bwlErr F.BWL_ERR_LATE (openSt 5)
        (h.tag % 4096)).settle)) ∧
      (∀ e x tl, e? = some e → e.state = 1 → s1.slotOf e.id = some x → x.sent = false → h.opc % 16 = e.fmt →
        let v := redValues a.pkt
        let g0 := redBoff h / groupBytes e.fmt
        let n := v.1.length / 64
        g0 + n ≤ e.ng → x.tally.take e.w h (a.pkt.poisoned || 0 < v.2.1) = some (tl, true) → tl.done = false →
        exec (.reduceBowl p) s = .next (s.within ((if a.pkt.poisoned then s1 else s1.kerfCount 0 v.2.2 v.2.1).updBslot x.slot (fun _ => { x with
          sums := x.sums.take (64 * g0) ++ List.zipWith f32Add ((x.sums.drop (64 * g0)).take (64 * n)) v.1 ++ x.sums.drop (64 * (g0 + n))
          tally := tl })).settle)))) ∧
  (∀ (s : State) (k : Nat), s.stopped = false →
    (∀ x e, s.bslots.find? (fun x => x.slot == k) = some x → x.sent = true → x.left = 0 → s.bents.find? (fun e => e.id == x.ent) = some e →
      exec (.bowlResultDone k) s = .next (s.within (((State.closeEnt { s with bslots := s.bslots.filter (fun y => y.slot != k) } e 2 stOK
        (if x.tally.poison then stPOISON else stOK)).bump 0 F.BWL_DONE_CNT_COUNT 1)).settle)) ∧
    (∀ x, s.bslots.find? (fun x => x.slot == k) = some x → x.sent = false →
      exec (.bowlSlotTimeout k) s = .next (s.within ((s.passTo (x.born + s.get 0 F.BWL_CTL_STMO + 1)).slotFall x).settle)) ∧
    (∀ e, Quiet s → s.bents[k]? = some e → 2 ≤ e.state →
      ∃ t, exec (.bowlEntryExpire k) s = .next t ∧ t.bents = s.bents.filter (fun x => x.id != e.id) ∧
        t.tmo = max s.tmo (e.since + s.get 0 F.BWL_CTL_MARK + 1) ∧ { clocksOf t s with bents := s.bents } = s) ∧
    (∀ e i, s.bents = [e] → e.state = 0 → k = 0 → s.clmFrozen = false → s.freeSlot (s.bowlBank e.port) = some i →
      (s.passTo e.due).grantedNow (s.bowlBank e.port) = false →
      exec (.claimAttempt k) s = .next (s.within ((s.passTo e.due).grantSlot e i).settle))) ∧
  (∀ (s : State) (d : Word), CfgFree s → Quiet s → s.accCheck 0x734 = stOK → s.accCheck 0x73C = stOK → s.stopped = false →
    (∃ t, exec (.clmCommit d) s = .next t ∧ t.clmEff = (if bitAt d.toNat 0 then [] else s.clmEff) ∧ t.out = s.out ++ [.cfgAck 0 stOK] ∧
      { hostOf t s with clmEff := s.clmEff } = s) ∧
    exec (.clmRevoke false d) s = .next (s.within ((((hostAsked s true 0x73C d.toNat).violation 6 0).recordAcc .cfg true 0x73C d.toNat stDENIED).accEnd .cfg 0
      stDENIED).settle) ∧
    (∀ x, s.get 0 F.KEY_LOCK_LOCK = 0 → bitAt d.toNat 11 = false → s.bslots.find? (fun x => x.slot == d.toNat % 2048) = some x →
      s.heldX .dbg = none → exec (.clmRevoke true d) s = .next (s.within ((State.slotFall { s with
          jtag := { s.jtag with ir := 0x3A, access := (true, 0x73C, d.toNat) } } x).dbgEnd 0 stOK).settle)))

/-- Collectives at an engine (R263, R264, R266, R268, R271). A READY or GDONE is taken; a stage that has been reached begins with the
places of its members; the next chunk of a reduce stage begins; a collective without progress for PTMO notches ends TIMEOUT. -/
def Obligations.CollectiveRows : Prop :=
  ∀ (s s1 : State) (p g : Nat) (a : Arrival) (c : Coll) (r : ColRec), s.build.isBowlPort p = true → s.build.isS = false →
    s.portOn p = true → s.stopped = false →
    (∀ gdone, s.takeArrival (0xF00 + p) (s.readyArrival p gdone) = some (a, s1) →
      exec (if gdone then .gdone p else .ready p) s = .next (s.within (s1.takeReady p a.pkt).settle)) ∧
    (s.colRunning p g = some c → s.colRec p g = some r →
      (∀ l, c.step = 0 → s.stageNow c = some (.reduce l) ∨ s.stageNow c = some (.gather l) →
        exec (.colStageStart p g) s = .next (s.within ((s.updColl c (fun y => { y with step := 4 })).loadMembers c r l).settle)) ∧
      (∀ l part chunk, c.step = 3 → s.stageNow c = some (.reduce l) → c.chunks.find? (fun k => k.part == part && k.chunk == chunk) = none →
        State.nextChunk r.bits c.desc l c.pos = some (part, chunk) →
        exec (.colChunkSend p g part chunk) s = .next (s.within (s.beginChunk c r l part chunk).settle))) ∧
    (s.colRunning p g = some c →
      exec (.colProgressTimeout p g) s = .next (s.within ((s.passTo (c.last + s.get (portBase p) F.COL_CTL_PTMO + 1)).colEnd c
        stTIMEOUT).settle))

/-! ### Sync units -/

/-- Every operation of a sync unit in a Lit domain that passes the checks of R288 to R291 is applied (R288, R290, R292, R296, R303, R304,
R306, R307, R311), and the unit's own events happen (R293, R295, R306): a timed epoch whose turn has come, a watch at its deadline, and the
next notification. A reserved operation is refused BADCMD. -/
def Obligations.SyncOperationsAreApplied : Prop :=
  ∀ (s s1 : State) (u op : Nat) (pk : Pkt), u < s.build.units → s.dom u = 3 →
    (s.takeSyncOp u (fun o => o == op) = some (pk, s1) → State.badOp pk.hdr = false →
      (State.namesSlot pk.hdr = true → s1.watchRoom u = true) →
      let i := bitsOf pk.hdr.aux 0 10
      (op = 6 → exec (.cancel u) s = .next (s.within (s1.cancelOp u pk))) ∧
      (s1.semOn u i = true → s1.semJob u i = pk.hdr.job ∨ pk.hdr.job = 0x3FF →
        (op = 1 → exec (.add u) s = .next (s.within (s1.addSub u pk false))) ∧
        (op = 2 → exec (.sub u) s = .next (s.within (s1.addSub u pk true))) ∧
        (op = 3 → exec (.wait u) s = .next (s.within (s1.waitOp u pk false))) ∧
        (op = 4 → exec (.waitTake u) s = .next (s.within (s1.waitOp u pk true))) ∧
        (op = 5 → exec (.syncRead u) s = .next (s.within (s1.readOp u pk))) ∧
        (op = 12 → pk.hdr.job = 0x3FF → exec (.set u) s = .next (s.within (s1.setOp u pk)))) ∧
      (∀ b, s1.bars.find? (fun b => b.unit == u && b.inst == i) = some b → b.job = pk.hdr.job →
        (op = 8 → exec (.barArrive u) s = .next (s.within (s1.barArriveOp u pk))) ∧
        (op = 9 → exec (.barWait u) s = .next (s.within (s1.barWaitOp u pk))) ∧
        (op = 10 → exec (.barUp u) s = .next (s.within (s1.barUpOp u pk))) ∧
        (op = 11 → exec (.barDown u) s = .next (s.within (s1.barDownOp u pk))))) ∧
    (s.takeSyncOp u (fun o => !(1 ≤ o && o ≤ 12 && o != 7)) = some (pk, s1) →
      (State.namesSlot pk.hdr = true → s1.watchRoom u = true) →
      exec (.syncOpReserved u) s = .next (s.within (s1.refuseOp u pk F.SYN_ERR_BADOP stBADCMD (s1.seenValue u pk.hdr)))) ∧
    (∀ b x t e, s.bar u b = some x → x.due = some (t, e) → s.running = true → liesAfter 40 t s.spn.turn = false →
      exec (.barTimedRelease u b) s = .next (s.within (s.releaseBar u b e))) ∧
    (∀ w k, s.watches.find? (fun w => w.unit == u && w.ent == k && !w.fired) = some w →
      exec (.watchTimeout u k) s = .next (s.within ((((s.passTo w.due).bump (State.unitBase u) F.SYN_TMO_CNT_COUNT 1).synErr u F.SYN_ERR_WTMO 0xC
        stTIMEOUT (State.syncDetail w.index w.kind w.scol w.srow w.tag w.src)).endWatch w stTIMEOUT))) ∧
    (∀ w k, s.ntfq.find? (fun q => q.1 == u) = some (u, k) → s.watches.find? (fun w => w.unit == u && w.ent == k) = some w →
      ∃ t, exec (.notificationLaunch u) s = .next t ∧ t.ntfq = delFirst (fun q => q.1 == u) s.ntfq ∧
        t.watches = delFirst (fun x => x.unit == u && x.ent == k) s.watches ∧ t.sems = s.sems ∧
        t.get (State.unitBase u) F.SYN_FIRE_CNT_COUNT = min (s.get (State.unitBase u) F.SYN_FIRE_CNT_COUNT + 1) (2 ^ 32 - 1))

/-- Semaphores never wrap (R290), and only the operation's semaphore changes. Without watches on it an ADD of N moves VALUE from V to
V + N where that is at most 2^40 - 1, and a SUB to V - N where N is at most V; otherwise VALUE stays, the error bit of that name is
set and the refusal is counted. EN and JOB never change. -/
def Obligations.SemaphoresNeverWrap : Prop :=
  ∀ (s s1 : State) (u : Nat) (sub : Bool) (pk : Pkt), u < s.build.units → s.dom u = 3 →
    s.takeSyncOp u (fun o => o == (if sub then 2 else 1)) = some (pk, s1) → State.badOp pk.hdr = false → bitAt pk.hdr.opc 4 = false →
    let i := bitsOf pk.hdr.aux 0 10
    let n := bitsOf pk.hdr.addr 0 40
    s.semOn u i = true → s.semJob u i = pk.hdr.job → (s.watches.any fun w => w.unit == u && w.index == i) = false →
    ∃ t, exec (if sub then .sub u else .add u) s = .next t ∧ (∀ v j, j < 1024 → (v ≠ u ∨ j ≠ i) → t.sem v j = s.sem v j) ∧
      t.semOn u i = true ∧ t.semJob u i = s.semJob u i ∧ t.semVal u i ≤ 2 ^ 40 - 1 ∧ t.watches = s.watches ∧ t.ntfq = s.ntfq ∧
      t.bars = s.bars ∧ t.ram = s.ram ∧ t.keys = s.keys ∧
      (if sub then
         (if n ≤ s.semVal u i then t.semVal u i = s.semVal u i - n
          else t.semVal u i = s.semVal u i ∧ t.flag (State.unitBase u) F.SYN_ERR_UNDERFLOW = true ∧
            t.get (State.unitBase u) F.SYN_REJ_CNT_COUNT = min (s.get (State.unitBase u) F.SYN_REJ_CNT_COUNT + 1) (2 ^ 32 - 1))
       else
         (if s.semVal u i + n ≤ 2 ^ 40 - 1 then t.semVal u i = s.semVal u i + n
          else t.semVal u i = s.semVal u i ∧ t.flag (State.unitBase u) F.SYN_ERR_OVERFLOW = true ∧
            t.get (State.unitBase u) F.SYN_REJ_CNT_COUNT = min (s.get (State.unitBase u) F.SYN_REJ_CNT_COUNT + 1) (2 ^ 32 - 1)))

/-- Watches and realignment (R292, R294, R310). A WAIT whose condition holds fires at once with the VALUE it saw, which stays; a
WAIT_TAKE whose condition holds, with no other watch on the semaphore, fires and takes N; one whose condition does not hold is kept.
A realign slot whose turn has come moves both semaphores down by the same amount, so that their difference stays, and the second one
to its reference. -/
def Obligations.WatchesAndRealignment : Prop :=
  (∀ (s s1 : State) (u : Nat) (take : Bool) (pk : Pkt), u < s.build.units → s.dom u = 3 →
    s.takeSyncOp u (fun o => o == (if take then 4 else 3)) = some (pk, s1) → State.badOp pk.hdr = false → s.watchRoom u = true →
    let i := bitsOf pk.hdr.aux 0 10
    let n := bitsOf pk.hdr.addr 0 40
    s.semOn u i = true → s.semJob u i = pk.hdr.job → (s.watches.any fun w => w.unit == u && w.index == i) = false →
    ∃ t w, exec (if take then .waitTake u else .wait u) s = .next t ∧ t.watches = s.watches ++ [w] ∧ w.unit = u ∧ w.index = i ∧ w.n = n ∧
      w.tag = pk.hdr.tag ∧ w.job = pk.hdr.job ∧ (∀ v j, j < 1024 → (v ≠ u ∨ j ≠ i) → t.sem v j = s.sem v j) ∧
      (n ≤ s.semVal u i → w.fired = true ∧ w.status = stOK ∧ t.ntfq = s.ntfq ++ [(u, w.ent)] ∧ w.value = t.semVal u i ∧
        t.semVal u i = if take then s.semVal u i - n else s.semVal u i) ∧
      (s.semVal u i < n → w.fired = false ∧ t.ntfq = s.ntfq ∧ t.sems = s.sems)) ∧
  (∀ (s : State) (u k : Nat) (x : Realign), u < s.build.units → s.unitOn u = true → s.running = true →
    s.realigns.find? (fun x => x.unit == u && x.slot == k) = some x → x.en = true → liesAfter 40 x.turn s.spn.turn = false → x.a ≠ x.b →
    x.a < 1024 → x.b < 1024 →
    (s.watches.any fun w => w.unit == u && w.kind ≤ 1 && !w.fired && (w.index == x.a || w.index == x.b)) = false →
    x.rb ≤ s.semVal u x.b → s.semVal u x.b - x.rb ≤ s.semVal u x.a →
    ∃ t, exec (.realign u k) s = .next t ∧ t.semVal u x.b = x.rb ∧ t.semVal u x.a = s.semVal u x.a - (s.semVal u x.b - x.rb) ∧
      (∀ v j, j < 1024 → (v ≠ u ∨ (j ≠ x.a ∧ j ≠ x.b)) → t.sem v j = s.sem v j) ∧ t.watches = s.watches ∧ t.ram = s.ram)

/-! ### The Headstock, cores and memory ports -/

/-- The start of a command (R375, R376, R379, R380): the next command of a ring, which nothing holds back, starts in the row of its
opcode and does what that opcode does; one that fails a check completes with that status, and with DENIED raises a PRIV violation; one
with a reserved opcode ends BADCMD. A NOP completes OK; SEM_INIT makes a free semaphore of a unit that runs hold its value and job, and
no other semaphore changes; SEM_FREE clears EN of a semaphore without watches; KEY_ERASE of a slot that no link names empties it. -/
def Obligations.CommandsStartAndRun : Prop :=
  (∀ (s : State) (i : Instr) (r opc : Nat) (run : State → Cmd → State) (c : Cmd), r < 16 → s.stopped = false →
    hdsRow i = some (r, opc, run) → Starts s r opc c →
    exec i s = .next (s.within (run (started s r c) c).settle)) ∧
  (∀ (s : State) (i : Instr) (r opc : Nat) (run : State → Cmd → State) (c : Cmd), r < 16 → s.stopped = false →
    hdsRow i = some (r, opc, run) ∨ (i = .hdsReservedOpcode r ∧ (params opc).isNone = true) →
    (s.cmds r).find? (fun x => x.stage == .ready) = some c → c.opc = opc → s.startable r c = true →
    (c.gv = true → c.guard = .met) → s.cmdCheck r c ≠ stOK →
    exec i s = .next (s.within (if s.cmdCheck r c = stDENIED then (s.dropCmd r c stDENIED).violation 6 0
      else s.dropCmd r c (s.cmdCheck r c)).settle)) ∧
  (∀ (s : State) (r : Nat) (c : Cmd), (params c.opc).isNone = true → s.cmdCheck r c = stBADCMD) ∧
  (∀ (s : State) (r : Nat) (c : Cmd), r < 16 → s.stopped = false →
    (Starts s r 0x00 c → ∃ u : State, exec (.nop r) s = .next (s.within u.settle) ∧
      (∃ x : Cmd, x ∈ u.cmds r ∧ x.idx = c.idx ∧ x.stage = .done ∧ x.st = stOK) ∧ { u with rings := s.rings } = s) ∧
    (Starts s r 0x40 c → c.par 0 < s.build.units → s.unitOn (c.par 0) = true → c.par 1 < 1024 → c.par 2 < 1024 → c.par 3 < 2 ^ 40 →
      s.semOn (c.par 0) (c.par 1) = false → ∃ u : State, exec (.semInit r) s = .next (s.within u.settle) ∧
      u.semOn (c.par 0) (c.par 1) = true ∧ u.semJob (c.par 0) (c.par 1) = c.par 2 ∧ u.semVal (c.par 0) (c.par 1) = c.par 3 ∧
      (∀ v j, j < 1024 → (v ≠ c.par 0 ∨ j ≠ c.par 1) → u.sem v j = s.sem v j) ∧
      (∃ x : Cmd, x ∈ u.cmds r ∧ x.idx = c.idx ∧ x.stage = .done ∧ x.st = stOK) ∧ { u with rings := s.rings, sems := s.sems } = s) ∧
    (Starts s r 0x41 c → c.par 0 < s.build.units → s.unitOn (c.par 0) = true → c.par 1 < 1024 → s.semWatches (c.par 0) (c.par 1) = [] →
      s.semOn (c.par 0) (c.par 1) = true → ∃ u : State, exec (.semFree r) s = .next (s.within u.settle) ∧ u.semOn (c.par 0) (c.par 1) = false ∧
      (∀ v j, j < 1024 → (v ≠ c.par 0 ∨ j ≠ c.par 1) → u.sem v j = s.sem v j) ∧ { u with rings := s.rings, sems := s.sems } = s) ∧
    (Starts s r 0x69 c → s.slotNamed (c.par 0) = false → ∃ u : State, exec (.keyErase r) s = .next (s.within u.settle) ∧
      u.keys = s.keys.filter (fun k => k.slot != c.par 0) ∧ u.sems = s.sems ∧ u.ram = s.ram))

/-- The rings and the later events of commands (R54, R114, R115, R127, R170, R171, R172, R372, R373, R374, R382, R383, R388, R392, R394):
a write of a doorbell, a ring's control or HDS_CTL through the CFG port; the fetch of a command and the reply of one from the command
memory; a guard's notification and its expiry; the edge of a TSET_SWAP, which flips the copy and raises the epoch where every context of
the set is stopped; a drained router fenced, or its timeout; the end of a load, the swap edge, the resume edge and a plan's end. -/
def Obligations.RingsAndLaterEvents : Prop :=
  (∀ (s : State) (r : Nat) (d : Word), r < 16 → s.stopped = false → CfgFree s →
    (s.accCheck (0x10100C + 0x20 * r) = stOK →
      let w := (hostAsked s true (0x10100C + 0x20 * r) d.toNat).doorbellWrite r (d.toNat % 65536) (bitAt d.toNat 16)
      let w' := (hostAsked s true (0x10100C + 0x20 * r) (s.ringTail r + 65536)).doorbellWrite r (s.ringTail r) true
      exec (.doorbell r d) s = .next (s.within ((w.2.recordAcc .cfg true (0x10100C + 0x20 * r) d.toNat w.1).accEnd .cfg 0 w.1).settle) ∧
      exec (.ringResume r) s = .next (s.within ((w'.2.recordAcc .cfg true (0x10100C + 0x20 * r) (s.ringTail r + 65536) w'.1).accEnd .cfg 0
        w'.1).settle)) ∧
    (s.accCheck (0x101008 + 0x20 * r) = stOK →
      let w := (hostAsked s true (0x101008 + 0x20 * r) d.toNat).ringCtlWrite r d.toNat
      exec (.ringEnable r d) s = .next (s.within ((w.2.recordAcc .cfg true (0x101008 + 0x20 * r) d.toNat w.1).accEnd .cfg 0 w.1).settle)) ∧
    (s.accCheck 0x100000 = stOK →
      let w := (hostAsked s true 0x100000 d.toNat).hdsCtlWrite d.toNat
      exec (.hdsRun d) s = .next (s.within ((w.2.recordAcc .cfg true 0x100000 d.toNat w.1).accEnd .cfg 0 w.1).settle))) ∧
  (∀ (s : State) (r i : Nat), r < 16 → s.boot = 0 → s.ringState r = 1 → s.nextFetch r = some i →
    s.flag (0x20 * r) F.HDS_RINGr_CTL_LOC = false →
    let a := s.get (0x20 * r) F.HDS_RINGr_BASE_BASE * 64 + 64 * (i % s.ringN r)
    a + 64 ≤ 65536 → exec (.commandFetch r) s = .next (s.within (s.fetched r i (if s.ramBad.contains (a / 64) then stPOISON else stOK)
      (s.ramRead a 64)).settle)) ∧
  (∀ (s : State) (r : Nat) (c : Cmd), r < 16 → s.stopped = false → s.txns = [] → s.reqs = [] →
    (s.cmds r).find? (fun x => x.stage == .done) = some c → s.flag (0x20 * r) F.HDS_RINGr_CTL_LOC = false →
    let a := s.get (0x20 * r) F.HDS_RINGr_SBASE_SBASE * 64 + 16 * (c.idx % s.ringN r)
    a + 16 ≤ 65536 → exec (.statusReply r) s = .next (s.within ((s.ramStore a (s.replyBytes r c) []).replied r c stOK).settle)) ∧
  (∀ (s s1 : State) (a : Arrival) (w : HWatch), s.stopped = false → s.takeArrival 0xF7E s.isGuardNtf = some (a, s1) →
    s1.hdsWatchOf a.pkt.hdr = some w → exec .guardNotify s = .next (s.within (s1.hdsSlotEnd w (a.pkt.hdr.opc % 16)).settle)) ∧
  (∀ (s : State) (k : Nat) (w : HWatch) (c : Cmd), s.stopped = false → s.hwatch.find? (fun w => w.slot == k) = some w →
    s.cmdAt w.ring w.idx = some c → c.opc ≠ 0x42 →
    exec (.guardExpiry k) s = .next (s.within ((s.passTo (w.born + s.waitTmo w.wtmo + 8193)).hdsSlotEnd w stTIMEOUT).settle)) ∧
  (∀ (s : State) (r : Nat) (c : Cmd), r < 16 → s.stopped = false →
    (s.cmds r).find? (fun c => c.opc == 0x22 && c.stage == .running && s.turnCome (c.par 1)) = some c → c.par 0 < 16 →
    (∀ x ∈ s.contexts, s.ctxTset x.1 x.2 = c.par 0 → s.ctxStopped x.1 x.2 = true ∧ s.ctxOut x.1 x.2 = 0) →
    ∃ u : State, exec (.tsetSwapEdge r) s = .next (s.within u.settle) ∧
      u.get (8 * c.par 0) F.NI_TSET_CTL_ACTIVE = 1 - s.get (8 * c.par 0) F.NI_TSET_CTL_ACTIVE ∧
      u.get (8 * c.par 0) F.NI_TSET_CTL_EPOCH = (s.tsetEpoch (c.par 0) + 1) % 2 ^ F.NI_TSET_CTL_EPOCH.w) ∧
  (∀ (s : State), s.stopped = false →
    (∀ x, s.drain = some x → x.checking = false →
      (s.drained x.node = true → exec .rtrDrainDone s = .next (s.within (((s.fence x.node).closeDrain stOK).turns).settle)) ∧
      (s.drained x.node = false → x.force = false →
        exec .rtrDrainTimeout s = .next (s.within (((s.passTo (x.born + x.tmo + 1)).closeDrain stTIMEOUT).turns).settle))) ∧
    (∀ l img, s.lathe.load = some l → l.img = some (img, stOK) →
      let u := s.passCyc (s.cyc + 12 * bitsOf (leNat (img.take 64)) 40 20)
      exec .lthLoadDone s = .next (s.within ((u.loadImage img).2.2.endLoad l (u.loadImage img).1 (u.loadImage img).2.1).settle)) ∧
    (∀ r i t c, s.swapPending = some (r, i, t) → s.running = true → t = s.spn.turn → s.cmdAt r i = some c →
      s.flag 0 F.LTH_STAT_SHADOW_V = true → exec .lthSwapEdge s = .next (s.within ((((s.set 0 F.LTH_STAT_SWAP_PEND 0).flipPlan s.spn.turn
        (c.par 0) (c.par 1)).finishCmd r i stOK 0)).settle)) ∧
    (s.running = true → s.spn.stallHold = true → s.spn.resumeIn = some 0 → Quiet s →
      ∃ t, exec .latheResumeEdge s = .next t ∧ t.spn = { s.spn with stallHold := false, resumeIn := none } ∧
        { t with spn := s.spn, regs := s.regs } = s) ∧
    (s.lathe.past = true → exec .planComplete s = .next (s.within s.planEnd.settle)))

/-- Cores, their queues and the memory ports (R286, R297, R298, R322, R323, R324, R328, R330, R331, R332, R444, R446, R447, R448, R450): a
request of a core is taken behind those before it; a notification that names no armed slot is counted as stale, and another makes its
slot DONE; the guard of a slot that runs out makes it DONE with TIMEOUT; a DONE slot is freed; a message starts when its credit covers
it, and one that waited for TMO leaves with TIMEOUT; HEAD and CTL of a queue are written; a credit update that is owed leaves, in its row also before its LAZY notches have passed (the model's choice, log 38); a read of CQU_SEL
moves the pointer in rotation mode; an answer of a memory port reaches the access that asked, and one that none asked for is logged. -/
def Obligations.CoreAndMemoryPortRows : Prop :=
  (∀ (s : State) (tap : Nat) (d : BitVec 512) (c : Instr) (op : Nat), acts c s = true →
    (c = .desc tap d ∧ op = 1) ∨ (c = .sync tap d ∧ op = 2) ∨ (c = .qsubmit tap d ∧ op = 3) ∨ (c = .reg tap d ∧ op = 4) ∨
      (c = .tapReservedOp tap op d ∧ (op = 0 ∨ 4 < op)) →
    exec c s = .next (s.within ((State.tapRun { s with tapq := s.tapq ++ [⟨tap, op, d.toNat, s.dom (s.build.nodeDom (tap / 4)) == 2⟩] } tap (s.tapq.length + 1)).settle))) ∧
  (∀ (s s1 : State) (ep : Nat) (a : Arrival), acts (.syncNtf ep) s = true →
    s.takeArrival ep (fun a => a.pkt.hdr.ptype == tSYNC_NTF && !a.lt) = some (a, s1) →
    let k := bitsOf a.pkt.hdr.tag 0 6
    (s1.wslotState ep k ≠ 1 → exec (.syncNtf ep) s = .next (s.within (s1.bump (niBase ep) F.NI_SYN_STALE_CNT_COUNT 1).settle)) ∧
    (s1.wslotState ep k = 1 → bitsOf a.pkt.hdr.tag 18 2 = 0 → bitsOf a.pkt.hdr.tag 6 12 = s1.get (State.wslotBase ep k) F.NI_WSLOTs_HI_GEN →
      (s1.armed.any fun x => x.ep == ep && x.slot == k && !x.desc) = true →
      exec (.syncNtf ep) s = .next (s.within (s1.slotDone ep k (a.pkt.hdr.opc % 16) (some (bitsOf a.pkt.hdr.addr 0 40))).settle))) ∧
  (∀ (s : State) (ep k : Nat), acts (.wslotGuardExpiry ep k) s = true → k < 64 →
    (∀ a, s.armed.find? (fun a => a.ep == ep && a.slot == k && !a.desc) = some a →
      ∃ u : State, exec (.wslotGuardExpiry ep k) s = .next (s.within u.settle) ∧ u.wslotState ep k = 2 ∧
        u.get (State.wslotBase ep k) F.NI_WSLOTs_HI_STATUS = stTIMEOUT ∧ u.tmo = max s.tmo (a.born + a.wait + 1)) ∧
    (Quiet s → s.build.isS = false → s.accCheck (niBase ep + 0x1604 + 8 * k) = stOK → s.wslotState ep k = 2 →
      ∃ t, exec (.wslotFree ep k) s = .next t ∧ t.wslotState ep k = 0 ∧ { t with regs := s.regs } = s)) ∧
  (∀ (s : State) (ep q : Nat), acts (.cqMessageStart ep q) s = true → q < 16 →
    (∀ m, (s.sqMsgs ep q).find? (fun m => m.op.isNone) = some m → m.head.isSome = true → s.sqBroken ep q = false →
      s.sqCharge ep q m.len ≤ s.sqCred ep q → s.sqTail ep q % s.sqRing ep q + State.recLen m.len ≤ s.sqRing ep q →
      let me := s.endpoint ep
      let b : Op := { Op.zero with
        ep := ep, kind := .send, ctx := s.sqCtx ep q, chan := s.sqChan ep q, glint := s.flag (State.sqBase ep q) F.CQU_SQs_CTL_GLINT
        rank := s.get (State.sqBase ep q) F.CQU_SQs_DEST_RANK, aux := s.get (State.sqBase ep q) F.CQU_SQs_DEST_QUEUE }
      let u := s.set (State.sqBase ep q) F.CQU_SQs_TAIL_TAIL ((s.sqTail ep q + s.sqCharge ep q m.len) % 2 ^ 32)
      exec (.cqMessageStart ep q) s = .next (s.within (((State.startOp { u with
        smsgs := updFirst (fun x => x == m) (fun x => { x with op := some s.nextId }) s.smsgs } { b with
          who := .msg q m.mtag b.rank, len := 16 + m.len, raddr := s.sqTail ep q % s.sqRing ep q
          laddr := m.core * 2 ^ 46 + m.src, data := State.recHeader 0 (State.recLen m.len) me m.core m.mtag m.len }).sqSettle ep q).noteSq ep
            q).settle)) ∧
    (∀ m t, (s.sqMsgs ep q).find? (fun m => m.op.isNone) = some m → m.head = some t → s.sqCred ep q < s.sqCharge ep q m.len →
      let u := s.passTo (t + s.get (State.sqBase ep q) F.CQU_SQs_TMO_TMO + 1)
      let v := State.postQueue { u with smsgs := delFirst (fun x => x == m) s.smsgs } ep q m.mtag stTIMEOUT
      exec (.cqStallTimeout ep q) s = .next (s.within ((((v.errBit (niBase ep) F.CQU_ERR_STALL 0xE (srcEp ep) stTIMEOUT
        (q + 16 * v.get (State.sqBase ep q) F.CQU_SQs_DEST_RANK)).bump (niBase ep) F.CQU_STALL_CNT_COUNT 1).sqSettle ep q).noteSq ep q).settle)) ∧
    (s.lazies.any (fun l => l.ep == ep && l.q == q) = true →
      ∃ (u : State) (f : FarReq), exec (.creditUpdate ep q) s = .next (s.within u.settle) ∧ u.farq = s.farq ++ [f] ∧ f.ep = ep ∧
        f.pkt.hdr.ptype = tCREDIT ∧ f.pkt.hdr.addr = s.rqHead ep q + 2 ^ 32 + 2 ^ 33)) ∧
  (∀ (s : State) (ep q : Nat) (d : Word), nodeEp s.build ep = true → s.build.isS = false → s.stopped = false →
    (q < 16 → s.accCheck (niBase ep + (0x1810 + 32 * q)) = stOK →
      let w := s.headWrite ep q d.toNat
      exec (.cquHeadWrite ep q d) s = .next (s.within (w.2.recordAcc .cfg true (niBase ep + (0x1810 + 32 * q)) d.toNat w.1).settle)) ∧
    (q < 16 → s.accCheck (niBase ep + (0x1804 + 32 * q)) = stOK →
      let w := s.rqCtlWrite ep q d.toNat
      exec (.cquEnable ep false q d) s = .next (s.within (w.2.recordAcc .cfg true (niBase ep + (0x1804 + 32 * q)) d.toNat w.1).settle)) ∧
    (q < 16 → s.accCheck (niBase ep + (0x1A00 + 32 * q)) = stOK →
      let w := s.sqCtlWrite ep q d.toNat
      exec (.cquEnable ep true q d) s = .next (s.within (w.2.recordAcc .cfg true (niBase ep + (0x1A00 + 32 * q)) d.toNat w.1).settle)) ∧
    (q < 4 → s.accCheck (niBase ep + 0x1C10 + 4 * q) = stOK → exec (.cquSelRead ep q) s = .next (s.within (s.selRead ep q).2.settle))) ∧
  (∀ (s : State) (m tag err : Nat) (wr bad : Bool) (d : BitVec 512) (c : Instr), acts c s = true →
    let st := if wr = false ∧ err = 0 ∧ bad = true then stPOISON else if err = 0 then stOK else if err = 1 then stDENIED else stINTERNAL
    let data := if wr then 0 else d.toNat
    c = (if wr then .mapWriteResponse m tag err else .mapReadData m tag d bad err) →
    (∀ u, s.unitAnswered true m wr tag data (!wr && bad) st = some u → exec c s = .next (s.within u.settle)) ∧
    (s.unitAnswered true m wr tag data (!wr && bad) st = none →
      exec c s = .next (s.within (State.settle (State.report { s with deadTags := s.deadTags.filter (fun x => x != (m, wr, tag)) } 0x1A
        (srcPort m) stINTERNAL (0xFF + 256 * tag)))))) ∧
  (∀ (s : State) (m tag : Nat) (wr : Bool) (l : Live), acts (.mapTimeout m wr tag) s = true → s.mapLive m wr tag = some l →
    ∃ u, (State.unitAnswered { s.passCyc (l.at' + 65536) with deadTags := s.deadTags ++ [(m, wr, tag)] } true m wr tag 0 false
      stTIMEOUT) = some u ∧ exec (.mapTimeout m wr tag) s = .next (s.within u.settle)) ∧
  (∀ (s u : State) (tap tag : Nat) (d : BitVec 512) (poison err : Bool), acts (.tapReadData tap tag d poison err) s = true →
    s.unitAnswered false tap false tag d.toNat poison (if err then stDENIED else if poison then stPOISON else stOK) = some u →
    exec (.tapReadData tap tag d poison err) s = .next (s.within u.settle))
end

