-- ==== Sys2Proof/Laws/Maps.lean ====
section
/-! SUPPORT. What reading a map gives after an entry has been put in, removed or set. -/
namespace Sys2Proof.Machine

theorem mapGet_mapPut {α : Type} (m : List (Nat × α)) (k k' : Nat) (v : α) :
    mapGet (mapPut m k v) k' = if k' = k then some v else mapGet m k' := by
  induction m with
  | nil => simp [mapPut, mapGet, eq_comm]
  | cons e r ih =>
    obtain ⟨a, b⟩ := e
    simp only [mapPut]
    split
    · simp only [mapGet]
      by_cases h : k' = k
      · subst h; simp
      · rw [if_neg (Ne.symm h), if_neg h]
    · split
      · have e : a = k := ‹a = k›
        simp only [mapGet]
        by_cases h : k' = k
        · rw [if_pos h.symm, if_pos h]
        · rw [if_neg (Ne.symm h), if_neg h, if_neg (fun x => h (x.symm.trans e))]
      · simp only [mapGet, ih]
        by_cases h : a = k'
        · subst h; rw [if_pos rfl, if_neg ‹¬a = k›, if_pos rfl]
        · rw [if_neg h, if_neg h]

theorem mapGet_mapDel {α : Type} (m : List (Nat × α)) (k k' : Nat) :
    mapGet (mapDel m k) k' = if k' = k then none else mapGet m k' := by
  induction m with
  | nil => simp [mapDel, mapGet]
  | cons e r ih =>
    obtain ⟨a, b⟩ := e
    simp only [mapDel]
    split
    · have e : a = k := ‹a = k›
      rw [ih]; simp only [mapGet]
      by_cases h : k' = k
      · rw [if_pos h, if_pos h]
      · rw [if_neg h, if_neg h, if_neg (fun x => h (x.symm.trans e))]
    · simp only [mapGet, ih]
      by_cases h : a = k'
      · subst h; rw [if_pos rfl, if_neg ‹¬a = k›, if_pos rfl]
      · rw [if_neg h, if_neg h]

theorem mapGet_mapSet {α : Type} [DecidableEq α] (m : List (Nat × α)) (d v : α) (k k' : Nat) :
    (mapGet (mapSet m d k v) k').getD d = if k' = k then v else (mapGet m k').getD d := by
  unfold mapSet
  split
  · rw [mapGet_mapDel]; split <;> simp_all
  · rw [mapGet_mapPut]; split <;> simp_all

theorem nget_mapSet (m : NMap) (d v k k' : Nat) : nget (mapSet m d k v) d k' = if k' = k then v else nget m d k' :=
  mapGet_mapSet m d v k k'

theorem mem_upFrom (a n x : Nat) : x ∈ upFrom a n ↔ a ≤ x ∧ x < a + n := by
  induction n generalizing a with
  | zero => simp [upFrom]
  | succ n ih => simp only [upFrom, List.mem_cons, ih]; omega

@[simp] theorem length_upFrom (a n : Nat) : (upFrom a n).length = n := by
  induction n generalizing a with
  | zero => rfl
  | succ n ih => simp [upFrom, ih]

end Sys2Proof.Machine
end

