-- ==== Sys2Proof/Laws/Memory.lean ====
section
/-! SUPPORT. The on-chip memories: every store keeps their canonical form, and what a byte reads as after a store. -/
namespace Sys2Proof.Machine

/-- The canonical form, said by the head: no zero is listed, and every later address is higher. -/
theorem wf_cons (a : Nat) (v : Byte) (r : List (Nat × Byte)) :
    Memory.wf ((a, v) :: r) = true ↔ v ≠ 0 ∧ (∀ e, r.head? = some e → a < e.1) ∧ Memory.wf r = true := by
  cases r with
  | nil => simp [Memory.wf]
  | cons f r => simp [Memory.wf, and_assoc]

theorem head_mapPut {α : Type} (m : List (Nat × α)) (k : Nat) (v : α) (e : Nat × α) (h : (mapPut m k v).head? = some e) :
    e.1 = k ∨ m.head?.map (·.1) = some e.1 := by
  cases m with
  | nil => simp [mapPut] at h; simp [← h]
  | cons f r =>
    obtain ⟨a, b⟩ := f
    simp only [mapPut] at h
    split at h
    · simp at h; simp [← h]
    · split at h
      · simp at h; simp [← h]
      · simp at h; simp [← h]

theorem wf_mapPut (m : List (Nat × Byte)) (k : Nat) (v : Byte) (hv : v ≠ 0) (h : Memory.wf m = true) :
    Memory.wf (mapPut m k v) = true := by
  induction m with
  | nil => simpa [mapPut, Memory.wf] using hv
  | cons e r ih =>
    obtain ⟨a, b⟩ := e
    have h' := (wf_cons a b r).1 h
    simp only [mapPut]
    split
    · rw [wf_cons]; exact ⟨hv, by simpa using ‹k < a›, h⟩
    · split
      · subst_vars; rw [wf_cons]; exact ⟨hv, h'.2.1, h'.2.2⟩
      · rw [wf_cons]
        refine ⟨h'.1, fun e he => ?_, ih h'.2.2⟩
        rcases head_mapPut r k v e he with h1 | h1
        · omega
        · cases hr : r.head? with
          | none => simp [hr] at h1
          | some g => simp [hr] at h1; have := h'.2.1 g hr; omega

theorem mapDel_lower (m : List (Nat × Byte)) (k a : Nat) (h : Memory.wf m = true) (ha : ∀ e, m.head? = some e → a < e.1) :
    (∀ e, (mapDel m k).head? = some e → a < e.1) ∧ Memory.wf (mapDel m k) = true := by
  induction m generalizing a with
  | nil => simp [mapDel, Memory.wf]
  | cons e r ih =>
    obtain ⟨c, b⟩ := e
    have h' := (wf_cons c b r).1 h
    have hc := ha (c, b) rfl
    simp only [mapDel]
    split
    · refine ih a h'.2.2 (fun e he => ?_)
      have := h'.2.1 e he; simp at hc; omega
    · refine ⟨by simpa using hc, ?_⟩
      rw [wf_cons]
      exact ⟨h'.1, (ih c h'.2.2 h'.2.1).1, (ih c h'.2.2 h'.2.1).2⟩

theorem wf_mapDel (m : List (Nat × Byte)) (k : Nat) (h : Memory.wf m = true) : Memory.wf (mapDel m k) = true := by
  cases m with
  | nil => rfl
  | cons e r =>
    obtain ⟨c, b⟩ := e
    have h' := (wf_cons c b r).1 h
    simp only [mapDel]
    split
    · exact (mapDel_lower r k c h'.2.2 h'.2.1).2
    · rw [wf_cons]
      have := mapDel_lower r k c h'.2.2 h'.2.1
      exact ⟨h'.1, this.1, this.2⟩

theorem wf_mapSet (m : List (Nat × Byte)) (k : Nat) (v : Byte) (h : Memory.wf m = true) :
    Memory.wf (mapSet m 0 k v) = true := by
  unfold mapSet
  split
  · exact wf_mapDel m k h
  · exact wf_mapPut m k v ‹_› h

namespace State

/-- One stored byte keeps the canonical form. -/
theorem ramPut_wf (s : State) (a : Nat) (v : Byte) (h : Memory.wf s.ram = true) : Memory.wf (s.ramPut a v).ram = true :=
  wf_mapSet s.ram a v h

/-- A run of stored bytes keeps the canonical form. -/
theorem ramWrite_wf (s : State) (a : Nat) (bytes : List Byte) (h : Memory.wf s.ram = true) :
    Memory.wf (s.ramWrite a bytes).ram = true := by
  induction bytes generalizing s a with
  | nil => exact h
  | cons v r ih => exact ih (s.ramPut a v) (a + 1) (ramPut_wf s a v h)

/-- A store with its poison marks keeps the canonical form. -/
theorem ramStore_wf (s : State) (a : Nat) (bytes : List Byte) (bad : List Nat) (h : Memory.wf s.ram = true) :
    Memory.wf (s.ramStore a bytes bad).ram = true := ramWrite_wf s a bytes h

/-- The memories are in the canonical form right after reset. -/
theorem reset_wf : Memory.wf State.reset.ram = true := rfl

/-- What a byte reads as after one has been stored. -/
theorem ramByte_ramPut (s : State) (a b : Nat) (v : Byte) : (s.ramPut a v).ramByte b = if b = a then v else s.ramByte b :=
  mapGet_mapSet s.ram 0 v a b

/-- Bytes outside those stored read as before. -/
theorem ramByte_ramWrite (s : State) (a b : Nat) (bytes : List Byte) (h : b < a ∨ a + bytes.length ≤ b) :
    (s.ramWrite a bytes).ramByte b = s.ramByte b := by
  induction bytes generalizing s a with
  | nil => rfl
  | cons v r ih =>
    simp only [List.length_cons] at h
    rw [ramWrite, ih _ _ (by omega), ramByte_ramPut, if_neg (by omega)]

/-- A run of stores changes nothing but the bytes. -/
theorem ramWrite_frame (s : State) (a : Nat) (bytes : List Byte) : { s.ramWrite a bytes with ram := s.ram } = s := by
  induction bytes generalizing s a with
  | nil => rfl
  | cons v r ih =>
    have := ih (s.ramPut a v) (a + 1)
    rw [ramWrite]
    have h2 : { (s.ramPut a v).ramWrite (a + 1) r with ram := s.ram } =
      { ({ (s.ramPut a v).ramWrite (a + 1) r with ram := (s.ramPut a v).ram } : State) with ram := s.ram } := rfl
    rw [h2, this]; rfl

end State
end Sys2Proof.Machine
end

