-- ==== Sys2Proof/Laws/State.lean ====
section
/-! SUPPORT. One lemma for each field of the state and each shared update of it: what the update leaves in the field. -/
namespace Sys2Proof.Machine.State

/-! ### `setWord` -/

@[simp] theorem setWord_build (s : State) (a : Nat) (w : Word) : (s.setWord a w).build = s.build := rfl
@[simp] theorem setWord_regs (s : State) (a : Nat) (w : Word) : (s.setWord a w).regs = mapSet s.regs (resetWord s.build a) a w := rfl
@[simp] theorem setWord_cyc (s : State) (a : Nat) (w : Word) : (s.setWord a w).cyc = s.cyc := rfl
@[simp] theorem setWord_tmo (s : State) (a : Nat) (w : Word) : (s.setWord a w).tmo = s.tmo := rfl
@[simp] theorem setWord_sub (s : State) (a : Nat) (w : Word) : (s.setWord a w).sub = s.sub := rfl
@[simp] theorem setWord_spn (s : State) (a : Nat) (w : Word) : (s.setWord a w).spn = s.spn := rfl
@[simp] theorem setWord_tlm (s : State) (a : Nat) (w : Word) : (s.setWord a w).tlm = s.tlm := rfl
@[simp] theorem setWord_snapTlm (s : State) (a : Nat) (w : Word) : (s.setWord a w).snapTlm = s.snapTlm := rfl
@[simp] theorem setWord_snapDepth (s : State) (a : Nat) (w : Word) : (s.setWord a w).snapDepth = s.snapDepth := rfl
@[simp] theorem setWord_trace (s : State) (a : Nat) (w : Word) : (s.setWord a w).trace = s.trace := rfl
@[simp] theorem setWord_traceq (s : State) (a : Nat) (w : Word) : (s.setWord a w).traceq = s.traceq := rfl
@[simp] theorem setWord_probing (s : State) (a : Nat) (w : Word) : (s.setWord a w).probing = s.probing := rfl
@[simp] theorem setWord_mirAt (s : State) (a : Nat) (w : Word) : (s.setWord a w).mirAt = s.mirAt := rfl
@[simp] theorem setWord_snapDue (s : State) (a : Nat) (w : Word) : (s.setWord a w).snapDue = s.snapDue := rfl
@[simp] theorem setWord_traceAt (s : State) (a : Nat) (w : Word) : (s.setWord a w).traceAt = s.traceAt := rfl
@[simp] theorem setWord_postLeft (s : State) (a : Nat) (w : Word) : (s.setWord a w).postLeft = s.postLeft := rfl
@[simp] theorem setWord_reports (s : State) (a : Nat) (w : Word) : (s.setWord a w).reports = s.reports := rfl
@[simp] theorem setWord_log (s : State) (a : Nat) (w : Word) : (s.setWord a w).log = s.log := rfl
@[simp] theorem setWord_pendTurn (s : State) (a : Nat) (w : Word) : (s.setWord a w).pendTurn = s.pendTurn := rfl
@[simp] theorem setWord_paceEdge (s : State) (a : Nat) (w : Word) : (s.setWord a w).paceEdge = s.paceEdge := rfl
@[simp] theorem setWord_wires (s : State) (a : Nat) (w : Word) : (s.setWord a w).wires = s.wires := rfl
@[simp] theorem setWord_buf (s : State) (a : Nat) (w : Word) : (s.setWord a w).buf = s.buf := rfl
@[simp] theorem setWord_cur (s : State) (a : Nat) (w : Word) : (s.setWord a w).cur = s.cur := rfl
@[simp] theorem setWord_own (s : State) (a : Nat) (w : Word) : (s.setWord a w).own = s.own := rfl
@[simp] theorem setWord_owed (s : State) (a : Nat) (w : Word) : (s.setWord a w).owed = s.owed := rfl
@[simp] theorem setWord_crw (s : State) (a : Nat) (w : Word) : (s.setWord a w).crw = s.crw := rfl
@[simp] theorem setWord_rr (s : State) (a : Nat) (w : Word) : (s.setWord a w).rr = s.rr := rfl
@[simp] theorem setWord_refl (s : State) (a : Nat) (w : Word) : (s.setWord a w).refl = s.refl := rfl
@[simp] theorem setWord_burl (s : State) (a : Nat) (w : Word) : (s.setWord a w).burl = s.burl := rfl
@[simp] theorem setWord_injSt (s : State) (a : Nat) (w : Word) : (s.setWord a w).injSt = s.injSt := rfl
@[simp] theorem setWord_sendq (s : State) (a : Nat) (w : Word) : (s.setWord a w).sendq = s.sendq := rfl
@[simp] theorem setWord_rx (s : State) (a : Nat) (w : Word) : (s.setWord a w).rx = s.rx := rfl
@[simp] theorem setWord_arrivals (s : State) (a : Nat) (w : Word) : (s.setWord a w).arrivals = s.arrivals := rfl
@[simp] theorem setWord_ram (s : State) (a : Nat) (w : Word) : (s.setWord a w).ram = s.ram := rfl
@[simp] theorem setWord_ramBad (s : State) (a : Nat) (w : Word) : (s.setWord a w).ramBad = s.ramBad := rfl
@[simp] theorem setWord_txns (s : State) (a : Nat) (w : Word) : (s.setWord a w).txns = s.txns := rfl
@[simp] theorem setWord_nextId (s : State) (a : Nat) (w : Word) : (s.setWord a w).nextId = s.nextId := rfl
@[simp] theorem setWord_deadTags (s : State) (a : Nat) (w : Word) : (s.setWord a w).deadTags = s.deadTags := rfl
@[simp] theorem setWord_tapw (s : State) (a : Nat) (w : Word) : (s.setWord a w).tapw = s.tapw := rfl
@[simp] theorem setWord_mwNext (s : State) (a : Nat) (w : Word) : (s.setWord a w).mwNext = s.mwNext := rfl
@[simp] theorem setWord_lathe (s : State) (a : Nat) (w : Word) : (s.setWord a w).lathe = s.lathe := rfl
@[simp] theorem setWord_ops (s : State) (a : Nat) (w : Word) : (s.setWord a w).ops = s.ops := rfl
@[simp] theorem setWord_reqs (s : State) (a : Nat) (w : Word) : (s.setWord a w).reqs = s.reqs := rfl
@[simp] theorem setWord_sslots (s : State) (a : Nat) (w : Word) : (s.setWord a w).sslots = s.sslots := rfl
@[simp] theorem setWord_rslots (s : State) (a : Nat) (w : Word) : (s.setWord a w).rslots = s.rslots := rfl
@[simp] theorem setWord_gens (s : State) (a : Nat) (w : Word) : (s.setWord a w).gens = s.gens := rfl
@[simp] theorem setWord_rankC (s : State) (a : Nat) (w : Word) : (s.setWord a w).rankC = s.rankC := rfl
@[simp] theorem setWord_pathC (s : State) (a : Nat) (w : Word) : (s.setWord a w).pathC = s.pathC := rfl
@[simp] theorem setWord_smapC (s : State) (a : Nat) (w : Word) : (s.setWord a w).smapC = s.smapC := rfl
@[simp] theorem setWord_blank (s : State) (a : Nat) (w : Word) : (s.setWord a w).blank = s.blank := rfl
@[simp] theorem setWord_spills (s : State) (a : Nat) (w : Word) : (s.setWord a w).spills = s.spills := rfl
@[simp] theorem setWord_holds (s : State) (a : Nat) (w : Word) : (s.setWord a w).holds = s.holds := rfl
@[simp] theorem setWord_relayq (s : State) (a : Nat) (w : Word) : (s.setWord a w).relayq = s.relayq := rfl
@[simp] theorem setWord_farq (s : State) (a : Nat) (w : Word) : (s.setWord a w).farq = s.farq := rfl
@[simp] theorem setWord_tapq (s : State) (a : Nat) (w : Word) : (s.setWord a w).tapq = s.tapq := rfl
@[simp] theorem setWord_smsgs (s : State) (a : Nat) (w : Word) : (s.setWord a w).smsgs = s.smsgs := rfl
@[simp] theorem setWord_rlands (s : State) (a : Nat) (w : Word) : (s.setWord a w).rlands = s.rlands := rfl
@[simp] theorem setWord_lazies (s : State) (a : Nat) (w : Word) : (s.setWord a w).lazies = s.lazies := rfl
@[simp] theorem setWord_selPtr (s : State) (a : Nat) (w : Word) : (s.setWord a w).selPtr = s.selPtr := rfl
@[simp] theorem setWord_bigs (s : State) (a : Nat) (w : Word) : (s.setWord a w).bigs = s.bigs := rfl
@[simp] theorem setWord_accJobs (s : State) (a : Nat) (w : Word) : (s.setWord a w).accJobs = s.accJobs := rfl
@[simp] theorem setWord_bents (s : State) (a : Nat) (w : Word) : (s.setWord a w).bents = s.bents := rfl
@[simp] theorem setWord_bslots (s : State) (a : Nat) (w : Word) : (s.setWord a w).bslots = s.bslots := rfl
@[simp] theorem setWord_ownAns (s : State) (a : Nat) (w : Word) : (s.setWord a w).ownAns = s.ownAns := rfl
@[simp] theorem setWord_pwReq (s : State) (a : Nat) (w : Word) : (s.setWord a w).pwReq = s.pwReq := rfl
@[simp] theorem setWord_clmPtr (s : State) (a : Nat) (w : Word) : (s.setWord a w).clmPtr = s.clmPtr := rfl
@[simp] theorem setWord_clmLast (s : State) (a : Nat) (w : Word) : (s.setWord a w).clmLast = s.clmLast := rfl
@[simp] theorem setWord_clmEff (s : State) (a : Nat) (w : Word) : (s.setWord a w).clmEff = s.clmEff := rfl
@[simp] theorem setWord_colrecs (s : State) (a : Nat) (w : Word) : (s.setWord a w).colrecs = s.colrecs := rfl
@[simp] theorem setWord_colls (s : State) (a : Nat) (w : Word) : (s.setWord a w).colls = s.colls := rfl
@[simp] theorem setWord_readys (s : State) (a : Nat) (w : Word) : (s.setWord a w).readys = s.readys := rfl
@[simp] theorem setWord_scans (s : State) (a : Nat) (w : Word) : (s.setWord a w).scans = s.scans := rfl
@[simp] theorem setWord_trackers (s : State) (a : Nat) (w : Word) : (s.setWord a w).trackers = s.trackers := rfl
@[simp] theorem setWord_auxSeen (s : State) (a : Nat) (w : Word) : (s.setWord a w).auxSeen = s.auxSeen := rfl
@[simp] theorem setWord_buckets (s : State) (a : Nat) (w : Word) : (s.setWord a w).buckets = s.buckets := rfl
@[simp] theorem setWord_psns (s : State) (a : Nat) (w : Word) : (s.setWord a w).psns = s.psns := rfl
@[simp] theorem setWord_rings (s : State) (a : Nat) (w : Word) : (s.setWord a w).rings = s.rings := rfl
@[simp] theorem setWord_squashTo (s : State) (a : Nat) (w : Word) : (s.setWord a w).squashTo = s.squashTo := rfl
@[simp] theorem setWord_hwatch (s : State) (a : Nat) (w : Word) : (s.setWord a w).hwatch = s.hwatch := rfl
@[simp] theorem setWord_hgens (s : State) (a : Nat) (w : Word) : (s.setWord a w).hgens = s.hgens := rfl
@[simp] theorem setWord_accs (s : State) (a : Nat) (w : Word) : (s.setWord a w).accs = s.accs := rfl
@[simp] theorem setWord_cfgWait (s : State) (a : Nat) (w : Word) : (s.setWord a w).cfgWait = s.cfgWait := rfl
@[simp] theorem setWord_cfgVal (s : State) (a : Nat) (w : Word) : (s.setWord a w).cfgVal = s.cfgVal := rfl
@[simp] theorem setWord_jtag (s : State) (a : Nat) (w : Word) : (s.setWord a w).jtag = s.jtag := rfl
@[simp] theorem setWord_cfgAck (s : State) (a : Nat) (w : Word) : (s.setWord a w).cfgAck = s.cfgAck := rfl
@[simp] theorem setWord_sems (s : State) (a : Nat) (w : Word) : (s.setWord a w).sems = s.sems := rfl
@[simp] theorem setWord_watches (s : State) (a : Nat) (w : Word) : (s.setWord a w).watches = s.watches := rfl
@[simp] theorem setWord_ntfq (s : State) (a : Nat) (w : Word) : (s.setWord a w).ntfq = s.ntfq := rfl
@[simp] theorem setWord_bars (s : State) (a : Nat) (w : Word) : (s.setWord a w).bars = s.bars := rfl
@[simp] theorem setWord_realigns (s : State) (a : Nat) (w : Word) : (s.setWord a w).realigns = s.realigns := rfl
@[simp] theorem setWord_armed (s : State) (a : Nat) (w : Word) : (s.setWord a w).armed = s.armed := rfl
@[simp] theorem setWord_links (s : State) (a : Nat) (w : Word) : (s.setWord a w).links = s.links := rfl
@[simp] theorem setWord_asms (s : State) (a : Nat) (w : Word) : (s.setWord a w).asms = s.asms := rfl
@[simp] theorem setWord_exits (s : State) (a : Nat) (w : Word) : (s.setWord a w).exits = s.exits := rfl
@[simp] theorem setWord_rtx (s : State) (a : Nat) (w : Word) : (s.setWord a w).rtx = s.rtx := rfl
@[simp] theorem setWord_injecting (s : State) (a : Nat) (w : Word) : (s.setWord a w).injecting = s.injecting := rfl
@[simp] theorem setWord_filt (s : State) (a : Nat) (w : Word) : (s.setWord a w).filt = s.filt := rfl
@[simp] theorem setWord_keys (s : State) (a : Nat) (w : Word) : (s.setWord a w).keys = s.keys := rfl
@[simp] theorem setWord_fuse (s : State) (a : Nat) (w : Word) : (s.setWord a w).fuse = s.fuse := rfl
@[simp] theorem setWord_boot (s : State) (a : Nat) (w : Word) : (s.setWord a w).boot = s.boot := rfl
@[simp] theorem setWord_gov (s : State) (a : Nat) (w : Word) : (s.setWord a w).gov = s.gov := rfl
@[simp] theorem setWord_trans (s : State) (a : Nat) (w : Word) : (s.setWord a w).trans = s.trans := rfl
@[simp] theorem setWord_autos (s : State) (a : Nat) (w : Word) : (s.setWord a w).autos = s.autos := rfl
@[simp] theorem setWord_drain (s : State) (a : Nat) (w : Word) : (s.setWord a w).drain = s.drain := rfl
@[simp] theorem setWord_transq (s : State) (a : Nat) (w : Word) : (s.setWord a w).transq = s.transq := rfl
@[simp] theorem setWord_upq (s : State) (a : Nat) (w : Word) : (s.setWord a w).upq = s.upq := rfl
@[simp] theorem setWord_lastSw (s : State) (a : Nat) (w : Word) : (s.setWord a w).lastSw = s.lastSw := rfl
@[simp] theorem setWord_pswEn (s : State) (a : Nat) (w : Word) : (s.setWord a w).pswEn = s.pswEn := rfl
@[simp] theorem setWord_isoLow (s : State) (a : Nat) (w : Word) : (s.setWord a w).isoLow = s.isoLow := rfl
@[simp] theorem setWord_rankCnt (s : State) (a : Nat) (w : Word) : (s.setWord a w).rankCnt = s.rankCnt := rfl
@[simp] theorem setWord_xheld (s : State) (a : Nat) (w : Word) : (s.setWord a w).xheld = s.xheld := rfl
@[simp] theorem setWord_out (s : State) (a : Nat) (w : Word) : (s.setWord a w).out = s.out := rfl
@[simp] theorem setWord_free (s : State) (a : Nat) (w : Word) : (s.setWord a w).free = s.free := rfl
@[simp] theorem setWord_pending (s : State) (a : Nat) (w : Word) : (s.setWord a w).pending = s.pending := rfl

/-! ### `set` -/

@[simp] theorem set_build (s : State) (b : Nat) (f : Fld) (v : Nat) : (s.set b f v).build = s.build := rfl
@[simp] theorem set_cyc (s : State) (b : Nat) (f : Fld) (v : Nat) : (s.set b f v).cyc = s.cyc := rfl
@[simp] theorem set_tmo (s : State) (b : Nat) (f : Fld) (v : Nat) : (s.set b f v).tmo = s.tmo := rfl
@[simp] theorem set_sub (s : State) (b : Nat) (f : Fld) (v : Nat) : (s.set b f v).sub = s.sub := rfl
@[simp] theorem set_spn (s : State) (b : Nat) (f : Fld) (v : Nat) : (s.set b f v).spn = s.spn := rfl
@[simp] theorem set_tlm (s : State) (b : Nat) (f : Fld) (v : Nat) : (s.set b f v).tlm = s.tlm := rfl
@[simp] theorem set_snapTlm (s : State) (b : Nat) (f : Fld) (v : Nat) : (s.set b f v).snapTlm = s.snapTlm := rfl
@[simp] theorem set_snapDepth (s : State) (b : Nat) (f : Fld) (v : Nat) : (s.set b f v).snapDepth = s.snapDepth := rfl
@[simp] theorem set_trace (s : State) (b : Nat) (f : Fld) (v : Nat) : (s.set b f v).trace = s.trace := rfl
@[simp] theorem set_traceq (s : State) (b : Nat) (f : Fld) (v : Nat) : (s.set b f v).traceq = s.traceq := rfl
@[simp] theorem set_probing (s : State) (b : Nat) (f : Fld) (v : Nat) : (s.set b f v).probing = s.probing := rfl
@[simp] theorem set_mirAt (s : State) (b : Nat) (f : Fld) (v : Nat) : (s.set b f v).mirAt = s.mirAt := rfl
@[simp] theorem set_snapDue (s : State) (b : Nat) (f : Fld) (v : Nat) : (s.set b f v).snapDue = s.snapDue := rfl
@[simp] theorem set_traceAt (s : State) (b : Nat) (f : Fld) (v : Nat) : (s.set b f v).traceAt = s.traceAt := rfl
@[simp] theorem set_postLeft (s : State) (b : Nat) (f : Fld) (v : Nat) : (s.set b f v).postLeft = s.postLeft := rfl
@[simp] theorem set_reports (s : State) (b : Nat) (f : Fld) (v : Nat) : (s.set b f v).reports = s.reports := rfl
@[simp] theorem set_log (s : State) (b : Nat) (f : Fld) (v : Nat) : (s.set b f v).log = s.log := rfl
@[simp] theorem set_pendTurn (s : State) (b : Nat) (f : Fld) (v : Nat) : (s.set b f v).pendTurn = s.pendTurn := rfl
@[simp] theorem set_paceEdge (s : State) (b : Nat) (f : Fld) (v : Nat) : (s.set b f v).paceEdge = s.paceEdge := rfl
@[simp] theorem set_wires (s : State) (b : Nat) (f : Fld) (v : Nat) : (s.set b f v).wires = s.wires := rfl
@[simp] theorem set_buf (s : State) (b : Nat) (f : Fld) (v : Nat) : (s.set b f v).buf = s.buf := rfl
@[simp] theorem set_cur (s : State) (b : Nat) (f : Fld) (v : Nat) : (s.set b f v).cur = s.cur := rfl
@[simp] theorem set_own (s : State) (b : Nat) (f : Fld) (v : Nat) : (s.set b f v).own = s.own := rfl
@[simp] theorem set_owed (s : State) (b : Nat) (f : Fld) (v : Nat) : (s.set b f v).owed = s.owed := rfl
@[simp] theorem set_crw (s : State) (b : Nat) (f : Fld) (v : Nat) : (s.set b f v).crw = s.crw := rfl
@[simp] theorem set_rr (s : State) (b : Nat) (f : Fld) (v : Nat) : (s.set b f v).rr = s.rr := rfl
@[simp] theorem set_refl (s : State) (b : Nat) (f : Fld) (v : Nat) : (s.set b f v).refl = s.refl := rfl
@[simp] theorem set_burl (s : State) (b : Nat) (f : Fld) (v : Nat) : (s.set b f v).burl = s.burl := rfl
@[simp] theorem set_injSt (s : State) (b : Nat) (f : Fld) (v : Nat) : (s.set b f v).injSt = s.injSt := rfl
@[simp] theorem set_sendq (s : State) (b : Nat) (f : Fld) (v : Nat) : (s.set b f v).sendq = s.sendq := rfl
@[simp] theorem set_rx (s : State) (b : Nat) (f : Fld) (v : Nat) : (s.set b f v).rx = s.rx := rfl
@[simp] theorem set_arrivals (s : State) (b : Nat) (f : Fld) (v : Nat) : (s.set b f v).arrivals = s.arrivals := rfl
@[simp] theorem set_ram (s : State) (b : Nat) (f : Fld) (v : Nat) : (s.set b f v).ram = s.ram := rfl
@[simp] theorem set_ramBad (s : State) (b : Nat) (f : Fld) (v : Nat) : (s.set b f v).ramBad = s.ramBad := rfl
@[simp] theorem set_txns (s : State) (b : Nat) (f : Fld) (v : Nat) : (s.set b f v).txns = s.txns := rfl
@[simp] theorem set_nextId (s : State) (b : Nat) (f : Fld) (v : Nat) : (s.set b f v).nextId = s.nextId := rfl
@[simp] theorem set_deadTags (s : State) (b : Nat) (f : Fld) (v : Nat) : (s.set b f v).deadTags = s.deadTags := rfl
@[simp] theorem set_tapw (s : State) (b : Nat) (f : Fld) (v : Nat) : (s.set b f v).tapw = s.tapw := rfl
@[simp] theorem set_mwNext (s : State) (b : Nat) (f : Fld) (v : Nat) : (s.set b f v).mwNext = s.mwNext := rfl
@[simp] theorem set_lathe (s : State) (b : Nat) (f : Fld) (v : Nat) : (s.set b f v).lathe = s.lathe := rfl
@[simp] theorem set_ops (s : State) (b : Nat) (f : Fld) (v : Nat) : (s.set b f v).ops = s.ops := rfl
@[simp] theorem set_reqs (s : State) (b : Nat) (f : Fld) (v : Nat) : (s.set b f v).reqs = s.reqs := rfl
@[simp] theorem set_sslots (s : State) (b : Nat) (f : Fld) (v : Nat) : (s.set b f v).sslots = s.sslots := rfl
@[simp] theorem set_rslots (s : State) (b : Nat) (f : Fld) (v : Nat) : (s.set b f v).rslots = s.rslots := rfl
@[simp] theorem set_gens (s : State) (b : Nat) (f : Fld) (v : Nat) : (s.set b f v).gens = s.gens := rfl
@[simp] theorem set_rankC (s : State) (b : Nat) (f : Fld) (v : Nat) : (s.set b f v).rankC = s.rankC := rfl
@[simp] theorem set_pathC (s : State) (b : Nat) (f : Fld) (v : Nat) : (s.set b f v).pathC = s.pathC := rfl
@[simp] theorem set_smapC (s : State) (b : Nat) (f : Fld) (v : Nat) : (s.set b f v).smapC = s.smapC := rfl
@[simp] theorem set_blank (s : State) (b : Nat) (f : Fld) (v : Nat) : (s.set b f v).blank = s.blank := rfl
@[simp] theorem set_spills (s : State) (b : Nat) (f : Fld) (v : Nat) : (s.set b f v).spills = s.spills := rfl
@[simp] theorem set_holds (s : State) (b : Nat) (f : Fld) (v : Nat) : (s.set b f v).holds = s.holds := rfl
@[simp] theorem set_relayq (s : State) (b : Nat) (f : Fld) (v : Nat) : (s.set b f v).relayq = s.relayq := rfl
@[simp] theorem set_farq (s : State) (b : Nat) (f : Fld) (v : Nat) : (s.set b f v).farq = s.farq := rfl
@[simp] theorem set_tapq (s : State) (b : Nat) (f : Fld) (v : Nat) : (s.set b f v).tapq = s.tapq := rfl
@[simp] theorem set_smsgs (s : State) (b : Nat) (f : Fld) (v : Nat) : (s.set b f v).smsgs = s.smsgs := rfl
@[simp] theorem set_rlands (s : State) (b : Nat) (f : Fld) (v : Nat) : (s.set b f v).rlands = s.rlands := rfl
@[simp] theorem set_lazies (s : State) (b : Nat) (f : Fld) (v : Nat) : (s.set b f v).lazies = s.lazies := rfl
@[simp] theorem set_selPtr (s : State) (b : Nat) (f : Fld) (v : Nat) : (s.set b f v).selPtr = s.selPtr := rfl
@[simp] theorem set_bigs (s : State) (b : Nat) (f : Fld) (v : Nat) : (s.set b f v).bigs = s.bigs := rfl
@[simp] theorem set_accJobs (s : State) (b : Nat) (f : Fld) (v : Nat) : (s.set b f v).accJobs = s.accJobs := rfl
@[simp] theorem set_bents (s : State) (b : Nat) (f : Fld) (v : Nat) : (s.set b f v).bents = s.bents := rfl
@[simp] theorem set_bslots (s : State) (b : Nat) (f : Fld) (v : Nat) : (s.set b f v).bslots = s.bslots := rfl
@[simp] theorem set_ownAns (s : State) (b : Nat) (f : Fld) (v : Nat) : (s.set b f v).ownAns = s.ownAns := rfl
@[simp] theorem set_pwReq (s : State) (b : Nat) (f : Fld) (v : Nat) : (s.set b f v).pwReq = s.pwReq := rfl
@[simp] theorem set_clmPtr (s : State) (b : Nat) (f : Fld) (v : Nat) : (s.set b f v).clmPtr = s.clmPtr := rfl
@[simp] theorem set_clmLast (s : State) (b : Nat) (f : Fld) (v : Nat) : (s.set b f v).clmLast = s.clmLast := rfl
@[simp] theorem set_clmEff (s : State) (b : Nat) (f : Fld) (v : Nat) : (s.set b f v).clmEff = s.clmEff := rfl
@[simp] theorem set_colrecs (s : State) (b : Nat) (f : Fld) (v : Nat) : (s.set b f v).colrecs = s.colrecs := rfl
@[simp] theorem set_colls (s : State) (b : Nat) (f : Fld) (v : Nat) : (s.set b f v).colls = s.colls := rfl
@[simp] theorem set_readys (s : State) (b : Nat) (f : Fld) (v : Nat) : (s.set b f v).readys = s.readys := rfl
@[simp] theorem set_scans (s : State) (b : Nat) (f : Fld) (v : Nat) : (s.set b f v).scans = s.scans := rfl
@[simp] theorem set_trackers (s : State) (b : Nat) (f : Fld) (v : Nat) : (s.set b f v).trackers = s.trackers := rfl
@[simp] theorem set_auxSeen (s : State) (b : Nat) (f : Fld) (v : Nat) : (s.set b f v).auxSeen = s.auxSeen := rfl
@[simp] theorem set_buckets (s : State) (b : Nat) (f : Fld) (v : Nat) : (s.set b f v).buckets = s.buckets := rfl
@[simp] theorem set_psns (s : State) (b : Nat) (f : Fld) (v : Nat) : (s.set b f v).psns = s.psns := rfl
@[simp] theorem set_rings (s : State) (b : Nat) (f : Fld) (v : Nat) : (s.set b f v).rings = s.rings := rfl
@[simp] theorem set_squashTo (s : State) (b : Nat) (f : Fld) (v : Nat) : (s.set b f v).squashTo = s.squashTo := rfl
@[simp] theorem set_hwatch (s : State) (b : Nat) (f : Fld) (v : Nat) : (s.set b f v).hwatch = s.hwatch := rfl
@[simp] theorem set_hgens (s : State) (b : Nat) (f : Fld) (v : Nat) : (s.set b f v).hgens = s.hgens := rfl
@[simp] theorem set_accs (s : State) (b : Nat) (f : Fld) (v : Nat) : (s.set b f v).accs = s.accs := rfl
@[simp] theorem set_cfgWait (s : State) (b : Nat) (f : Fld) (v : Nat) : (s.set b f v).cfgWait = s.cfgWait := rfl
@[simp] theorem set_cfgVal (s : State) (b : Nat) (f : Fld) (v : Nat) : (s.set b f v).cfgVal = s.cfgVal := rfl
@[simp] theorem set_jtag (s : State) (b : Nat) (f : Fld) (v : Nat) : (s.set b f v).jtag = s.jtag := rfl
@[simp] theorem set_cfgAck (s : State) (b : Nat) (f : Fld) (v : Nat) : (s.set b f v).cfgAck = s.cfgAck := rfl
@[simp] theorem set_sems (s : State) (b : Nat) (f : Fld) (v : Nat) : (s.set b f v).sems = s.sems := rfl
@[simp] theorem set_watches (s : State) (b : Nat) (f : Fld) (v : Nat) : (s.set b f v).watches = s.watches := rfl
@[simp] theorem set_ntfq (s : State) (b : Nat) (f : Fld) (v : Nat) : (s.set b f v).ntfq = s.ntfq := rfl
@[simp] theorem set_bars (s : State) (b : Nat) (f : Fld) (v : Nat) : (s.set b f v).bars = s.bars := rfl
@[simp] theorem set_realigns (s : State) (b : Nat) (f : Fld) (v : Nat) : (s.set b f v).realigns = s.realigns := rfl
@[simp] theorem set_armed (s : State) (b : Nat) (f : Fld) (v : Nat) : (s.set b f v).armed = s.armed := rfl
@[simp] theorem set_links (s : State) (b : Nat) (f : Fld) (v : Nat) : (s.set b f v).links = s.links := rfl
@[simp] theorem set_asms (s : State) (b : Nat) (f : Fld) (v : Nat) : (s.set b f v).asms = s.asms := rfl
@[simp] theorem set_exits (s : State) (b : Nat) (f : Fld) (v : Nat) : (s.set b f v).exits = s.exits := rfl
@[simp] theorem set_rtx (s : State) (b : Nat) (f : Fld) (v : Nat) : (s.set b f v).rtx = s.rtx := rfl
@[simp] theorem set_injecting (s : State) (b : Nat) (f : Fld) (v : Nat) : (s.set b f v).injecting = s.injecting := rfl
@[simp] theorem set_filt (s : State) (b : Nat) (f : Fld) (v : Nat) : (s.set b f v).filt = s.filt := rfl
@[simp] theorem set_keys (s : State) (b : Nat) (f : Fld) (v : Nat) : (s.set b f v).keys = s.keys := rfl
@[simp] theorem set_fuse (s : State) (b : Nat) (f : Fld) (v : Nat) : (s.set b f v).fuse = s.fuse := rfl
@[simp] theorem set_boot (s : State) (b : Nat) (f : Fld) (v : Nat) : (s.set b f v).boot = s.boot := rfl
@[simp] theorem set_gov (s : State) (b : Nat) (f : Fld) (v : Nat) : (s.set b f v).gov = s.gov := rfl
@[simp] theorem set_trans (s : State) (b : Nat) (f : Fld) (v : Nat) : (s.set b f v).trans = s.trans := rfl
@[simp] theorem set_autos (s : State) (b : Nat) (f : Fld) (v : Nat) : (s.set b f v).autos = s.autos := rfl
@[simp] theorem set_drain (s : State) (b : Nat) (f : Fld) (v : Nat) : (s.set b f v).drain = s.drain := rfl
@[simp] theorem set_transq (s : State) (b : Nat) (f : Fld) (v : Nat) : (s.set b f v).transq = s.transq := rfl
@[simp] theorem set_upq (s : State) (b : Nat) (f : Fld) (v : Nat) : (s.set b f v).upq = s.upq := rfl
@[simp] theorem set_lastSw (s : State) (b : Nat) (f : Fld) (v : Nat) : (s.set b f v).lastSw = s.lastSw := rfl
@[simp] theorem set_pswEn (s : State) (b : Nat) (f : Fld) (v : Nat) : (s.set b f v).pswEn = s.pswEn := rfl
@[simp] theorem set_isoLow (s : State) (b : Nat) (f : Fld) (v : Nat) : (s.set b f v).isoLow = s.isoLow := rfl
@[simp] theorem set_rankCnt (s : State) (b : Nat) (f : Fld) (v : Nat) : (s.set b f v).rankCnt = s.rankCnt := rfl
@[simp] theorem set_xheld (s : State) (b : Nat) (f : Fld) (v : Nat) : (s.set b f v).xheld = s.xheld := rfl
@[simp] theorem set_out (s : State) (b : Nat) (f : Fld) (v : Nat) : (s.set b f v).out = s.out := rfl
@[simp] theorem set_free (s : State) (b : Nat) (f : Fld) (v : Nat) : (s.set b f v).free = s.free := rfl
@[simp] theorem set_pending (s : State) (b : Nat) (f : Fld) (v : Nat) : (s.set b f v).pending = s.pending := rfl

/-! ### `setDom` -/

@[simp] theorem setDom_build (s : State) (d v : Nat) : (s.setDom d v).build = s.build := rfl
@[simp] theorem setDom_cyc (s : State) (d v : Nat) : (s.setDom d v).cyc = s.cyc := rfl
@[simp] theorem setDom_tmo (s : State) (d v : Nat) : (s.setDom d v).tmo = s.tmo := rfl
@[simp] theorem setDom_sub (s : State) (d v : Nat) : (s.setDom d v).sub = s.sub := rfl
@[simp] theorem setDom_spn (s : State) (d v : Nat) : (s.setDom d v).spn = s.spn := rfl
@[simp] theorem setDom_tlm (s : State) (d v : Nat) : (s.setDom d v).tlm = s.tlm := rfl
@[simp] theorem setDom_snapTlm (s : State) (d v : Nat) : (s.setDom d v).snapTlm = s.snapTlm := rfl
@[simp] theorem setDom_snapDepth (s : State) (d v : Nat) : (s.setDom d v).snapDepth = s.snapDepth := rfl
@[simp] theorem setDom_trace (s : State) (d v : Nat) : (s.setDom d v).trace = s.trace := rfl
@[simp] theorem setDom_traceq (s : State) (d v : Nat) : (s.setDom d v).traceq = s.traceq := rfl
@[simp] theorem setDom_probing (s : State) (d v : Nat) : (s.setDom d v).probing = s.probing := rfl
@[simp] theorem setDom_mirAt (s : State) (d v : Nat) : (s.setDom d v).mirAt = s.mirAt := rfl
@[simp] theorem setDom_snapDue (s : State) (d v : Nat) : (s.setDom d v).snapDue = s.snapDue := rfl
@[simp] theorem setDom_traceAt (s : State) (d v : Nat) : (s.setDom d v).traceAt = s.traceAt := rfl
@[simp] theorem setDom_postLeft (s : State) (d v : Nat) : (s.setDom d v).postLeft = s.postLeft := rfl
@[simp] theorem setDom_reports (s : State) (d v : Nat) : (s.setDom d v).reports = s.reports := rfl
@[simp] theorem setDom_log (s : State) (d v : Nat) : (s.setDom d v).log = s.log := rfl
@[simp] theorem setDom_pendTurn (s : State) (d v : Nat) : (s.setDom d v).pendTurn = s.pendTurn := rfl
@[simp] theorem setDom_paceEdge (s : State) (d v : Nat) : (s.setDom d v).paceEdge = s.paceEdge := rfl
@[simp] theorem setDom_wires (s : State) (d v : Nat) : (s.setDom d v).wires = s.wires := rfl
@[simp] theorem setDom_buf (s : State) (d v : Nat) : (s.setDom d v).buf = s.buf := rfl
@[simp] theorem setDom_cur (s : State) (d v : Nat) : (s.setDom d v).cur = s.cur := rfl
@[simp] theorem setDom_own (s : State) (d v : Nat) : (s.setDom d v).own = s.own := rfl
@[simp] theorem setDom_owed (s : State) (d v : Nat) : (s.setDom d v).owed = s.owed := rfl
@[simp] theorem setDom_crw (s : State) (d v : Nat) : (s.setDom d v).crw = s.crw := rfl
@[simp] theorem setDom_rr (s : State) (d v : Nat) : (s.setDom d v).rr = s.rr := rfl
@[simp] theorem setDom_refl (s : State) (d v : Nat) : (s.setDom d v).refl = s.refl := rfl
@[simp] theorem setDom_burl (s : State) (d v : Nat) : (s.setDom d v).burl = s.burl := rfl
@[simp] theorem setDom_injSt (s : State) (d v : Nat) : (s.setDom d v).injSt = s.injSt := rfl
@[simp] theorem setDom_sendq (s : State) (d v : Nat) : (s.setDom d v).sendq = s.sendq := rfl
@[simp] theorem setDom_rx (s : State) (d v : Nat) : (s.setDom d v).rx = s.rx := rfl
@[simp] theorem setDom_arrivals (s : State) (d v : Nat) : (s.setDom d v).arrivals = s.arrivals := rfl
@[simp] theorem setDom_ram (s : State) (d v : Nat) : (s.setDom d v).ram = s.ram := rfl
@[simp] theorem setDom_ramBad (s : State) (d v : Nat) : (s.setDom d v).ramBad = s.ramBad := rfl
@[simp] theorem setDom_txns (s : State) (d v : Nat) : (s.setDom d v).txns = s.txns := rfl
@[simp] theorem setDom_nextId (s : State) (d v : Nat) : (s.setDom d v).nextId = s.nextId := rfl
@[simp] theorem setDom_deadTags (s : State) (d v : Nat) : (s.setDom d v).deadTags = s.deadTags := rfl
@[simp] theorem setDom_tapw (s : State) (d v : Nat) : (s.setDom d v).tapw = s.tapw := rfl
@[simp] theorem setDom_mwNext (s : State) (d v : Nat) : (s.setDom d v).mwNext = s.mwNext := rfl
@[simp] theorem setDom_lathe (s : State) (d v : Nat) : (s.setDom d v).lathe = s.lathe := rfl
@[simp] theorem setDom_ops (s : State) (d v : Nat) : (s.setDom d v).ops = s.ops := rfl
@[simp] theorem setDom_reqs (s : State) (d v : Nat) : (s.setDom d v).reqs = s.reqs := rfl
@[simp] theorem setDom_sslots (s : State) (d v : Nat) : (s.setDom d v).sslots = s.sslots := rfl
@[simp] theorem setDom_rslots (s : State) (d v : Nat) : (s.setDom d v).rslots = s.rslots := rfl
@[simp] theorem setDom_gens (s : State) (d v : Nat) : (s.setDom d v).gens = s.gens := rfl
@[simp] theorem setDom_rankC (s : State) (d v : Nat) : (s.setDom d v).rankC = s.rankC := rfl
@[simp] theorem setDom_pathC (s : State) (d v : Nat) : (s.setDom d v).pathC = s.pathC := rfl
@[simp] theorem setDom_smapC (s : State) (d v : Nat) : (s.setDom d v).smapC = s.smapC := rfl
@[simp] theorem setDom_blank (s : State) (d v : Nat) : (s.setDom d v).blank = s.blank := rfl
@[simp] theorem setDom_spills (s : State) (d v : Nat) : (s.setDom d v).spills = s.spills := rfl
@[simp] theorem setDom_holds (s : State) (d v : Nat) : (s.setDom d v).holds = s.holds := rfl
@[simp] theorem setDom_relayq (s : State) (d v : Nat) : (s.setDom d v).relayq = s.relayq := rfl
@[simp] theorem setDom_farq (s : State) (d v : Nat) : (s.setDom d v).farq = s.farq := rfl
@[simp] theorem setDom_tapq (s : State) (d v : Nat) : (s.setDom d v).tapq = s.tapq := rfl
@[simp] theorem setDom_smsgs (s : State) (d v : Nat) : (s.setDom d v).smsgs = s.smsgs := rfl
@[simp] theorem setDom_rlands (s : State) (d v : Nat) : (s.setDom d v).rlands = s.rlands := rfl
@[simp] theorem setDom_lazies (s : State) (d v : Nat) : (s.setDom d v).lazies = s.lazies := rfl
@[simp] theorem setDom_selPtr (s : State) (d v : Nat) : (s.setDom d v).selPtr = s.selPtr := rfl
@[simp] theorem setDom_bigs (s : State) (d v : Nat) : (s.setDom d v).bigs = s.bigs := rfl
@[simp] theorem setDom_accJobs (s : State) (d v : Nat) : (s.setDom d v).accJobs = s.accJobs := rfl
@[simp] theorem setDom_bents (s : State) (d v : Nat) : (s.setDom d v).bents = s.bents := rfl
@[simp] theorem setDom_bslots (s : State) (d v : Nat) : (s.setDom d v).bslots = s.bslots := rfl
@[simp] theorem setDom_ownAns (s : State) (d v : Nat) : (s.setDom d v).ownAns = s.ownAns := rfl
@[simp] theorem setDom_pwReq (s : State) (d v : Nat) : (s.setDom d v).pwReq = s.pwReq := rfl
@[simp] theorem setDom_clmPtr (s : State) (d v : Nat) : (s.setDom d v).clmPtr = s.clmPtr := rfl
@[simp] theorem setDom_clmLast (s : State) (d v : Nat) : (s.setDom d v).clmLast = s.clmLast := rfl
@[simp] theorem setDom_clmEff (s : State) (d v : Nat) : (s.setDom d v).clmEff = s.clmEff := rfl
@[simp] theorem setDom_colrecs (s : State) (d v : Nat) : (s.setDom d v).colrecs = s.colrecs := rfl
@[simp] theorem setDom_colls (s : State) (d v : Nat) : (s.setDom d v).colls = s.colls := rfl
@[simp] theorem setDom_readys (s : State) (d v : Nat) : (s.setDom d v).readys = s.readys := rfl
@[simp] theorem setDom_scans (s : State) (d v : Nat) : (s.setDom d v).scans = s.scans := rfl
@[simp] theorem setDom_trackers (s : State) (d v : Nat) : (s.setDom d v).trackers = s.trackers := rfl
@[simp] theorem setDom_auxSeen (s : State) (d v : Nat) : (s.setDom d v).auxSeen = s.auxSeen := rfl
@[simp] theorem setDom_buckets (s : State) (d v : Nat) : (s.setDom d v).buckets = s.buckets := rfl
@[simp] theorem setDom_psns (s : State) (d v : Nat) : (s.setDom d v).psns = s.psns := rfl
@[simp] theorem setDom_rings (s : State) (d v : Nat) : (s.setDom d v).rings = s.rings := rfl
@[simp] theorem setDom_squashTo (s : State) (d v : Nat) : (s.setDom d v).squashTo = s.squashTo := rfl
@[simp] theorem setDom_hwatch (s : State) (d v : Nat) : (s.setDom d v).hwatch = s.hwatch := rfl
@[simp] theorem setDom_hgens (s : State) (d v : Nat) : (s.setDom d v).hgens = s.hgens := rfl
@[simp] theorem setDom_accs (s : State) (d v : Nat) : (s.setDom d v).accs = s.accs := rfl
@[simp] theorem setDom_cfgWait (s : State) (d v : Nat) : (s.setDom d v).cfgWait = s.cfgWait := rfl
@[simp] theorem setDom_cfgVal (s : State) (d v : Nat) : (s.setDom d v).cfgVal = s.cfgVal := rfl
@[simp] theorem setDom_jtag (s : State) (d v : Nat) : (s.setDom d v).jtag = s.jtag := rfl
@[simp] theorem setDom_cfgAck (s : State) (d v : Nat) : (s.setDom d v).cfgAck = s.cfgAck := rfl
@[simp] theorem setDom_sems (s : State) (d v : Nat) : (s.setDom d v).sems = s.sems := rfl
@[simp] theorem setDom_watches (s : State) (d v : Nat) : (s.setDom d v).watches = s.watches := rfl
@[simp] theorem setDom_ntfq (s : State) (d v : Nat) : (s.setDom d v).ntfq = s.ntfq := rfl
@[simp] theorem setDom_bars (s : State) (d v : Nat) : (s.setDom d v).bars = s.bars := rfl
@[simp] theorem setDom_realigns (s : State) (d v : Nat) : (s.setDom d v).realigns = s.realigns := rfl
@[simp] theorem setDom_armed (s : State) (d v : Nat) : (s.setDom d v).armed = s.armed := rfl
@[simp] theorem setDom_links (s : State) (d v : Nat) : (s.setDom d v).links = s.links := rfl
@[simp] theorem setDom_asms (s : State) (d v : Nat) : (s.setDom d v).asms = s.asms := rfl
@[simp] theorem setDom_exits (s : State) (d v : Nat) : (s.setDom d v).exits = s.exits := rfl
@[simp] theorem setDom_rtx (s : State) (d v : Nat) : (s.setDom d v).rtx = s.rtx := rfl
@[simp] theorem setDom_injecting (s : State) (d v : Nat) : (s.setDom d v).injecting = s.injecting := rfl
@[simp] theorem setDom_filt (s : State) (d v : Nat) : (s.setDom d v).filt = s.filt := rfl
@[simp] theorem setDom_keys (s : State) (d v : Nat) : (s.setDom d v).keys = s.keys := rfl
@[simp] theorem setDom_fuse (s : State) (d v : Nat) : (s.setDom d v).fuse = s.fuse := rfl
@[simp] theorem setDom_boot (s : State) (d v : Nat) : (s.setDom d v).boot = s.boot := rfl
@[simp] theorem setDom_gov (s : State) (d v : Nat) : (s.setDom d v).gov = s.gov := rfl
@[simp] theorem setDom_trans (s : State) (d v : Nat) : (s.setDom d v).trans = s.trans := rfl
@[simp] theorem setDom_autos (s : State) (d v : Nat) : (s.setDom d v).autos = s.autos := rfl
@[simp] theorem setDom_drain (s : State) (d v : Nat) : (s.setDom d v).drain = s.drain := rfl
@[simp] theorem setDom_transq (s : State) (d v : Nat) : (s.setDom d v).transq = s.transq := rfl
@[simp] theorem setDom_upq (s : State) (d v : Nat) : (s.setDom d v).upq = s.upq := rfl
@[simp] theorem setDom_lastSw (s : State) (d v : Nat) : (s.setDom d v).lastSw = s.lastSw := rfl
@[simp] theorem setDom_pswEn (s : State) (d v : Nat) : (s.setDom d v).pswEn = s.pswEn := rfl
@[simp] theorem setDom_isoLow (s : State) (d v : Nat) : (s.setDom d v).isoLow = s.isoLow := rfl
@[simp] theorem setDom_rankCnt (s : State) (d v : Nat) : (s.setDom d v).rankCnt = s.rankCnt := rfl
@[simp] theorem setDom_xheld (s : State) (d v : Nat) : (s.setDom d v).xheld = s.xheld := rfl
@[simp] theorem setDom_out (s : State) (d v : Nat) : (s.setDom d v).out = s.out := rfl
@[simp] theorem setDom_free (s : State) (d v : Nat) : (s.setDom d v).free = s.free := rfl
@[simp] theorem setDom_pending (s : State) (d v : Nat) : (s.setDom d v).pending = s.pending := rfl

/-! ### `fillBuckets` -/

@[simp] theorem fillBuckets_build (s : State) (n : Nat) : (s.fillBuckets n).build = s.build := rfl
@[simp] theorem fillBuckets_regs (s : State) (n : Nat) : (s.fillBuckets n).regs = s.regs := rfl
@[simp] theorem fillBuckets_cyc (s : State) (n : Nat) : (s.fillBuckets n).cyc = s.cyc := rfl
@[simp] theorem fillBuckets_tmo (s : State) (n : Nat) : (s.fillBuckets n).tmo = s.tmo := rfl
@[simp] theorem fillBuckets_sub (s : State) (n : Nat) : (s.fillBuckets n).sub = s.sub := rfl
@[simp] theorem fillBuckets_spn (s : State) (n : Nat) : (s.fillBuckets n).spn = s.spn := rfl
@[simp] theorem fillBuckets_tlm (s : State) (n : Nat) : (s.fillBuckets n).tlm = s.tlm := rfl
@[simp] theorem fillBuckets_snapTlm (s : State) (n : Nat) : (s.fillBuckets n).snapTlm = s.snapTlm := rfl
@[simp] theorem fillBuckets_snapDepth (s : State) (n : Nat) : (s.fillBuckets n).snapDepth = s.snapDepth := rfl
@[simp] theorem fillBuckets_trace (s : State) (n : Nat) : (s.fillBuckets n).trace = s.trace := rfl
@[simp] theorem fillBuckets_traceq (s : State) (n : Nat) : (s.fillBuckets n).traceq = s.traceq := rfl
@[simp] theorem fillBuckets_probing (s : State) (n : Nat) : (s.fillBuckets n).probing = s.probing := rfl
@[simp] theorem fillBuckets_mirAt (s : State) (n : Nat) : (s.fillBuckets n).mirAt = s.mirAt := rfl
@[simp] theorem fillBuckets_snapDue (s : State) (n : Nat) : (s.fillBuckets n).snapDue = s.snapDue := rfl
@[simp] theorem fillBuckets_traceAt (s : State) (n : Nat) : (s.fillBuckets n).traceAt = s.traceAt := rfl
@[simp] theorem fillBuckets_postLeft (s : State) (n : Nat) : (s.fillBuckets n).postLeft = s.postLeft := rfl
@[simp] theorem fillBuckets_reports (s : State) (n : Nat) : (s.fillBuckets n).reports = s.reports := rfl
@[simp] theorem fillBuckets_log (s : State) (n : Nat) : (s.fillBuckets n).log = s.log := rfl
@[simp] theorem fillBuckets_pendTurn (s : State) (n : Nat) : (s.fillBuckets n).pendTurn = s.pendTurn := rfl
@[simp] theorem fillBuckets_paceEdge (s : State) (n : Nat) : (s.fillBuckets n).paceEdge = s.paceEdge := rfl
@[simp] theorem fillBuckets_wires (s : State) (n : Nat) : (s.fillBuckets n).wires = s.wires := rfl
@[simp] theorem fillBuckets_buf (s : State) (n : Nat) : (s.fillBuckets n).buf = s.buf := rfl
@[simp] theorem fillBuckets_cur (s : State) (n : Nat) : (s.fillBuckets n).cur = s.cur := rfl
@[simp] theorem fillBuckets_own (s : State) (n : Nat) : (s.fillBuckets n).own = s.own := rfl
@[simp] theorem fillBuckets_owed (s : State) (n : Nat) : (s.fillBuckets n).owed = s.owed := rfl
@[simp] theorem fillBuckets_crw (s : State) (n : Nat) : (s.fillBuckets n).crw = s.crw := rfl
@[simp] theorem fillBuckets_rr (s : State) (n : Nat) : (s.fillBuckets n).rr = s.rr := rfl
@[simp] theorem fillBuckets_refl (s : State) (n : Nat) : (s.fillBuckets n).refl = s.refl := rfl
@[simp] theorem fillBuckets_burl (s : State) (n : Nat) : (s.fillBuckets n).burl = s.burl := rfl
@[simp] theorem fillBuckets_injSt (s : State) (n : Nat) : (s.fillBuckets n).injSt = s.injSt := rfl
@[simp] theorem fillBuckets_sendq (s : State) (n : Nat) : (s.fillBuckets n).sendq = s.sendq := rfl
@[simp] theorem fillBuckets_rx (s : State) (n : Nat) : (s.fillBuckets n).rx = s.rx := rfl
@[simp] theorem fillBuckets_arrivals (s : State) (n : Nat) : (s.fillBuckets n).arrivals = s.arrivals := rfl
@[simp] theorem fillBuckets_ram (s : State) (n : Nat) : (s.fillBuckets n).ram = s.ram := rfl
@[simp] theorem fillBuckets_ramBad (s : State) (n : Nat) : (s.fillBuckets n).ramBad = s.ramBad := rfl
@[simp] theorem fillBuckets_txns (s : State) (n : Nat) : (s.fillBuckets n).txns = s.txns := rfl
@[simp] theorem fillBuckets_nextId (s : State) (n : Nat) : (s.fillBuckets n).nextId = s.nextId := rfl
@[simp] theorem fillBuckets_deadTags (s : State) (n : Nat) : (s.fillBuckets n).deadTags = s.deadTags := rfl
@[simp] theorem fillBuckets_tapw (s : State) (n : Nat) : (s.fillBuckets n).tapw = s.tapw := rfl
@[simp] theorem fillBuckets_mwNext (s : State) (n : Nat) : (s.fillBuckets n).mwNext = s.mwNext := rfl
@[simp] theorem fillBuckets_lathe (s : State) (n : Nat) : (s.fillBuckets n).lathe = s.lathe := rfl
@[simp] theorem fillBuckets_ops (s : State) (n : Nat) : (s.fillBuckets n).ops = s.ops := rfl
@[simp] theorem fillBuckets_reqs (s : State) (n : Nat) : (s.fillBuckets n).reqs = s.reqs := rfl
@[simp] theorem fillBuckets_sslots (s : State) (n : Nat) : (s.fillBuckets n).sslots = s.sslots := rfl
@[simp] theorem fillBuckets_rslots (s : State) (n : Nat) : (s.fillBuckets n).rslots = s.rslots := rfl
@[simp] theorem fillBuckets_gens (s : State) (n : Nat) : (s.fillBuckets n).gens = s.gens := rfl
@[simp] theorem fillBuckets_rankC (s : State) (n : Nat) : (s.fillBuckets n).rankC = s.rankC := rfl
@[simp] theorem fillBuckets_pathC (s : State) (n : Nat) : (s.fillBuckets n).pathC = s.pathC := rfl
@[simp] theorem fillBuckets_smapC (s : State) (n : Nat) : (s.fillBuckets n).smapC = s.smapC := rfl
@[simp] theorem fillBuckets_blank (s : State) (n : Nat) : (s.fillBuckets n).blank = s.blank := rfl
@[simp] theorem fillBuckets_spills (s : State) (n : Nat) : (s.fillBuckets n).spills = s.spills := rfl
@[simp] theorem fillBuckets_holds (s : State) (n : Nat) : (s.fillBuckets n).holds = s.holds := rfl
@[simp] theorem fillBuckets_relayq (s : State) (n : Nat) : (s.fillBuckets n).relayq = s.relayq := rfl
@[simp] theorem fillBuckets_farq (s : State) (n : Nat) : (s.fillBuckets n).farq = s.farq := rfl
@[simp] theorem fillBuckets_tapq (s : State) (n : Nat) : (s.fillBuckets n).tapq = s.tapq := rfl
@[simp] theorem fillBuckets_smsgs (s : State) (n : Nat) : (s.fillBuckets n).smsgs = s.smsgs := rfl
@[simp] theorem fillBuckets_rlands (s : State) (n : Nat) : (s.fillBuckets n).rlands = s.rlands := rfl
@[simp] theorem fillBuckets_lazies (s : State) (n : Nat) : (s.fillBuckets n).lazies = s.lazies := rfl
@[simp] theorem fillBuckets_selPtr (s : State) (n : Nat) : (s.fillBuckets n).selPtr = s.selPtr := rfl
@[simp] theorem fillBuckets_bigs (s : State) (n : Nat) : (s.fillBuckets n).bigs = s.bigs := rfl
@[simp] theorem fillBuckets_accJobs (s : State) (n : Nat) : (s.fillBuckets n).accJobs = s.accJobs := rfl
@[simp] theorem fillBuckets_bents (s : State) (n : Nat) : (s.fillBuckets n).bents = s.bents := rfl
@[simp] theorem fillBuckets_bslots (s : State) (n : Nat) : (s.fillBuckets n).bslots = s.bslots := rfl
@[simp] theorem fillBuckets_ownAns (s : State) (n : Nat) : (s.fillBuckets n).ownAns = s.ownAns := rfl
@[simp] theorem fillBuckets_pwReq (s : State) (n : Nat) : (s.fillBuckets n).pwReq = s.pwReq := rfl
@[simp] theorem fillBuckets_clmPtr (s : State) (n : Nat) : (s.fillBuckets n).clmPtr = s.clmPtr := rfl
@[simp] theorem fillBuckets_clmLast (s : State) (n : Nat) : (s.fillBuckets n).clmLast = s.clmLast := rfl
@[simp] theorem fillBuckets_clmEff (s : State) (n : Nat) : (s.fillBuckets n).clmEff = s.clmEff := rfl
@[simp] theorem fillBuckets_colrecs (s : State) (n : Nat) : (s.fillBuckets n).colrecs = s.colrecs := rfl
@[simp] theorem fillBuckets_colls (s : State) (n : Nat) : (s.fillBuckets n).colls = s.colls := rfl
@[simp] theorem fillBuckets_readys (s : State) (n : Nat) : (s.fillBuckets n).readys = s.readys := rfl
@[simp] theorem fillBuckets_scans (s : State) (n : Nat) : (s.fillBuckets n).scans = s.scans := rfl
@[simp] theorem fillBuckets_trackers (s : State) (n : Nat) : (s.fillBuckets n).trackers = s.trackers := rfl
@[simp] theorem fillBuckets_auxSeen (s : State) (n : Nat) : (s.fillBuckets n).auxSeen = s.auxSeen := rfl
@[simp] theorem fillBuckets_psns (s : State) (n : Nat) : (s.fillBuckets n).psns = s.psns := rfl
@[simp] theorem fillBuckets_rings (s : State) (n : Nat) : (s.fillBuckets n).rings = s.rings := rfl
@[simp] theorem fillBuckets_squashTo (s : State) (n : Nat) : (s.fillBuckets n).squashTo = s.squashTo := rfl
@[simp] theorem fillBuckets_hwatch (s : State) (n : Nat) : (s.fillBuckets n).hwatch = s.hwatch := rfl
@[simp] theorem fillBuckets_hgens (s : State) (n : Nat) : (s.fillBuckets n).hgens = s.hgens := rfl
@[simp] theorem fillBuckets_accs (s : State) (n : Nat) : (s.fillBuckets n).accs = s.accs := rfl
@[simp] theorem fillBuckets_cfgWait (s : State) (n : Nat) : (s.fillBuckets n).cfgWait = s.cfgWait := rfl
@[simp] theorem fillBuckets_cfgVal (s : State) (n : Nat) : (s.fillBuckets n).cfgVal = s.cfgVal := rfl
@[simp] theorem fillBuckets_jtag (s : State) (n : Nat) : (s.fillBuckets n).jtag = s.jtag := rfl
@[simp] theorem fillBuckets_cfgAck (s : State) (n : Nat) : (s.fillBuckets n).cfgAck = s.cfgAck := rfl
@[simp] theorem fillBuckets_sems (s : State) (n : Nat) : (s.fillBuckets n).sems = s.sems := rfl
@[simp] theorem fillBuckets_watches (s : State) (n : Nat) : (s.fillBuckets n).watches = s.watches := rfl
@[simp] theorem fillBuckets_ntfq (s : State) (n : Nat) : (s.fillBuckets n).ntfq = s.ntfq := rfl
@[simp] theorem fillBuckets_bars (s : State) (n : Nat) : (s.fillBuckets n).bars = s.bars := rfl
@[simp] theorem fillBuckets_realigns (s : State) (n : Nat) : (s.fillBuckets n).realigns = s.realigns := rfl
@[simp] theorem fillBuckets_armed (s : State) (n : Nat) : (s.fillBuckets n).armed = s.armed := rfl
@[simp] theorem fillBuckets_links (s : State) (n : Nat) : (s.fillBuckets n).links = s.links := rfl
@[simp] theorem fillBuckets_asms (s : State) (n : Nat) : (s.fillBuckets n).asms = s.asms := rfl
@[simp] theorem fillBuckets_exits (s : State) (n : Nat) : (s.fillBuckets n).exits = s.exits := rfl
@[simp] theorem fillBuckets_rtx (s : State) (n : Nat) : (s.fillBuckets n).rtx = s.rtx := rfl
@[simp] theorem fillBuckets_injecting (s : State) (n : Nat) : (s.fillBuckets n).injecting = s.injecting := rfl
@[simp] theorem fillBuckets_filt (s : State) (n : Nat) : (s.fillBuckets n).filt = s.filt := rfl
@[simp] theorem fillBuckets_keys (s : State) (n : Nat) : (s.fillBuckets n).keys = s.keys := rfl
@[simp] theorem fillBuckets_fuse (s : State) (n : Nat) : (s.fillBuckets n).fuse = s.fuse := rfl
@[simp] theorem fillBuckets_boot (s : State) (n : Nat) : (s.fillBuckets n).boot = s.boot := rfl
@[simp] theorem fillBuckets_gov (s : State) (n : Nat) : (s.fillBuckets n).gov = s.gov := rfl
@[simp] theorem fillBuckets_trans (s : State) (n : Nat) : (s.fillBuckets n).trans = s.trans := rfl
@[simp] theorem fillBuckets_autos (s : State) (n : Nat) : (s.fillBuckets n).autos = s.autos := rfl
@[simp] theorem fillBuckets_drain (s : State) (n : Nat) : (s.fillBuckets n).drain = s.drain := rfl
@[simp] theorem fillBuckets_transq (s : State) (n : Nat) : (s.fillBuckets n).transq = s.transq := rfl
@[simp] theorem fillBuckets_upq (s : State) (n : Nat) : (s.fillBuckets n).upq = s.upq := rfl
@[simp] theorem fillBuckets_lastSw (s : State) (n : Nat) : (s.fillBuckets n).lastSw = s.lastSw := rfl
@[simp] theorem fillBuckets_pswEn (s : State) (n : Nat) : (s.fillBuckets n).pswEn = s.pswEn := rfl
@[simp] theorem fillBuckets_isoLow (s : State) (n : Nat) : (s.fillBuckets n).isoLow = s.isoLow := rfl
@[simp] theorem fillBuckets_rankCnt (s : State) (n : Nat) : (s.fillBuckets n).rankCnt = s.rankCnt := rfl
@[simp] theorem fillBuckets_xheld (s : State) (n : Nat) : (s.fillBuckets n).xheld = s.xheld := rfl
@[simp] theorem fillBuckets_out (s : State) (n : Nat) : (s.fillBuckets n).out = s.out := rfl
@[simp] theorem fillBuckets_free (s : State) (n : Nat) : (s.fillBuckets n).free = s.free := rfl
@[simp] theorem fillBuckets_pending (s : State) (n : Nat) : (s.fillBuckets n).pending = s.pending := rfl

/-! ### `passCyc` -/

/-- The copies of the East units change the snapshot, and nothing else. -/
theorem snapEast_eq (s : State) (c : Nat) : ∃ t d e, s.snapEast c = { s with snapTlm := t, snapDepth := d, snapDue := e } := by
  unfold snapEast snapUnits
  split
  · exact ⟨_, _, _, rfl⟩
  · split <;> exact ⟨_, _, _, rfl⟩

/-- Passing cycles moves the clocks, the token buckets and a snapshot that the East units owe, and nothing else. -/
theorem passCyc_eq (s : State) (c : Nat) : ∃ y m n b p t d e,
    s.passCyc c = { s with
      cyc := y, tmo := m, sub := n, buckets := b, spn := { s.spn with phase := p }, snapTlm := t, snapDepth := d, snapDue := e } := by
  obtain ⟨_, _, _, h⟩ := snapEast_eq s c
  unfold passCyc; rw [h]; dsimp only
  split
  · split <;> exact ⟨_, _, _, _, _, _, _, _, rfl⟩
  · split <;> exact ⟨_, _, _, _, _, _, _, _, rfl⟩

@[simp] theorem passCyc_build (s : State) (c : Nat) : (s.passCyc c).build = s.build := by obtain ⟨_, _, _, _, _, _, _, _, h⟩ := passCyc_eq s c; rw [h]
@[simp] theorem passCyc_regs (s : State) (c : Nat) : (s.passCyc c).regs = s.regs := by obtain ⟨_, _, _, _, _, _, _, _, h⟩ := passCyc_eq s c; rw [h]
@[simp] theorem passCyc_tlm (s : State) (c : Nat) : (s.passCyc c).tlm = s.tlm := by obtain ⟨_, _, _, _, _, _, _, _, h⟩ := passCyc_eq s c; rw [h]
@[simp] theorem passCyc_trace (s : State) (c : Nat) : (s.passCyc c).trace = s.trace := by obtain ⟨_, _, _, _, _, _, _, _, h⟩ := passCyc_eq s c; rw [h]
@[simp] theorem passCyc_traceq (s : State) (c : Nat) : (s.passCyc c).traceq = s.traceq := by obtain ⟨_, _, _, _, _, _, _, _, h⟩ := passCyc_eq s c; rw [h]
@[simp] theorem passCyc_probing (s : State) (c : Nat) : (s.passCyc c).probing = s.probing := by obtain ⟨_, _, _, _, _, _, _, _, h⟩ := passCyc_eq s c; rw [h]
@[simp] theorem passCyc_mirAt (s : State) (c : Nat) : (s.passCyc c).mirAt = s.mirAt := by obtain ⟨_, _, _, _, _, _, _, _, h⟩ := passCyc_eq s c; rw [h]
@[simp] theorem passCyc_traceAt (s : State) (c : Nat) : (s.passCyc c).traceAt = s.traceAt := by obtain ⟨_, _, _, _, _, _, _, _, h⟩ := passCyc_eq s c; rw [h]
@[simp] theorem passCyc_postLeft (s : State) (c : Nat) : (s.passCyc c).postLeft = s.postLeft := by obtain ⟨_, _, _, _, _, _, _, _, h⟩ := passCyc_eq s c; rw [h]
@[simp] theorem passCyc_reports (s : State) (c : Nat) : (s.passCyc c).reports = s.reports := by obtain ⟨_, _, _, _, _, _, _, _, h⟩ := passCyc_eq s c; rw [h]
@[simp] theorem passCyc_log (s : State) (c : Nat) : (s.passCyc c).log = s.log := by obtain ⟨_, _, _, _, _, _, _, _, h⟩ := passCyc_eq s c; rw [h]
@[simp] theorem passCyc_pendTurn (s : State) (c : Nat) : (s.passCyc c).pendTurn = s.pendTurn := by obtain ⟨_, _, _, _, _, _, _, _, h⟩ := passCyc_eq s c; rw [h]
@[simp] theorem passCyc_paceEdge (s : State) (c : Nat) : (s.passCyc c).paceEdge = s.paceEdge := by obtain ⟨_, _, _, _, _, _, _, _, h⟩ := passCyc_eq s c; rw [h]
@[simp] theorem passCyc_wires (s : State) (c : Nat) : (s.passCyc c).wires = s.wires := by obtain ⟨_, _, _, _, _, _, _, _, h⟩ := passCyc_eq s c; rw [h]
@[simp] theorem passCyc_buf (s : State) (c : Nat) : (s.passCyc c).buf = s.buf := by obtain ⟨_, _, _, _, _, _, _, _, h⟩ := passCyc_eq s c; rw [h]
@[simp] theorem passCyc_cur (s : State) (c : Nat) : (s.passCyc c).cur = s.cur := by obtain ⟨_, _, _, _, _, _, _, _, h⟩ := passCyc_eq s c; rw [h]
@[simp] theorem passCyc_own (s : State) (c : Nat) : (s.passCyc c).own = s.own := by obtain ⟨_, _, _, _, _, _, _, _, h⟩ := passCyc_eq s c; rw [h]
@[simp] theorem passCyc_owed (s : State) (c : Nat) : (s.passCyc c).owed = s.owed := by obtain ⟨_, _, _, _, _, _, _, _, h⟩ := passCyc_eq s c; rw [h]
@[simp] theorem passCyc_crw (s : State) (c : Nat) : (s.passCyc c).crw = s.crw := by obtain ⟨_, _, _, _, _, _, _, _, h⟩ := passCyc_eq s c; rw [h]
@[simp] theorem passCyc_rr (s : State) (c : Nat) : (s.passCyc c).rr = s.rr := by obtain ⟨_, _, _, _, _, _, _, _, h⟩ := passCyc_eq s c; rw [h]
@[simp] theorem passCyc_refl (s : State) (c : Nat) : (s.passCyc c).refl = s.refl := by obtain ⟨_, _, _, _, _, _, _, _, h⟩ := passCyc_eq s c; rw [h]
@[simp] theorem passCyc_burl (s : State) (c : Nat) : (s.passCyc c).burl = s.burl := by obtain ⟨_, _, _, _, _, _, _, _, h⟩ := passCyc_eq s c; rw [h]
@[simp] theorem passCyc_injSt (s : State) (c : Nat) : (s.passCyc c).injSt = s.injSt := by obtain ⟨_, _, _, _, _, _, _, _, h⟩ := passCyc_eq s c; rw [h]
@[simp] theorem passCyc_sendq (s : State) (c : Nat) : (s.passCyc c).sendq = s.sendq := by obtain ⟨_, _, _, _, _, _, _, _, h⟩ := passCyc_eq s c; rw [h]
@[simp] theorem passCyc_rx (s : State) (c : Nat) : (s.passCyc c).rx = s.rx := by obtain ⟨_, _, _, _, _, _, _, _, h⟩ := passCyc_eq s c; rw [h]
@[simp] theorem passCyc_arrivals (s : State) (c : Nat) : (s.passCyc c).arrivals = s.arrivals := by obtain ⟨_, _, _, _, _, _, _, _, h⟩ := passCyc_eq s c; rw [h]
@[simp] theorem passCyc_ram (s : State) (c : Nat) : (s.passCyc c).ram = s.ram := by obtain ⟨_, _, _, _, _, _, _, _, h⟩ := passCyc_eq s c; rw [h]
@[simp] theorem passCyc_ramBad (s : State) (c : Nat) : (s.passCyc c).ramBad = s.ramBad := by obtain ⟨_, _, _, _, _, _, _, _, h⟩ := passCyc_eq s c; rw [h]
@[simp] theorem passCyc_txns (s : State) (c : Nat) : (s.passCyc c).txns = s.txns := by obtain ⟨_, _, _, _, _, _, _, _, h⟩ := passCyc_eq s c; rw [h]
@[simp] theorem passCyc_nextId (s : State) (c : Nat) : (s.passCyc c).nextId = s.nextId := by obtain ⟨_, _, _, _, _, _, _, _, h⟩ := passCyc_eq s c; rw [h]
@[simp] theorem passCyc_deadTags (s : State) (c : Nat) : (s.passCyc c).deadTags = s.deadTags := by obtain ⟨_, _, _, _, _, _, _, _, h⟩ := passCyc_eq s c; rw [h]
@[simp] theorem passCyc_tapw (s : State) (c : Nat) : (s.passCyc c).tapw = s.tapw := by obtain ⟨_, _, _, _, _, _, _, _, h⟩ := passCyc_eq s c; rw [h]
@[simp] theorem passCyc_mwNext (s : State) (c : Nat) : (s.passCyc c).mwNext = s.mwNext := by obtain ⟨_, _, _, _, _, _, _, _, h⟩ := passCyc_eq s c; rw [h]
@[simp] theorem passCyc_lathe (s : State) (c : Nat) : (s.passCyc c).lathe = s.lathe := by obtain ⟨_, _, _, _, _, _, _, _, h⟩ := passCyc_eq s c; rw [h]
@[simp] theorem passCyc_ops (s : State) (c : Nat) : (s.passCyc c).ops = s.ops := by obtain ⟨_, _, _, _, _, _, _, _, h⟩ := passCyc_eq s c; rw [h]
@[simp] theorem passCyc_reqs (s : State) (c : Nat) : (s.passCyc c).reqs = s.reqs := by obtain ⟨_, _, _, _, _, _, _, _, h⟩ := passCyc_eq s c; rw [h]
@[simp] theorem passCyc_sslots (s : State) (c : Nat) : (s.passCyc c).sslots = s.sslots := by obtain ⟨_, _, _, _, _, _, _, _, h⟩ := passCyc_eq s c; rw [h]
@[simp] theorem passCyc_rslots (s : State) (c : Nat) : (s.passCyc c).rslots = s.rslots := by obtain ⟨_, _, _, _, _, _, _, _, h⟩ := passCyc_eq s c; rw [h]
@[simp] theorem passCyc_gens (s : State) (c : Nat) : (s.passCyc c).gens = s.gens := by obtain ⟨_, _, _, _, _, _, _, _, h⟩ := passCyc_eq s c; rw [h]
@[simp] theorem passCyc_rankC (s : State) (c : Nat) : (s.passCyc c).rankC = s.rankC := by obtain ⟨_, _, _, _, _, _, _, _, h⟩ := passCyc_eq s c; rw [h]
@[simp] theorem passCyc_pathC (s : State) (c : Nat) : (s.passCyc c).pathC = s.pathC := by obtain ⟨_, _, _, _, _, _, _, _, h⟩ := passCyc_eq s c; rw [h]
@[simp] theorem passCyc_smapC (s : State) (c : Nat) : (s.passCyc c).smapC = s.smapC := by obtain ⟨_, _, _, _, _, _, _, _, h⟩ := passCyc_eq s c; rw [h]
@[simp] theorem passCyc_blank (s : State) (c : Nat) : (s.passCyc c).blank = s.blank := by obtain ⟨_, _, _, _, _, _, _, _, h⟩ := passCyc_eq s c; rw [h]
@[simp] theorem passCyc_spills (s : State) (c : Nat) : (s.passCyc c).spills = s.spills := by obtain ⟨_, _, _, _, _, _, _, _, h⟩ := passCyc_eq s c; rw [h]
@[simp] theorem passCyc_holds (s : State) (c : Nat) : (s.passCyc c).holds = s.holds := by obtain ⟨_, _, _, _, _, _, _, _, h⟩ := passCyc_eq s c; rw [h]
@[simp] theorem passCyc_relayq (s : State) (c : Nat) : (s.passCyc c).relayq = s.relayq := by obtain ⟨_, _, _, _, _, _, _, _, h⟩ := passCyc_eq s c; rw [h]
@[simp] theorem passCyc_farq (s : State) (c : Nat) : (s.passCyc c).farq = s.farq := by obtain ⟨_, _, _, _, _, _, _, _, h⟩ := passCyc_eq s c; rw [h]
@[simp] theorem passCyc_tapq (s : State) (c : Nat) : (s.passCyc c).tapq = s.tapq := by obtain ⟨_, _, _, _, _, _, _, _, h⟩ := passCyc_eq s c; rw [h]
@[simp] theorem passCyc_smsgs (s : State) (c : Nat) : (s.passCyc c).smsgs = s.smsgs := by obtain ⟨_, _, _, _, _, _, _, _, h⟩ := passCyc_eq s c; rw [h]
@[simp] theorem passCyc_rlands (s : State) (c : Nat) : (s.passCyc c).rlands = s.rlands := by obtain ⟨_, _, _, _, _, _, _, _, h⟩ := passCyc_eq s c; rw [h]
@[simp] theorem passCyc_lazies (s : State) (c : Nat) : (s.passCyc c).lazies = s.lazies := by obtain ⟨_, _, _, _, _, _, _, _, h⟩ := passCyc_eq s c; rw [h]
@[simp] theorem passCyc_selPtr (s : State) (c : Nat) : (s.passCyc c).selPtr = s.selPtr := by obtain ⟨_, _, _, _, _, _, _, _, h⟩ := passCyc_eq s c; rw [h]
@[simp] theorem passCyc_bigs (s : State) (c : Nat) : (s.passCyc c).bigs = s.bigs := by obtain ⟨_, _, _, _, _, _, _, _, h⟩ := passCyc_eq s c; rw [h]
@[simp] theorem passCyc_accJobs (s : State) (c : Nat) : (s.passCyc c).accJobs = s.accJobs := by obtain ⟨_, _, _, _, _, _, _, _, h⟩ := passCyc_eq s c; rw [h]
@[simp] theorem passCyc_bents (s : State) (c : Nat) : (s.passCyc c).bents = s.bents := by obtain ⟨_, _, _, _, _, _, _, _, h⟩ := passCyc_eq s c; rw [h]
@[simp] theorem passCyc_bslots (s : State) (c : Nat) : (s.passCyc c).bslots = s.bslots := by obtain ⟨_, _, _, _, _, _, _, _, h⟩ := passCyc_eq s c; rw [h]
@[simp] theorem passCyc_ownAns (s : State) (c : Nat) : (s.passCyc c).ownAns = s.ownAns := by obtain ⟨_, _, _, _, _, _, _, _, h⟩ := passCyc_eq s c; rw [h]
@[simp] theorem passCyc_pwReq (s : State) (c : Nat) : (s.passCyc c).pwReq = s.pwReq := by obtain ⟨_, _, _, _, _, _, _, _, h⟩ := passCyc_eq s c; rw [h]
@[simp] theorem passCyc_clmPtr (s : State) (c : Nat) : (s.passCyc c).clmPtr = s.clmPtr := by obtain ⟨_, _, _, _, _, _, _, _, h⟩ := passCyc_eq s c; rw [h]
@[simp] theorem passCyc_clmLast (s : State) (c : Nat) : (s.passCyc c).clmLast = s.clmLast := by obtain ⟨_, _, _, _, _, _, _, _, h⟩ := passCyc_eq s c; rw [h]
@[simp] theorem passCyc_clmEff (s : State) (c : Nat) : (s.passCyc c).clmEff = s.clmEff := by obtain ⟨_, _, _, _, _, _, _, _, h⟩ := passCyc_eq s c; rw [h]
@[simp] theorem passCyc_colrecs (s : State) (c : Nat) : (s.passCyc c).colrecs = s.colrecs := by obtain ⟨_, _, _, _, _, _, _, _, h⟩ := passCyc_eq s c; rw [h]
@[simp] theorem passCyc_colls (s : State) (c : Nat) : (s.passCyc c).colls = s.colls := by obtain ⟨_, _, _, _, _, _, _, _, h⟩ := passCyc_eq s c; rw [h]
@[simp] theorem passCyc_readys (s : State) (c : Nat) : (s.passCyc c).readys = s.readys := by obtain ⟨_, _, _, _, _, _, _, _, h⟩ := passCyc_eq s c; rw [h]
@[simp] theorem passCyc_scans (s : State) (c : Nat) : (s.passCyc c).scans = s.scans := by obtain ⟨_, _, _, _, _, _, _, _, h⟩ := passCyc_eq s c; rw [h]
@[simp] theorem passCyc_trackers (s : State) (c : Nat) : (s.passCyc c).trackers = s.trackers := by obtain ⟨_, _, _, _, _, _, _, _, h⟩ := passCyc_eq s c; rw [h]
@[simp] theorem passCyc_auxSeen (s : State) (c : Nat) : (s.passCyc c).auxSeen = s.auxSeen := by obtain ⟨_, _, _, _, _, _, _, _, h⟩ := passCyc_eq s c; rw [h]
@[simp] theorem passCyc_psns (s : State) (c : Nat) : (s.passCyc c).psns = s.psns := by obtain ⟨_, _, _, _, _, _, _, _, h⟩ := passCyc_eq s c; rw [h]
@[simp] theorem passCyc_rings (s : State) (c : Nat) : (s.passCyc c).rings = s.rings := by obtain ⟨_, _, _, _, _, _, _, _, h⟩ := passCyc_eq s c; rw [h]
@[simp] theorem passCyc_squashTo (s : State) (c : Nat) : (s.passCyc c).squashTo = s.squashTo := by obtain ⟨_, _, _, _, _, _, _, _, h⟩ := passCyc_eq s c; rw [h]
@[simp] theorem passCyc_hwatch (s : State) (c : Nat) : (s.passCyc c).hwatch = s.hwatch := by obtain ⟨_, _, _, _, _, _, _, _, h⟩ := passCyc_eq s c; rw [h]
@[simp] theorem passCyc_hgens (s : State) (c : Nat) : (s.passCyc c).hgens = s.hgens := by obtain ⟨_, _, _, _, _, _, _, _, h⟩ := passCyc_eq s c; rw [h]
@[simp] theorem passCyc_accs (s : State) (c : Nat) : (s.passCyc c).accs = s.accs := by obtain ⟨_, _, _, _, _, _, _, _, h⟩ := passCyc_eq s c; rw [h]
@[simp] theorem passCyc_cfgWait (s : State) (c : Nat) : (s.passCyc c).cfgWait = s.cfgWait := by obtain ⟨_, _, _, _, _, _, _, _, h⟩ := passCyc_eq s c; rw [h]
@[simp] theorem passCyc_cfgVal (s : State) (c : Nat) : (s.passCyc c).cfgVal = s.cfgVal := by obtain ⟨_, _, _, _, _, _, _, _, h⟩ := passCyc_eq s c; rw [h]
@[simp] theorem passCyc_jtag (s : State) (c : Nat) : (s.passCyc c).jtag = s.jtag := by obtain ⟨_, _, _, _, _, _, _, _, h⟩ := passCyc_eq s c; rw [h]
@[simp] theorem passCyc_cfgAck (s : State) (c : Nat) : (s.passCyc c).cfgAck = s.cfgAck := by obtain ⟨_, _, _, _, _, _, _, _, h⟩ := passCyc_eq s c; rw [h]
@[simp] theorem passCyc_sems (s : State) (c : Nat) : (s.passCyc c).sems = s.sems := by obtain ⟨_, _, _, _, _, _, _, _, h⟩ := passCyc_eq s c; rw [h]
@[simp] theorem passCyc_watches (s : State) (c : Nat) : (s.passCyc c).watches = s.watches := by obtain ⟨_, _, _, _, _, _, _, _, h⟩ := passCyc_eq s c; rw [h]
@[simp] theorem passCyc_ntfq (s : State) (c : Nat) : (s.passCyc c).ntfq = s.ntfq := by obtain ⟨_, _, _, _, _, _, _, _, h⟩ := passCyc_eq s c; rw [h]
@[simp] theorem passCyc_bars (s : State) (c : Nat) : (s.passCyc c).bars = s.bars := by obtain ⟨_, _, _, _, _, _, _, _, h⟩ := passCyc_eq s c; rw [h]
@[simp] theorem passCyc_realigns (s : State) (c : Nat) : (s.passCyc c).realigns = s.realigns := by obtain ⟨_, _, _, _, _, _, _, _, h⟩ := passCyc_eq s c; rw [h]
@[simp] theorem passCyc_armed (s : State) (c : Nat) : (s.passCyc c).armed = s.armed := by obtain ⟨_, _, _, _, _, _, _, _, h⟩ := passCyc_eq s c; rw [h]
@[simp] theorem passCyc_links (s : State) (c : Nat) : (s.passCyc c).links = s.links := by obtain ⟨_, _, _, _, _, _, _, _, h⟩ := passCyc_eq s c; rw [h]
@[simp] theorem passCyc_asms (s : State) (c : Nat) : (s.passCyc c).asms = s.asms := by obtain ⟨_, _, _, _, _, _, _, _, h⟩ := passCyc_eq s c; rw [h]
@[simp] theorem passCyc_exits (s : State) (c : Nat) : (s.passCyc c).exits = s.exits := by obtain ⟨_, _, _, _, _, _, _, _, h⟩ := passCyc_eq s c; rw [h]
@[simp] theorem passCyc_rtx (s : State) (c : Nat) : (s.passCyc c).rtx = s.rtx := by obtain ⟨_, _, _, _, _, _, _, _, h⟩ := passCyc_eq s c; rw [h]
@[simp] theorem passCyc_injecting (s : State) (c : Nat) : (s.passCyc c).injecting = s.injecting := by obtain ⟨_, _, _, _, _, _, _, _, h⟩ := passCyc_eq s c; rw [h]
@[simp] theorem passCyc_filt (s : State) (c : Nat) : (s.passCyc c).filt = s.filt := by obtain ⟨_, _, _, _, _, _, _, _, h⟩ := passCyc_eq s c; rw [h]
@[simp] theorem passCyc_keys (s : State) (c : Nat) : (s.passCyc c).keys = s.keys := by obtain ⟨_, _, _, _, _, _, _, _, h⟩ := passCyc_eq s c; rw [h]
@[simp] theorem passCyc_fuse (s : State) (c : Nat) : (s.passCyc c).fuse = s.fuse := by obtain ⟨_, _, _, _, _, _, _, _, h⟩ := passCyc_eq s c; rw [h]
@[simp] theorem passCyc_boot (s : State) (c : Nat) : (s.passCyc c).boot = s.boot := by obtain ⟨_, _, _, _, _, _, _, _, h⟩ := passCyc_eq s c; rw [h]
@[simp] theorem passCyc_gov (s : State) (c : Nat) : (s.passCyc c).gov = s.gov := by obtain ⟨_, _, _, _, _, _, _, _, h⟩ := passCyc_eq s c; rw [h]
@[simp] theorem passCyc_trans (s : State) (c : Nat) : (s.passCyc c).trans = s.trans := by obtain ⟨_, _, _, _, _, _, _, _, h⟩ := passCyc_eq s c; rw [h]
@[simp] theorem passCyc_autos (s : State) (c : Nat) : (s.passCyc c).autos = s.autos := by obtain ⟨_, _, _, _, _, _, _, _, h⟩ := passCyc_eq s c; rw [h]
@[simp] theorem passCyc_drain (s : State) (c : Nat) : (s.passCyc c).drain = s.drain := by obtain ⟨_, _, _, _, _, _, _, _, h⟩ := passCyc_eq s c; rw [h]
@[simp] theorem passCyc_transq (s : State) (c : Nat) : (s.passCyc c).transq = s.transq := by obtain ⟨_, _, _, _, _, _, _, _, h⟩ := passCyc_eq s c; rw [h]
@[simp] theorem passCyc_upq (s : State) (c : Nat) : (s.passCyc c).upq = s.upq := by obtain ⟨_, _, _, _, _, _, _, _, h⟩ := passCyc_eq s c; rw [h]
@[simp] theorem passCyc_lastSw (s : State) (c : Nat) : (s.passCyc c).lastSw = s.lastSw := by obtain ⟨_, _, _, _, _, _, _, _, h⟩ := passCyc_eq s c; rw [h]
@[simp] theorem passCyc_pswEn (s : State) (c : Nat) : (s.passCyc c).pswEn = s.pswEn := by obtain ⟨_, _, _, _, _, _, _, _, h⟩ := passCyc_eq s c; rw [h]
@[simp] theorem passCyc_isoLow (s : State) (c : Nat) : (s.passCyc c).isoLow = s.isoLow := by obtain ⟨_, _, _, _, _, _, _, _, h⟩ := passCyc_eq s c; rw [h]
@[simp] theorem passCyc_rankCnt (s : State) (c : Nat) : (s.passCyc c).rankCnt = s.rankCnt := by obtain ⟨_, _, _, _, _, _, _, _, h⟩ := passCyc_eq s c; rw [h]
@[simp] theorem passCyc_xheld (s : State) (c : Nat) : (s.passCyc c).xheld = s.xheld := by obtain ⟨_, _, _, _, _, _, _, _, h⟩ := passCyc_eq s c; rw [h]
@[simp] theorem passCyc_out (s : State) (c : Nat) : (s.passCyc c).out = s.out := by obtain ⟨_, _, _, _, _, _, _, _, h⟩ := passCyc_eq s c; rw [h]
@[simp] theorem passCyc_free (s : State) (c : Nat) : (s.passCyc c).free = s.free := by obtain ⟨_, _, _, _, _, _, _, _, h⟩ := passCyc_eq s c; rw [h]
@[simp] theorem passCyc_pending (s : State) (c : Nat) : (s.passCyc c).pending = s.pending := by obtain ⟨_, _, _, _, _, _, _, _, h⟩ := passCyc_eq s c; rw [h]
@[simp] theorem passCyc_turn (s : State) (c : Nat) : (s.passCyc c).spn.turn = s.spn.turn := by obtain ⟨_, _, _, _, _, _, _, _, h⟩ := passCyc_eq s c; rw [h]
@[simp] theorem passCyc_notch (s : State) (c : Nat) : (s.passCyc c).spn.notch = s.spn.notch := by obtain ⟨_, _, _, _, _, _, _, _, h⟩ := passCyc_eq s c; rw [h]
@[simp] theorem passCyc_cyc (s : State) (c : Nat) : (s.passCyc c).cyc = s.cyc + (c - s.cyc) := by
  obtain ⟨_, _, _, h⟩ := snapEast_eq s c
  unfold passCyc; rw [h]; dsimp only
  split
  · split <;> rfl
  · split <;> rfl

/-! ### `passTo` -/

/-- Passing notches moves the clocks, the token buckets and a snapshot that the East units owe, and nothing else. -/
theorem passTo_eq (s : State) (d : Nat) : ∃ y m n b p t e f,
    s.passTo d = { s with
      cyc := y, tmo := m, sub := n, buckets := b, spn := { s.spn with phase := p }, snapTlm := t, snapDepth := e, snapDue := f } := by
  unfold passTo; split; · exact ⟨_, _, _, _, _, _, _, _, rfl⟩
  split; · exact ⟨_, _, _, _, _, _, _, _, rfl⟩
  obtain ⟨_, _, _, _, _, _, _, _, h⟩ := passCyc_eq s (s.cyc + (8 * (d - s.tmo) - s.sub))
  rw [h]; exact ⟨_, _, _, _, _, _, _, _, rfl⟩

@[simp] theorem passTo_build (s : State) (d : Nat) : (s.passTo d).build = s.build := by obtain ⟨_, _, _, _, _, _, _, _, h⟩ := passTo_eq s d; rw [h]
@[simp] theorem passTo_regs (s : State) (d : Nat) : (s.passTo d).regs = s.regs := by obtain ⟨_, _, _, _, _, _, _, _, h⟩ := passTo_eq s d; rw [h]
@[simp] theorem passTo_tlm (s : State) (d : Nat) : (s.passTo d).tlm = s.tlm := by obtain ⟨_, _, _, _, _, _, _, _, h⟩ := passTo_eq s d; rw [h]
@[simp] theorem passTo_trace (s : State) (d : Nat) : (s.passTo d).trace = s.trace := by obtain ⟨_, _, _, _, _, _, _, _, h⟩ := passTo_eq s d; rw [h]
@[simp] theorem passTo_traceq (s : State) (d : Nat) : (s.passTo d).traceq = s.traceq := by obtain ⟨_, _, _, _, _, _, _, _, h⟩ := passTo_eq s d; rw [h]
@[simp] theorem passTo_probing (s : State) (d : Nat) : (s.passTo d).probing = s.probing := by obtain ⟨_, _, _, _, _, _, _, _, h⟩ := passTo_eq s d; rw [h]
@[simp] theorem passTo_mirAt (s : State) (d : Nat) : (s.passTo d).mirAt = s.mirAt := by obtain ⟨_, _, _, _, _, _, _, _, h⟩ := passTo_eq s d; rw [h]
@[simp] theorem passTo_traceAt (s : State) (d : Nat) : (s.passTo d).traceAt = s.traceAt := by obtain ⟨_, _, _, _, _, _, _, _, h⟩ := passTo_eq s d; rw [h]
@[simp] theorem passTo_postLeft (s : State) (d : Nat) : (s.passTo d).postLeft = s.postLeft := by obtain ⟨_, _, _, _, _, _, _, _, h⟩ := passTo_eq s d; rw [h]
@[simp] theorem passTo_reports (s : State) (d : Nat) : (s.passTo d).reports = s.reports := by obtain ⟨_, _, _, _, _, _, _, _, h⟩ := passTo_eq s d; rw [h]
@[simp] theorem passTo_log (s : State) (d : Nat) : (s.passTo d).log = s.log := by obtain ⟨_, _, _, _, _, _, _, _, h⟩ := passTo_eq s d; rw [h]
@[simp] theorem passTo_pendTurn (s : State) (d : Nat) : (s.passTo d).pendTurn = s.pendTurn := by obtain ⟨_, _, _, _, _, _, _, _, h⟩ := passTo_eq s d; rw [h]
@[simp] theorem passTo_paceEdge (s : State) (d : Nat) : (s.passTo d).paceEdge = s.paceEdge := by obtain ⟨_, _, _, _, _, _, _, _, h⟩ := passTo_eq s d; rw [h]
@[simp] theorem passTo_wires (s : State) (d : Nat) : (s.passTo d).wires = s.wires := by obtain ⟨_, _, _, _, _, _, _, _, h⟩ := passTo_eq s d; rw [h]
@[simp] theorem passTo_buf (s : State) (d : Nat) : (s.passTo d).buf = s.buf := by obtain ⟨_, _, _, _, _, _, _, _, h⟩ := passTo_eq s d; rw [h]
@[simp] theorem passTo_cur (s : State) (d : Nat) : (s.passTo d).cur = s.cur := by obtain ⟨_, _, _, _, _, _, _, _, h⟩ := passTo_eq s d; rw [h]
@[simp] theorem passTo_own (s : State) (d : Nat) : (s.passTo d).own = s.own := by obtain ⟨_, _, _, _, _, _, _, _, h⟩ := passTo_eq s d; rw [h]
@[simp] theorem passTo_owed (s : State) (d : Nat) : (s.passTo d).owed = s.owed := by obtain ⟨_, _, _, _, _, _, _, _, h⟩ := passTo_eq s d; rw [h]
@[simp] theorem passTo_crw (s : State) (d : Nat) : (s.passTo d).crw = s.crw := by obtain ⟨_, _, _, _, _, _, _, _, h⟩ := passTo_eq s d; rw [h]
@[simp] theorem passTo_rr (s : State) (d : Nat) : (s.passTo d).rr = s.rr := by obtain ⟨_, _, _, _, _, _, _, _, h⟩ := passTo_eq s d; rw [h]
@[simp] theorem passTo_refl (s : State) (d : Nat) : (s.passTo d).refl = s.refl := by obtain ⟨_, _, _, _, _, _, _, _, h⟩ := passTo_eq s d; rw [h]
@[simp] theorem passTo_burl (s : State) (d : Nat) : (s.passTo d).burl = s.burl := by obtain ⟨_, _, _, _, _, _, _, _, h⟩ := passTo_eq s d; rw [h]
@[simp] theorem passTo_injSt (s : State) (d : Nat) : (s.passTo d).injSt = s.injSt := by obtain ⟨_, _, _, _, _, _, _, _, h⟩ := passTo_eq s d; rw [h]
@[simp] theorem passTo_sendq (s : State) (d : Nat) : (s.passTo d).sendq = s.sendq := by obtain ⟨_, _, _, _, _, _, _, _, h⟩ := passTo_eq s d; rw [h]
@[simp] theorem passTo_rx (s : State) (d : Nat) : (s.passTo d).rx = s.rx := by obtain ⟨_, _, _, _, _, _, _, _, h⟩ := passTo_eq s d; rw [h]
@[simp] theorem passTo_arrivals (s : State) (d : Nat) : (s.passTo d).arrivals = s.arrivals := by obtain ⟨_, _, _, _, _, _, _, _, h⟩ := passTo_eq s d; rw [h]
@[simp] theorem passTo_ram (s : State) (d : Nat) : (s.passTo d).ram = s.ram := by obtain ⟨_, _, _, _, _, _, _, _, h⟩ := passTo_eq s d; rw [h]
@[simp] theorem passTo_ramBad (s : State) (d : Nat) : (s.passTo d).ramBad = s.ramBad := by obtain ⟨_, _, _, _, _, _, _, _, h⟩ := passTo_eq s d; rw [h]
@[simp] theorem passTo_txns (s : State) (d : Nat) : (s.passTo d).txns = s.txns := by obtain ⟨_, _, _, _, _, _, _, _, h⟩ := passTo_eq s d; rw [h]
@[simp] theorem passTo_nextId (s : State) (d : Nat) : (s.passTo d).nextId = s.nextId := by obtain ⟨_, _, _, _, _, _, _, _, h⟩ := passTo_eq s d; rw [h]
@[simp] theorem passTo_deadTags (s : State) (d : Nat) : (s.passTo d).deadTags = s.deadTags := by obtain ⟨_, _, _, _, _, _, _, _, h⟩ := passTo_eq s d; rw [h]
@[simp] theorem passTo_tapw (s : State) (d : Nat) : (s.passTo d).tapw = s.tapw := by obtain ⟨_, _, _, _, _, _, _, _, h⟩ := passTo_eq s d; rw [h]
@[simp] theorem passTo_mwNext (s : State) (d : Nat) : (s.passTo d).mwNext = s.mwNext := by obtain ⟨_, _, _, _, _, _, _, _, h⟩ := passTo_eq s d; rw [h]
@[simp] theorem passTo_lathe (s : State) (d : Nat) : (s.passTo d).lathe = s.lathe := by obtain ⟨_, _, _, _, _, _, _, _, h⟩ := passTo_eq s d; rw [h]
@[simp] theorem passTo_ops (s : State) (d : Nat) : (s.passTo d).ops = s.ops := by obtain ⟨_, _, _, _, _, _, _, _, h⟩ := passTo_eq s d; rw [h]
@[simp] theorem passTo_reqs (s : State) (d : Nat) : (s.passTo d).reqs = s.reqs := by obtain ⟨_, _, _, _, _, _, _, _, h⟩ := passTo_eq s d; rw [h]
@[simp] theorem passTo_sslots (s : State) (d : Nat) : (s.passTo d).sslots = s.sslots := by obtain ⟨_, _, _, _, _, _, _, _, h⟩ := passTo_eq s d; rw [h]
@[simp] theorem passTo_rslots (s : State) (d : Nat) : (s.passTo d).rslots = s.rslots := by obtain ⟨_, _, _, _, _, _, _, _, h⟩ := passTo_eq s d; rw [h]
@[simp] theorem passTo_gens (s : State) (d : Nat) : (s.passTo d).gens = s.gens := by obtain ⟨_, _, _, _, _, _, _, _, h⟩ := passTo_eq s d; rw [h]
@[simp] theorem passTo_rankC (s : State) (d : Nat) : (s.passTo d).rankC = s.rankC := by obtain ⟨_, _, _, _, _, _, _, _, h⟩ := passTo_eq s d; rw [h]
@[simp] theorem passTo_pathC (s : State) (d : Nat) : (s.passTo d).pathC = s.pathC := by obtain ⟨_, _, _, _, _, _, _, _, h⟩ := passTo_eq s d; rw [h]
@[simp] theorem passTo_smapC (s : State) (d : Nat) : (s.passTo d).smapC = s.smapC := by obtain ⟨_, _, _, _, _, _, _, _, h⟩ := passTo_eq s d; rw [h]
@[simp] theorem passTo_blank (s : State) (d : Nat) : (s.passTo d).blank = s.blank := by obtain ⟨_, _, _, _, _, _, _, _, h⟩ := passTo_eq s d; rw [h]
@[simp] theorem passTo_spills (s : State) (d : Nat) : (s.passTo d).spills = s.spills := by obtain ⟨_, _, _, _, _, _, _, _, h⟩ := passTo_eq s d; rw [h]
@[simp] theorem passTo_holds (s : State) (d : Nat) : (s.passTo d).holds = s.holds := by obtain ⟨_, _, _, _, _, _, _, _, h⟩ := passTo_eq s d; rw [h]
@[simp] theorem passTo_relayq (s : State) (d : Nat) : (s.passTo d).relayq = s.relayq := by obtain ⟨_, _, _, _, _, _, _, _, h⟩ := passTo_eq s d; rw [h]
@[simp] theorem passTo_farq (s : State) (d : Nat) : (s.passTo d).farq = s.farq := by obtain ⟨_, _, _, _, _, _, _, _, h⟩ := passTo_eq s d; rw [h]
@[simp] theorem passTo_tapq (s : State) (d : Nat) : (s.passTo d).tapq = s.tapq := by obtain ⟨_, _, _, _, _, _, _, _, h⟩ := passTo_eq s d; rw [h]
@[simp] theorem passTo_smsgs (s : State) (d : Nat) : (s.passTo d).smsgs = s.smsgs := by obtain ⟨_, _, _, _, _, _, _, _, h⟩ := passTo_eq s d; rw [h]
@[simp] theorem passTo_rlands (s : State) (d : Nat) : (s.passTo d).rlands = s.rlands := by obtain ⟨_, _, _, _, _, _, _, _, h⟩ := passTo_eq s d; rw [h]
@[simp] theorem passTo_lazies (s : State) (d : Nat) : (s.passTo d).lazies = s.lazies := by obtain ⟨_, _, _, _, _, _, _, _, h⟩ := passTo_eq s d; rw [h]
@[simp] theorem passTo_selPtr (s : State) (d : Nat) : (s.passTo d).selPtr = s.selPtr := by obtain ⟨_, _, _, _, _, _, _, _, h⟩ := passTo_eq s d; rw [h]
@[simp] theorem passTo_bigs (s : State) (d : Nat) : (s.passTo d).bigs = s.bigs := by obtain ⟨_, _, _, _, _, _, _, _, h⟩ := passTo_eq s d; rw [h]
@[simp] theorem passTo_accJobs (s : State) (d : Nat) : (s.passTo d).accJobs = s.accJobs := by obtain ⟨_, _, _, _, _, _, _, _, h⟩ := passTo_eq s d; rw [h]
@[simp] theorem passTo_bents (s : State) (d : Nat) : (s.passTo d).bents = s.bents := by obtain ⟨_, _, _, _, _, _, _, _, h⟩ := passTo_eq s d; rw [h]
@[simp] theorem passTo_bslots (s : State) (d : Nat) : (s.passTo d).bslots = s.bslots := by obtain ⟨_, _, _, _, _, _, _, _, h⟩ := passTo_eq s d; rw [h]
@[simp] theorem passTo_ownAns (s : State) (d : Nat) : (s.passTo d).ownAns = s.ownAns := by obtain ⟨_, _, _, _, _, _, _, _, h⟩ := passTo_eq s d; rw [h]
@[simp] theorem passTo_pwReq (s : State) (d : Nat) : (s.passTo d).pwReq = s.pwReq := by obtain ⟨_, _, _, _, _, _, _, _, h⟩ := passTo_eq s d; rw [h]
@[simp] theorem passTo_clmPtr (s : State) (d : Nat) : (s.passTo d).clmPtr = s.clmPtr := by obtain ⟨_, _, _, _, _, _, _, _, h⟩ := passTo_eq s d; rw [h]
@[simp] theorem passTo_clmLast (s : State) (d : Nat) : (s.passTo d).clmLast = s.clmLast := by obtain ⟨_, _, _, _, _, _, _, _, h⟩ := passTo_eq s d; rw [h]
@[simp] theorem passTo_clmEff (s : State) (d : Nat) : (s.passTo d).clmEff = s.clmEff := by obtain ⟨_, _, _, _, _, _, _, _, h⟩ := passTo_eq s d; rw [h]
@[simp] theorem passTo_colrecs (s : State) (d : Nat) : (s.passTo d).colrecs = s.colrecs := by obtain ⟨_, _, _, _, _, _, _, _, h⟩ := passTo_eq s d; rw [h]
@[simp] theorem passTo_colls (s : State) (d : Nat) : (s.passTo d).colls = s.colls := by obtain ⟨_, _, _, _, _, _, _, _, h⟩ := passTo_eq s d; rw [h]
@[simp] theorem passTo_readys (s : State) (d : Nat) : (s.passTo d).readys = s.readys := by obtain ⟨_, _, _, _, _, _, _, _, h⟩ := passTo_eq s d; rw [h]
@[simp] theorem passTo_scans (s : State) (d : Nat) : (s.passTo d).scans = s.scans := by obtain ⟨_, _, _, _, _, _, _, _, h⟩ := passTo_eq s d; rw [h]
@[simp] theorem passTo_trackers (s : State) (d : Nat) : (s.passTo d).trackers = s.trackers := by obtain ⟨_, _, _, _, _, _, _, _, h⟩ := passTo_eq s d; rw [h]
@[simp] theorem passTo_auxSeen (s : State) (d : Nat) : (s.passTo d).auxSeen = s.auxSeen := by obtain ⟨_, _, _, _, _, _, _, _, h⟩ := passTo_eq s d; rw [h]
@[simp] theorem passTo_psns (s : State) (d : Nat) : (s.passTo d).psns = s.psns := by obtain ⟨_, _, _, _, _, _, _, _, h⟩ := passTo_eq s d; rw [h]
@[simp] theorem passTo_rings (s : State) (d : Nat) : (s.passTo d).rings = s.rings := by obtain ⟨_, _, _, _, _, _, _, _, h⟩ := passTo_eq s d; rw [h]
@[simp] theorem passTo_squashTo (s : State) (d : Nat) : (s.passTo d).squashTo = s.squashTo := by obtain ⟨_, _, _, _, _, _, _, _, h⟩ := passTo_eq s d; rw [h]
@[simp] theorem passTo_hwatch (s : State) (d : Nat) : (s.passTo d).hwatch = s.hwatch := by obtain ⟨_, _, _, _, _, _, _, _, h⟩ := passTo_eq s d; rw [h]
@[simp] theorem passTo_hgens (s : State) (d : Nat) : (s.passTo d).hgens = s.hgens := by obtain ⟨_, _, _, _, _, _, _, _, h⟩ := passTo_eq s d; rw [h]
@[simp] theorem passTo_accs (s : State) (d : Nat) : (s.passTo d).accs = s.accs := by obtain ⟨_, _, _, _, _, _, _, _, h⟩ := passTo_eq s d; rw [h]
@[simp] theorem passTo_cfgWait (s : State) (d : Nat) : (s.passTo d).cfgWait = s.cfgWait := by obtain ⟨_, _, _, _, _, _, _, _, h⟩ := passTo_eq s d; rw [h]
@[simp] theorem passTo_cfgVal (s : State) (d : Nat) : (s.passTo d).cfgVal = s.cfgVal := by obtain ⟨_, _, _, _, _, _, _, _, h⟩ := passTo_eq s d; rw [h]
@[simp] theorem passTo_jtag (s : State) (d : Nat) : (s.passTo d).jtag = s.jtag := by obtain ⟨_, _, _, _, _, _, _, _, h⟩ := passTo_eq s d; rw [h]
@[simp] theorem passTo_cfgAck (s : State) (d : Nat) : (s.passTo d).cfgAck = s.cfgAck := by obtain ⟨_, _, _, _, _, _, _, _, h⟩ := passTo_eq s d; rw [h]
@[simp] theorem passTo_sems (s : State) (d : Nat) : (s.passTo d).sems = s.sems := by obtain ⟨_, _, _, _, _, _, _, _, h⟩ := passTo_eq s d; rw [h]
@[simp] theorem passTo_watches (s : State) (d : Nat) : (s.passTo d).watches = s.watches := by obtain ⟨_, _, _, _, _, _, _, _, h⟩ := passTo_eq s d; rw [h]
@[simp] theorem passTo_ntfq (s : State) (d : Nat) : (s.passTo d).ntfq = s.ntfq := by obtain ⟨_, _, _, _, _, _, _, _, h⟩ := passTo_eq s d; rw [h]
@[simp] theorem passTo_bars (s : State) (d : Nat) : (s.passTo d).bars = s.bars := by obtain ⟨_, _, _, _, _, _, _, _, h⟩ := passTo_eq s d; rw [h]
@[simp] theorem passTo_realigns (s : State) (d : Nat) : (s.passTo d).realigns = s.realigns := by obtain ⟨_, _, _, _, _, _, _, _, h⟩ := passTo_eq s d; rw [h]
@[simp] theorem passTo_armed (s : State) (d : Nat) : (s.passTo d).armed = s.armed := by obtain ⟨_, _, _, _, _, _, _, _, h⟩ := passTo_eq s d; rw [h]
@[simp] theorem passTo_links (s : State) (d : Nat) : (s.passTo d).links = s.links := by obtain ⟨_, _, _, _, _, _, _, _, h⟩ := passTo_eq s d; rw [h]
@[simp] theorem passTo_asms (s : State) (d : Nat) : (s.passTo d).asms = s.asms := by obtain ⟨_, _, _, _, _, _, _, _, h⟩ := passTo_eq s d; rw [h]
@[simp] theorem passTo_exits (s : State) (d : Nat) : (s.passTo d).exits = s.exits := by obtain ⟨_, _, _, _, _, _, _, _, h⟩ := passTo_eq s d; rw [h]
@[simp] theorem passTo_rtx (s : State) (d : Nat) : (s.passTo d).rtx = s.rtx := by obtain ⟨_, _, _, _, _, _, _, _, h⟩ := passTo_eq s d; rw [h]
@[simp] theorem passTo_injecting (s : State) (d : Nat) : (s.passTo d).injecting = s.injecting := by obtain ⟨_, _, _, _, _, _, _, _, h⟩ := passTo_eq s d; rw [h]
@[simp] theorem passTo_filt (s : State) (d : Nat) : (s.passTo d).filt = s.filt := by obtain ⟨_, _, _, _, _, _, _, _, h⟩ := passTo_eq s d; rw [h]
@[simp] theorem passTo_keys (s : State) (d : Nat) : (s.passTo d).keys = s.keys := by obtain ⟨_, _, _, _, _, _, _, _, h⟩ := passTo_eq s d; rw [h]
@[simp] theorem passTo_fuse (s : State) (d : Nat) : (s.passTo d).fuse = s.fuse := by obtain ⟨_, _, _, _, _, _, _, _, h⟩ := passTo_eq s d; rw [h]
@[simp] theorem passTo_boot (s : State) (d : Nat) : (s.passTo d).boot = s.boot := by obtain ⟨_, _, _, _, _, _, _, _, h⟩ := passTo_eq s d; rw [h]
@[simp] theorem passTo_gov (s : State) (d : Nat) : (s.passTo d).gov = s.gov := by obtain ⟨_, _, _, _, _, _, _, _, h⟩ := passTo_eq s d; rw [h]
@[simp] theorem passTo_trans (s : State) (d : Nat) : (s.passTo d).trans = s.trans := by obtain ⟨_, _, _, _, _, _, _, _, h⟩ := passTo_eq s d; rw [h]
@[simp] theorem passTo_autos (s : State) (d : Nat) : (s.passTo d).autos = s.autos := by obtain ⟨_, _, _, _, _, _, _, _, h⟩ := passTo_eq s d; rw [h]
@[simp] theorem passTo_drain (s : State) (d : Nat) : (s.passTo d).drain = s.drain := by obtain ⟨_, _, _, _, _, _, _, _, h⟩ := passTo_eq s d; rw [h]
@[simp] theorem passTo_transq (s : State) (d : Nat) : (s.passTo d).transq = s.transq := by obtain ⟨_, _, _, _, _, _, _, _, h⟩ := passTo_eq s d; rw [h]
@[simp] theorem passTo_upq (s : State) (d : Nat) : (s.passTo d).upq = s.upq := by obtain ⟨_, _, _, _, _, _, _, _, h⟩ := passTo_eq s d; rw [h]
@[simp] theorem passTo_lastSw (s : State) (d : Nat) : (s.passTo d).lastSw = s.lastSw := by obtain ⟨_, _, _, _, _, _, _, _, h⟩ := passTo_eq s d; rw [h]
@[simp] theorem passTo_pswEn (s : State) (d : Nat) : (s.passTo d).pswEn = s.pswEn := by obtain ⟨_, _, _, _, _, _, _, _, h⟩ := passTo_eq s d; rw [h]
@[simp] theorem passTo_isoLow (s : State) (d : Nat) : (s.passTo d).isoLow = s.isoLow := by obtain ⟨_, _, _, _, _, _, _, _, h⟩ := passTo_eq s d; rw [h]
@[simp] theorem passTo_rankCnt (s : State) (d : Nat) : (s.passTo d).rankCnt = s.rankCnt := by obtain ⟨_, _, _, _, _, _, _, _, h⟩ := passTo_eq s d; rw [h]
@[simp] theorem passTo_xheld (s : State) (d : Nat) : (s.passTo d).xheld = s.xheld := by obtain ⟨_, _, _, _, _, _, _, _, h⟩ := passTo_eq s d; rw [h]
@[simp] theorem passTo_out (s : State) (d : Nat) : (s.passTo d).out = s.out := by obtain ⟨_, _, _, _, _, _, _, _, h⟩ := passTo_eq s d; rw [h]
@[simp] theorem passTo_free (s : State) (d : Nat) : (s.passTo d).free = s.free := by obtain ⟨_, _, _, _, _, _, _, _, h⟩ := passTo_eq s d; rw [h]
@[simp] theorem passTo_pending (s : State) (d : Nat) : (s.passTo d).pending = s.pending := by obtain ⟨_, _, _, _, _, _, _, _, h⟩ := passTo_eq s d; rw [h]
@[simp] theorem passTo_turn (s : State) (d : Nat) : (s.passTo d).spn.turn = s.spn.turn := by obtain ⟨_, _, _, _, _, _, _, _, h⟩ := passTo_eq s d; rw [h]
@[simp] theorem passTo_notch (s : State) (d : Nat) : (s.passTo d).spn.notch = s.spn.notch := by obtain ⟨_, _, _, _, _, _, _, _, h⟩ := passTo_eq s d; rw [h]
@[simp] theorem passTo_tmo (s : State) (d : Nat) : (s.passTo d).tmo = max s.tmo d := by
  unfold passTo; split; · rfl
  split
  · exact (Nat.max_eq_left ‹_›).symm
  · exact (Nat.max_eq_right (Nat.le_of_lt (Nat.not_le.mp ‹_›))).symm

/-! ### `drawFree` -/

@[simp] theorem drawFree_build (s : State) : (s.drawFree).build = s.build := rfl
@[simp] theorem drawFree_regs (s : State) : (s.drawFree).regs = s.regs := rfl
@[simp] theorem drawFree_cyc (s : State) : (s.drawFree).cyc = s.cyc := rfl
@[simp] theorem drawFree_tmo (s : State) : (s.drawFree).tmo = s.tmo := rfl
@[simp] theorem drawFree_sub (s : State) : (s.drawFree).sub = s.sub := rfl
@[simp] theorem drawFree_spn (s : State) : (s.drawFree).spn = s.spn := rfl
@[simp] theorem drawFree_tlm (s : State) : (s.drawFree).tlm = s.tlm := rfl
@[simp] theorem drawFree_snapTlm (s : State) : (s.drawFree).snapTlm = s.snapTlm := rfl
@[simp] theorem drawFree_snapDepth (s : State) : (s.drawFree).snapDepth = s.snapDepth := rfl
@[simp] theorem drawFree_trace (s : State) : (s.drawFree).trace = s.trace := rfl
@[simp] theorem drawFree_traceq (s : State) : (s.drawFree).traceq = s.traceq := rfl
@[simp] theorem drawFree_probing (s : State) : (s.drawFree).probing = s.probing := rfl
@[simp] theorem drawFree_mirAt (s : State) : (s.drawFree).mirAt = s.mirAt := rfl
@[simp] theorem drawFree_snapDue (s : State) : (s.drawFree).snapDue = s.snapDue := rfl
@[simp] theorem drawFree_traceAt (s : State) : (s.drawFree).traceAt = s.traceAt := rfl
@[simp] theorem drawFree_postLeft (s : State) : (s.drawFree).postLeft = s.postLeft := rfl
@[simp] theorem drawFree_reports (s : State) : (s.drawFree).reports = s.reports := rfl
@[simp] theorem drawFree_log (s : State) : (s.drawFree).log = s.log := rfl
@[simp] theorem drawFree_pendTurn (s : State) : (s.drawFree).pendTurn = s.pendTurn := rfl
@[simp] theorem drawFree_paceEdge (s : State) : (s.drawFree).paceEdge = s.paceEdge := rfl
@[simp] theorem drawFree_wires (s : State) : (s.drawFree).wires = s.wires := rfl
@[simp] theorem drawFree_buf (s : State) : (s.drawFree).buf = s.buf := rfl
@[simp] theorem drawFree_cur (s : State) : (s.drawFree).cur = s.cur := rfl
@[simp] theorem drawFree_own (s : State) : (s.drawFree).own = s.own := rfl
@[simp] theorem drawFree_owed (s : State) : (s.drawFree).owed = s.owed := rfl
@[simp] theorem drawFree_crw (s : State) : (s.drawFree).crw = s.crw := rfl
@[simp] theorem drawFree_rr (s : State) : (s.drawFree).rr = s.rr := rfl
@[simp] theorem drawFree_refl (s : State) : (s.drawFree).refl = s.refl := rfl
@[simp] theorem drawFree_burl (s : State) : (s.drawFree).burl = s.burl := rfl
@[simp] theorem drawFree_injSt (s : State) : (s.drawFree).injSt = s.injSt := rfl
@[simp] theorem drawFree_sendq (s : State) : (s.drawFree).sendq = s.sendq := rfl
@[simp] theorem drawFree_rx (s : State) : (s.drawFree).rx = s.rx := rfl
@[simp] theorem drawFree_arrivals (s : State) : (s.drawFree).arrivals = s.arrivals := rfl
@[simp] theorem drawFree_ram (s : State) : (s.drawFree).ram = s.ram := rfl
@[simp] theorem drawFree_ramBad (s : State) : (s.drawFree).ramBad = s.ramBad := rfl
@[simp] theorem drawFree_txns (s : State) : (s.drawFree).txns = s.txns := rfl
@[simp] theorem drawFree_nextId (s : State) : (s.drawFree).nextId = s.nextId := rfl
@[simp] theorem drawFree_deadTags (s : State) : (s.drawFree).deadTags = s.deadTags := rfl
@[simp] theorem drawFree_tapw (s : State) : (s.drawFree).tapw = s.tapw := rfl
@[simp] theorem drawFree_mwNext (s : State) : (s.drawFree).mwNext = s.mwNext := rfl
@[simp] theorem drawFree_lathe (s : State) : (s.drawFree).lathe = s.lathe := rfl
@[simp] theorem drawFree_ops (s : State) : (s.drawFree).ops = s.ops := rfl
@[simp] theorem drawFree_reqs (s : State) : (s.drawFree).reqs = s.reqs := rfl
@[simp] theorem drawFree_sslots (s : State) : (s.drawFree).sslots = s.sslots := rfl
@[simp] theorem drawFree_rslots (s : State) : (s.drawFree).rslots = s.rslots := rfl
@[simp] theorem drawFree_gens (s : State) : (s.drawFree).gens = s.gens := rfl
@[simp] theorem drawFree_rankC (s : State) : (s.drawFree).rankC = s.rankC := rfl
@[simp] theorem drawFree_pathC (s : State) : (s.drawFree).pathC = s.pathC := rfl
@[simp] theorem drawFree_smapC (s : State) : (s.drawFree).smapC = s.smapC := rfl
@[simp] theorem drawFree_blank (s : State) : (s.drawFree).blank = s.blank := rfl
@[simp] theorem drawFree_spills (s : State) : (s.drawFree).spills = s.spills := rfl
@[simp] theorem drawFree_holds (s : State) : (s.drawFree).holds = s.holds := rfl
@[simp] theorem drawFree_relayq (s : State) : (s.drawFree).relayq = s.relayq := rfl
@[simp] theorem drawFree_farq (s : State) : (s.drawFree).farq = s.farq := rfl
@[simp] theorem drawFree_tapq (s : State) : (s.drawFree).tapq = s.tapq := rfl
@[simp] theorem drawFree_smsgs (s : State) : (s.drawFree).smsgs = s.smsgs := rfl
@[simp] theorem drawFree_rlands (s : State) : (s.drawFree).rlands = s.rlands := rfl
@[simp] theorem drawFree_lazies (s : State) : (s.drawFree).lazies = s.lazies := rfl
@[simp] theorem drawFree_selPtr (s : State) : (s.drawFree).selPtr = s.selPtr := rfl
@[simp] theorem drawFree_bigs (s : State) : (s.drawFree).bigs = s.bigs := rfl
@[simp] theorem drawFree_accJobs (s : State) : (s.drawFree).accJobs = s.accJobs := rfl
@[simp] theorem drawFree_bents (s : State) : (s.drawFree).bents = s.bents := rfl
@[simp] theorem drawFree_bslots (s : State) : (s.drawFree).bslots = s.bslots := rfl
@[simp] theorem drawFree_ownAns (s : State) : (s.drawFree).ownAns = s.ownAns := rfl
@[simp] theorem drawFree_pwReq (s : State) : (s.drawFree).pwReq = s.pwReq := rfl
@[simp] theorem drawFree_clmPtr (s : State) : (s.drawFree).clmPtr = s.clmPtr := rfl
@[simp] theorem drawFree_clmLast (s : State) : (s.drawFree).clmLast = s.clmLast := rfl
@[simp] theorem drawFree_clmEff (s : State) : (s.drawFree).clmEff = s.clmEff := rfl
@[simp] theorem drawFree_colrecs (s : State) : (s.drawFree).colrecs = s.colrecs := rfl
@[simp] theorem drawFree_colls (s : State) : (s.drawFree).colls = s.colls := rfl
@[simp] theorem drawFree_readys (s : State) : (s.drawFree).readys = s.readys := rfl
@[simp] theorem drawFree_scans (s : State) : (s.drawFree).scans = s.scans := rfl
@[simp] theorem drawFree_trackers (s : State) : (s.drawFree).trackers = s.trackers := rfl
@[simp] theorem drawFree_auxSeen (s : State) : (s.drawFree).auxSeen = s.auxSeen := rfl
@[simp] theorem drawFree_buckets (s : State) : (s.drawFree).buckets = s.buckets := rfl
@[simp] theorem drawFree_psns (s : State) : (s.drawFree).psns = s.psns := rfl
@[simp] theorem drawFree_rings (s : State) : (s.drawFree).rings = s.rings := rfl
@[simp] theorem drawFree_squashTo (s : State) : (s.drawFree).squashTo = s.squashTo := rfl
@[simp] theorem drawFree_hwatch (s : State) : (s.drawFree).hwatch = s.hwatch := rfl
@[simp] theorem drawFree_hgens (s : State) : (s.drawFree).hgens = s.hgens := rfl
@[simp] theorem drawFree_accs (s : State) : (s.drawFree).accs = s.accs := rfl
@[simp] theorem drawFree_cfgWait (s : State) : (s.drawFree).cfgWait = s.cfgWait := rfl
@[simp] theorem drawFree_cfgVal (s : State) : (s.drawFree).cfgVal = s.cfgVal := rfl
@[simp] theorem drawFree_jtag (s : State) : (s.drawFree).jtag = s.jtag := rfl
@[simp] theorem drawFree_cfgAck (s : State) : (s.drawFree).cfgAck = s.cfgAck := rfl
@[simp] theorem drawFree_sems (s : State) : (s.drawFree).sems = s.sems := rfl
@[simp] theorem drawFree_watches (s : State) : (s.drawFree).watches = s.watches := rfl
@[simp] theorem drawFree_ntfq (s : State) : (s.drawFree).ntfq = s.ntfq := rfl
@[simp] theorem drawFree_bars (s : State) : (s.drawFree).bars = s.bars := rfl
@[simp] theorem drawFree_realigns (s : State) : (s.drawFree).realigns = s.realigns := rfl
@[simp] theorem drawFree_armed (s : State) : (s.drawFree).armed = s.armed := rfl
@[simp] theorem drawFree_links (s : State) : (s.drawFree).links = s.links := rfl
@[simp] theorem drawFree_asms (s : State) : (s.drawFree).asms = s.asms := rfl
@[simp] theorem drawFree_exits (s : State) : (s.drawFree).exits = s.exits := rfl
@[simp] theorem drawFree_rtx (s : State) : (s.drawFree).rtx = s.rtx := rfl
@[simp] theorem drawFree_injecting (s : State) : (s.drawFree).injecting = s.injecting := rfl
@[simp] theorem drawFree_filt (s : State) : (s.drawFree).filt = s.filt := rfl
@[simp] theorem drawFree_keys (s : State) : (s.drawFree).keys = s.keys := rfl
@[simp] theorem drawFree_fuse (s : State) : (s.drawFree).fuse = s.fuse := rfl
@[simp] theorem drawFree_boot (s : State) : (s.drawFree).boot = s.boot := rfl
@[simp] theorem drawFree_gov (s : State) : (s.drawFree).gov = s.gov := rfl
@[simp] theorem drawFree_trans (s : State) : (s.drawFree).trans = s.trans := rfl
@[simp] theorem drawFree_autos (s : State) : (s.drawFree).autos = s.autos := rfl
@[simp] theorem drawFree_drain (s : State) : (s.drawFree).drain = s.drain := rfl
@[simp] theorem drawFree_transq (s : State) : (s.drawFree).transq = s.transq := rfl
@[simp] theorem drawFree_upq (s : State) : (s.drawFree).upq = s.upq := rfl
@[simp] theorem drawFree_lastSw (s : State) : (s.drawFree).lastSw = s.lastSw := rfl
@[simp] theorem drawFree_pswEn (s : State) : (s.drawFree).pswEn = s.pswEn := rfl
@[simp] theorem drawFree_isoLow (s : State) : (s.drawFree).isoLow = s.isoLow := rfl
@[simp] theorem drawFree_rankCnt (s : State) : (s.drawFree).rankCnt = s.rankCnt := rfl
@[simp] theorem drawFree_xheld (s : State) : (s.drawFree).xheld = s.xheld := rfl
@[simp] theorem drawFree_out (s : State) : (s.drawFree).out = s.out := rfl
@[simp] theorem drawFree_free (s : State) : (s.drawFree).free = s.free + 1 := rfl
@[simp] theorem drawFree_pending (s : State) : (s.drawFree).pending = s.pending := rfl

/-! ### `drive` -/

@[simp] theorem drive_build (s : State) (o : PortOut) : (s.drive o).build = s.build := rfl
@[simp] theorem drive_regs (s : State) (o : PortOut) : (s.drive o).regs = s.regs := rfl
@[simp] theorem drive_cyc (s : State) (o : PortOut) : (s.drive o).cyc = s.cyc := rfl
@[simp] theorem drive_tmo (s : State) (o : PortOut) : (s.drive o).tmo = s.tmo := rfl
@[simp] theorem drive_sub (s : State) (o : PortOut) : (s.drive o).sub = s.sub := rfl
@[simp] theorem drive_spn (s : State) (o : PortOut) : (s.drive o).spn = s.spn := rfl
@[simp] theorem drive_tlm (s : State) (o : PortOut) : (s.drive o).tlm = s.tlm := rfl
@[simp] theorem drive_snapTlm (s : State) (o : PortOut) : (s.drive o).snapTlm = s.snapTlm := rfl
@[simp] theorem drive_snapDepth (s : State) (o : PortOut) : (s.drive o).snapDepth = s.snapDepth := rfl
@[simp] theorem drive_trace (s : State) (o : PortOut) : (s.drive o).trace = s.trace := rfl
@[simp] theorem drive_traceq (s : State) (o : PortOut) : (s.drive o).traceq = s.traceq := rfl
@[simp] theorem drive_probing (s : State) (o : PortOut) : (s.drive o).probing = s.probing := rfl
@[simp] theorem drive_mirAt (s : State) (o : PortOut) : (s.drive o).mirAt = s.mirAt := rfl
@[simp] theorem drive_snapDue (s : State) (o : PortOut) : (s.drive o).snapDue = s.snapDue := rfl
@[simp] theorem drive_traceAt (s : State) (o : PortOut) : (s.drive o).traceAt = s.traceAt := rfl
@[simp] theorem drive_postLeft (s : State) (o : PortOut) : (s.drive o).postLeft = s.postLeft := rfl
@[simp] theorem drive_reports (s : State) (o : PortOut) : (s.drive o).reports = s.reports := rfl
@[simp] theorem drive_log (s : State) (o : PortOut) : (s.drive o).log = s.log := rfl
@[simp] theorem drive_pendTurn (s : State) (o : PortOut) : (s.drive o).pendTurn = s.pendTurn := rfl
@[simp] theorem drive_paceEdge (s : State) (o : PortOut) : (s.drive o).paceEdge = s.paceEdge := rfl
@[simp] theorem drive_wires (s : State) (o : PortOut) : (s.drive o).wires = s.wires := rfl
@[simp] theorem drive_buf (s : State) (o : PortOut) : (s.drive o).buf = s.buf := rfl
@[simp] theorem drive_cur (s : State) (o : PortOut) : (s.drive o).cur = s.cur := rfl
@[simp] theorem drive_own (s : State) (o : PortOut) : (s.drive o).own = s.own := rfl
@[simp] theorem drive_owed (s : State) (o : PortOut) : (s.drive o).owed = s.owed := rfl
@[simp] theorem drive_crw (s : State) (o : PortOut) : (s.drive o).crw = s.crw := rfl
@[simp] theorem drive_rr (s : State) (o : PortOut) : (s.drive o).rr = s.rr := rfl
@[simp] theorem drive_refl (s : State) (o : PortOut) : (s.drive o).refl = s.refl := rfl
@[simp] theorem drive_burl (s : State) (o : PortOut) : (s.drive o).burl = s.burl := rfl
@[simp] theorem drive_injSt (s : State) (o : PortOut) : (s.drive o).injSt = s.injSt := rfl
@[simp] theorem drive_sendq (s : State) (o : PortOut) : (s.drive o).sendq = s.sendq := rfl
@[simp] theorem drive_rx (s : State) (o : PortOut) : (s.drive o).rx = s.rx := rfl
@[simp] theorem drive_arrivals (s : State) (o : PortOut) : (s.drive o).arrivals = s.arrivals := rfl
@[simp] theorem drive_ram (s : State) (o : PortOut) : (s.drive o).ram = s.ram := rfl
@[simp] theorem drive_ramBad (s : State) (o : PortOut) : (s.drive o).ramBad = s.ramBad := rfl
@[simp] theorem drive_txns (s : State) (o : PortOut) : (s.drive o).txns = s.txns := rfl
@[simp] theorem drive_nextId (s : State) (o : PortOut) : (s.drive o).nextId = s.nextId := rfl
@[simp] theorem drive_deadTags (s : State) (o : PortOut) : (s.drive o).deadTags = s.deadTags := rfl
@[simp] theorem drive_tapw (s : State) (o : PortOut) : (s.drive o).tapw = s.tapw := rfl
@[simp] theorem drive_mwNext (s : State) (o : PortOut) : (s.drive o).mwNext = s.mwNext := rfl
@[simp] theorem drive_lathe (s : State) (o : PortOut) : (s.drive o).lathe = s.lathe := rfl
@[simp] theorem drive_ops (s : State) (o : PortOut) : (s.drive o).ops = s.ops := rfl
@[simp] theorem drive_reqs (s : State) (o : PortOut) : (s.drive o).reqs = s.reqs := rfl
@[simp] theorem drive_sslots (s : State) (o : PortOut) : (s.drive o).sslots = s.sslots := rfl
@[simp] theorem drive_rslots (s : State) (o : PortOut) : (s.drive o).rslots = s.rslots := rfl
@[simp] theorem drive_gens (s : State) (o : PortOut) : (s.drive o).gens = s.gens := rfl
@[simp] theorem drive_rankC (s : State) (o : PortOut) : (s.drive o).rankC = s.rankC := rfl
@[simp] theorem drive_pathC (s : State) (o : PortOut) : (s.drive o).pathC = s.pathC := rfl
@[simp] theorem drive_smapC (s : State) (o : PortOut) : (s.drive o).smapC = s.smapC := rfl
@[simp] theorem drive_blank (s : State) (o : PortOut) : (s.drive o).blank = s.blank := rfl
@[simp] theorem drive_spills (s : State) (o : PortOut) : (s.drive o).spills = s.spills := rfl
@[simp] theorem drive_holds (s : State) (o : PortOut) : (s.drive o).holds = s.holds := rfl
@[simp] theorem drive_relayq (s : State) (o : PortOut) : (s.drive o).relayq = s.relayq := rfl
@[simp] theorem drive_farq (s : State) (o : PortOut) : (s.drive o).farq = s.farq := rfl
@[simp] theorem drive_tapq (s : State) (o : PortOut) : (s.drive o).tapq = s.tapq := rfl
@[simp] theorem drive_smsgs (s : State) (o : PortOut) : (s.drive o).smsgs = s.smsgs := rfl
@[simp] theorem drive_rlands (s : State) (o : PortOut) : (s.drive o).rlands = s.rlands := rfl
@[simp] theorem drive_lazies (s : State) (o : PortOut) : (s.drive o).lazies = s.lazies := rfl
@[simp] theorem drive_selPtr (s : State) (o : PortOut) : (s.drive o).selPtr = s.selPtr := rfl
@[simp] theorem drive_bigs (s : State) (o : PortOut) : (s.drive o).bigs = s.bigs := rfl
@[simp] theorem drive_accJobs (s : State) (o : PortOut) : (s.drive o).accJobs = s.accJobs := rfl
@[simp] theorem drive_bents (s : State) (o : PortOut) : (s.drive o).bents = s.bents := rfl
@[simp] theorem drive_bslots (s : State) (o : PortOut) : (s.drive o).bslots = s.bslots := rfl
@[simp] theorem drive_ownAns (s : State) (o : PortOut) : (s.drive o).ownAns = s.ownAns := rfl
@[simp] theorem drive_pwReq (s : State) (o : PortOut) : (s.drive o).pwReq = s.pwReq := rfl
@[simp] theorem drive_clmPtr (s : State) (o : PortOut) : (s.drive o).clmPtr = s.clmPtr := rfl
@[simp] theorem drive_clmLast (s : State) (o : PortOut) : (s.drive o).clmLast = s.clmLast := rfl
@[simp] theorem drive_clmEff (s : State) (o : PortOut) : (s.drive o).clmEff = s.clmEff := rfl
@[simp] theorem drive_colrecs (s : State) (o : PortOut) : (s.drive o).colrecs = s.colrecs := rfl
@[simp] theorem drive_colls (s : State) (o : PortOut) : (s.drive o).colls = s.colls := rfl
@[simp] theorem drive_readys (s : State) (o : PortOut) : (s.drive o).readys = s.readys := rfl
@[simp] theorem drive_scans (s : State) (o : PortOut) : (s.drive o).scans = s.scans := rfl
@[simp] theorem drive_trackers (s : State) (o : PortOut) : (s.drive o).trackers = s.trackers := rfl
@[simp] theorem drive_auxSeen (s : State) (o : PortOut) : (s.drive o).auxSeen = s.auxSeen := rfl
@[simp] theorem drive_buckets (s : State) (o : PortOut) : (s.drive o).buckets = s.buckets := rfl
@[simp] theorem drive_psns (s : State) (o : PortOut) : (s.drive o).psns = s.psns := rfl
@[simp] theorem drive_rings (s : State) (o : PortOut) : (s.drive o).rings = s.rings := rfl
@[simp] theorem drive_squashTo (s : State) (o : PortOut) : (s.drive o).squashTo = s.squashTo := rfl
@[simp] theorem drive_hwatch (s : State) (o : PortOut) : (s.drive o).hwatch = s.hwatch := rfl
@[simp] theorem drive_hgens (s : State) (o : PortOut) : (s.drive o).hgens = s.hgens := rfl
@[simp] theorem drive_accs (s : State) (o : PortOut) : (s.drive o).accs = s.accs := rfl
@[simp] theorem drive_cfgWait (s : State) (o : PortOut) : (s.drive o).cfgWait = s.cfgWait := rfl
@[simp] theorem drive_cfgVal (s : State) (o : PortOut) : (s.drive o).cfgVal = s.cfgVal := rfl
@[simp] theorem drive_jtag (s : State) (o : PortOut) : (s.drive o).jtag = s.jtag := rfl
@[simp] theorem drive_cfgAck (s : State) (o : PortOut) : (s.drive o).cfgAck = s.cfgAck := rfl
@[simp] theorem drive_sems (s : State) (o : PortOut) : (s.drive o).sems = s.sems := rfl
@[simp] theorem drive_watches (s : State) (o : PortOut) : (s.drive o).watches = s.watches := rfl
@[simp] theorem drive_ntfq (s : State) (o : PortOut) : (s.drive o).ntfq = s.ntfq := rfl
@[simp] theorem drive_bars (s : State) (o : PortOut) : (s.drive o).bars = s.bars := rfl
@[simp] theorem drive_realigns (s : State) (o : PortOut) : (s.drive o).realigns = s.realigns := rfl
@[simp] theorem drive_armed (s : State) (o : PortOut) : (s.drive o).armed = s.armed := rfl
@[simp] theorem drive_links (s : State) (o : PortOut) : (s.drive o).links = s.links := rfl
@[simp] theorem drive_asms (s : State) (o : PortOut) : (s.drive o).asms = s.asms := rfl
@[simp] theorem drive_exits (s : State) (o : PortOut) : (s.drive o).exits = s.exits := rfl
@[simp] theorem drive_rtx (s : State) (o : PortOut) : (s.drive o).rtx = s.rtx := rfl
@[simp] theorem drive_injecting (s : State) (o : PortOut) : (s.drive o).injecting = s.injecting := rfl
@[simp] theorem drive_filt (s : State) (o : PortOut) : (s.drive o).filt = s.filt := rfl
@[simp] theorem drive_keys (s : State) (o : PortOut) : (s.drive o).keys = s.keys := rfl
@[simp] theorem drive_fuse (s : State) (o : PortOut) : (s.drive o).fuse = s.fuse := rfl
@[simp] theorem drive_boot (s : State) (o : PortOut) : (s.drive o).boot = s.boot := rfl
@[simp] theorem drive_gov (s : State) (o : PortOut) : (s.drive o).gov = s.gov := rfl
@[simp] theorem drive_trans (s : State) (o : PortOut) : (s.drive o).trans = s.trans := rfl
@[simp] theorem drive_autos (s : State) (o : PortOut) : (s.drive o).autos = s.autos := rfl
@[simp] theorem drive_drain (s : State) (o : PortOut) : (s.drive o).drain = s.drain := rfl
@[simp] theorem drive_transq (s : State) (o : PortOut) : (s.drive o).transq = s.transq := rfl
@[simp] theorem drive_upq (s : State) (o : PortOut) : (s.drive o).upq = s.upq := rfl
@[simp] theorem drive_lastSw (s : State) (o : PortOut) : (s.drive o).lastSw = s.lastSw := rfl
@[simp] theorem drive_pswEn (s : State) (o : PortOut) : (s.drive o).pswEn = s.pswEn := rfl
@[simp] theorem drive_isoLow (s : State) (o : PortOut) : (s.drive o).isoLow = s.isoLow := rfl
@[simp] theorem drive_rankCnt (s : State) (o : PortOut) : (s.drive o).rankCnt = s.rankCnt := rfl
@[simp] theorem drive_xheld (s : State) (o : PortOut) : (s.drive o).xheld = s.xheld := rfl
@[simp] theorem drive_out (s : State) (o : PortOut) : (s.drive o).out = s.out ++ [o] := rfl
@[simp] theorem drive_free (s : State) (o : PortOut) : (s.drive o).free = s.free := rfl
@[simp] theorem drive_pending (s : State) (o : PortOut) : (s.drive o).pending = s.pending := rfl

/-! ### `ramPut` -/

@[simp] theorem ramPut_build (s : State) (a : Nat) (v : Byte) : (s.ramPut a v).build = s.build := rfl
@[simp] theorem ramPut_regs (s : State) (a : Nat) (v : Byte) : (s.ramPut a v).regs = s.regs := rfl
@[simp] theorem ramPut_cyc (s : State) (a : Nat) (v : Byte) : (s.ramPut a v).cyc = s.cyc := rfl
@[simp] theorem ramPut_tmo (s : State) (a : Nat) (v : Byte) : (s.ramPut a v).tmo = s.tmo := rfl
@[simp] theorem ramPut_sub (s : State) (a : Nat) (v : Byte) : (s.ramPut a v).sub = s.sub := rfl
@[simp] theorem ramPut_spn (s : State) (a : Nat) (v : Byte) : (s.ramPut a v).spn = s.spn := rfl
@[simp] theorem ramPut_tlm (s : State) (a : Nat) (v : Byte) : (s.ramPut a v).tlm = s.tlm := rfl
@[simp] theorem ramPut_snapTlm (s : State) (a : Nat) (v : Byte) : (s.ramPut a v).snapTlm = s.snapTlm := rfl
@[simp] theorem ramPut_snapDepth (s : State) (a : Nat) (v : Byte) : (s.ramPut a v).snapDepth = s.snapDepth := rfl
@[simp] theorem ramPut_trace (s : State) (a : Nat) (v : Byte) : (s.ramPut a v).trace = s.trace := rfl
@[simp] theorem ramPut_traceq (s : State) (a : Nat) (v : Byte) : (s.ramPut a v).traceq = s.traceq := rfl
@[simp] theorem ramPut_probing (s : State) (a : Nat) (v : Byte) : (s.ramPut a v).probing = s.probing := rfl
@[simp] theorem ramPut_mirAt (s : State) (a : Nat) (v : Byte) : (s.ramPut a v).mirAt = s.mirAt := rfl
@[simp] theorem ramPut_snapDue (s : State) (a : Nat) (v : Byte) : (s.ramPut a v).snapDue = s.snapDue := rfl
@[simp] theorem ramPut_traceAt (s : State) (a : Nat) (v : Byte) : (s.ramPut a v).traceAt = s.traceAt := rfl
@[simp] theorem ramPut_postLeft (s : State) (a : Nat) (v : Byte) : (s.ramPut a v).postLeft = s.postLeft := rfl
@[simp] theorem ramPut_reports (s : State) (a : Nat) (v : Byte) : (s.ramPut a v).reports = s.reports := rfl
@[simp] theorem ramPut_log (s : State) (a : Nat) (v : Byte) : (s.ramPut a v).log = s.log := rfl
@[simp] theorem ramPut_pendTurn (s : State) (a : Nat) (v : Byte) : (s.ramPut a v).pendTurn = s.pendTurn := rfl
@[simp] theorem ramPut_paceEdge (s : State) (a : Nat) (v : Byte) : (s.ramPut a v).paceEdge = s.paceEdge := rfl
@[simp] theorem ramPut_wires (s : State) (a : Nat) (v : Byte) : (s.ramPut a v).wires = s.wires := rfl
@[simp] theorem ramPut_buf (s : State) (a : Nat) (v : Byte) : (s.ramPut a v).buf = s.buf := rfl
@[simp] theorem ramPut_cur (s : State) (a : Nat) (v : Byte) : (s.ramPut a v).cur = s.cur := rfl
@[simp] theorem ramPut_own (s : State) (a : Nat) (v : Byte) : (s.ramPut a v).own = s.own := rfl
@[simp] theorem ramPut_owed (s : State) (a : Nat) (v : Byte) : (s.ramPut a v).owed = s.owed := rfl
@[simp] theorem ramPut_crw (s : State) (a : Nat) (v : Byte) : (s.ramPut a v).crw = s.crw := rfl
@[simp] theorem ramPut_rr (s : State) (a : Nat) (v : Byte) : (s.ramPut a v).rr = s.rr := rfl
@[simp] theorem ramPut_refl (s : State) (a : Nat) (v : Byte) : (s.ramPut a v).refl = s.refl := rfl
@[simp] theorem ramPut_burl (s : State) (a : Nat) (v : Byte) : (s.ramPut a v).burl = s.burl := rfl
@[simp] theorem ramPut_injSt (s : State) (a : Nat) (v : Byte) : (s.ramPut a v).injSt = s.injSt := rfl
@[simp] theorem ramPut_sendq (s : State) (a : Nat) (v : Byte) : (s.ramPut a v).sendq = s.sendq := rfl
@[simp] theorem ramPut_rx (s : State) (a : Nat) (v : Byte) : (s.ramPut a v).rx = s.rx := rfl
@[simp] theorem ramPut_arrivals (s : State) (a : Nat) (v : Byte) : (s.ramPut a v).arrivals = s.arrivals := rfl
@[simp] theorem ramPut_ram (s : State) (a : Nat) (v : Byte) : (s.ramPut a v).ram = mapSet s.ram 0 a v := rfl
@[simp] theorem ramPut_ramBad (s : State) (a : Nat) (v : Byte) : (s.ramPut a v).ramBad = s.ramBad := rfl
@[simp] theorem ramPut_txns (s : State) (a : Nat) (v : Byte) : (s.ramPut a v).txns = s.txns := rfl
@[simp] theorem ramPut_nextId (s : State) (a : Nat) (v : Byte) : (s.ramPut a v).nextId = s.nextId := rfl
@[simp] theorem ramPut_deadTags (s : State) (a : Nat) (v : Byte) : (s.ramPut a v).deadTags = s.deadTags := rfl
@[simp] theorem ramPut_tapw (s : State) (a : Nat) (v : Byte) : (s.ramPut a v).tapw = s.tapw := rfl
@[simp] theorem ramPut_mwNext (s : State) (a : Nat) (v : Byte) : (s.ramPut a v).mwNext = s.mwNext := rfl
@[simp] theorem ramPut_lathe (s : State) (a : Nat) (v : Byte) : (s.ramPut a v).lathe = s.lathe := rfl
@[simp] theorem ramPut_ops (s : State) (a : Nat) (v : Byte) : (s.ramPut a v).ops = s.ops := rfl
@[simp] theorem ramPut_reqs (s : State) (a : Nat) (v : Byte) : (s.ramPut a v).reqs = s.reqs := rfl
@[simp] theorem ramPut_sslots (s : State) (a : Nat) (v : Byte) : (s.ramPut a v).sslots = s.sslots := rfl
@[simp] theorem ramPut_rslots (s : State) (a : Nat) (v : Byte) : (s.ramPut a v).rslots = s.rslots := rfl
@[simp] theorem ramPut_gens (s : State) (a : Nat) (v : Byte) : (s.ramPut a v).gens = s.gens := rfl
@[simp] theorem ramPut_rankC (s : State) (a : Nat) (v : Byte) : (s.ramPut a v).rankC = s.rankC := rfl
@[simp] theorem ramPut_pathC (s : State) (a : Nat) (v : Byte) : (s.ramPut a v).pathC = s.pathC := rfl
@[simp] theorem ramPut_smapC (s : State) (a : Nat) (v : Byte) : (s.ramPut a v).smapC = s.smapC := rfl
@[simp] theorem ramPut_blank (s : State) (a : Nat) (v : Byte) : (s.ramPut a v).blank = s.blank := rfl
@[simp] theorem ramPut_spills (s : State) (a : Nat) (v : Byte) : (s.ramPut a v).spills = s.spills := rfl
@[simp] theorem ramPut_holds (s : State) (a : Nat) (v : Byte) : (s.ramPut a v).holds = s.holds := rfl
@[simp] theorem ramPut_relayq (s : State) (a : Nat) (v : Byte) : (s.ramPut a v).relayq = s.relayq := rfl
@[simp] theorem ramPut_farq (s : State) (a : Nat) (v : Byte) : (s.ramPut a v).farq = s.farq := rfl
@[simp] theorem ramPut_tapq (s : State) (a : Nat) (v : Byte) : (s.ramPut a v).tapq = s.tapq := rfl
@[simp] theorem ramPut_smsgs (s : State) (a : Nat) (v : Byte) : (s.ramPut a v).smsgs = s.smsgs := rfl
@[simp] theorem ramPut_rlands (s : State) (a : Nat) (v : Byte) : (s.ramPut a v).rlands = s.rlands := rfl
@[simp] theorem ramPut_lazies (s : State) (a : Nat) (v : Byte) : (s.ramPut a v).lazies = s.lazies := rfl
@[simp] theorem ramPut_selPtr (s : State) (a : Nat) (v : Byte) : (s.ramPut a v).selPtr = s.selPtr := rfl
@[simp] theorem ramPut_bigs (s : State) (a : Nat) (v : Byte) : (s.ramPut a v).bigs = s.bigs := rfl
@[simp] theorem ramPut_accJobs (s : State) (a : Nat) (v : Byte) : (s.ramPut a v).accJobs = s.accJobs := rfl
@[simp] theorem ramPut_bents (s : State) (a : Nat) (v : Byte) : (s.ramPut a v).bents = s.bents := rfl
@[simp] theorem ramPut_bslots (s : State) (a : Nat) (v : Byte) : (s.ramPut a v).bslots = s.bslots := rfl
@[simp] theorem ramPut_ownAns (s : State) (a : Nat) (v : Byte) : (s.ramPut a v).ownAns = s.ownAns := rfl
@[simp] theorem ramPut_pwReq (s : State) (a : Nat) (v : Byte) : (s.ramPut a v).pwReq = s.pwReq := rfl
@[simp] theorem ramPut_clmPtr (s : State) (a : Nat) (v : Byte) : (s.ramPut a v).clmPtr = s.clmPtr := rfl
@[simp] theorem ramPut_clmLast (s : State) (a : Nat) (v : Byte) : (s.ramPut a v).clmLast = s.clmLast := rfl
@[simp] theorem ramPut_clmEff (s : State) (a : Nat) (v : Byte) : (s.ramPut a v).clmEff = s.clmEff := rfl
@[simp] theorem ramPut_colrecs (s : State) (a : Nat) (v : Byte) : (s.ramPut a v).colrecs = s.colrecs := rfl
@[simp] theorem ramPut_colls (s : State) (a : Nat) (v : Byte) : (s.ramPut a v).colls = s.colls := rfl
@[simp] theorem ramPut_readys (s : State) (a : Nat) (v : Byte) : (s.ramPut a v).readys = s.readys := rfl
@[simp] theorem ramPut_scans (s : State) (a : Nat) (v : Byte) : (s.ramPut a v).scans = s.scans := rfl
@[simp] theorem ramPut_trackers (s : State) (a : Nat) (v : Byte) : (s.ramPut a v).trackers = s.trackers := rfl
@[simp] theorem ramPut_auxSeen (s : State) (a : Nat) (v : Byte) : (s.ramPut a v).auxSeen = s.auxSeen := rfl
@[simp] theorem ramPut_buckets (s : State) (a : Nat) (v : Byte) : (s.ramPut a v).buckets = s.buckets := rfl
@[simp] theorem ramPut_psns (s : State) (a : Nat) (v : Byte) : (s.ramPut a v).psns = s.psns := rfl
@[simp] theorem ramPut_rings (s : State) (a : Nat) (v : Byte) : (s.ramPut a v).rings = s.rings := rfl
@[simp] theorem ramPut_squashTo (s : State) (a : Nat) (v : Byte) : (s.ramPut a v).squashTo = s.squashTo := rfl
@[simp] theorem ramPut_hwatch (s : State) (a : Nat) (v : Byte) : (s.ramPut a v).hwatch = s.hwatch := rfl
@[simp] theorem ramPut_hgens (s : State) (a : Nat) (v : Byte) : (s.ramPut a v).hgens = s.hgens := rfl
@[simp] theorem ramPut_accs (s : State) (a : Nat) (v : Byte) : (s.ramPut a v).accs = s.accs := rfl
@[simp] theorem ramPut_cfgWait (s : State) (a : Nat) (v : Byte) : (s.ramPut a v).cfgWait = s.cfgWait := rfl
@[simp] theorem ramPut_cfgVal (s : State) (a : Nat) (v : Byte) : (s.ramPut a v).cfgVal = s.cfgVal := rfl
@[simp] theorem ramPut_jtag (s : State) (a : Nat) (v : Byte) : (s.ramPut a v).jtag = s.jtag := rfl
@[simp] theorem ramPut_cfgAck (s : State) (a : Nat) (v : Byte) : (s.ramPut a v).cfgAck = s.cfgAck := rfl
@[simp] theorem ramPut_sems (s : State) (a : Nat) (v : Byte) : (s.ramPut a v).sems = s.sems := rfl
@[simp] theorem ramPut_watches (s : State) (a : Nat) (v : Byte) : (s.ramPut a v).watches = s.watches := rfl
@[simp] theorem ramPut_ntfq (s : State) (a : Nat) (v : Byte) : (s.ramPut a v).ntfq = s.ntfq := rfl
@[simp] theorem ramPut_bars (s : State) (a : Nat) (v : Byte) : (s.ramPut a v).bars = s.bars := rfl
@[simp] theorem ramPut_realigns (s : State) (a : Nat) (v : Byte) : (s.ramPut a v).realigns = s.realigns := rfl
@[simp] theorem ramPut_armed (s : State) (a : Nat) (v : Byte) : (s.ramPut a v).armed = s.armed := rfl
@[simp] theorem ramPut_links (s : State) (a : Nat) (v : Byte) : (s.ramPut a v).links = s.links := rfl
@[simp] theorem ramPut_asms (s : State) (a : Nat) (v : Byte) : (s.ramPut a v).asms = s.asms := rfl
@[simp] theorem ramPut_exits (s : State) (a : Nat) (v : Byte) : (s.ramPut a v).exits = s.exits := rfl
@[simp] theorem ramPut_rtx (s : State) (a : Nat) (v : Byte) : (s.ramPut a v).rtx = s.rtx := rfl
@[simp] theorem ramPut_injecting (s : State) (a : Nat) (v : Byte) : (s.ramPut a v).injecting = s.injecting := rfl
@[simp] theorem ramPut_filt (s : State) (a : Nat) (v : Byte) : (s.ramPut a v).filt = s.filt := rfl
@[simp] theorem ramPut_keys (s : State) (a : Nat) (v : Byte) : (s.ramPut a v).keys = s.keys := rfl
@[simp] theorem ramPut_fuse (s : State) (a : Nat) (v : Byte) : (s.ramPut a v).fuse = s.fuse := rfl
@[simp] theorem ramPut_boot (s : State) (a : Nat) (v : Byte) : (s.ramPut a v).boot = s.boot := rfl
@[simp] theorem ramPut_gov (s : State) (a : Nat) (v : Byte) : (s.ramPut a v).gov = s.gov := rfl
@[simp] theorem ramPut_trans (s : State) (a : Nat) (v : Byte) : (s.ramPut a v).trans = s.trans := rfl
@[simp] theorem ramPut_autos (s : State) (a : Nat) (v : Byte) : (s.ramPut a v).autos = s.autos := rfl
@[simp] theorem ramPut_drain (s : State) (a : Nat) (v : Byte) : (s.ramPut a v).drain = s.drain := rfl
@[simp] theorem ramPut_transq (s : State) (a : Nat) (v : Byte) : (s.ramPut a v).transq = s.transq := rfl
@[simp] theorem ramPut_upq (s : State) (a : Nat) (v : Byte) : (s.ramPut a v).upq = s.upq := rfl
@[simp] theorem ramPut_lastSw (s : State) (a : Nat) (v : Byte) : (s.ramPut a v).lastSw = s.lastSw := rfl
@[simp] theorem ramPut_pswEn (s : State) (a : Nat) (v : Byte) : (s.ramPut a v).pswEn = s.pswEn := rfl
@[simp] theorem ramPut_isoLow (s : State) (a : Nat) (v : Byte) : (s.ramPut a v).isoLow = s.isoLow := rfl
@[simp] theorem ramPut_rankCnt (s : State) (a : Nat) (v : Byte) : (s.ramPut a v).rankCnt = s.rankCnt := rfl
@[simp] theorem ramPut_xheld (s : State) (a : Nat) (v : Byte) : (s.ramPut a v).xheld = s.xheld := rfl
@[simp] theorem ramPut_out (s : State) (a : Nat) (v : Byte) : (s.ramPut a v).out = s.out := rfl
@[simp] theorem ramPut_free (s : State) (a : Nat) (v : Byte) : (s.ramPut a v).free = s.free := rfl
@[simp] theorem ramPut_pending (s : State) (a : Nat) (v : Byte) : (s.ramPut a v).pending = s.pending := rfl

/-! ### `within` -/

@[simp] theorem within_build (s : State) (t : State) : (s.within t).build = s.build := rfl
@[simp] theorem within_regs (s : State) (t : State) : (s.within t).regs = t.regs := rfl
@[simp] theorem within_cyc (s : State) (t : State) : (s.within t).cyc = t.cyc := rfl
@[simp] theorem within_tmo (s : State) (t : State) : (s.within t).tmo = t.tmo := rfl
@[simp] theorem within_sub (s : State) (t : State) : (s.within t).sub = t.sub := rfl
@[simp] theorem within_spn (s : State) (t : State) : (s.within t).spn = t.spn := rfl
@[simp] theorem within_tlm (s : State) (t : State) : (s.within t).tlm = t.tlm := rfl
@[simp] theorem within_snapTlm (s : State) (t : State) : (s.within t).snapTlm = t.snapTlm := rfl
@[simp] theorem within_snapDepth (s : State) (t : State) : (s.within t).snapDepth = t.snapDepth := rfl
@[simp] theorem within_trace (s : State) (t : State) : (s.within t).trace = t.trace := rfl
@[simp] theorem within_traceq (s : State) (t : State) : (s.within t).traceq = t.traceq := rfl
@[simp] theorem within_probing (s : State) (t : State) : (s.within t).probing = t.probing := rfl
@[simp] theorem within_mirAt (s : State) (t : State) : (s.within t).mirAt = t.mirAt := rfl
@[simp] theorem within_snapDue (s : State) (t : State) : (s.within t).snapDue = t.snapDue := rfl
@[simp] theorem within_traceAt (s : State) (t : State) : (s.within t).traceAt = t.traceAt := rfl
@[simp] theorem within_postLeft (s : State) (t : State) : (s.within t).postLeft = t.postLeft := rfl
@[simp] theorem within_reports (s : State) (t : State) : (s.within t).reports = t.reports := rfl
@[simp] theorem within_log (s : State) (t : State) : (s.within t).log = t.log := rfl
@[simp] theorem within_pendTurn (s : State) (t : State) : (s.within t).pendTurn = t.pendTurn := rfl
@[simp] theorem within_paceEdge (s : State) (t : State) : (s.within t).paceEdge = t.paceEdge := rfl
@[simp] theorem within_wires (s : State) (t : State) : (s.within t).wires = t.wires := rfl
@[simp] theorem within_buf (s : State) (t : State) : (s.within t).buf = t.buf := rfl
@[simp] theorem within_cur (s : State) (t : State) : (s.within t).cur = t.cur := rfl
@[simp] theorem within_own (s : State) (t : State) : (s.within t).own = t.own := rfl
@[simp] theorem within_owed (s : State) (t : State) : (s.within t).owed = t.owed := rfl
@[simp] theorem within_crw (s : State) (t : State) : (s.within t).crw = t.crw := rfl
@[simp] theorem within_rr (s : State) (t : State) : (s.within t).rr = t.rr := rfl
@[simp] theorem within_refl (s : State) (t : State) : (s.within t).refl = t.refl := rfl
@[simp] theorem within_burl (s : State) (t : State) : (s.within t).burl = t.burl := rfl
@[simp] theorem within_injSt (s : State) (t : State) : (s.within t).injSt = t.injSt := rfl
@[simp] theorem within_sendq (s : State) (t : State) : (s.within t).sendq = t.sendq := rfl
@[simp] theorem within_rx (s : State) (t : State) : (s.within t).rx = t.rx := rfl
@[simp] theorem within_arrivals (s : State) (t : State) : (s.within t).arrivals = t.arrivals := rfl
@[simp] theorem within_ram (s : State) (t : State) : (s.within t).ram = t.ram := rfl
@[simp] theorem within_ramBad (s : State) (t : State) : (s.within t).ramBad = t.ramBad := rfl
@[simp] theorem within_txns (s : State) (t : State) : (s.within t).txns = t.txns := rfl
@[simp] theorem within_nextId (s : State) (t : State) : (s.within t).nextId = t.nextId := rfl
@[simp] theorem within_deadTags (s : State) (t : State) : (s.within t).deadTags = t.deadTags := rfl
@[simp] theorem within_tapw (s : State) (t : State) : (s.within t).tapw = t.tapw := rfl
@[simp] theorem within_mwNext (s : State) (t : State) : (s.within t).mwNext = t.mwNext := rfl
@[simp] theorem within_lathe (s : State) (t : State) : (s.within t).lathe = t.lathe := rfl
@[simp] theorem within_ops (s : State) (t : State) : (s.within t).ops = t.ops := rfl
@[simp] theorem within_reqs (s : State) (t : State) : (s.within t).reqs = t.reqs := rfl
@[simp] theorem within_sslots (s : State) (t : State) : (s.within t).sslots = t.sslots := rfl
@[simp] theorem within_rslots (s : State) (t : State) : (s.within t).rslots = t.rslots := rfl
@[simp] theorem within_gens (s : State) (t : State) : (s.within t).gens = t.gens := rfl
@[simp] theorem within_rankC (s : State) (t : State) : (s.within t).rankC = t.rankC := rfl
@[simp] theorem within_pathC (s : State) (t : State) : (s.within t).pathC = t.pathC := rfl
@[simp] theorem within_smapC (s : State) (t : State) : (s.within t).smapC = t.smapC := rfl
@[simp] theorem within_blank (s : State) (t : State) : (s.within t).blank = t.blank := rfl
@[simp] theorem within_spills (s : State) (t : State) : (s.within t).spills = t.spills := rfl
@[simp] theorem within_holds (s : State) (t : State) : (s.within t).holds = t.holds := rfl
@[simp] theorem within_relayq (s : State) (t : State) : (s.within t).relayq = t.relayq := rfl
@[simp] theorem within_farq (s : State) (t : State) : (s.within t).farq = t.farq := rfl
@[simp] theorem within_tapq (s : State) (t : State) : (s.within t).tapq = t.tapq := rfl
@[simp] theorem within_smsgs (s : State) (t : State) : (s.within t).smsgs = t.smsgs := rfl
@[simp] theorem within_rlands (s : State) (t : State) : (s.within t).rlands = t.rlands := rfl
@[simp] theorem within_lazies (s : State) (t : State) : (s.within t).lazies = t.lazies := rfl
@[simp] theorem within_selPtr (s : State) (t : State) : (s.within t).selPtr = t.selPtr := rfl
@[simp] theorem within_bigs (s : State) (t : State) : (s.within t).bigs = t.bigs := rfl
@[simp] theorem within_accJobs (s : State) (t : State) : (s.within t).accJobs = t.accJobs := rfl
@[simp] theorem within_bents (s : State) (t : State) : (s.within t).bents = t.bents := rfl
@[simp] theorem within_bslots (s : State) (t : State) : (s.within t).bslots = t.bslots := rfl
@[simp] theorem within_ownAns (s : State) (t : State) : (s.within t).ownAns = t.ownAns := rfl
@[simp] theorem within_pwReq (s : State) (t : State) : (s.within t).pwReq = t.pwReq := rfl
@[simp] theorem within_clmPtr (s : State) (t : State) : (s.within t).clmPtr = t.clmPtr := rfl
@[simp] theorem within_clmLast (s : State) (t : State) : (s.within t).clmLast = t.clmLast := rfl
@[simp] theorem within_clmEff (s : State) (t : State) : (s.within t).clmEff = t.clmEff := rfl
@[simp] theorem within_colrecs (s : State) (t : State) : (s.within t).colrecs = t.colrecs := rfl
@[simp] theorem within_colls (s : State) (t : State) : (s.within t).colls = t.colls := rfl
@[simp] theorem within_readys (s : State) (t : State) : (s.within t).readys = t.readys := rfl
@[simp] theorem within_scans (s : State) (t : State) : (s.within t).scans = t.scans := rfl
@[simp] theorem within_trackers (s : State) (t : State) : (s.within t).trackers = t.trackers := rfl
@[simp] theorem within_auxSeen (s : State) (t : State) : (s.within t).auxSeen = t.auxSeen := rfl
@[simp] theorem within_buckets (s : State) (t : State) : (s.within t).buckets = t.buckets := rfl
@[simp] theorem within_psns (s : State) (t : State) : (s.within t).psns = t.psns := rfl
@[simp] theorem within_rings (s : State) (t : State) : (s.within t).rings = t.rings := rfl
@[simp] theorem within_squashTo (s : State) (t : State) : (s.within t).squashTo = t.squashTo := rfl
@[simp] theorem within_hwatch (s : State) (t : State) : (s.within t).hwatch = t.hwatch := rfl
@[simp] theorem within_hgens (s : State) (t : State) : (s.within t).hgens = t.hgens := rfl
@[simp] theorem within_accs (s : State) (t : State) : (s.within t).accs = t.accs := rfl
@[simp] theorem within_cfgWait (s : State) (t : State) : (s.within t).cfgWait = t.cfgWait := rfl
@[simp] theorem within_cfgVal (s : State) (t : State) : (s.within t).cfgVal = t.cfgVal := rfl
@[simp] theorem within_jtag (s : State) (t : State) : (s.within t).jtag = t.jtag := rfl
@[simp] theorem within_cfgAck (s : State) (t : State) : (s.within t).cfgAck = t.cfgAck := rfl
@[simp] theorem within_sems (s : State) (t : State) : (s.within t).sems = t.sems := rfl
@[simp] theorem within_watches (s : State) (t : State) : (s.within t).watches = t.watches := rfl
@[simp] theorem within_ntfq (s : State) (t : State) : (s.within t).ntfq = t.ntfq := rfl
@[simp] theorem within_bars (s : State) (t : State) : (s.within t).bars = t.bars := rfl
@[simp] theorem within_realigns (s : State) (t : State) : (s.within t).realigns = t.realigns := rfl
@[simp] theorem within_armed (s : State) (t : State) : (s.within t).armed = t.armed := rfl
@[simp] theorem within_links (s : State) (t : State) : (s.within t).links = t.links := rfl
@[simp] theorem within_asms (s : State) (t : State) : (s.within t).asms = t.asms := rfl
@[simp] theorem within_exits (s : State) (t : State) : (s.within t).exits = t.exits := rfl
@[simp] theorem within_rtx (s : State) (t : State) : (s.within t).rtx = t.rtx := rfl
@[simp] theorem within_injecting (s : State) (t : State) : (s.within t).injecting = t.injecting := rfl
@[simp] theorem within_filt (s : State) (t : State) : (s.within t).filt = t.filt := rfl
@[simp] theorem within_keys (s : State) (t : State) : (s.within t).keys = t.keys := rfl
@[simp] theorem within_fuse (s : State) (t : State) : (s.within t).fuse = t.fuse := rfl
@[simp] theorem within_boot (s : State) (t : State) : (s.within t).boot = t.boot := rfl
@[simp] theorem within_gov (s : State) (t : State) : (s.within t).gov = t.gov := rfl
@[simp] theorem within_trans (s : State) (t : State) : (s.within t).trans = t.trans := rfl
@[simp] theorem within_autos (s : State) (t : State) : (s.within t).autos = t.autos := rfl
@[simp] theorem within_drain (s : State) (t : State) : (s.within t).drain = t.drain := rfl
@[simp] theorem within_transq (s : State) (t : State) : (s.within t).transq = t.transq := rfl
@[simp] theorem within_upq (s : State) (t : State) : (s.within t).upq = t.upq := rfl
@[simp] theorem within_lastSw (s : State) (t : State) : (s.within t).lastSw = t.lastSw := rfl
@[simp] theorem within_pswEn (s : State) (t : State) : (s.within t).pswEn = t.pswEn := rfl
@[simp] theorem within_isoLow (s : State) (t : State) : (s.within t).isoLow = t.isoLow := rfl
@[simp] theorem within_rankCnt (s : State) (t : State) : (s.within t).rankCnt = t.rankCnt := rfl
@[simp] theorem within_xheld (s : State) (t : State) : (s.within t).xheld = t.xheld := rfl
@[simp] theorem within_out (s : State) (t : State) : (s.within t).out = t.out := rfl
@[simp] theorem within_free (s : State) (t : State) : (s.within t).free = t.free := rfl
@[simp] theorem within_pending (s : State) (t : State) : (s.within t).pending = s.pending := rfl

end Sys2Proof.Machine.State
end

