-- ==== Sys2Proof/Laws/Ops.lean ====
section
/-! SUPPORT. For the shared operations, what they can do: the outcome of `act`, what a register word and a field hold after a
store, and what a report, an error bit and an arrival that is taken leave as it was. -/
namespace Sys2Proof.Machine

/-! ### Outcomes -/

/-- An effect is always answered by a next state, with the queue and the build as they were. -/
theorem act_next (on : Bool) (s : State) (f : State → State) :
    ∃ t, act on s f = .next t ∧ t.pending = s.pending ∧ t.build = s.build := by
  cases on
  · exact ⟨s, rfl, rfl, rfl⟩
  · exact ⟨_, rfl, rfl, rfl⟩

/-- A part that does not run leaves everything as it was. -/
theorem act_off (s : State) (f : State → State) : act false s f = .next s := rfl

/-- A part that runs is left as the effect leaves it. -/
theorem act_on (s : State) (f : State → State) : act true s f = .next (s.within (f s)) := rfl

/-- An effect that keeps the queue and the build is the next state itself. -/
theorem within_self (s t : State) (hp : t.pending = s.pending) (hb : t.build = s.build) : s.within t = t := by
  cases t; cases s; simp_all [State.within]

namespace State

/-! ### Register words and fields -/

theorem word_setWord (s : State) (a b : Nat) (w : Word) : (s.setWord a w).word b = if b = a then w else s.word b := by
  by_cases h : b = a
  · subst h; rw [if_pos rfl]; exact (mapGet_mapSet s.regs (resetWord s.build b) w b b).trans (if_pos rfl)
  · rw [if_neg h]
    show (mapGet (mapSet s.regs (resetWord s.build a) a w) b).getD _ = _
    unfold mapSet
    split
    · rw [mapGet_mapDel, if_neg h]; rfl
    · rw [mapGet_mapPut, if_neg h]; rfl

theorem word_set (s : State) (b a v : Nat) (f : Fld) (h : a ≠ b + f.off) : (s.set b f v).word a = s.word a := by
  rw [set, word_setWord, if_neg h]

/-- A counter that is raised changes nothing but registers. -/
theorem bump_frame (s : State) (b n : Nat) (f : Fld) : { s.bump b f n with regs := s.regs } = s := rfl

/-- A counted severity changes registers alone. -/
theorem countSeverity_eq (s : State) (v n : Nat) : ∃ r, s.countSeverity v n = { s with regs := r } := by
  unfold countSeverity
  split
  · exact ⟨_, rfl⟩
  · split
    · exact ⟨_, rfl⟩
    · split
      · exact ⟨_, rfl⟩
      · exact ⟨s.regs, rfl⟩

/-- A report changes pending reports and the registers of the severity counters, and nothing else. -/
theorem report_eq (s : State) (c src st d : Nat) : ∃ r l, s.report c src st d = { s with regs := r, reports := l } := by
  obtain ⟨r, h⟩ := countSeverity_eq s (severity c st d) 1
  unfold report
  simp only [h]
  split <;> exact ⟨_, _, rfl⟩

/-- An error bit changes pending reports and registers, and nothing else. -/
theorem errBit_eq (s : State) (b c src st o : Nat) (f : Fld) : ∃ r l, s.errBit b f c src st o = { s with regs := r, reports := l } := by
  obtain ⟨r, l, h⟩ := report_eq (s.set b f 1) c src st (f.lo + 256 * o)
  exact ⟨r, l, h⟩

/-! ### Things that are taken -/

/-- The front flit of a link is taken, and nothing else changes. -/
theorem takeWire_frame (s s1 : State) (l : Nat) (f : Flit) (h : s.takeWire l = some (f, s1)) :
    (∃ r, (mapGet s.wires l).getD [] = f :: r ∧ s1.wires = mapSet s.wires [] l r) ∧ { s1 with wires := s.wires } = s := by
  unfold takeWire at h
  split at h
  · cases h
  · cases h; exact ⟨⟨_, ‹_›, rfl⟩, rfl⟩

theorem giveCredit_frame (s : State) (l vc n : Nat) : { s.giveCredit l vc n with owed := s.owed, crw := s.crw } = s := by
  unfold giveCredit; simp only; split <;> rfl

/-- An arrival that is taken is one of the endpoint's that the command accepts; it is taken away and its credits go back, and
nothing else changes. -/
theorem takeArrival_spec (s s1 : State) (e : Nat) (p : Arrival → Bool) (a : Arrival) (h : s.takeArrival e p = some (a, s1)) :
    a ∈ s.arrived e ∧ p a = true ∧ s1.arrived e = delFirst (fun x => x == a) (s.arrived e) ∧
    { s1 with arrivals := s.arrivals, owed := s.owed, crw := s.crw } = s := by
  unfold takeArrival at h
  simp only at h
  split at h
  · cases h
  · rename_i x hx
    have hm := List.mem_of_find?_eq_some hx
    have hp := List.find?_some hx
    simp only [Bool.and_eq_true] at hp
    obtain ⟨h1, h2⟩ := Prod.mk.inj (Option.some.inj h)
    subst h1
    have ha : ∀ l, (s.setArrived e l).arrived e = l := fun l => by
      simpa [setArrived, arrived] using mapGet_mapSet s.arrivals [] l e e
    refine ⟨hm, hp.1, ?_, ?_⟩
    · rw [← h2]; split
      · exact ha _
      · unfold giveCredit; simp only; split <;> exact ha _
    · rw [← h2]; split
      · rfl
      · unfold giveCredit; simp only; split <;> rfl

end State
end Sys2Proof.Machine
end

