-- ==== Sys2Proof/Laws/Settle.lean ====
section
/-! SUPPORT. In a quiet state nothing waits to be told, so that settling changes nothing. -/
namespace Sys2Proof.Safety
open Sys2Proof.Machine

/-- A quiet state settles as it is. -/
theorem settle_of_quiet (s : State) (h : Quiet s) : s.settle = s := by
  obtain ⟨h1, h2, h3, h4, h5, h6, h7, h8, h9, h10, h11, h12, h13, _, h15, h16, _, h18, h19⟩ := h
  have e1 : s.settleOne = none := by simp [State.settleOne, State.nextTxn, h1, h2, h3, h4]
  have e3 : s.traceGo = s := by
    unfold State.traceGo
    rw [h12]
    obtain h | h := h13
    · simp [h]
    · have : s.streamRun (4095 + 1) = s := by unfold State.streamRun; split <;> simp [h]
      simp [this]
  have e4 : s.tapDrain = s := by simp [State.tapDrain, h15]
  have e5 : s.lathDrain = s := by simp [State.lathDrain, State.lathGoTill, h16]
  have e6 : s.closeDown = s := by simp [State.closeDown, h18]
  have e2 : s.lookAgain = s := by simp [State.lookAgain, h5, h6, h7, h8, h9, h10, h11, h19, e3, e4, e5, e6]
  unfold State.settle; split
  · rfl
  · show s.settleLoop (4095 + 1) = s
    simp [State.settleLoop, e1, e2]

/-- The block is quiet right after reset. -/
theorem quiet_reset : Quiet State.reset := ⟨rfl, rfl, rfl, rfl, rfl, rfl, rfl, rfl, rfl, rfl, rfl, rfl, .inl rfl, rfl, rfl, rfl, rfl, rfl, rfl⟩

end Sys2Proof.Safety
end

