-- ==== Sys2Proof/Tests/Slice0.lean ====
section
/-! SUPPORT. Tests of single commands on small states, ill-formed commands refused by `Instr.wf`, and for every statement with
hypotheses, clause by clause, a concrete state that meets them. -/
namespace Sys2Proof.Tests
set_option Elab.async false
open Sys2Proof.Machine Sys2Proof.Safety

/-- The reference Configuration A block in service, every domain Lit. -/
def lit : State :=
  { State.reset with
    boot := 0
    injSt := []
    regs := [(0xA10, 0xFFFFFFFF#32), (0xA14, 0xFFFFFFFF#32), (0xA18, 0xFFFFFFFF#32), (0xA1C, 0xFFFFFFFF#32), (0xA20, 0xFFFF#32)] }

/-- That block with the Spindle in RUN in SPX mode at a notch. -/
def run (turn notch : Nat) : State :=
  { (lit.set 0 F.SPN_CTL_EN 1).set 0 F.SPN_STAT_STATE 2 with spn := { Spindle.reset with turn := turn, notch := notch } }

/-- The same in beacon mode. -/
def runB (turn notch : Nat) : State := (run turn notch).set 0 F.SPN_CTL_SRC 1

/-- A packet of a type, on a VC, with nothing else in it. -/
def bare (ptype vcn : Nat) : Pkt := ⟨{ Hdr.zero with ptype := ptype, vcn := vcn }, Ext.none, [], []⟩

/-- A packet that has come whole to an endpoint. -/
def at' (s : State) (ep plane : Nat) (p : Pkt) : State :=
  { s with arrivals := [(ep, [⟨0, plane, p.hdr.vcn, false, p, 0⟩])] }

/-- An arrival that `p` accepts is taken, and `P` says this of it and of the state then. -/
def comes (s : State) (e : Nat) (p : Arrival → Bool) (P : Arrival → State → Bool) : Bool :=
  match s.takeArrival e p with
  | some (a, s1) => P a s1
  | none => false

theorem comes_iff (s : State) (e : Nat) (p : Arrival → Bool) (P : Arrival → State → Bool) :
    comes s e p P = true ↔ ∃ a s1, s.takeArrival e p = some (a, s1) ∧ P a s1 = true := by
  unfold comes
  cases h : s.takeArrival e p with
  | none => simp
  | some x => exact ⟨fun hp => ⟨x.1, x.2, rfl, hp⟩, fun ⟨_, _, he, hp⟩ => by cases he; exact hp⟩

theorem free : CfgFree lit := ⟨rfl, rfl, rfl, rfl⟩
theorem quiet : Quiet lit := ⟨rfl, rfl, rfl, rfl, rfl, rfl, rfl, rfl, rfl, rfl, rfl, rfl, Or.inl rfl, rfl, rfl, rfl, rfl, rfl, rfl⟩

/-! ### Well-formed commands: each range of `Instr.ranges` refuses its bound and admits the number below it -/

/-- Commands with one operand at the bound of its range. -/
def illFormed0 : List Instr :=
  [.flitReceive 6144 0 0 0 false, .flitReceive 0 5 0 0 false, .flitReceive 0 0 6 0 false, .creditReceive 6144 0 0 0 false,
   .creditReceive 0 5 0 0 false, .creditReceive 0 0 6 0 false, .packetLaunch 6144 0 0, .packetLaunch 0 5 0, .packetLaunch 0 0 6,
   .reflect 6144 0 0 0, .reflect 0 5 0 0, .reflect 0 0 6 0, .reflect 0 0 0 8, .burlAbsorb 6144 0 0, .burlAbsorb 0 5 0,
   .burlAbsorb 0 0 8, .burlHoldExpiry 6144 0, .latheFlitSwitch 6144 0 0, .latheFlitSwitch 0 5 0, .niLaunch 4096, .throttleUpdate
   4096, .write 4096, .read 4096, .send 4096, .rslotHoleTimeout 4096 0 0 0, .rdata 4096, .wack 4096, .nack 4096, .credit 4096,
   .niRequestTimeout 4096 0, .niRetry 4096 0, .blkFree 4096 0, .blkPoolEnable 4096 0 0, .blkPoolEnable 0 4 0, .nop 16,
   .ringAbort 16, .jobKill 16, .xfer 16, .xferMc 16, .xferRed 16]

theorem test_illFormed0 : illFormed0.all (fun i => i.wf == false) = true := by decide +kernel

/-- Commands with one operand at the bound of its range. -/
def illFormed1 : List Instr :=
  [.rankBind 16, .tableWrite 16, .tsetSwap 16, .tsetSwapEdge 16, .injStop 16, .injResume 16, .chanOpen 16, .chanClose 16,
   .rtrDrain 16, .rtrReopen 16, .domDown 16, .domUp 16, .semInit 16, .semFree 16, .semSet 16, .semRead 16, .syncBind 16,
   .barInit 16, .barFree 16, .realignSet 16, .lthLoad 16, .lthSwap 16, .lthResume 16, .latheStage 4096 0, .latheLaunch 4096 0,
   .latheDeposit 4096, .colGroupSet 16, .colIssue 16, .colPeerGone 16, .linkAdmit 16, .linkDown 16, .linkSwap 16, .linkRekey 16,
   .keyLoad 16, .keyErase 16, .regRead 16, .regWrite 16, .mirSnap 16, .doorbell 16 0, .ringResume 16]

theorem test_illFormed1 : illFormed1.all (fun i => i.wf == false) = true := by decide +kernel

/-- Commands with one operand at the bound of its range. -/
def illFormed2 : List Instr :=
  [.ringEnable 16 0, .commandFetch 16, .statusReply 16, .guardExpiry 256, .mcTargetReceive 4096, .mcRelay 4096, .perTargetNack
   4096, .mcUnicastRetry 4096 0, .mcHoldExpiry 4096 0, .reduceAcc 4096, .claim 126, .commit 126, .reduceBowl 126,
   .bowlResultDone 4096, .bowlSlotTimeout 4096, .bowlEntryExpire 4096, .ready 126, .gdone 126, .colStageStart 126 0,
   .colChunkSend 126 0 0 0, .colProgressTimeout 126 0, .add 126, .sub 126, .wait 126, .waitTake 126, .syncRead 126, .cancel 126,
   .barArrive 126, .barWait 126, .barUp 126, .barDown 126, .set 126, .barTimedRelease 126 0, .barTimedRelease 0 256, .realign
   126 0, .realign 0 8, .watchTimeout 126 0, .watchTimeout 0 2048, .notificationLaunch 126, .syncNtf 4096]

theorem test_illFormed2 : illFormed2.all (fun i => i.wf == false) = true := by decide +kernel

/-- Commands with one operand at the bound of its range. -/
def illFormed3 : List Instr :=
  [.wslotGuardExpiry 4096 0, .wslotGuardExpiry 0 64, .wslotFree 4096 0, .wslotFree 0 64, .desc 15360 0, .sync 15360 0, .qsubmit
   15360 0, .reg 15360 0, .cqMessageStart 4096 0, .cqMessageStart 0 16, .cqStallTimeout 4096 0, .cqStallTimeout 0 16,
   .cquHeadWrite 4096 0 0, .cquHeadWrite 0 16 0, .creditUpdate 4096 0, .creditUpdate 0 16, .cquSelRead 4096 0, .cquSelRead 0 4,
   .cquEnable 4096 false 0 0, .cquEnable 0 false 16 0, .frameReceive 126 [], .frameReceive 0 (List.replicate 9 ⟨0, none, []⟩), .frameReceive 0 [⟨0, none, List.replicate 1089 0⟩],
   .replayTimeout 126, .admitSend 126, .trainingTimeout 126, .laneFail 126 0, .laneFail 0 8, .spareRotate 126, .spareCalibrate 126 0, .linkDead 126, .linkIdleEnd 126, .nklCtlWrite 126 0, .fdiError 126, .scaleoutExit 126, .scaleoutEntry 126, .e2eAck
   126, .e2eRetransmit 126 0, .e2eAbandon 126 0, .pswAckFall 126, .pswAckRise 126]

theorem test_illFormed3 : illFormed3.all (fun i => i.wf == false) = true := by decide +kernel

/-- Commands with one operand at the bound of its range. -/
def illFormed4 : List Instr :=
  [.pswAckTimeout 126, .pswAckLost 126, .domainInitDone 126, .domainLit 126, .mapWriteResponse 126 0 0, .mapWriteResponse 0 4096
   0, .mapWriteResponse 0 0 8, .mapReadData 126 0 0 false 0, .mapReadData 0 4096 0 false 0, .mapReadData 0 0 0 false 8,
   .mapTimeout 126 false 0, .mapTimeout 0 false 4096, .tapReadData 15360 0 0 false false, .tapReadData 0 4096 0 false false,
   .phyLock 126 0, .cellBoundary 126, .hdsReservedOpcode 16, .tapReservedOp 15360 0 0, .syncOpReserved 126]

theorem test_illFormed4 : illFormed4.all (fun i => i.wf == false) = true := by decide +kernel

/-- Commands with every operand just below its bound. -/
def wellFormed0 : List Instr :=
  [.flitReceive 6143 4 5 0 false, .creditReceive 6143 4 5 0 false, .packetLaunch 6143 4 5, .reflect 6143 4 5 7, .burlAbsorb 6143
   4 7, .burlHoldExpiry 6143 0, .latheFlitSwitch 6143 4 0, .niLaunch 4095, .throttleUpdate 4095, .write 4095, .read 4095, .send
   4095, .rslotHoleTimeout 4095 0 0 0, .rdata 4095, .wack 4095, .nack 4095, .credit 4095, .niRequestTimeout 4095 0, .niRetry
   4095 0, .blkFree 4095 0, .blkPoolEnable 4095 3 0, .nop 15, .ringAbort 15, .jobKill 15, .xfer 15, .xferMc 15, .xferRed 15,
   .rankBind 15, .tableWrite 15, .tsetSwap 15, .tsetSwapEdge 15, .injStop 15, .injResume 15, .chanOpen 15, .chanClose 15,
   .rtrDrain 15, .rtrReopen 15, .domDown 15, .domUp 15, .semInit 15]

theorem test_wellFormed0 : wellFormed0.all (fun i => i.wf == true) = true := by decide +kernel

/-- Commands with every operand just below its bound. -/
def wellFormed1 : List Instr :=
  [.semFree 15, .semSet 15, .semRead 15, .syncBind 15, .barInit 15, .barFree 15, .realignSet 15, .lthLoad 15, .lthSwap 15,
   .lthResume 15, .latheStage 4095 0, .latheLaunch 4095 0, .latheDeposit 4095, .colGroupSet 15, .colIssue 15, .colPeerGone 15,
   .linkAdmit 15, .linkDown 15, .linkSwap 15, .linkRekey 15, .keyLoad 15, .keyErase 15, .regRead 15, .regWrite 15, .mirSnap 15,
   .doorbell 15 0, .ringResume 15, .ringEnable 15 0, .commandFetch 15, .statusReply 15, .guardExpiry 255, .mcTargetReceive 4095,
   .mcRelay 4095, .perTargetNack 4095, .mcUnicastRetry 4095 0, .mcHoldExpiry 4095 0, .reduceAcc 4095, .claim 125, .commit 125,
   .reduceBowl 125]

theorem test_wellFormed1 : wellFormed1.all (fun i => i.wf == true) = true := by decide +kernel

/-- Commands with every operand just below its bound. -/
def wellFormed2 : List Instr :=
  [.bowlResultDone 4095, .bowlSlotTimeout 4095, .bowlEntryExpire 4095, .ready 125, .gdone 125, .colStageStart 125 0,
   .colChunkSend 125 0 0 0, .colProgressTimeout 125 0, .add 125, .sub 125, .wait 125, .waitTake 125, .syncRead 125, .cancel 125,
   .barArrive 125, .barWait 125, .barUp 125, .barDown 125, .set 125, .barTimedRelease 125 255, .realign 125 7, .watchTimeout 125
   2047, .notificationLaunch 125, .syncNtf 4095, .wslotGuardExpiry 4095 63, .wslotFree 4095 63, .desc 15359 0, .sync 15359 0,
   .qsubmit 15359 0, .reg 15359 0, .cqMessageStart 4095 15, .cqStallTimeout 4095 15, .cquHeadWrite 4095 15 0, .creditUpdate 4095
   15, .cquSelRead 4095 3, .cquEnable 4095 false 15 0, .frameReceive 125 (List.replicate 8 ⟨159, some 7, [0x3FF]⟩), .replayTimeout 125, .admitSend
   125, .trainingTimeout 125]

theorem test_wellFormed2 : wellFormed2.all (fun i => i.wf == true) = true := by decide +kernel

/-- Commands with every operand just below its bound. -/
def wellFormed3 : List Instr :=
  [.laneFail 125 7, .spareRotate 125, .spareCalibrate 125 0, .linkDead 125, .linkIdleEnd 125, .nklCtlWrite 125 0, .fdiError 125,
   .scaleoutExit 125, .scaleoutEntry 125, .e2eAck 125, .e2eRetransmit 125 0, .e2eAbandon 125 0, .pswAckFall 125, .pswAckRise
   125, .pswAckTimeout 125, .pswAckLost 125, .domainInitDone 125, .domainLit 125, .mapWriteResponse 125 4095 7, .mapReadData 125
   4095 0 false 7, .mapTimeout 125 false 4095, .tapReadData 15359 4095 0 false false, .phyLock 125 0, .cellBoundary 125,
   .hdsReservedOpcode 15, .tapReservedOp 15359 0 0, .syncOpReserved 125]

theorem test_wellFormed3 : wellFormed3.all (fun i => i.wf == true) = true := by decide +kernel

/-! ### The queue, encodings -/

theorem witness_StepRunsFront : ∃ s c r, State.pending s = c :: r := ⟨{ lit with pending := [.notchEdge] }, _, _, rfl⟩

theorem witness_IdleStepIsOneCycle : lit.pending = [] ∧ lit.own = [] ∧ lit.sendq = [] ∧ lit.lazies = [] ∧ lit.injecting = [] ∧
    lit.traceq = [] ∧ lit.trace = [] ∧ lit.snapDue = none ∧ lit.tapw = [] ∧ lit.lathe.going = [] ∧ lit.freshClaims = [] :=
  ⟨rfl, rfl, rfl, rfl, rfl, rfl, rfl, rfl, rfl, rfl, rfl⟩

theorem witness_EveryWellFormedCommandAnswers : (Instr.niLaunch 4095).wf = true ∧ (Instr.doorbell 16 0).wf = false := by decide +kernel

theorem witness_PartThatIsOffIgnoresItsCommands :
    built State.reset.build (.niLaunch 0) = true ∧ partOn State.reset (.niLaunch 0) = false := by decide +kernel

theorem witness_EveryStepKeepsTheQueueWellFormed : ∃ s t : State, s.pending ≠ [] ∧ QueueWf s ∧ step s = .next t :=
  ⟨{ lit with pending := [.notchEdge, .niLaunch 0] }, _, List.cons_ne_nil _ _, by
    intro c hc
    rcases List.mem_cons.1 hc with rfl | h
    · rfl
    · rw [List.mem_singleton.1 h]; decide +kernel, rfl⟩

theorem witness_EveryStepKeepsTheHardwareWellFormed : ∃ s t : State, s.pending ≠ [] ∧ HardwareWf s ∧ step s = .next t :=
  ⟨{ lit with pending := [.notchEdge], ram := [(5, 1#8), (63, 255#8)], spn := { Spindle.reset with turn := 2 ^ 40 - 1, notch := 2047 } }, _, List.cons_ne_nil _ _,
    ⟨by decide +kernel, by decide +kernel, by decide +kernel⟩, rfl⟩

theorem witness_QueueRunsFirstInFirstOut : ∃ s : State, s.pending ≠ [] ∧ QueueWf s :=
  let ⟨s, _, h, h', _⟩ := witness_EveryStepKeepsTheQueueWellFormed; ⟨s, h, h'⟩

/-- A WRITE of 65 bytes, the second payload unit poisoned. -/
def write65 : Pkt :=
  ⟨{ Hdr.zero with ptype := tWRITE, len := 65, addr := 2 ^ 48 - 1, ts := 65535 }, { Ext.none with xv := 1, slen := 65 },
    List.replicate 65 0xA5#8, [1]⟩

theorem witness_PayloadLiesInFlitsFromOne :
    pPB ≤ 1 ∧ write65.hdr.fits = true ∧ write65.pay[64]? = some 0xA5#8 := by decide +kernel

theorem witness_HeaderUnitReadsBack : write65.hdr.fits = true ∧ extFits write65.ext = true := by decide +kernel

theorem witness_PacketSurvivesItsFlits :
    (pQB ≤ 1 ∧ write65.hdr.fits = true ∧ extFits write65.ext = true ∧ write65.pay.length = write65.hdr.len ∧
      write65.bad = (upFrom 0 (ceilDiv write65.hdr.len 64)).filter (fun i => write65.bad.contains i)) ∧
    (let p := bare tCFG_RD 0
     2 ≤ pCQ ∧ p.hdr.fits = true ∧ extFits p.ext = true ∧ p.pay = [] ∧ (p.hdr.len = 0 → p.ext = Ext.none) ∧
      p.bad = (upFrom 0 (flitsOf pCQ p.hdr.len)).filter (fun i => p.bad.contains i)) := by decide +kernel

theorem witness_ScaleOutHeaderReadsBack :
    write65.hdr.fits = true ∧ extFits write65.ext = true ∧ write65.ext.xv = 1 ∧ write65.hdr.ptype ≠ tSYNC_OP ∧
    write65.hdr.ptype ≠ tSYNC_NTF := by decide +kernel

theorem witness_NarrowFlitCode : 2 ^ 64 - 1 < 2 ^ 64 ∧ 71 < 72 ∧ 0 ≠ 71 := by decide

theorem witness_PoisonSurvivesTheWires : 2 ^ 512 - 1 < 2 ^ 512 ∧ 0 < 2 ^ 64 := by decide +kernel

theorem witness_LiesAfterIsTheHalfRangeWindow : 1 ≤ 40 ∧ liesAfter 40 0 (2 ^ 40 - 1) = true ∧ liesAfter 40 (2 ^ 39) 0 = false := by
  decide +kernel

theorem witness_FitIsTheSmallestScale : ((2 : Nat) = 2 ∧ (7 : ℚ) = 7) ∧ 0 < 1 := ⟨⟨rfl, rfl⟩, Nat.one_pos⟩

/-! ### Registers, memory, reports -/

theorem witness_FieldHoldsWhatWasStored :
    F.SPN_CTL_RPORT.lo + F.SPN_CTL_RPORT.w ≤ 32 ∧ 127 < 2 ^ F.SPN_CTL_RPORT.w ∧ F.SPN_CTL_EN.off = F.SPN_CTL_RPORT.off ∧
    F.SPN_CTL_EN.lo + F.SPN_CTL_EN.w ≤ F.SPN_CTL_RPORT.lo := by decide

theorem witness_WrittenFieldsFollowTheirTypes : ∃ r ∈ regTable, ∃ f ∈ r.flds, f.ty = .RWL := by decide +kernel

theorem witness_MisalignedAndUnmappedAccesses :
    CfgFree lit ∧ Quiet lit ∧ ((0x102#28).toNat % 4 ≠ 0 ∧ lit.mapped 0x200000 = false) := ⟨free, quiet, by decide +kernel⟩

theorem witness_PlainRegisterAndCommandMemoryWrite_register :
    CfgFree lit ∧ Quiet lit ∧ ∀ a ∈ [0xC, 0x120, 0x900, 0xB00, 0xC00], lit.accCheck a = stOK ∧
      ((rowAt lit.build a).map (·.2)) = some false ∧ lit.get 0 F.KEY_LOCK_LOCK = 0 ∧ lit.trace = [] :=
  ⟨free, quiet, by decide +kernel⟩

theorem witness_PlainRegisterAndCommandMemoryWrite_memory :
    CfgFree lit ∧ Quiet lit ∧ lit.accCheck 0x110000 = stOK ∧ lit.accCheck 0x11FFFC = stOK := ⟨free, quiet, by decide +kernel⟩

theorem witness_StoredBytesReadBack :
    Memory.wf lit.ram = true ∧ Memory.wf (lit.ramStore 63 [1#8, 0#8, 2#8] []).ram = true := by decide +kernel

/-! ### The Spindle -/

theorem quiet_run (t n : Nat) : Quiet (run t n) := ⟨rfl, rfl, rfl, rfl, rfl, rfl, rfl, rfl, rfl, rfl, rfl, rfl, Or.inl rfl, rfl, rfl, rfl, rfl, rfl, rfl⟩
theorem quiet_runB (t n : Nat) : Quiet (runB t n) := ⟨rfl, rfl, rfl, rfl, rfl, rfl, rfl, rfl, rfl, rfl, rfl, rfl, Or.inl rfl, rfl, rfl, rfl, rfl, rfl, rfl⟩

theorem witness_NotchMovesSpindleTime_spx :
    Quiet (run 3 2046) ∧ (run 3 2046).stopped = false ∧ (run 3 2046).spnEn = true ∧ (run 3 2046).spnState = 2 ∧
    (run 3 2046).spn.notch < 2047 ∧ (run 3 2046).beaconMode = false := ⟨quiet_run _ _, by decide +kernel⟩

theorem witness_NotchMovesSpindleTime_beacon :
    Quiet (runB 3 0) ∧ (runB 3 0).stopped = false ∧ (runB 3 0).spnEn = true ∧ (runB 3 0).spnState = 2 ∧
    (runB 3 0).spn.notch < 2047 ∧ (runB 3 0).beaconMode = true := ⟨quiet_runB _ _, by decide +kernel⟩

theorem witness_NotchMovesSpindleTime_off : Quiet lit ∧ lit.stopped = false ∧ lit.spnEn = false := ⟨quiet, by decide +kernel⟩

theorem witness_TurnEdgeBeginsTurn_spx :
    Quiet (run (2 ^ 40 - 1) 2047) ∧ (run (2 ^ 40 - 1) 2047).stopped = false ∧ (run (2 ^ 40 - 1) 2047).spnEn = true ∧
    (run (2 ^ 40 - 1) 2047).spnState = 2 ∧ (run (2 ^ 40 - 1) 2047).beaconMode = false := ⟨quiet_run _ _, by decide +kernel⟩

theorem witness_TurnEdgeBeginsTurn_beacon :
    Quiet (runB 0 2047) ∧ (runB 0 2047).stopped = false ∧ (runB 0 2047).spnEn = true ∧ (runB 0 2047).spnState = 2 ∧
    (runB 0 2047).beaconMode = true := ⟨quiet_runB _ _, by decide +kernel⟩

/-- Samples of SPX_TCNT awaited in RUN after the edge to turn 8. -/
def sampling (st : Nat) : State := { (run 8 0).set 0 F.SPN_STAT_STATE st with spn := { Spindle.reset with turn := 8, sample := some 7 } }

theorem witness_TcntIsAccepted : ∀ st ∈ [1, 2, 4],
    Quiet (sampling st) ∧ (sampling st).stopped = false ∧ (sampling st).beaconMode = false ∧ (sampling st).spn.sample = some 7 ∧
    (sampling st).spnState = st ∧ (sampling st).spn.turn = (7 + 1) % 2 ^ 40 ∧ (sampling st).flag 0 F.SPN_EVT_TCNT = false ∧
    (sampling st).flag 0 F.SPN_EVT_JUMP = false := by
  intro st h
  refine ⟨⟨rfl, rfl, rfl, rfl, rfl, rfl, rfl, rfl, rfl, rfl, rfl, rfl, Or.inl rfl, rfl, rfl, rfl, rfl, rfl, rfl⟩, ?_⟩
  revert st; decide +kernel

theorem witness_TcntIsAccepted_pairs :
    (∃ v : Fin 5 → BitVec 40, v (3 : Fin 4).castSucc = v (3 : Fin 4).succ ∧ ∀ j : Fin 4, j < 3 → v j.castSucc ≠ v j.succ) ∧
    (∃ v : Fin 5 → BitVec 40, ∀ j : Fin 4, v j.castSucc ≠ v j.succ) :=
  ⟨⟨![0, 1, 0, 1, 1], by decide, by decide⟩, ⟨![0, 1, 0, 1, 0], by decide⟩⟩

theorem witness_StallFreezesSpindleTime_spx :
    Quiet (run 3 5) ∧ (run 3 5).stopped = false ∧ (run 3 5).running = true ∧ (run 3 5).beaconMode = false :=
  ⟨quiet_run _ _, by decide +kernel⟩

/-- Beacon mode, a number of turns without a beacon at RPORT and four of them at RPORT2. -/
def missed (k : Nat) : State :=
  { (runB 3 5).set 0 F.SPN_STAT_SOURCE 1 with spn := { Spindle.reset with missed := k, missed2 := 4, rport := 47, rport2 := 126 } }

theorem witness_StallFreezesSpindleTime_beacon : ∀ k ∈ [2, 3, 4],
    Quiet (missed k) ∧ (missed k).stopped = false ∧ (missed k).running = true ∧ (missed k).beaconMode = true ∧
    (missed k).refChip = false ∧ (missed k).get 0 F.SPN_STAT_SOURCE = 1 ∧ (missed k).spn.missed = k ∧ (missed k).spn.rport2 ≠ 127 ∧
    (missed k).beaconsGone = (k == 4) := by
  intro k h
  refine ⟨⟨rfl, rfl, rfl, rfl, rfl, rfl, rfl, rfl, rfl, rfl, rfl, rfl, Or.inl rfl, rfl, rfl, rfl, rfl, rfl, rfl⟩, ?_⟩
  revert k; decide +kernel

theorem witness_SpindleControl :
    CfgFree (run 3 5) ∧ Quiet (run 3 5) ∧ (run 3 5).accCheck 0x100 = stOK ∧ (run 3 5).accCheck 0x110 = stOK ∧
    (run 3 5).spn.turn < 2 ^ 40 ∧ (run 3 5).spn.notch < 2048 ∧ (run 3 5).spn.phase < 8 ∧ (run 3 5).spnEn = true ∧
    lit.spnEn = false := ⟨⟨rfl, rfl, rfl, rfl⟩, quiet_run _ _, by decide +kernel⟩

/-! ### A frame that cannot be decoded -/

/-- The last 30 symbols of a word whose syndromes are all zero but the last: the code of one root less. -/
def tail30 : List Nat := [1, 287, 513, 656, 197, 885, 815, 1011, 141, 211, 282, 451, 394, 740, 375, 387, 301, 883, 11, 812, 927,
  370, 437, 2, 961, 563, 614, 564, 941, 464]

/-- The frame with those symbols at the end of its first codeword. -/
def badFrame : List (BitVec 10) := List.replicate 1028 0 ++ (tail30.map (fun v => [BitVec.ofNat 10 v, 0])).flatten

theorem rgMul_zero (x : Nat) : rgMul 0 x = 0 := by simp [rgMul, natFold, rgX]

theorem syndromes_zeros (n : Nat) (l : List Nat) : rsSyndromes (List.replicate n 0 ++ l) = rsSyndromes l := by
  have h : ∀ x, (List.replicate n 0 ++ l).foldl (fun acc c => Nat.xor (rgMul acc x) c) 0 =
      l.foldl (fun acc c => Nat.xor (rgMul acc x) c) 0 := by
    intro x
    induction n with
    | zero => rfl
    | succ n ih => simp only [List.replicate_succ, List.cons_append, List.foldl_cons, rgMul_zero]; exact ih
  simp only [rsSyndromes, h]

theorem syndromes_tail30 : rsSyndromes tail30 = List.replicate 29 0 ++ [676] := by decide +kernel

theorem locator_tail30 : (natFold (bmStep (List.replicate 29 0 ++ [676])) ⟨[1], [1], 0, 1, 1⟩ 30).l = 30 := by decide +kernel

theorem rsDecode_tail30 : rsDecode (List.replicate 514 0 ++ tail30) = none := by
  unfold rsDecode
  simp only [syndromes_zeros, syndromes_tail30, locator_tail30]
  rfl

theorem upFrom_append (a m n : Nat) : upFrom a (m + n) = upFrom a m ++ upFrom (a + m) n := by
  induction m generalizing a with
  | zero => simp [upFrom]
  | succ m ih => rw [Nat.succ_add]; simp only [upFrom, List.cons_append, ih]; congr 3; omega

theorem pick_zeros : (upFrom 0 514).map (fun i => ((badFrame.map (·.toNat))[2 * i + 0]?).getD 0) = List.replicate 514 0 := by
  refine List.eq_replicate_iff.2 ⟨by rw [List.length_map, length_upFrom], fun b hb => ?_⟩
  obtain ⟨i, hi, rfl⟩ := List.mem_map.1 hb
  have := (mem_upFrom _ _ _).1 hi
  rw [badFrame, List.map_append, List.getElem?_append_left (by rw [List.length_map, List.length_replicate]; omega),
    List.map_replicate, List.getElem?_replicate, if_pos (by omega)]
  rfl

theorem pick_tail : (upFrom 514 30).map (fun i => ((badFrame.map (·.toNat))[2 * i + 0]?).getD 0) = tail30 := by
  have h : ∀ i ∈ upFrom 514 30, ((badFrame.map (·.toNat))[2 * i + 0]?).getD 0 =
      (((tail30.map (fun v => [BitVec.ofNat 10 v, 0])).flatten.map (·.toNat))[2 * i + 0 - 1028]?).getD 0 := by
    intro i hi
    have := (mem_upFrom _ _ _).1 hi
    rw [badFrame, List.map_append, List.getElem?_append_right (by rw [List.length_map, List.length_replicate]; omega),
      List.length_map, List.length_replicate]
  rw [List.map_congr_left h]
  decide +kernel

theorem frameDecode_none (sy : List Nat)
    (h : rsDecode ((upFrom 0 (514 + 30)).map (fun i => (sy[2 * i + 0]?).getD 0)) = none) : frameDecode sy = none := by
  unfold frameDecode
  simp only
  split
  · rename_i h1 _; exact absurd (h1.symm.trans h) (by simp)
  · rfl

theorem badFrame_undecodable : frameDecode (badFrame.map (·.toNat)) = none := by
  apply frameDecode_none
  rw [upFrom_append, List.map_append, pick_zeros, pick_tail, rsDecode_tail30]

theorem rsDecode_zeros : rsDecode (List.replicate 544 0) = some (List.replicate 544 0, 0) := by
  have h : rsSyndromes (List.replicate 544 0) = rsSyndromes [] := by
    have := syndromes_zeros 544 []
    rwa [List.append_nil] at this
  unfold rsDecode
  simp only [h, show (rsSyndromes []).all (· == 0) = true by decide +kernel, if_true]

theorem frameDecode_some (sy a b : List Nat) (n m : Nat)
    (h0 : rsDecode ((upFrom 0 544).map (fun i => (sy[2 * i + 0]?).getD 0)) = some (a, n))
    (h1 : rsDecode ((upFrom 0 544).map (fun i => (sy[2 * i + 1]?).getD 0)) = some (b, m)) :
    ∃ x, frameDecode sy = some (x, n + m) := by
  unfold frameDecode
  simp only [h0, h1]
  exact ⟨_, rfl⟩

theorem pick_of_zeros (n k : Nat) (h : 1086 + k < n) :
    (upFrom 0 544).map (fun i => ((List.replicate n 0)[2 * i + k]?).getD 0) = List.replicate 544 0 := by
  refine List.eq_replicate_iff.2 ⟨by rw [List.length_map, length_upFrom], fun b hb => ?_⟩
  obtain ⟨i, hi, rfl⟩ := List.mem_map.1 hb
  have := (mem_upFrom _ _ _).1 hi
  rw [List.getElem?_replicate, if_pos (by omega)]
  rfl

theorem zeros_decodable : ∃ b, frameDecode (List.replicate 1088 0) = some (b, 0) := by
  obtain ⟨x, h⟩ := frameDecode_some (List.replicate 1088 0) _ _ 0 0
    (by rw [pick_of_zeros _ _ (by omega)]; exact rsDecode_zeros) (by rw [pick_of_zeros _ _ (by omega)]; exact rsDecode_zeros)
  exact ⟨x, h⟩
/-! ### Register accesses, reports, the Key Store -/

theorem witness_BlockAccessIsMadeAndAnswered_block : ∀ isPort wr : Bool,
    let s := at' lit (if isPort then 0xF00 + 48 else blockEp 0) pCQ (bare (if wr then tCFG_WR else tCFG_RD) 0)
    acts (if wr then .cfgWr isPort (if isPort then 48 else 0) else .cfgRd isPort (if isPort then 48 else 0)) s = true ∧
    (s.takeArrival (if isPort then 0xF00 + 48 else blockEp 0)
      (fun x => x.plane == pCQ && x.pkt.hdr.ptype == (if wr then tCFG_WR else tCFG_RD))).isSome = true := by decide +kernel

/-- An access of the CFG port that has gone out to a block. -/
def asked (s : State) : State := { s with accs := [⟨7, .cfg, true, 0x2000000, 100, 0⟩] }

theorem witness_BlockAccessIsMadeAndAnswered_response : ∃ a s1 x,
    (asked lit).stopped = false ∧
    (at' (asked lit) 0xF7E pCP { bare tCFG_RSP 0 with hdr := { (bare tCFG_RSP 0).hdr with tag := 7 } }).takeArrival 0xF7E
      (fun y => y.pkt.hdr.ptype == tCFG_RSP) = some (a, s1) ∧ s1.accOf a.pkt.hdr.tag = some x ∧ x.asker = .cfg :=
  ⟨_, _, ⟨7, .cfg, true, 0x2000000, 100, 0⟩, by decide +kernel, rfl, by decide +kernel, rfl⟩

theorem witness_BlockAccessIsMadeAndAnswered_timeout :
    Quiet (asked lit) ∧ (asked lit).stopped = false ∧ (asked lit).accs[0]?.map (·.asker) = some .cfg :=
  ⟨⟨rfl, rfl, rfl, rfl, rfl, rfl, rfl, rfl, rfl, rfl, rfl, rfl, Or.inl rfl, rfl, rfl, rfl, rfl, rfl, rfl⟩, by decide +kernel⟩

theorem witness_DebugAccess :
    (lit.boot = 0 ∧ lit.get 0 F.KEY_LOCK_LOCK = 0) ∧
    (let s := (lit.set 0 F.KEY_LOCK_LOCK 1).set 0 F.KEY_CTL_DBG_EN 0
     s.boot = 0 ∧ s.get 0 F.KEY_LOCK_LOCK = 1 ∧ s.get 0 F.KEY_CTL_DBG_EN = 0) ∧
    State.reset.boot = 2 ∧ State.reset.get 0 F.KEY_LOCK_LOCK = 0 ∧ ({ lit with boot := 1 } : State).boot = 1 ∧
    ({ lit with boot := 3 } : State).boot = 3 ∧ lit.heldX .dbg = none ∧ State.reset.heldX .dbg = none := by decide +kernel

theorem witness_DebugAccess_held : let s : State := { lit with xheld := [⟨.dbg, false, 0, true, 0⟩] }
    (s.heldX .dbg).isSome = true ∧ Quiet s := ⟨by decide +kernel, ⟨rfl, rfl, rfl, rfl, rfl, rfl, rfl, rfl, rfl, rfl, rfl, rfl, Or.inl rfl, rfl, rfl, rfl, rfl, rfl, rfl⟩⟩

/-- A pending report of the last class. -/
def told : Report := ⟨31, 0x6005, 0, 3, 4100, 4200, 0, 4000⟩

theorem witness_ErrorLogTakesReports :
    let s : State := { lit with reports := [told] }
    let e : LogEntry := ⟨31, 0, 0x6005, 0, 4097, 4099, 0⟩
    Quiet s ∧ s.stopped = false ∧ told.cls < 32 ∧ s.reports.find? (fun x => x.cls == told.cls && x.src == told.src) = some told ∧
    (∀ x ∈ s.reports, x.at' = told.at' → told.src ≤ x.src) ∧
    (s.log.any (fun e => e.cls == told.cls && e.src == told.src && e.first / 2048 == told.first / 2048) = false ∧ s.log.length < 64) ∧
    [e].any (fun e => e.cls == told.cls && e.src == told.src && e.first / 2048 == told.first / 2048) = true ∧
    ((List.replicate 64 { e with cls := 1 }).any (fun e => e.cls == told.cls && e.src == told.src && e.first / 2048 == told.first / 2048)
      = false ∧ ¬ (List.replicate 64 { e with cls := 1 }).length < 64) :=
  ⟨⟨rfl, rfl, rfl, rfl, rfl, rfl, rfl, rfl, rfl, rfl, rfl, rfl, Or.inl rfl, rfl, rfl, rfl, rfl, rfl, rfl⟩, by decide +kernel⟩

/-- Two reports of one cycle, the second from the lower SRC. -/
theorem witness_ErrorLogTakesReports_two :
    let q : Report := { told with src := 0x6004 }
    let s : State := { lit with reports := [told, q] }
    s.stopped = false ∧ s.reports.find? (fun x => x.cls == told.cls && x.src == told.src) = some told ∧
    s.reports.filter (fun x => x.at' == told.at' && x.src < told.src) = [q] := by decide +kernel

theorem witness_ErrorLogTakesReports_pop :
    let s : State := { lit with log := List.replicate 64 ⟨1, 0, 0, 0, 0, 0, 0⟩ }
    CfgFree s ∧ Quiet s ∧ s.accCheck 0xB08 = stOK ∧ s.log.tail.length < 64 :=
  ⟨⟨rfl, rfl, rfl, rfl⟩, ⟨rfl, rfl, rfl, rfl, rfl, rfl, rfl, rfl, rfl, rfl, rfl, rfl, Or.inl rfl, rfl, rfl, rfl, rfl, rfl, rfl⟩, by decide +kernel⟩

theorem witness_KeyLockFreezesRwlFields :
    CfgFree lit ∧ Quiet lit ∧ lit.accCheck 0xD04 = stOK ∧
    (let s := lit.set 0 F.KEY_LOCK_LOCK 1
     s.get 0 F.KEY_LOCK_LOCK = 1 ∧ (rowAt s.build 0xD08).any (fun r => decide (r.1 ∈ regTable) && r.1.flds.any (fun f => f.ty == .RWL) &&
       changesLocked r.1.flds (s.word 0xD08).toNat 0xFFFFFFFF && !changesLocked r.1.flds (s.word 0xD08).toNat (s.word 0xD08).toNat) = true) :=
  ⟨free, quiet, by decide +kernel⟩

theorem witness_ViolationsFollowTheirPolicy : ∀ p ∈ [0, 1, 2, 3],
    let s := lit.set 0 F.KEY_POLICY_POL (p * 2 ^ 14)
    7 < 8 ∧ bitsOf (s.get 0 F.KEY_POLICY_POL) 14 2 = p ∧
    s.reports.any (fun r => r.cls == 0x18 && r.src == srcGlob 5) = false := by decide +kernel

theorem witness_ViolationsFollowTheirPolicy_inputs :
    lit.boot = 0 ∧ bitsOf ((lit.set 0 F.KEY_POLICY_POL 1).get 0 F.KEY_POLICY_POL) 0 2 < 2 ∧ State.reset.rings = [] ∧
    ({ lit with boot := 1 } : State).boot = 1 ∧
    (let s : State := { lit.set 0 F.KEY_POLICY_POL 2 with boot := 3 }
     s.boot = 3 ∧ 2 ≤ bitsOf (s.get 0 F.KEY_POLICY_POL) 0 2) ∧
    lit.stopped = false ∧ (lit.set 0 F.KEY_STAT_FUSE_V 1).flag 0 F.KEY_STAT_FUSE_V = true := by decide +kernel

theorem witness_ObservationRows :
    CfgFree lit ∧ Quiet lit ∧ (∀ k ∈ [0, 15], (BitVec.ofNat 28 (0xE14 + 32 * k)).toNat = 0xE14 + 32 * k ∧
      lit.accCheck (0xE14 + 32 * k) = stOK ∧ lit.probeOff (0xE14 + 32 * k) = false) ∧ lit.flag 0 F.MIR_CTL_VIEW = false ∧ (lit.set 0 F.MIR_CTL_VIEW 1).flag 0 F.MIR_CTL_VIEW = true ∧
    0x1000000 ≤ nodeBase 65 + 0x800 ∧ lit.isTlm (nodeBase 65 + 0x800) = true ∧
    lit.accCheck 0xC04 = stOK ∧ lit.stopped = false ∧ lit.running = false ∧ lit.flag 0 F.ERR_STAT_HELD = false ∧
    (lit.set 0 F.ERR_STAT_HELD 1).flag 0 F.ERR_STAT_HELD = true := ⟨free, quiet, by decide +kernel⟩

/-! ### Power, reset, crossings -/

/-- A transition of domain 3 in a phase. -/
def trans (phase : Nat) (force : Bool) : Trans := ⟨3, phase == 3 || phase == 4, 3, 0, force, none, phase, 100⟩

theorem witness_PowerTransitionRows_0 : ∀ f : Bool,
    let s : State := { lit with trans := some (trans 0 f) }
    s.stopped = false ∧ 3 < s.build.cfgDom ∧ (trans 0 f).phase = 0 ∧ s.quiescent 3 = true ∧
    ({ s with ntfq := [(3, 0)] } : State).quiescent 3 = false := by decide +kernel

theorem witness_PowerTransitionRows_switch :
    let s : State := { lit with trans := some (trans 1 false) }
    let r : State := { run 3 5 with trans := some (trans 3 false), tmo := 101 }
    s.dueSwitch = some (trans 1 false) ∧ s.running = false ∧ s.lastSw = none ∧
    r.dueSwitch = some (trans 3 false) ∧ r.running = true ∧ r.stopped = false ∧ (trans 3 false).born < r.tmo ∧ r.lastSw = none ∧
    ({ s with lastSw := some 90 } : State).lastSw = some 90 := by
  decide +kernel

theorem witness_PowerTransitionRows_boundary : ∃ n,
    let r : State := { run 3 n with trans := some (trans 3 false), tmo := 101 }
    r.dueSwitch = some (trans 3 false) ∧ r.running = true ∧ r.notchCount % r.get 0 F.PWR_STEP_STEP = r.get 0 F.PWR_STEP_PHASE ∧
    (trans 3 false).born < r.tmo ∧ r.lastSw ≠ some r.tmo := ⟨356, by decide +kernel⟩

theorem witness_PowerTransitionRows_later : ∀ f ∈ [2, 4, 5, 6],
    let s : State := { lit with trans := some (trans f false), pswEn := [3] }
    s.stopped = false ∧ 3 < s.build.cfgDom ∧ s.transOf 3 = some (trans f false) ∧ (trans f false).phase = f ∧ (trans f false).dom = 3 ∧
    s.pswEn.contains 3 = true ∧ ({ s with trans := none } : State).transOf 3 = none := by decide +kernel

theorem witness_DarkDomainLosesEverything : lit.build.ndom ≤ 80 ∧ 63 < lit.build.nmesh := by decide +kernel

theorem witness_WholeBlockReset :
    (let s : State := { lit with boot := 1 }
     s.flag 0 F.KEY_STAT_TAMPER = false ∧ s.heldX .cfg = none ∧ s.accs = [] ∧ s.cfgWait = none) ∧
    (let s : State := { (lit.set 0 F.KEY_STAT_TAMPER 1) with boot := 1 }
     s.boot = 1 ∧ s.flag 0 F.KEY_STAT_TAMPER = true) ∧
    State.reset.cfgWait = none ∧
    (let s : State := { State.reset.set 0 F.PWR_CTL_AUTOUP 0 with cfgWait := some (true, 0xC, 5) }
     s.boot = 2 ∧ s.flag 0 F.PWR_CTL_AUTOUP = false ∧ s.cfgWait = some (true, 0xC, 5)) ∧
    Quiet State.reset ∧ State.reset.boot = 2 ∧ (State.reset.set 0 F.PWR_CTL_AUTOUP 0).flag 0 F.PWR_CTL_AUTOUP = false ∧
    (let s := State.reset.set 0 F.PWR_CTL_AUTOUP 1
     Quiet s ∧ s.boot = 2 ∧ s.flag 0 F.PWR_CTL_AUTOUP = true ∧ s.trans = none ∧ s.drain = none ∧ s.transq = [] ∧ s.upq = [] ∧
     s.halfReset true = false ∧ s.halfReset false = false ∧ s.dom 0 = 0 ∧ 0 < s.build.cfgDom) :=
  ⟨by decide +kernel, by decide +kernel, rfl, by decide +kernel, ⟨rfl, rfl, rfl, rfl, rfl, rfl, rfl, rfl, rfl, rfl, rfl, rfl, Or.inl rfl, rfl, rfl, rfl, rfl, rfl, rfl⟩, rfl, by decide +kernel,
    ⟨rfl, rfl, rfl, rfl, rfl, rfl, rfl, rfl, rfl, rfl, rfl, rfl, Or.inl rfl, rfl, rfl, rfl, rfl, rfl, rfl⟩, by decide +kernel⟩

theorem witness_HalfResetDarkensItsDomains : ∀ east : Bool,
    (lit.build.ndom ≤ 80 ∧ lit.stopped = false ∧ lit.build.halves = true ∧ lit.halfReset east = false ∧ lit.trans = none ∧
      lit.autos = [] ∧ lit.drain = none ∧ lit.transq = [] ∧ lit.upq = []) ∧
    (let s := lit.set 0 (if east then F.PWR_STAT_ERST else F.PWR_STAT_WRST) 1
     s.stopped = false ∧ s.halfReset east = true ∧ (s.heldX (.seam east)).any (·.stopped) = false ∧
     (s.set 0 F.PWR_CTL_AUTOUP 0).flag 0 F.PWR_CTL_AUTOUP = false) := by decide +kernel

/-- A crossing held. -/
def held (x : Crossing) (stopped : Bool) : State := { lit with xheld := [⟨x, false, 0, stopped, 0⟩] }

theorem quiet_held (x : Crossing) (b : Bool) : Quiet (held x b) := ⟨rfl, rfl, rfl, rfl, rfl, rfl, rfl, rfl, rfl, rfl, rfl, rfl, Or.inl rfl, rfl, rfl, rfl, rfl, rfl, rfl⟩

theorem witness_CrossingRows : ∀ x ∈ [Crossing.spx, .cfg, .dbg, .map 47, .nkp 59 7],
    Quiet (held x true) ∧ (held x true).stopped = false ∧ State.noCrossing lit.build x = false ∧ ((held x true).heldX x).isSome = true ∧
    ((held x true).heldX x).any (fun h => !h.stopped && h.seen == (held x true).cyc) = false := by
  intro x h
  refine ⟨quiet_held _ _, ?_⟩
  revert x; decide +kernel

/-- A crossing whose reset is seen in the cycle in which its clock stops. -/
theorem witness_CrossingRows_together : ∀ x ∈ [Crossing.spx, .cfg, .dbg, .map 47, .nkp 59 7, .d2d 60, .tap 10239, .seam true],
    Quiet (held x false) ∧ (held x false).stopped = false ∧
    ((held x false).heldX x).any (fun h => !h.stopped && h.seen == (held x false).cyc) = true := by
  intro x h
  refine ⟨quiet_held _ _, ?_⟩
  revert x; decide +kernel

theorem witness_CrossingRows_join :
    (∀ x ∈ [Crossing.tap 10239, .d2d 60, .seam true], Quiet (held x true) ∧ (held x true).stopped = false) ∧
    (held (.tap 10239) true).build.isS = false ∧ 10239 < 4 * (held (.tap 10239) true).build.nodes ∧
    (held (.tap 10239) true).nodeOn (10239 / 4) = true ∧ ((held (.tap 10239) true).heldX (.tap 10239)).isSome = true ∧
    lit.build.portKind 60 = 3 ∧ ((held (.d2d 60) true).heldX (.d2d 60)).isSome = true :=
  ⟨fun _ _ => ⟨quiet_held _ _, rfl⟩, by decide +kernel⟩

theorem witness_CrossingRows_all : ∀ x ∈ [Crossing.spx, .cfg, .map 47, .nkp 59 7, .d2d 60, .tap 10239, .seam true, .seam false],
    State.noCrossing lit.build x = false := by decide +kernel

theorem witness_CrossingRows_seam :
    ((held (.seam true) true).heldX (.seam true)).map (·.stopped) = some true ∧ lit.build.ndom ≤ 80 := by decide +kernel

/-! ### Links -/

/-- A block with port 48 in a state, its spare lane provided. -/
def port (st : Nat) : State :=
  { ((lit.set (portBase 48) F.NKL_STAT_STATE st).set (portBase 48) F.NKL_CTL_SPARE 1).set (portBase 48) F.NKL_CTL_EN 1 with
    links := [(48, { LinkPort.reset with lock := 2 ≤ st })] }

/-- Port 48 ISOLATED after the comparison of the spare's symbols, with a count of differences. -/
def calibrated (n : Nat) : State := (port 2).updLink 48 (fun l => { l with calC := some 3, calSyms := 2 ^ 20, calDiff := n })

theorem quiet_port (st : Nat) : Quiet (port st) := ⟨rfl, rfl, rfl, rfl, rfl, rfl, rfl, rfl, rfl, rfl, rfl, rfl, Or.inl rfl, rfl, rfl, rfl, rfl, rfl, rfl⟩

theorem witness_LinkTrainingRows :
    Quiet (port 1) ∧ (port 1).build.isLink 48 = true ∧ (port 1).linkOn 48 = true ∧ (port 1).stopped = false ∧
    ((port 1).linkState 48 = 1 ∧ ((port 1).link 48).idle = none ∧ ((port 1).link 48).lock = false ∧ (port 1).isD2d 48 = false ∧
      ((upFrom 0 8).filter (bitAt (63#8).toNat)).length < 7 ∧ 7 ≤ ((upFrom 0 8).filter (bitAt (127#8).toNat)).length) ∧
    (let s := (port 1).updLink 48 (fun l => { l with idle := some 0 })
     (s.link 48).idle = some 0) ∧
    (port 2).hasSpare 48 = true ∧ ((port 2).link 48).calSyms < 2 ^ 20 ∧ (port 2).linkState 48 = 2 ∧
    (∀ n ∈ [16, 17], ((calibrated n).hasSpare 48 = true ∧ 2 ^ 20 ≤ ((calibrated n).link 48).calSyms ∧ ((calibrated n).link 48).calDiff = n)) ∧
    (let s := (port 1).updLink 48 (fun l => { l with lock := true, good := 1024 })
     s.linkState 48 = 1 ∧ (s.link 48).lock = true ∧ (s.link 48).good = 1024) ∧
    (let s := (port 3).set (portBase 48) F.NKL_CTL_ROT 1
     s.get (portBase 48) F.NKL_CTL_ROT ≠ 0 ∧ s.hasSpare 48 = true ∧ (s.link 48).swapTx = none) :=
  ⟨quiet_port _, by decide +kernel⟩

theorem witness_LinkTrainingRows_quiet :
    Quiet ((port 1).updLink 48 (fun l => { l with idle := some 0 })) ∧ Quiet (port 2) ∧ (∀ n, Quiet (calibrated n)) ∧
    Quiet ((port 1).updLink 48 (fun l => { l with lock := true, good := 1024 })) ∧ Quiet ((port 3).set (portBase 48) F.NKL_CTL_ROT 1) :=
  ⟨⟨rfl, rfl, rfl, rfl, rfl, rfl, rfl, rfl, rfl, rfl, rfl, rfl, Or.inl rfl, rfl, rfl, rfl, rfl, rfl, rfl⟩, quiet_port _,
    fun _ => ⟨rfl, rfl, rfl, rfl, rfl, rfl, rfl, rfl, rfl, rfl, rfl, rfl, Or.inl rfl, rfl, rfl, rfl, rfl, rfl, rfl⟩,
    ⟨rfl, rfl, rfl, rfl, rfl, rfl, rfl, rfl, rfl, rfl, rfl, rfl, Or.inl rfl, rfl, rfl, rfl, rfl, rfl, rfl⟩,
    ⟨rfl, rfl, rfl, rfl, rfl, rfl, rfl, rfl, rfl, rfl, rfl, rfl, Or.inl rfl, rfl, rfl, rfl, rfl, rfl, rfl⟩⟩

/-- A DATA cell held for replay. -/
def cell : HeldCell := ⟨9, 0, [], 0⟩

/-- Port 48 UP, a cell held, after a number of replays. -/
def replays (n : Nat) : State := (port 3).updLink 48 (fun l => { l with held := [cell], tries := n })

theorem witness_LinkDownRows :
    (let s := replays 255
     s.build.isLink 48 = true ∧ s.linkOn 48 = true ∧ s.stopped = false ∧ 48 < 126 ∧ 0 < s.linkState 48 ∧ (s.link 48).qB = [] ∧
     (s.link 48).qG = [] ∧ (s.link 48).swapTx = none ∧ (s.link 48).held ≠ [] ∧
     s.get (portBase 48) F.NKL_LINK_MAXREPLAY ≤ (s.link 48).tries) ∧
    2 ≤ (port 2).linkState 48 ∧
    (let s := (port 3).set (portBase 48) F.NKL_CTL_SPARE 0
     7 < 8 ∧ s.isD2d 48 = false ∧ (s.link 48).lock = true ∧ s.hasSpare 48 = false) ∧
    (let s := lit.set (portBase 60) F.NKL_STAT_STATE 3
     s.isD2d 60 = true ∧ s.linkOn 60 = true ∧ 0 < s.linkState 60 ∧ (s.link 60).qB = []) ∧
    ((replays 0).link 48).tries < (replays 0).get (portBase 48) F.NKL_LINK_MAXREPLAY := by decide +kernel

theorem witness_LinkDownRows_quiet : Quiet (replays 255) ∧ Quiet (replays 0) ∧ Quiet (lit.set (portBase 60) F.NKL_STAT_STATE 3) :=
  ⟨⟨rfl, rfl, rfl, rfl, rfl, rfl, rfl, rfl, rfl, rfl, rfl, rfl, Or.inl rfl, rfl, rfl, rfl, rfl, rfl, rfl⟩, ⟨rfl, rfl, rfl, rfl, rfl, rfl, rfl, rfl, rfl, rfl, rfl, rfl, Or.inl rfl, rfl, rfl, rfl, rfl, rfl, rfl⟩,
    ⟨rfl, rfl, rfl, rfl, rfl, rfl, rfl, rfl, rfl, rfl, rfl, rfl, Or.inl rfl, rfl, rfl, rfl, rfl, rfl, rfl⟩⟩

theorem witness_LinkDownRows_swap :
    let s := ((port 3).set (portBase 48) F.NKL_STAT_SPARE_V 1).set (portBase 48) F.NKL_STAT_SPARE_LANE 7
    (s.link 48).lock = true ∧ 0 < 8 ∧ 0 ≠ s.get (portBase 48) F.NKL_STAT_SPARE_LANE ∧ s.hasSpare 48 = true ∧
    s.flag (portBase 48) F.NKL_STAT_SPARE_V = true ∧ (s.link 48).swapTx = none := by decide +kernel

/-- Port 48 in a state, with one lane in order and a frame on its way, of these symbols. -/
def framed (st : Nat) : State := (port st).updLink 48 (fun l => { l with lock := true, rxLanes := [(0, 0)], rxNum := 1 })

/-- The lanes that bring a frame on the first of them. -/
def lanesOf (l : List (BitVec 10)) : List LaneSyms := [⟨0, none, l⟩]

theorem witness_FramesAndCells_plain : ∀ st ∈ [1, 2, 3],
    let s := framed st
    s.build.isLink 48 = true ∧ s.linkOn 48 = true ∧ s.stopped = false ∧ 1 ≤ s.linkState 48 ∧ (s.link 48).lock = true ∧
    (s.link 48).idle = none ∧ (s.link 48).downDue = false ∧ s.isD2d 48 = false ∧ (s.link 48).rxLanes ≠ [] ∧ (s.link 48).swapRx = none ∧ (s.link 48).rxNum % 1024 ≠ 0 ∧
    (s.link 48).calC = none ∧ (s.link 48).good < 1023 ∧
    State.alignLanes (lanesOf [0]) (if s.spared 48 then 7 else 8) (s.link 48).rxSpare = none ∧
    (s.updLink 48 (fun l => { l with rxLanes := [] })).isD2d 48 = false := by decide +kernel

theorem witness_FramesAndCells_quiet : ∀ st, Quiet (framed st) ∧ Quiet ((framed st).updLink 48 (fun l => { l with rxLanes := [] })) :=
  fun _ => ⟨⟨rfl, rfl, rfl, rfl, rfl, rfl, rfl, rfl, rfl, rfl, rfl, rfl, Or.inl rfl, rfl, rfl, rfl, rfl, rfl, rfl⟩,
    ⟨rfl, rfl, rfl, rfl, rfl, rfl, rfl, rfl, rfl, rfl, rfl, rfl, Or.inl rfl, rfl, rfl, rfl, rfl, rfl, rfl⟩⟩

/-- One lane brings its symbols in their order. -/
theorem gather_one (n : Nat) (l : List Nat) (h : l.length = n) : State.gatherSyms n 0 [l] = l := by
  induction n generalizing l with
  | zero => rw [List.eq_nil_of_length_eq_zero h]; rfl
  | succ n ih =>
    obtain ⟨a, r, rfl⟩ := List.exists_cons_of_length_eq_add_one h
    simp only [State.gatherSyms, List.getElem?_cons_zero, Option.getD_some, List.head?_cons, List.cons.injEq, true_and]
    simpa [Nat.mod_one] using ih r (by simpa using h)

theorem witness_FramesAndCells_frames :
    (∃ l : List (BitVec 10), frameDecode (State.gatherSyms 1088 0 [l.map (·.toNat)]) = none) ∧
    (∃ l : List (BitVec 10), ∃ b, frameDecode (State.gatherSyms 1088 0 [l.map (·.toNat)]) = some (b, 0)) := by
  refine ⟨⟨badFrame, ?_⟩, ⟨List.replicate 1088 0, ?_⟩⟩
  · rw [gather_one _ _ (by rw [List.length_map]; decide +kernel)]; exact badFrame_undecodable
  · rw [gather_one _ _ (by rw [List.length_map, List.length_replicate]), List.map_replicate]; exact zeros_decodable

theorem witness_FramesAndCells_d2d :
    let s := (lit.set (portBase 60) F.NKL_STAT_STATE 3).updLink 60 (fun l => { l with lock := true })
    s.isD2d 60 = true ∧ s.build.isLink 60 = true ∧ s.linkOn 60 = true ∧ 1 ≤ s.linkState 60 ∧ (s.link 60).lock = true ∧
    (s.link 60).idle = none := by decide +kernel

theorem witness_FramesAndCells_cells :
    (∀ st ∈ [2, 3], let s := (port st).updLink 48 (fun l => { l with beacon := true })
     (s.link 48).idle = none ∧ 1 ≤ s.linkState 48 ∧ 2 ≤ s.linkState 48 ∧
     ((if s.linkState 48 = 3 then (s.startPkt 48 true).startPkt 48 false else s).link 48).beacon = true) ∧
    (∀ st ∈ [1, 2, 3], let s := (port st).updLink 48 (fun l => { l with admDue := true })
     let u := if s.linkState 48 = 3 then (s.startPkt 48 true).startPkt 48 false else s
     (u.link 48).beacon = false ∧ (u.link 48).admDue = true ∧ (u.link 48).pChal = none) ∧
    (∀ st ∈ [2, 3], let s := (port st).updLink 48 (fun l => { l with swapTx := some ⟨0, 7, 64, false, true, none⟩ })
     let u := if s.linkState 48 = 3 then (s.startPkt 48 true).startPkt 48 false else s
     (u.link 48).beacon = false ∧ (u.link 48).admDue = false ∧ (u.link 48).swapTx = some ⟨0, 7, 64, false, true, none⟩) ∧
    (∀ st ∈ [2, 3], let s := (port st).updLink 48 (fun l => { l with swapRx := some ⟨0, 7, 64, false, true, none⟩, replay := [3] })
     let u := if s.linkState 48 = 3 then (s.startPkt 48 true).startPkt 48 false else s
     (u.link 48).swapTx = none ∧ (u.link 48).swapRx = some ⟨0, 7, 64, false, true, none⟩ ∧ (u.link 48).replay ≠ []) ∧
    (∀ st ∈ [1, 2], ((port st).linkState 48 = st ∧ ((port st).link 48).beacon = false ∧ ((port st).link 48).admDue = false ∧
      ((port st).link 48).swapTx = none ∧ ((port st).link 48).swapRx = none ∧ ((port st).link 48).replay = [])) := by decide +kernel

theorem witness_LinkControl_d2d :
    lit.build.isLink 60 = true ∧ lit.stopped = false ∧ lit.accCheck (portBase 60 + 0x6000) = stOK ∧ lit.isD2d 60 = true ∧
      bitsOf (14#32).toNat 1 3 ≠ 0 ∧ bitsOf (0x4000000#32).toNat 1 3 = 0 := by decide +kernel

/-- A write of other fields than EN while STATE is not DOWN. -/
theorem witness_LinkControl_denied : ∀ st ∈ [1, 2, 3],
    let s := port st
    s.stopped = false ∧ s.accCheck (portBase 48 + 0x6000) = stOK ∧ s.isD2d 48 = false ∧ s.linkState 48 ≠ 0 ∧
    bitsOf (s.word (portBase 48 + 0x6000)).toNat 1 26 = 25296901 ∧ s.flag (portBase 48) F.NKL_CTL_EN = true ∧
    bitsOf (1#32).toNat 1 26 ≠ 25296901 ∧ bitAt (1#32).toNat 0 = true := by decide +kernel

theorem witness_LinkControl :
    (let s := port 3
     s.accCheck (portBase 48 + 0x6000) = stOK ∧ (s.link 48).qB = [] ∧ (s.link 48).qG = [] ∧ (s.link 48).swapTx = none ∧
     (s.link 48).idle = none ∧ s.isD2d 48 = false ∧ s.flag (portBase 48) F.NKL_CTL_EN = true ∧ 0 < s.linkState 48 ∧
     bitAt ((s.word (portBase 48 + 0x6000)).toNat - 1) 0 = false ∧
     bitsOf ((s.word (portBase 48 + 0x6000)).toNat - 1) 1 26 = bitsOf (s.word (portBase 48 + 0x6000)).toNat 1 26) ∧
    (let s := (port 0).set (portBase 48) F.NKL_CTL_EN 0
     s.flag (portBase 48) F.NKL_CTL_EN = false ∧ s.linkState 48 = 0 ∧
     bitsOf ((s.word (portBase 48 + 0x6000)).toNat + 1) 1 26 = bitsOf (s.word (portBase 48 + 0x6000)).toNat 1 26) := by decide +kernel

/-! ### Scale-out -/

/-- Port 48 of a chip, a packet for chip 0 of some length waiting to leave it, a buffer of pool 2 free. -/
def leaving (chip slen : Nat) : State :=
  at' (((lit.set 0 F.FAB_CHIP_CHIP_ID chip).set (niBase 0xF30 + 16) F.BLK_POOLn_CFG_EN 1).set (niBase 0xF30 + 16) F.BLK_POOLn_CFG_COUNT 1)
    0xF30 pQB { bare tWRITE 0 with ext := { Ext.none with xv := 1, dest := 1, slen := slen } }

theorem witness_ScaleOutRows_exit : ∀ n ∈ [2048, 2049],
    acts (.scaleoutExit 48) (leaving 5 n) = true ∧
    comes (leaving 5 n) (0xF00 + 48) ((leaving 5 n).exitTakes 48) (fun a s1 => s1.chip != 0xFFF &&
      !(s1.asms.any fun x => x.port == 48 && x.src == a.pkt.ext.src && x.psn == a.pkt.ext.psn) && a.pkt.ext.slen == n) = true := by
  decide +kernel

theorem witness_ScaleOutRows_unassigned :
    acts (.scaleoutExit 48) (leaving 0xFFF 9) = true ∧
    comes (leaving 0xFFF 9) (0xF00 + 48) ((leaving 0xFFF 9).exitTakes 48) (fun _ s1 => s1.chip == 0xFFF) = true := by decide +kernel

/-- A packet received whole at port 48, sealed or not as its header says. -/
def entering (enc : Bool) : RxPkt := ⟨false, false, scaleOutHeader { bare tWACK 0 with ext := { Ext.none with xv := 1 } } enc, none, 0⟩

/-- Port 48 of chip 5 UP with such a packet. -/
def entry (enc : Bool) : State := ((port 3).set 0 F.FAB_CHIP_CHIP_ID 5).updLink 48 (fun l => { l with whole := [entering enc] })

theorem witness_ScaleOutRows_entry : ∀ enc : Bool,
    let s := entry enc
    acts (.scaleoutEntry 48) s = true ∧ s.flag (portBase 48) F.NKL_CTL_ENC = false ∧ (s.link 48).whole = [entering enc] ∧ s.chip ≠ 0xFFF ∧
    s.get (portBase 48) F.NKL_STAT_KPH_RX = bit (entering enc).kph ∧
    ((s.updLink 48 (fun l => { l with whole := [] })).openPkt 48 (entering enc)).isSome = !enc ∧
    ((s.updLink 48 (fun l => { l with whole := [] })).openPkt 48 (entering enc)).all (fun r => classOf r.1.hdr.vcn != 3) = true := by
  decide +kernel

theorem witness_ScaleOutRows_filter :
    let s : State := { lit with filt := [⟨1, 2, 3⟩] }
    Quiet s ∧ s.stopped = false ∧ s.filt[0]? = some ⟨1, 2, 3⟩ := ⟨⟨rfl, rfl, rfl, rfl, rfl, rfl, rfl, rfl, rfl, rfl, rfl, rfl, Or.inl rfl, rfl, rfl, rfl, rfl, rfl, rfl⟩, rfl, rfl⟩

/-- A packet of port 48 held for retransmission. -/
def kept : RtxEnt := ⟨48, 0, 0x5000, 7, bare tWRITE 0, none, 0, 48, none, 1, 1, 100, false⟩

/-- Port 48 with that packet held, and an E2E acknowledgement of a packet number waiting. -/
def acked (psn : Nat) : State :=
  { at' lit 0xF30 pPB ⟨{ (bare tWACK 0).hdr with job := 0x3FE, chan := 0x3FF, tag := psn, aux := 0x5000 }, Ext.none, [], []⟩ with
    rtx := [kept] }

theorem witness_ScaleOutRows_ack : ∀ psn ∈ [7, 8],
    acts (.e2eAck 48) (acked psn) = true ∧
    comes (acked psn) (0xF00 + 48) (fun a => isE2eAck a.pkt.hdr && !a.lt && !(acked psn).leaving a.pkt) (fun a s1 =>
      s1.rtx.find? (fun e => e.port == 48 && e.psn == a.pkt.hdr.tag && e.src == a.pkt.hdr.aux % 2 ^ 24) ==
        if psn == 7 then some kept else none) = true := by decide +kernel

theorem witness_ScaleOutRows_again :
    let s : State := { lit with rtx := [kept] }
    let u := (s.passTo (kept.first + s.get (portBase 48) F.NKL_RTX_CTL_RTO * (2 ^ kept.k - 1) + 1)).updRtx kept (fun x => { x with want := true })
    acts (.e2eRetransmit 48 0) s = true ∧ acts (.e2eAbandon 48 0) s = true ∧ s.rtxAt 48 0 = some kept ∧ kept.want = false ∧
    s.get (portBase 48) F.NKL_RTX_CTL_RTO * (2 ^ kept.k - 1) < s.get 0 F.NKL_E2E_CTL_KEEP - 1024 ∧ (u.rtxAt 48 0).isSome = true := by
  decide +kernel

/-! ### Routers -/

theorem witness_CreditsReturn :
    2559 < lit.build.nodes ∧ lit.nodeOn 2559 = true ∧ State.portOf 4 5 = true ∧
    (let s : State := { lit with owed := [(outKey 2559 4 5 * 8, 2)], crw := [(outKey 2559 4 5 * 8, 2)] }
     nget s.crw 0 (outKey 2559 4 5 * 8) ≤ nget s.owed 0 (outKey 2559 4 5 * 8)) ∧
    (let s : State := { lit with crw := [(outKey 2559 4 5 * 8, 1)] }
     nget s.owed 0 (outKey 2559 4 5 * 8) < min (nget s.crw 0 (outKey 2559 4 5 * 8)) 1) := by decide +kernel

/-- A flit on the link into an input of node 65. -/
def wire (s : State) (pl port : Nat) (f : Flit) : State := { s with wires := [(feed s.build 65 pl port, [f])] }

/-- The head and only flit of a CFG_RD. -/
def cfgFlit : Flit := ⟨(bare tCFG_RD 0).flitData pCQ 0, false, true, true, 0, false, 0, false, true⟩

/-- A reserved flit, launched upstream in some cycle of the turn. -/
def resv (lat : Nat) : Flit := ⟨5, false, true, true, 0, true, lat, false, true⟩

theorem witness_RouterRows_flit :
    let s := wire lit pCQ 4 cfgFlit
    65 < s.build.nodes ∧ State.portOf pCQ 4 = true ∧ s.nodeOn 65 = true ∧ (s.takeWire (feed s.build 65 pCQ 4)).map (·.1) = some cfgFlit ∧
    cfgFlit.lt = false ∧ cfgFlit.valid = true ∧ s.failed false 65 pCQ 4 = false ∧
    (s.setWord (nodeBase 65 + F.RTR_FAIL_IN_FAIL.off) 0xFFFFFFFF#32).failed false 65 pCQ 4 = true ∧ (resv 10).lt = true ∧
    ((wire lit pQB 4 (resv 10)).takeWire (feed s.build 65 pQB 4)).isSome = true ∧
    (let d := (wire lit pCQ 4 cfgFlit).setDom (s.build.nodeDom 65) 1
     d.nodeOn 65 = false ∧ (d.takeWire (feed d.build 65 pCQ 4)).isSome = true) := by decide +kernel

/-- A packet at the head of an input of node 65 whose flits are to leave by an output. -/
def waiting (s : State) (pl port vc o : Nat) (pk : Pkt) : State :=
  { s with buf := [(inKey 65 pl port vc, (upFrom 0 (flitsOf pl pk.hdr.len)).map (fun i =>
      ⟨⟨pk.flitData pl i, false, i == 0, i + 1 == flitsOf pl pk.hdr.len, vc, false, 0, false, true⟩, [o], false, false⟩))] }

theorem witness_RouterRows_launch :
    (let s : State := { lit with own := [(outKey 65 pCQ 2, ⟨true, 4, 0, 1, [], none, none⟩)] }
     s.nodeOn 65 = true ∧ (mapGet s.own (outKey 65 pCQ 2)).isSome = true ∧ 0 < State.vcsOf pCQ ∧
     (s.requests 65 pCQ 2).any (fun c => c.vc == 0) = false) ∧
    (let s : State := { waiting lit pCQ 4 0 2 (bare tCFG_RD 0) with own := [(outKey 65 pCQ 2, ⟨true, 3, 0, 1, [], none, none⟩)] }
     (mapGet s.own (outKey 65 pCQ 2)).isSome = true ∧ (s.requests 65 pCQ 2).any (fun c => c.vc == 0) = true) ∧
    (let s := waiting lit pCQ 4 0 2 (bare tCFG_RD 0)
     s.nodeOn 65 = true ∧ mapGet s.own (outKey 65 pCQ 2) = none ∧ s.outState 65 pCQ 2 = 0 ∧ s.mcastBlocked 65 2 = false ∧
     (match s.requests 65 pCQ 2 with
      | [c] => decide (c.flits ≤ s.credits (outKey 65 pCQ 2) pCQ c.vc)
      | _ => false) = true) := by decide +kernel

/-- Reflector queue of node 65 filled with some packets. -/
def reflecting (q : Nat) (v ty : Nat) : State :=
  { waiting (lit.setWord (nodeBase 65 + 8) (setWordField 0 6 3 v)) pQB 4 0 2 (bare ty 0) with
    refl := [(65, List.replicate q (bare tNACK 0))] }

/-- A NACK at the head of the queue whose output is open, and one whose output is not: it leaves it. -/
theorem witness_ClosedOutputsReflect_queue : ∀ v ∈ [0, 2, 3, 4],
    (reflecting 1 v tWRITE).outState 65 pPB (unicastOut lit.build 65 pPB (bare tNACK 0).hdr) = 0 ∧
    ((reflecting 1 2 tWRITE).setWord (nodeBase 65 + 8) 0x3FFFFFFF#32).outState 65 pPB (unicastOut lit.build 65 pPB (bare tNACK 0).hdr) ≠ 0 := by
  decide +kernel

theorem witness_ClosedOutputsReflect : ∀ q ∈ [3, 4], ∀ v ∈ [2, 3, 4], ∀ ty ∈ [tWRITE, tWACK],
    let s := reflecting q v ty
    let fs := s.headFlits (inKey 65 pQB 4 0)
    s.nodeOn 65 = true ∧ (match fs with | f :: _ => (s.closedBranch 65 pQB f).map (·.2) | [] => none) = some v ∧
    fs.any (fun g => g.flit.tl) = true ∧ State.reflectable pQB (State.flitsPkt pQB fs).hdr = (ty == tWRITE) ∧
    ((mapGet s.refl 65).getD []).length = q ∧ branching pQB (State.flitsPkt pQB fs).hdr = false := by decide +kernel

/-- A REDUCE packet of weight 1 on VC 4. -/
def red : Pkt := { bare tREDUCE 4 with hdr := { (bare tREDUCE 4).hdr with aux := 1 } }

/-- Node 65 with its combiner on, that packet waiting, and some entries held. -/
def combining (l : List BurlEnt) : State := { waiting (lit.set (nodeBase 65) F.BRL_CTL_EN 1) pQB 4 4 2 red with burl := l }

/-- An entry held at node 65. -/
def entryOf (pk : Pkt) : BurlEnt := ⟨1, 65, pk, 1, 0, false⟩

/-- A packet that is no partner of it. -/
def other : Pkt := { red with hdr := { red.hdr with job := 1 } }

theorem witness_BurlCombines : ∀ l ∈ [[], List.replicate 31 (entryOf other), List.replicate 32 (entryOf other)],
    let s := combining l
    let fs := s.headFlits (inKey 65 pQB 4 4)
    let pk := State.flitsPkt pQB fs
    s.nodeOn 65 = true ∧ fs.any (fun g => g.flit.tl) = true ∧ s.burlEligible 65 pQB pk = true ∧ fs.any (fun g => g.pass) = false ∧ pk.bad = [] ∧
    s.burl.any (fun e => e.node == 65 && !e.released && State.partners e.pkt pk) = false ∧ (s.burl.filter (fun e => e.node == 65)).length = l.length := by
  decide +kernel

theorem witness_BurlCombines_poisoned :
    let pk := { red with hdr := { red.hdr with len := 256 }, pay := List.replicate 256 0 }
    let w := waiting (lit.set (nodeBase 65) F.BRL_CTL_EN 1) pQB 4 4 2 pk
    let s : State := { w with buf := w.buf.map (fun e => (e.1, e.2.map (fun f => { f with flit := { f.flit with bad := !f.flit.hd } }))) }
    let fs := s.headFlits (inKey 65 pQB 4 4)
    fs.any (fun g => g.flit.tl) = true ∧ s.burlEligible 65 pQB (State.flitsPkt pQB fs) = true ∧ fs.any (fun g => g.pass) = false ∧
    (State.flitsPkt pQB fs).bad ≠ [] := by decide +kernel

theorem witness_BurlCombines_escalated :
    let e := entryOf { red with hdr := { red.hdr with aux := red.hdr.aux + 255 * 2 ^ 24 } }
    let p := { red with hdr := { red.hdr with aux := red.hdr.aux + 2 ^ 24 } }
    let s : State := { waiting (lit.set (nodeBase 65) F.BRL_CTL_EN 1) pQB 4 4 2 p with burl := [e] }
    let pk := State.flitsPkt pQB (s.headFlits (inKey 65 pQB 4 4))
    s.burl.find? (fun e => e.node == 65 && !e.released && State.partners e.pkt pk) = some e ∧
    State.wtOf e.pkt.hdr + State.wtOf pk.hdr ≤ 4095 ∧ 255 < State.esccOf e.pkt.hdr + State.esccOf pk.hdr := by decide +kernel

theorem witness_BurlCombines_merge : ∀ w ∈ [1, 4095],
    let e := entryOf { red with hdr := { red.hdr with aux := red.hdr.aux - State.wtOf red.hdr + w } }
    let s := combining [e]
    let pk := State.flitsPkt pQB (s.headFlits (inKey 65 pQB 4 4))
    s.burl.find? (fun e => e.node == 65 && !e.released && State.partners e.pkt pk) = some e ∧ State.esccOf e.pkt.hdr + State.esccOf pk.hdr ≤ 255 ∧
    (State.wtOf e.pkt.hdr + State.wtOf pk.hdr ≤ 4095 ↔ w = 1) := by decide +kernel

theorem witness_BurlCombines_hold :
    ((combining [entryOf other]).burl.filter (fun e => e.node == 65 && !e.released))[0]? = some (entryOf other) := by decide +kernel

/-! ### The Lathe plane -/

/-- A plan in effect: output 2 of node 65 forwards input 4 from cycle 0 on. -/
def planned (active : Bool) : State :=
  let s := wire (run 3 5) pQB 4 (resv 10)
  let s : State := { s with spn := { s.spn with stallHold := false }, lathe := { Lathe.reset with active := active } }
  s.setWord (nodeBase 65 + 0x2000 + 0x800 * s.get 0 F.LTH_STAT_BANK + 4) (setWordField 0xFFFFFFFF 0 16 4)

theorem witness_LatheFlitsFollowThePlan : ∀ b : Bool,
    let s := planned b
    s.nodeOn 65 = true ∧ (mapGet s.wires (feed s.build 65 pQB 4)).getD [] = [resv 10] ∧ (resv 10).lt = true ∧
    decodeWide (encodeWide (resv 10).data (resv 10).bad) = .clean 5 ∧ s.lathe.active = b ∧ s.lathe.past = false ∧ s.latheHeld = false ∧
    ((s.windows 65 2).any (fun w => w.2 == 4 && w.1 ≤ s.lathHop 65 4 10 && s.lathHop 65 4 10 < w.1 + 128)) = true := by decide +kernel

theorem witness_LatheFlitsFollowThePlan_held :
    let s : State := { planned true with spn := { (planned true).spn with stallHold := true } }
    (s.latheHeld = true ∧ s.cyc ≤ s.lathe.susp + 512) ∧
    (let t : State := { s with cyc := 513 }
     t.latheHeld = true ∧ t.lathe.susp + 512 < t.cyc) ∧
    s.failed false 65 pQB 4 = false ∧ (s.setWord (nodeBase 65 + F.RTR_FAIL_IN_FAIL.off) 0xFFFFFFFF#32).failed false 65 pQB 4 = true := by
  decide +kernel
/-! ### Network interfaces -/

theorem witness_ThrottleAndGovernor :
    niEp lit.build 2559 = true ∧ lit.epOn 2559 = true ∧ niEp lit.build 0xF00 = true ∧ lit.epOn 0xF00 = true ∧ lit.stopped = false ∧
    (let s := (((lit.set 0 F.GOV_CTL_EN 1).set 0 F.GOV_CEIL_CEIL 0).set 0 F.GOV_STAT_B 1)
     let s : State := { s with gov := { s.gov with wide := 1000000 } }
     s.flag 0 F.GOV_CTL_EN = true ∧ 16 * s.get 0 F.GOV_CEIL_CEIL < s.govEstimate s.gov.wide s.gov.narrow s.gov.win ∧
     s.get 0 F.GOV_STAT_B = 1) ∧
    (let s := (lit.set 0 F.GOV_CTL_EN 1).set 0 F.GOV_CEIL_CEIL 0
     let s : State := { s with gov := { s.gov with wide := 1000000 } }
     s.get 0 F.GOV_STAT_B = 64 ∧ State.govBudget 64 (s.govEstimate s.gov.wide s.gov.narrow s.gov.win) (s.get 0 F.GOV_CEIL_CEIL) < 64) ∧
    (lit.set 0 F.GOV_CTL_EN 0).flag 0 F.GOV_CTL_EN = false := by decide +kernel

/-- A packet of an NI at some stage, in outstanding-table entry 5. -/
def req (ep : Nat) (st : ReqStage) : Req := ⟨11, ep, .nothing, bare tWRITE 0, st, false, 0, 0, 0, 0, 0, false, some 5, 1, 1, 1, 0⟩

/-- An NI with that packet, and a reply of some type on a VC that names entry 5. -/
def replied (ep ty vcn : Nat) (st : ReqStage) : State :=
  { at' lit ep pPB { bare ty vcn with hdr := { (bare ty vcn).hdr with tag := 5 } } with reqs := [req ep st] }

theorem witness_NiSendingRows_launch :
    let s := replied 7 tRDATA 0 .formed
    s.build.epBuilt 7 = true ∧ s.epOn 7 = true ∧ s.stopped = false ∧
    (∀ x ∈ s.reqs, x.ep = 7 → x.left = 0) ∧ s.reqs.find? (fun q => q.ep == 7 && s.mayLaunch q) = some (req 7 .formed) := by decide +kernel

theorem witness_NiSendingRows_segment :
    let p : Pkt := { bare tWRITE 0 with hdr := { (bare tWRITE 0).hdr with len := 4096 }, ext := { Ext.none with xv := 1 }, pay := List.replicate 4096 0 }
    let s : State := { lit with reqs := [{ req 7 (.flying 3) with pkt := p, segs := 2, left := 1 }] }
    (s.reqs.findSome? (fun q => if q.ep == 7 && 0 < q.left then (s.nextSeg q).map (fun pk => (q, pk)) else none)).isSome = true := by
  decide +kernel

theorem witness_NiSendingRows_reply : ∀ ty ∈ [tRDATA, tWACK], ∀ st ∈ [ReqStage.flying 3, .formed],
    comes (replied 7 ty 0 st) 7 (fun x => (replied 7 ty 0 st).replyHere 7 ty x && true) (fun a s1 =>
      s1.matchReply 7 a.pkt.hdr.tag == if st == .formed then none else some (req 7 st)) = true := by decide +kernel

theorem witness_NiSendingRows_nack : ∀ vcn ∈ [0, 4],
    comes (replied 7 tNACK vcn (.flying 3)) 7 (fun x => (replied 7 tNACK vcn (.flying 3)).replyHere 7 tNACK x && classOf x.pkt.hdr.vcn != 1)
      (fun a s1 => if vcn == 4 then classOf a.pkt.hdr.vcn == 2
        else classOf a.pkt.hdr.vcn != 2 && s1.matchReply 7 a.pkt.hdr.tag == some (req 7 (.flying 3))) = true := by decide +kernel

/-- A CREDIT at an NI, with or without a head in it; send queue 15 enabled or not. -/
def credited (head on : Bool) : State :=
  { at' (lit.set (State.sqBase 7 15) F.CQU_SQs_CTL_EN (bit on)) 7 pPB
      { bare tCREDIT 0 with hdr := { (bare tCREDIT 0).hdr with tag := 5, addr := bit head * 2 ^ 33 } } with reqs := [req 7 (.flying 3)] }

theorem witness_NiSendingRows_credit :
    comes (credited true true) 7 ((credited true true).replyHere 7 tCREDIT) (fun a s1 =>
      bitAt a.pkt.hdr.addr 33 && s1.sqOf 7 a.pkt.hdr.ctx a.pkt.hdr.chan == some 15) = true ∧
    comes (credited false false) 7 ((credited false false).replyHere 7 tCREDIT) (fun a s1 =>
      !bitAt a.pkt.hdr.addr 33 && s1.sqOf 7 a.pkt.hdr.ctx a.pkt.hdr.chan == none &&
      s1.matchReply 7 a.pkt.hdr.tag == some (req 7 (.flying 3))) = true := by decide +kernel

theorem witness_NiSendingRows_out : ∀ st ∈ [ReqStage.flying 3, .backoff 3],
    ({ lit with reqs := [req 0xF7E st] } : State).outAt 0xF7E 5 = some (req 0xF7E st) ∧ (req 0xF7E st).stage = st ∧
    lit.build.epBuilt 0xF7E = true ∧ lit.epOn 0xF7E = true := by decide +kernel

/-- A plan in effect at node 7 in some notch: launch 95 in cycle 0 of the turn, of a stream that is valid or not. -/
def launching (notch : Nat) (v : Bool) : State :=
  let s := ((run 3 notch).set 0 F.LTH_STAT_STATE 1).set (niBase 7) F.NI_CTX_CTL_EN 1
  let s : State := { s with spn := { s.spn with stallHold := false }, lathe := { Lathe.reset with active := true } }
  let s := s.setWord (launchAt 7 (s.get 0 F.LTH_STAT_BANK) 95) (BitVec.ofNat 32 (2 ^ 14 + 4 * 2 ^ 18))
  let s := s.setWord (streamAt 7 (s.get 0 F.LTH_STAT_BANK) 0) (BitVec.ofNat 32 (bit v + 2 ^ 15))
  s.setWord (streamAt 7 (s.get 0 F.LTH_STAT_BANK) 0 + 20) 1

theorem witness_NiSendingRows_stage :
    let s := launching 15 true
    let b := s.get 0 F.LTH_STAT_BANK
    95 < 96 ∧ latheEp s.build 7 = true ∧ s.stageBank 7 95 = some b ∧ (s.stageable 7 95 b).isSome = true ∧
    (s.lathe.staged.filter (fun x => x.ep == 7)).length < 2 := by decide +kernel

/-- The staged bytes of that launch. -/
def stagedOne (s : State) : Staged :=
  let b := s.get 0 F.LTH_STAT_BANK
  ⟨7, 95, b, 0, 0, (s.launchPlan 7 b 95 0).foldl (· + ·) 0, some (List.replicate ((s.launchPlan 7 b 95 0).foldl (· + ·) 0) 0, [])⟩

theorem witness_NiSendingRows_latheLaunch : ∀ v : Bool,
    let s := launching 0 v
    let b := s.get 0 F.LTH_STAT_BANK
    let sent := s.sentAhead 7 b 0
    let mine := fun (x : Staged) => x.ep == 7 && x.k == 95 && x.bank == b
    latheEp s.build 7 = true ∧ s.lathe.active = true ∧ s.lathe.past = false ∧
    s.lathe.fired.contains (128 * 7 + 95 + 2 ^ 20 * (s.lathNotch / 2048)) = false ∧ (s.launchEnt 7 b 95).2.2.1 = true ∧
    s.launchNow 7 b 95 = true ∧ s.latheHeld = false ∧ s.ctxOn 7 (s.streamFld 7 b 0 1 4) = true ∧
    s.lathe.staged.find? (fun x => mine x && x.start == sent) = none ∧
    (s.launchEnt 7 b 95).2.2.2.1 = 0 ∧ s.streamV 7 b 0 = v ∧ sent < s.streamLen 7 b 0 ∧
    (let t : State := { s with lathe := { s.lathe with staged := [stagedOne s] } }
     t.lathe.staged.find? (fun x => mine x && x.start == sent) = some (stagedOne s) ∧ (stagedOne s).got.isSome = true) ∧
    ({ s with spn := { s.spn with stallHold := true } } : State).latheHeld = true ∧
    (s.set (niBase 7) F.NI_CTX_CTL_EN 0).ctxOn 7 (s.streamFld 7 b 0 1 4) = false := by
  decide +kernel

theorem witness_NiSendingRows_quiet : ∀ v, Quiet (launching 0 v) := fun _ => ⟨rfl, rfl, rfl, rfl, rfl, rfl, rfl, rfl, rfl, rfl, rfl, rfl, Or.inl rfl, rfl, rfl, rfl, rfl, rfl, rfl⟩

/-- A request to core 0 of node 7, whose GOOD bits and whose receive slot are these. -/
def asking (ty good : Nat) (l : List RecvSlot) : State :=
  { at' (lit.set (nodeBase 7) F.NI_CORE_GOOD_GOOD good) 7 pQB (bare ty 0) with rslots := l }

/-- The receive slot of that request. -/
def slot (broken : Bool) (l : List Held) : RecvSlot := ⟨7, (asking tWRITE 1 []).srcOf (bare tWRITE 0), 0, 0, 0, 0, 0, broken, l⟩

theorem witness_NiReceivingRows_request : ∀ ty ∈ [tWRITE, tREAD, tSEND], ∀ good ∈ [14, 15],
    acts (if ty = tWRITE then .write 7 else if ty = tREAD then .read 7 else .send 7) (asking ty good []) = true ∧
    comes (asking ty good []) 7 ((asking ty good []).unicastArrival 7 ty) (fun a s1 =>
      a.pkt.hdr.aux % 4096 ≤ classMax (classOf a.pkt.hdr.vcn) && s1.goodFor 7 a.pkt == (good == 15) && s1.epochFor 7 a.pkt &&
      s1.rslot 7 (s1.srcOf a.pkt) a.pkt.hdr.ctx a.pkt.hdr.chan == none) = true := by decide +kernel

theorem witness_NiReceivingRows_broken :
    comes (asking tWRITE 15 [slot true []]) 7 ((asking tWRITE 15 [slot true []]).unicastArrival 7 tWRITE) (fun a s1 =>
      s1.goodFor 7 a.pkt && s1.epochFor 7 a.pkt &&
      (s1.rslot 7 (s1.srcOf a.pkt) a.pkt.hdr.ctx a.pkt.hdr.chan).any (·.broken)) = true := by decide +kernel

theorem witness_NiReceivingRows_epoch :
    let s := ((asking tWRITE 15 []).set (niBase 7) F.NI_CTX_CTL_EN 1).set 0 F.NI_TSET_CTL_EPOCH 1
    comes s 7 (s.unicastArrival 7 tWRITE) (fun a s1 => s1.goodFor 7 a.pkt && !s1.epochFor 7 a.pkt) = true := by decide +kernel

/-- A packet held out of turn. -/
def heldPkt : Held := ⟨1, 0, bare tWRITE 0, none, none, 0, 0, false, [], [], 9⟩

theorem witness_NiReceivingRows_hole :
    let s := asking tWRITE 15 [slot false [heldPkt]]
    acts (.rslotHoleTimeout 7 (slot false []).src 0 0) s = true ∧ s.rslot 7 (slot false []).src 0 0 = some (slot false [heldPkt]) ∧
    ([heldPkt].any fun y => y.seq == (slot false []).next && y.seg == (slot false []).seg) = false := by
  decide +kernel

/-- Pool 3 of node 7 with every buffer it can have, the last of them in use. -/
def pools : State :=
  { (lit.set (niBase 7 + 24) F.BLK_POOLn_CFG_EN 1).set (niBase 7 + 24) F.BLK_POOLn_CFG_COUNT 4096 with blank := [(4 * 7 + 3, [4095])] }

theorem witness_NiReceivingRows_pools :
    nodeEp pools.build 7 = true ∧ pools.build.isS = false ∧ pools.stopped = false ∧ pools.accCheck (niBase 7 + 0x1220) = stOK ∧
    pools.poolOn 7 3 = true ∧ 4095 < pools.poolCount 7 3 ∧ (pools.blankUsed 7 3).contains 4095 = true ∧
    pools.accCheck (niBase 7 + 0x1204 + 8 * 0) = stOK ∧ pools.poolOn 7 0 = false ∧ 4096 + 2 ^ 15 < 2 ^ 32 := by decide +kernel

theorem witness_NiReceivingRows_quiet : Quiet pools := ⟨rfl, rfl, rfl, rfl, rfl, rfl, rfl, rfl, rfl, rfl, rfl, rfl, Or.inl rfl, rfl, rfl, rfl, rfl, rfl, rfl⟩

/-- A reserved-flit packet at node 7. -/
def deposited : State := { lit with arrivals := [(7, [⟨0, pQB, 0, true, bare tWRITE 0, 0⟩])] }

theorem witness_NiReceivingRows_deposit :
    acts (.latheDeposit 7) deposited = true ∧ comes deposited 7 (fun a => a.lt) (fun _ _ => true) = true := by decide +kernel

theorem witness_NiReceivingRows_station :
    let s := at' lit 0xF7E pQB (bare tWRITE 0)
    comes s 0xF7E (fun a => !s.stationReply a) (fun a _ => isRequest a.pkt.hdr.ptype && a.pkt.hdr.ptype != tREAD) = true := by decide +kernel

/-- A multicast packet at node 7, to be relayed or not. -/
def mc (relay : Bool) : Pkt := { bare tWRITE 2 with hdr := (bare tWRITE 2).hdr.setFlag fRELAY relay }

theorem witness_MulticastAndReduceRows_target : ∀ r : Bool,
    let s := at' lit 7 pQB (mc r)
    niEp s.build 7 = true ∧ s.epOn 7 = true ∧ s.stopped = false ∧
    comes s 7 (s.mcArrival 7) (fun a _ => State.relays a.pkt == r && a.pkt.ext.xv == 0) = true := by
  decide +kernel

theorem witness_MulticastAndReduceRows_relay :
    let s : State := { lit with relayq := [(7, mc false)] }
    s.relayq.find? (fun r => r.1 == 7) = some (7, mc false) ∧
    (s.bucket 7 1).spent + (1 + ceilDiv (mc false).hdr.len 64) * 4096 ≤ 33 * 4096 ∧ nget s.injSt 0 (s.epInject 7 pQB) = 0 ∧
    mapGet s.own (s.epInject 7 pQB) = none ∧ 1 ≤ s.credits (s.epInject 7 pQB) pQB 3 ∧ s.latheAllowsNi 7 (s.epInject 7 pQB) 1 = true := by decide +kernel

/-- A hold of node 7, with these retries scheduled. -/
def hold (due : List (Nat × Nat × Nat)) : Hold := ⟨1, 7, 2, mc false, 0, some 50, due, [], false⟩

/-- A per-target NACK at node 7 with a status; holds kept. -/
def nacked (st : Nat) (l : List Hold) : State :=
  { at' lit 7 pPB { bare tNACK 2 with hdr := { (bare tNACK 2).hdr with opc := st } } with holds := l }

theorem witness_MulticastAndReduceRows_nack :
    comes (nacked stDENIED []) 7 (fun x => (nacked stDENIED []).replyHere 7 tNACK x && classOf x.pkt.hdr.vcn == 1) (fun a s1 =>
      s1.holdOf 7 a.pkt.hdr == none && a.pkt.hdr.opc % 16 != stEPOCH) = true ∧
    comes (nacked stEPOCH []) 7 (fun x => (nacked stEPOCH []).replyHere 7 tNACK x && classOf x.pkt.hdr.vcn == 1) (fun a s1 =>
      s1.holdOf 7 a.pkt.hdr == none && a.pkt.hdr.opc % 16 == stEPOCH) = true ∧
    (let s := nacked stEPOCH [{ hold [] with past := true }]
     comes s 7 (fun x => s.replyHere 7 tNACK x && classOf x.pkt.hdr.vcn == 1) (fun a s1 =>
       s1.holdOf 7 a.pkt.hdr == some { hold [] with past := true }) = true) ∧
    (∀ st ∈ [stNOPOOL, stPOISON],
      comes (nacked st [hold []]) 7 (fun x => (nacked st [hold []]).replyHere 7 tNACK x && classOf x.pkt.hdr.vcn == 1) (fun a s1 =>
        s1.holdOf 7 a.pkt.hdr == some (hold []) && a.pkt.hdr.opc % 16 == st &&
        nget (hold []).made 0 (s1.build.node a.pkt.hdr.scol a.pkt.hdr.srow) < s1.get (niBase 7) F.NI_MC_CTL_RETRY) = true) := by decide +kernel

theorem witness_MulticastAndReduceRows_hold :
    let s := nacked 0 [hold [(3, 1, 60)]]
    (((s.holds.filter (fun x => x.ep == 7)).flatMap (fun x => x.due.map (fun d => (x, d))))[0]?).map (·.2) = some (3, 1, 60) ∧
    ((nacked 0 [hold []]).holds.filter (fun x => x.ep == 7 && !x.past))[0]? = some (hold []) ∧ (hold []).due = [] := by decide +kernel

/-- A REDUCE packet for an accumulate window at node 7; window 3 enabled or not. -/
def accumulating (on : Bool) : State :=
  let s := lit.set (State.awin 7 3) F.NI_AWINw_CTL_EN (bit on)
  at' (s.set (State.awin 7 3) F.NI_AWINw_CTL_CHUNKS 1) 7 pQB (bare tREDUCE 4)

theorem witness_MulticastAndReduceRows_acc : ∀ on : Bool,
    comes (accumulating on) 7 ((accumulating on).accArrival 7)
      (fun a s1 => !bitAt a.pkt.hdr.opc 4 && s1.matchAwin 7 a.pkt.hdr == if on then some 3 else none) = true := by decide +kernel

/-! ### The Bowl, the Claim Arbiter, collectives -/

theorem witness_BowlAndClaimRows_control : ∀ commit : Bool,
    let s := at' lit 0xF30 pQB { bare tWRITE 0 with hdr := { (bare tWRITE 0).hdr with addr := 0xB * 2 ^ 44 + (if commit then 2 ^ 41 else 2 ^ 40) } }
    s.build.isBowlPort 48 = true ∧ s.portOn 48 = true ∧ s.stopped = false ∧
    comes s (0xF00 + 48) (s.bowlArrival 48 commit) (fun _ _ => true) = true := by decide +kernel

/-- A directory entry of a group of two contributions of one FP32 group each, in a state. -/
def bent (state : Nat) : BEnt := ⟨3, 48, 0, 0, 0, 0, state, 2, 1, 0, 0, 0, 0, 0, 0, 0, 0, 70, [], [], []⟩

/-- Its slot, open or complete. -/
def bslot (sent : Bool) : BSlot := ⟨255, 3, 60, List.replicate 64 0, ⟨0, 0, 0, 0, false, false⟩, sent, 0⟩

/-- A contribution to it at port 48. -/
def contribution : Pkt :=
  { bare tREDUCE 4 with hdr := { (bare tREDUCE 4).hdr with opc := 16, aux := 1, len := 256 }, pay := List.replicate 256 0 }

theorem witness_BowlAndClaimRows_late :
    let s := at' lit 0xF30 pQB contribution
    comes s (0xF00 + 48) (fun a => a.pkt.hdr.ptype == tREDUCE && bitAt a.pkt.hdr.opc 4 && !a.lt && !s.leaving a.pkt) (fun a s1 =>
      s1.bentOf a.pkt.hdr.job (a.pkt.hdr.tag % 4096) (a.pkt.hdr.tag / 4096) (redChunk a.pkt.hdr) == none) = true := by decide +kernel

theorem witness_BowlAndClaimRows_open :
    let s : State := { at' lit 0xF30 pQB contribution with bents := [bent 1], bslots := [bslot false] }
    comes s (0xF00 + 48) (fun a => a.pkt.hdr.ptype == tREDUCE && bitAt a.pkt.hdr.opc 4 && !a.lt && !s.leaving a.pkt) (fun a s1 =>
      let h := a.pkt.hdr
      let v := redValues a.pkt
      s1.bentOf h.job (h.tag % 4096) (h.tag / 4096) (redChunk h) == some (bent 1) && s1.slotOf 3 == some (bslot false) &&
      h.opc % 16 == (bent 1).fmt && decide (redBoff h / groupBytes 0 + v.1.length / 64 ≤ (bent 1).ng) &&
      ((bslot false).tally.take (bent 1).w h (a.pkt.poisoned || 0 < v.2.1)).any (fun t => t.2 && !t.1.done)) = true := by decide +kernel

theorem witness_BowlAndClaimRows_slot :
    (let s : State := { lit with bents := [bent 1], bslots := [bslot true] }
     s.bslots.find? (fun x => x.slot == 255) = some (bslot true) ∧ (bslot true).sent = true ∧ (bslot true).left = 0 ∧
     s.bents.find? (fun e => e.id == (bslot true).ent) = some (bent 1)) ∧
    (let s : State := { lit with bents := [bent 1], bslots := [bslot false] }
     s.bslots.find? (fun x => x.slot == 255) = some (bslot false) ∧ (bslot false).sent = false) ∧
    (∀ st ∈ [2, 3], ({ lit with bents := [bent st] } : State).bents[0]? = some (bent st) ∧ 2 ≤ (bent st).state) ∧
    (let s : State := { lit with bents := [bent 0] }
     (bent 0).state = 0 ∧ s.clmFrozen = false ∧ (s.freeSlot (s.bowlBank (bent 0).port)).isSome = true ∧
     (s.passTo (bent 0).due).grantedNow (s.bowlBank (bent 0).port) = false) := by decide +kernel

theorem witness_BowlAndClaimRows_quiet : Quiet { lit with bents := [bent 2] } := ⟨rfl, rfl, rfl, rfl, rfl, rfl, rfl, rfl, rfl, rfl, rfl, rfl, Or.inl rfl, rfl, rfl, rfl, rfl, rfl, rfl⟩

theorem witness_BowlAndClaimRows_cfg :
    CfgFree lit ∧ Quiet lit ∧ lit.accCheck 0x734 = stOK ∧ lit.accCheck 0x73C = stOK ∧ lit.stopped = false ∧
    lit.get 0 F.KEY_LOCK_LOCK = 0 ∧ lit.heldX .dbg = none ∧ bitAt (255#32).toNat 11 = false ∧
    ({ lit with bslots := [bslot false] } : State).bslots.find? (fun x => x.slot == (255#32).toNat % 2048) = some (bslot false) :=
  ⟨free, quiet, by decide +kernel⟩

theorem witness_CollectiveRows_ready : ∀ gdone : Bool,
    let s := at' lit 0xF30 pQB { bare tWRITE 0 with hdr := { (bare tWRITE 0).hdr with addr := 0xC * 2 ^ 44 + (if gdone then 2 ^ 41 else 2 ^ 40) } }
    s.build.isBowlPort 48 = true ∧ s.build.isS = false ∧ s.portOn 48 = true ∧ s.stopped = false ∧
    comes s (0xF00 + 48) (s.readyArrival 48 gdone) (fun _ _ => true) = true := by decide +kernel

/-- Group record 0 of port 48: two members at level 0. -/
def record : ColRec := ⟨48, 0, 2 ^ 52, 0, [], 0⟩

/-- An ALL_REDUCE of 64 elements that has come to a step of a stage. -/
def coll (stage step : Nat) : Coll := ⟨48, 0, 0, 1 + 64 * 2 ^ 32, true, stage, step, 0, 0, 0, [], [], [], 0, 0, 0, 0, 50⟩

theorem witness_CollectiveRows_stage :
    let s (stage step : Nat) : State := { lit with colrecs := [record], colls := [coll stage step] }
    (s 0 0).colRunning 48 0 = some (coll 0 0) ∧ (s 0 0).colRec 48 0 = some record ∧ (s 0 0).stageNow (coll 0 0) = some (.reduce 0) ∧
    (s 2 0).stageNow (coll 2 0) = some (.gather 0) ∧ (s 0 3).stageNow (coll 0 3) = some (.reduce 0) ∧
    State.nextChunk record.bits (coll 0 3).desc 0 (coll 0 3).pos = some (1, 0) := by decide +kernel

/-! ### Sync units -/

/-- A SYNC_OP on semaphore or barrier `i`, with an operand. -/
def op (o i n : Nat) : Pkt := { bare tSYNC_OP 0 with hdr := { (bare tSYNC_OP 0).hdr with opc := o, aux := i, addr := n } }

/-- Unit 63 with that operation waiting, and semaphores of it enabled with these values. -/
def sync (p : Pkt) (l : List (Nat × Nat)) : State :=
  { at' lit 0xFBF pSN p with sems := l.map (fun e => (63 * 1024 + e.1, 2 ^ 50 + e.2)) }

/-- An operation that the unit accepts, and what holds of it and of the state then. -/
def comesOp (s : State) (o : Nat → Bool) (P : Pkt → State → Bool) : Bool :=
  match s.takeSyncOp 63 o with
  | some (pk, s1) => P pk s1
  | none => false

theorem witness_SyncOperationsAreApplied_semaphores : ∀ o ∈ [1, 2, 3, 4, 5, 6, 12],
    let p := op o 1023 (if o == 5 || o == 6 then 0 else 2 ^ 40 - 1)
    let p := { p with hdr := { p.hdr with job := if o == 12 then 0x3FF else 0 } }
    let s := sync p [(1023, 0)]
    63 < s.build.units ∧ s.dom 63 = 3 ∧
    comesOp s (fun x => x == o) (fun pk s1 => !State.badOp pk.hdr && s1.watchRoom 63 && bitsOf pk.hdr.aux 0 10 == 1023 && s1.semOn 63 1023 &&
      (s1.semJob 63 1023 == pk.hdr.job || pk.hdr.job == 0x3FF)) = true := by decide +kernel

/-- Barrier 255 of unit 63, released at a turn. -/
def barrier : Bar := ⟨63, 255, 0, [], [], 0, some (9, 1), none⟩

theorem witness_SyncOperationsAreApplied_barriers : ∀ o ∈ [8, 9, 10, 11],
    let s : State := { sync (op o 255 (if o == 11 then 0 else 65535)) [] with bars := [barrier] }
    comesOp s (fun x => x == o) (fun pk s1 => !State.badOp pk.hdr && s1.watchRoom 63 && barrier.job == pk.hdr.job &&
      s1.bars.find? (fun b => b.unit == 63 && b.inst == bitsOf pk.hdr.aux 0 10) == some barrier) = true := by decide +kernel

theorem witness_SyncOperationsAreApplied_reserved : ∀ o ∈ [0, 7, 13, 15],
    comesOp (sync (op o 0 0) []) (fun o => !(1 ≤ o && o ≤ 12 && o != 7)) (fun _ s1 => s1.watchRoom 63) = true := by decide +kernel

/-- A watch of unit 63. -/
def watch (fired : Bool) : Watch := ⟨63, 2047, fired, 0, 5, 1, 0, 0, 0, 0, 0, 127, 0, 0, 0, 100, 100, 0, 0⟩

theorem witness_SyncOperationsAreApplied_events :
    (let s : State := { run 9 0 with bars := [barrier] }
     s.bar 63 255 = some barrier ∧ barrier.due = some (9, 1) ∧ s.running = true ∧ liesAfter 40 9 s.spn.turn = false) ∧
    (let s : State := { lit with watches := [watch false] }
     s.watches.find? (fun w => w.unit == 63 && w.ent == 2047 && !w.fired) = some (watch false)) ∧
    (let s : State := { lit with watches := [watch true], ntfq := [(63, 2047)] }
     s.ntfq.find? (fun q => q.1 == 63) = some (63, 2047) ∧ s.watches.find? (fun w => w.unit == 63 && w.ent == 2047) = some (watch true)) := by
  decide +kernel

theorem witness_SemaphoresNeverWrap : ∀ sub : Bool, ∀ v ∈ [0, 2 ^ 40 - 1],
    let s := sync (op (if sub then 2 else 1) 1023 1) [(1023, v)]
    comesOp s (fun o => o == (if sub then 2 else 1)) (fun pk _ => !State.badOp pk.hdr && !bitAt pk.hdr.opc 4 &&
      bitsOf pk.hdr.aux 0 10 == 1023 && bitsOf pk.hdr.addr 0 40 == 1 && s.semOn 63 1023 && s.semJob 63 1023 == pk.hdr.job &&
      s.semVal 63 1023 == v && !(s.watches.any fun w => w.unit == 63 && w.index == 1023)) = true := by decide +kernel

theorem witness_WatchesAndRealignment_wait : ∀ take : Bool, ∀ v ∈ [4, 5],
    let s := sync (op (if take then 4 else 3) 1023 5) [(1023, v)]
    comesOp s (fun o => o == (if take then 4 else 3)) (fun pk _ => !State.badOp pk.hdr && s.watchRoom 63 && bitsOf pk.hdr.aux 0 10 == 1023 &&
      bitsOf pk.hdr.addr 0 40 == 5 && s.semOn 63 1023 && s.semJob 63 1023 == pk.hdr.job && s.semVal 63 1023 == v &&
      !(s.watches.any fun w => w.unit == 63 && w.index == 1023)) = true := by decide +kernel

/-- A realign slot of unit 63 whose turn has come. -/
def realigning : Realign := ⟨63, 7, true, 0, 1023, 0, 0, 0, 3, 9, 0, 0, 0⟩

theorem witness_WatchesAndRealignment_realign :
    let s : State := { run 9 0 with sems := [(63 * 1024, 2 ^ 50 + 2), (63 * 1024 + 1023, 2 ^ 50 + 5)], realigns := [realigning] }
    63 < s.build.units ∧ s.unitOn 63 = true ∧ s.running = true ∧
    s.realigns.find? (fun x => x.unit == 63 && x.slot == 7) = some realigning ∧ realigning.en = true ∧
    liesAfter 40 realigning.turn s.spn.turn = false ∧ realigning.a ≠ realigning.b ∧ realigning.a < 1024 ∧ realigning.b < 1024 ∧
    (s.watches.any fun w => w.unit == 63 && w.kind ≤ 1 && !w.fired && (w.index == realigning.a || w.index == realigning.b)) = false ∧
    realigning.rb ≤ s.semVal 63 realigning.b ∧ s.semVal 63 realigning.b - realigning.rb ≤ s.semVal 63 realigning.a := by decide +kernel

/-! ### The Headstock -/

/-- A command fetched from ring 15 with these bits. -/
def cmd (bits : Nat) (st : CmdStage) : Cmd := ⟨0, bits, st, .unsent, false, false, false, 0, 0, 0, 0, []⟩

/-- Ring 15 enabled, privileged or not, with that command at its head. -/
def ring (priv : Bool) (c : Cmd) : State :=
  { (((lit.set 0 F.HDS_CTL_RUN 1).set (0x20 * 15) F.HDS_RINGr_STAT_STATE 1).set (0x20 * 15) F.HDS_RINGr_CTL_PRIV (bit priv)) with
    rings := [(15, [c])] }

/-- The rows of R379. -/
def opcodes : List (Instr × Nat) :=
  [(.nop 15, 0x00), (.ringAbort 15, 0x01), (.jobKill 15, 0x02), (.xfer 15, 0x10), (.xferMc 15, 0x11), (.xferRed 15, 0x12),
   (.rankBind 15, 0x20), (.tableWrite 15, 0x21), (.tsetSwap 15, 0x22), (.injStop 15, 0x23), (.injResume 15, 0x24), (.chanOpen 15, 0x25),
   (.chanClose 15, 0x26), (.rtrDrain 15, 0x30), (.rtrReopen 15, 0x31), (.domDown 15, 0x38), (.domUp 15, 0x39), (.semInit 15, 0x40),
   (.semFree 15, 0x41), (.semSet 15, 0x42), (.semRead 15, 0x43), (.syncBind 15, 0x44), (.barInit 15, 0x45), (.barFree 15, 0x46),
   (.realignSet 15, 0x47), (.lthLoad 15, 0x50), (.lthSwap 15, 0x51), (.lthResume 15, 0x52), (.colGroupSet 15, 0x58), (.colIssue 15, 0x59),
   (.colPeerGone 15, 0x5A), (.linkAdmit 15, 0x60), (.linkDown 15, 0x61), (.linkSwap 15, 0x62), (.linkRekey 15, 0x63), (.keyLoad 15, 0x68),
   (.keyErase 15, 0x69), (.regRead 15, 0x70), (.regWrite 15, 0x71), (.mirSnap 15, 0x72)]

/-- Every opcode of R379 has its row, and a command of it can start in that row. -/
theorem witness_CommandsStartAndRun_rows : ∀ x ∈ opcodes,
    let c := cmd x.2 .ready
    let s := ring true c
    (hdsRow x.1).map (fun r => (r.1, r.2.1)) = some (15, x.2) ∧ s.stopped = false ∧
    (s.cmds 15).find? (fun x => x.stage == .ready) = some c ∧ c.opc = x.2 ∧ s.startable 15 c = true ∧ c.gv = false ∧ s.cmdCheck 15 c = stOK := by
  decide +kernel

theorem witness_CommandsStartAndRun : ∃ s r opc c, r < 16 ∧ Starts s r opc c :=
  ⟨ring true (cmd 0x69 .ready), 15, 0x69, cmd 0x69 .ready, by decide,
    { first := by decide +kernel, opc := by decide +kernel, startable := by decide +kernel
      guard := fun h => absurd h (by decide +kernel), check := by decide +kernel }⟩

theorem witness_CommandsStartAndRun_checks :
    (let c := cmd 0x69 .ready
     (ring false c).startable 15 c = true ∧ (ring false c).cmdCheck 15 c = stDENIED) ∧
    (let c := cmd (0x69 + 2 ^ 511) .ready
     (ring true c).startable 15 c = true ∧ (ring true c).cmdCheck 15 c = stBADCMD) ∧
    (let c := cmd 0xFF .ready
     (params 0xFF).isNone = true ∧ (ring true c).startable 15 c = true ∧ (ring true c).cmdCheck 15 c ≠ stOK) := by decide +kernel

/-- SEM_INIT and SEM_FREE of the last semaphore of the last unit. -/
def semCmd (opc : Nat) : Cmd := cmd (opc + (63 + 1023 * 2 ^ 6 + 7 * 2 ^ 16 * (if opc == 0x40 then 1 else 0)) * 2 ^ 128) .ready

theorem witness_CommandsStartAndRun_semaphores :
    (let c := semCmd 0x40
     let s := ring true c
     s.startable 15 c = true ∧ s.cmdCheck 15 c = stOK ∧ c.par 0 < s.build.units ∧ s.unitOn (c.par 0) = true ∧ c.par 1 < 1024 ∧ c.par 2 < 1024 ∧
     c.par 3 < 2 ^ 40 ∧ s.semOn (c.par 0) (c.par 1) = false) ∧
    (let c := semCmd 0x41
     let s : State := { ring true c with sems := [(63 * 1024 + 1023, 2 ^ 50)] }
     s.startable 15 c = true ∧ s.cmdCheck 15 c = stOK ∧ c.par 0 < s.build.units ∧ s.unitOn (c.par 0) = true ∧ c.par 1 < 1024 ∧
     s.semWatches (c.par 0) (c.par 1) = [] ∧ s.semOn (c.par 0) (c.par 1) = true) ∧
    (ring true (cmd 0x69 .ready)).slotNamed ((cmd 0x69 .ready).par 0) = false := by decide +kernel

theorem witness_RingsAndLaterEvents_registers :
    CfgFree lit ∧ lit.stopped = false ∧ lit.accCheck (0x10100C + 0x20 * 15) = stOK ∧ lit.accCheck (0x101008 + 0x20 * 15) = stOK ∧
    lit.accCheck 0x100000 = stOK := ⟨free, by decide +kernel⟩

theorem witness_RingsAndLaterEvents_fetch :
    let s := { (ring true (cmd 0 .ready)) with rings := [] }.set (0x20 * 15) F.HDS_RINGr_TAIL_TAIL 1
    s.boot = 0 ∧ s.ringState 15 = 1 ∧ s.nextFetch 15 = some 0 ∧ s.flag (0x20 * 15) F.HDS_RINGr_CTL_LOC = false ∧
    s.get (0x20 * 15) F.HDS_RINGr_BASE_BASE * 64 + 64 * (0 % s.ringN 15) + 64 ≤ 65536 := by decide +kernel

theorem witness_RingsAndLaterEvents_reply :
    let s := ring true (cmd 0 .done)
    s.txns = [] ∧ s.reqs = [] ∧ (s.cmds 15).find? (fun x => x.stage == .done) = some (cmd 0 .done) ∧
    s.flag (0x20 * 15) F.HDS_RINGr_CTL_LOC = false ∧
    s.get (0x20 * 15) F.HDS_RINGr_SBASE_SBASE * 64 + 16 * (0 % s.ringN 15) + 16 ≤ 65536 := by decide +kernel

/-- Headstock watch slot 255 of that command. -/
def hwatch : HWatch := ⟨255, 5, 15, 0, 63, 9, 100, 0⟩

theorem witness_RingsAndLaterEvents_guard :
    let s : State := { ring true (cmd 0 .ready) with
      hwatch := [hwatch]
      arrivals := [(0xF7E, [⟨0, pSN, 0, false,
        { bare tSYNC_NTF 0 with hdr := { (bare tSYNC_NTF 0).hdr with tag := 63 + 5 * 2 ^ 6 + 3 * 2 ^ 18 } }, 0⟩])] }
    comes s 0xF7E s.isGuardNtf (fun a s1 => s1.hdsWatchOf a.pkt.hdr == some hwatch) = true ∧
    s.hwatch.find? (fun w => w.slot == 255) = some hwatch ∧ s.cmdAt hwatch.ring hwatch.idx = some (cmd 0 .ready) ∧ (cmd 0 .ready).opc ≠ 0x42 := by
  decide +kernel

theorem witness_RingsAndLaterEvents_tset :
    let c := cmd (0x22 + (15 + 9 * 2 ^ 64) * 2 ^ 128) .running
    let s : State := { run 9 0 with rings := [(15, [c])] }
    (s.cmds 15).find? (fun c => c.opc == 0x22 && c.stage == .running && s.turnCome (c.par 1)) = some c ∧ c.par 0 < 16 ∧ s.contexts = [] := by
  decide +kernel

/-- A drain of node 65. -/
def draining (force : Bool) : Drain := ⟨65, 100, force, 15, 0, 50, false⟩

theorem witness_RingsAndLaterEvents_drain :
    lit.drained 65 = true ∧ (draining false).checking = false ∧ (draining false).force = false ∧
    (waiting lit pQB 4 0 2 (bare tWRITE 0)).drained 65 = false := by decide +kernel

theorem witness_RingsAndLaterEvents_plan :
    (let l : LthLoad := ⟨15, 0, 0, 0, 0, 0, true, 0, 0, some ([], stOK)⟩
     ({ lit with lathe := { Lathe.reset with load := some l } } : State).lathe.load = some l ∧ l.img = some ([], stOK)) ∧
    (let c := cmd (0x51 + 9 * 2 ^ 64 * 2 ^ 128) .running
     let s : State := { (run 9 0).set 0 F.LTH_STAT_SHADOW_V 1 with rings := [(15, [c])] }
     s.swapPending = some (15, 0, 9) ∧ s.running = true ∧ 9 = s.spn.turn ∧ s.cmdAt 15 0 = some c ∧ s.flag 0 F.LTH_STAT_SHADOW_V = true) ∧
    (let s : State := { run 9 0 with spn := { (run 9 0).spn with stallHold := true, resumeIn := some 0 } }
     s.running = true ∧ s.spn.stallHold = true ∧ s.spn.resumeIn = some 0) ∧
    ({ lit with lathe := { Lathe.reset with past := true } } : State).lathe.past = true := by decide +kernel

theorem witness_RingsAndLaterEvents_quiet :
    Quiet { run 9 0 with spn := { (run 9 0).spn with stallHold := true, resumeIn := some 0 } } :=
  ⟨rfl, rfl, rfl, rfl, rfl, rfl, rfl, rfl, rfl, rfl, rfl, rfl, Or.inl rfl, rfl, rfl, rfl, rfl, rfl, rfl⟩

/-! ### Cores and memory ports -/

theorem witness_CoreAndMemoryPortRows_taps :
    acts (.desc 10239 0) lit = true ∧ acts (.sync 10239 0) lit = true ∧ acts (.qsubmit 10239 0) lit = true ∧ acts (.reg 10239 0) lit = true ∧
    acts (.tapReservedOp 10239 0 0) lit = true ∧ acts (.tapReservedOp 10239 5 0) lit = true := by decide +kernel

/-- Watch slot 63 of node 7 in a state, armed since some notch, and a notification for it. -/
def slotted (st : Nat) : State :=
  { at' ((lit.set (State.wslotBase 7 63) F.NI_WSLOTs_HI_STATE st).set (State.wslotBase 7 63) F.NI_WSLOTs_HI_GEN 5) 7 pSN
      { bare tSYNC_NTF 0 with hdr := { (bare tSYNC_NTF 0).hdr with tag := 63 + 5 * 2 ^ 6 } } with armed := [⟨7, 63, 100, 50, false, 0, 0⟩] }

theorem witness_CoreAndMemoryPortRows_notify : ∀ st ∈ [0, 1, 2],
    acts (.syncNtf 7) (slotted st) = true ∧
    comes (slotted st) 7 (fun a => a.pkt.hdr.ptype == tSYNC_NTF && !a.lt) (fun a s1 =>
      bitsOf a.pkt.hdr.tag 0 6 == 63 && s1.wslotState 7 63 == st && bitsOf a.pkt.hdr.tag 18 2 == 0 &&
      bitsOf a.pkt.hdr.tag 6 12 == s1.get (State.wslotBase 7 63) F.NI_WSLOTs_HI_GEN &&
      (s1.armed.any fun x => x.ep == 7 && x.slot == 63 && !x.desc)) = true := by decide +kernel

theorem witness_CoreAndMemoryPortRows_slot :
    let s := slotted 2
    acts (.wslotGuardExpiry 7 63) s = true ∧ acts (.wslotFree 7 63) s = true ∧
    s.armed.find? (fun a => a.ep == 7 && a.slot == 63 && !a.desc) = some ⟨7, 63, 100, 50, false, 0, 0⟩ ∧ s.build.isS = false ∧
    s.accCheck (niBase 7 + 0x1604 + 8 * 63) = stOK ∧ s.wslotState 7 63 = 2 := by decide +kernel

/-- Send queue 15 of node 7 with a message at its head, credit for a ring or none. -/
def message : SMsg := ⟨7, 15, 0, 0, 48, 0, some 100, none, none⟩
def sending (credit : Bool) : State :=
  { (lit.set (State.sqBase 7 15) F.CQU_SQs_CTL_LOG2SZ 16).set (State.sqBase 7 15) F.CQU_SQs_HEADK_HEADK (if credit then 0 else 2 ^ 32 - 2 ^ 16) with
    smsgs := [message], lazies := [⟨7, 15, 100⟩] }

theorem witness_CoreAndMemoryPortRows_message : ∀ c : Bool,
    let s := sending c
    acts (.cqMessageStart 7 15) s = true ∧ (s.sqMsgs 7 15).find? (fun m => m.op.isNone) = some message ∧ message.head.isSome = true ∧
    s.sqBroken 7 15 = false ∧ (s.sqCharge 7 15 message.len ≤ s.sqCred 7 15 ↔ c = true) ∧
    s.sqTail 7 15 % s.sqRing 7 15 + State.recLen message.len ≤ s.sqRing 7 15 ∧ s.lazies.any (fun l => l.ep == 7 && l.q == 15) = true := by
  decide +kernel

theorem witness_CoreAndMemoryPortRows_queues :
    nodeEp lit.build 7 = true ∧ lit.build.isS = false ∧ lit.accCheck (niBase 7 + (0x1810 + 32 * 15)) = stOK ∧
    lit.accCheck (niBase 7 + (0x1804 + 32 * 15)) = stOK ∧ lit.accCheck (niBase 7 + (0x1A00 + 32 * 15)) = stOK ∧
    lit.accCheck (niBase 7 + 0x1C10 + 4 * 3) = stOK := by decide +kernel

/-- An access through a memory port with one unit outstanding under the last tag. -/
def access (map : Bool) (port tag : Nat) (wr : Bool) : State := { lit with txns := [⟨1, map, port, wr, 0, 64, [], [⟨tag, 0, 9⟩], [], 0, .nothing⟩] }

theorem witness_CoreAndMemoryPortRows_map : ∀ wr : Bool,
    let s := access true 47 1023 wr
    acts (if wr then .mapWriteResponse 47 1023 0 else .mapReadData 47 1023 0 false 0) s = true ∧
    (s.unitAnswered true 47 wr 1023 0 false stOK).isSome = true ∧ (s.unitAnswered true 47 wr 0 0 false stOK).isNone = true ∧
    acts (.mapTimeout 47 wr 1023) s = true ∧ s.mapLive 47 wr 1023 = some ⟨1023, 0, 9⟩ := by decide +kernel

theorem witness_CoreAndMemoryPortRows_tap :
    let s := access false 10239 63 false
    acts (.tapReadData 10239 63 0 false false) s = true ∧ (s.unitAnswered false 10239 false 63 0 false stOK).isSome = true := by decide +kernel

/-! ### Values -/

/-- The command is answered by a next state of which this holds. -/
def next (c : Instr) (s : State) (P : State → Bool) : Bool :=
  match exec c s with
  | .next t => P t
  | _ => false

/-- R62: TAG begins at bit 116, SRC fields at 28 and 35, TS ends at bit 235. -/
theorem test_headerBits :
    ({ Hdr.zero with tag := 1 } : Hdr).toBits = 2 ^ 116 ∧ ({ Hdr.zero with srow := 63 } : Hdr).toBits = 63 * 2 ^ 35 ∧
    ({ Hdr.zero with ts := 32768 } : Hdr).toBits = 2 ^ 235 := by decide +kernel

/-- The check value of CRC-32 over the digits 1 to 9, and of the empty run (IEEE 802.3). -/
theorem test_crc32 : crc32 ((upFrom 49 9).map (BitVec.ofNat 8)) = 0xCBF43926 ∧ crc32 [] = 0 := by decide +kernel

/-- FIPS 197, appendix C.3: AES-256 of 00 11 22 … under the key 00 01 02 …. -/
theorem test_aes256 :
    aesEncrypt (aesSchedule (upFrom 0 32)) ((upFrom 0 16).map (· * 17)) =
      [0x8e, 0xa2, 0xb7, 0xca, 0x51, 0x67, 0x45, 0xbf, 0xea, 0xfc, 0x49, 0x90, 0x4b, 0x49, 0x60, 0x89] := by decide +kernel

/-- IEEE 754 binary32: 1 + 2 = 3, the largest finite number doubled is infinite, infinity less infinity is a NaN. -/
theorem test_f32Add :
    f32Add 0x3F800000 0x40000000 = 0x40400000 ∧ f32Add 0x7F7FFFFF 0x7F7FFFFF = 0x7F800000 ∧ f32Add 0x7F800000 0xFF800000 = f32NaN := by
  decide +kernel

/-- R42: 0 lies after 2^40 - 1, a count does not lie after itself, and half the range away is not after. -/
theorem test_liesAfter :
    liesAfter 40 0 (2 ^ 40 - 1) = true ∧ liesAfter 40 5 5 = false ∧ liesAfter 40 (2 ^ 39) 0 = false ∧ liesAfter 40 (2 ^ 39 - 1) 0 = true := by
  decide +kernel

/-- R60: a zero flit has zero check bits, and the flit of data bit 0 has those of position 3 and an even number of ones. -/
theorem test_narrowCode : encodeNarrow 0 false = 0 ∧ encodeNarrow 1 false = 1 + 3 * 2 ^ 64 + 2 ^ 71 := by decide +kernel

/-- R36: the notch after 2,047 is 0 of the next turn. -/
theorem test_turnEdge :
    next .turnEdge (run 3 2047) (fun t => t.spn.turn == 4 && t.spn.notch == 0) = true ∧
    next .notchEdge (run 3 5) (fun t => t.spn.turn == 3 && t.spn.notch == 6) = true := by decide +kernel

/-- R290: an ADD past 2^40 - 1 changes nothing but sets OVERFLOW; one that reaches it is applied. -/
theorem test_add :
    next (.add 63) (sync (op 1 1023 1) [(1023, 2 ^ 40 - 1)]) (fun t =>
      t.semVal 63 1023 == 2 ^ 40 - 1 && t.flag (State.unitBase 63) F.SYN_ERR_OVERFLOW) = true ∧
    next (.add 63) (sync (op 1 1023 1) [(1023, 2 ^ 40 - 2)]) (fun t =>
      t.semVal 63 1023 == 2 ^ 40 - 1 && !t.flag (State.unitBase 63) F.SYN_ERR_OVERFLOW) = true := by decide +kernel

/-- R290: a SUB below zero changes nothing but sets UNDERFLOW. -/
theorem test_sub :
    next (.sub 63) (sync (op 2 1023 3) [(1023, 2)]) (fun t => t.semVal 63 1023 == 2 && t.flag (State.unitBase 63) F.SYN_ERR_UNDERFLOW) = true ∧
    next (.sub 63) (sync (op 2 1023 3) [(1023, 3)]) (fun t => t.semVal 63 1023 == 0) = true := by decide +kernel

/-- R292: a WAIT fires at VALUE = N and leaves VALUE; a WAIT_TAKE takes N; a WAIT below N is kept. -/
theorem test_wait :
    next (.wait 63) (sync (op 3 1023 5) [(1023, 5)]) (fun t => t.semVal 63 1023 == 5 && t.watches.any (·.fired) && t.ntfq.length == 1) = true ∧
    next (.wait 63) (sync (op 3 1023 5) [(1023, 4)]) (fun t => t.watches.any (fun w => !w.fired) && t.ntfq.isEmpty) = true := by decide +kernel

theorem test_waitTake :
    next (.waitTake 63) (sync (op 4 1023 5) [(1023, 7)]) (fun t => t.semVal 63 1023 == 2 && t.ntfq.length == 1) = true := by decide +kernel

/-- R311: SET writes the value and releases waiters. -/
theorem test_set :
    let p := { op 12 1023 9 with hdr := { (op 12 1023 9).hdr with job := 0x3FF } }
    next (.set 63) { sync p [(1023, 2)] with watches := [{ watch false with index := 1023, n := 9 }] } (fun t =>
      t.semVal 63 1023 == 9 && t.watches.any (·.fired)) = true := by decide +kernel

/-- R310: both semaphores move down by the same amount, the second to its reference. -/
theorem test_realign :
    next (.realign 63 7) { run 9 0 with
        sems := [(63 * 1024, 2 ^ 50 + 2), (63 * 1024 + 1023, 2 ^ 50 + 5)], realigns := [realigning] } (fun t =>
      t.semVal 63 0 == 0 && t.semVal 63 1023 == 3) = true := by decide +kernel

/-- The access types of spec/00_scope.md: a read-only field keeps its value; R9: a write to an unmapped address ends DENIED. -/
theorem test_cfgWrite :
    next (.cfgWrite 4#28 0#32) lit (fun t => t.word 4 == lit.word 4) = true ∧
    next (.cfgWrite 0x200000#28 1#32) lit (fun t => t.out == [.cfgAck 0 stDENIED] && t.reports.length == 1) = true := by decide +kernel

/-- R5, R371: the command memory is little-endian. -/
theorem test_commandMemory :
    next (.cfgWrite 0x110004#28 0x04030201#32) lit (fun t => t.ram == [(4, 1#8), (5, 2#8), (6, 3#8), (7, 4#8)]) = true := by decide +kernel

/-- Storing a zero removes the entry, so that equal memories are equal lists. -/
theorem test_ramCanonical : ((lit.ramStore 4 [1#8, 2#8] []).ramStore 4 [0#8] []).ram = [(5, 2#8)] := by decide +kernel

/-- R438: DBG_REG before KEY_LOCK writes a register. R439: after it, with DBG_EN 0, nothing is written. -/
theorem test_dbgReg :
    next (.dbgReg true 0xC#28 5#32) lit (fun t => t.word 0xC == 5) = true ∧
    next (.dbgReg true 0xC#28 5#32) ((lit.set 0 F.KEY_LOCK_LOCK 1).set 0 F.KEY_CTL_DBG_EN 0) (fun t => t.word 0xC == lit.word 0xC) = true := by
  decide +kernel

/-- R457: the instruction register captures 0b0000_0001, and a code that the segment does not name selects BYPASS, whose one bit
captures 0. -/
theorem test_jtag : State.irCapture = 1 ∧ ((lit.loadIr 0x55).jtag.ir, (lit.loadIr 0x55).drCapture) = (0xFF, (1, 0)) ∧
    next (.dbgReg false 0x104#28 0#32) { lit with boot := 1 } (fun t => bitAt t.drCapture.2 36 && bitsOf t.drCapture.2 0 32 == 0) = true := by
  decide +kernel

/-- R429: a report of the key and turn of an entry is counted in it. -/
theorem test_errorReport :
    next (.errorReport 31 0x6005) { lit with reports := [told], log := [⟨31, 0, 0x6005, 0, 4097, 4099, 0⟩] } (fun t =>
      t.log == [⟨31, 0, 0x6005, 3, 4097, 4200, 0⟩] && t.reports.isEmpty) = true := by decide +kernel

/-- R413: RST_N takes every domain but the configuration domain to Dark. -/
theorem test_rstN : next .rstNAssert lit (fun t => t.boot == 1 && t.dom 0 == 0 && t.dom 70 == 0 && t.dom 71 == 3) = true := by decide +kernel

/-- R360: a write that clears EN of a port that is UP takes its link down with reason 5. -/
theorem test_nklCtl :
    next (.nklCtlWrite 48 (BitVec.ofNat 32 (((port 3).word (portBase 48 + 0x6000)).toNat - 1))) (port 3) (fun t =>
      t.linkState 48 == 0 && t.get (portBase 48) F.NKL_STAT_DOWN_WHY == 5) = true := by decide +kernel

/-- R73: one credit of a VC comes back in a cycle of Configuration A. -/
theorem test_credit :
    next (.creditReceive 2559 4 5 0 false) { lit with owed := [(outKey 2559 4 5 * 8, 2)], crw := [(outKey 2559 4 5 * 8, 2)] } (fun t =>
      nget t.owed 0 (outKey 2559 4 5 * 8) == 1) = true := by decide +kernel

/-- R229: a packet without a partner takes an entry; R230: a partner merges, and the weights add up. -/
theorem test_burl :
    next (.burlAbsorb 65 4 4) (combining []) (fun t => t.burl.length == 1 && (t.bufOf (inKey 65 pQB 4 4)).isEmpty) = true ∧
    next (.burlAbsorb 65 4 4) (combining [entryOf red]) (fun t => t.burl.map (fun e => State.wtOf e.pkt.hdr) == [2]) = true := by decide +kernel

/-- R109, R110: a request into an OFF output comes back as a NACK of status DOMAIN_OFF; a WACK is discarded. -/
theorem test_reflect :
    next (.reflect 65 pQB 4 0) (reflecting 0 3 tWRITE) (fun t =>
      ((mapGet t.refl 65).getD []).map (fun p => (p.hdr.ptype, p.hdr.opc)) == [(tNACK, stDOMAIN_OFF)]) = true ∧
    next (.reflect 65 pQB 4 0) (reflecting 0 2 tWACK) (fun t =>
      ((mapGet t.refl 65).getD []).isEmpty && t.get (nodeBase 65) F.RTR_DISC_CNT_COUNT == 1) = true := by decide +kernel

/-- R143: a buffer that is freed twice is a DFREE error. -/
theorem test_blkFree :
    next (.blkFree 7 (BitVec.ofNat 32 (3 * 2 ^ 14 + 4095))) pools (fun t => (t.blankUsed 7 3).isEmpty) = true ∧
    next (.blkFree 7 (BitVec.ofNat 32 (3 * 2 ^ 14 + 4094))) pools (fun t => t.flag (niBase 7) F.BLK_ERR_DFREE) = true := by decide +kernel

/-- R3: the commands of a part that is not built have no effect; a ring number beyond the sixteen faults. -/
theorem test_notBuilt : exec (.niLaunch 2560) lit = .next lit ∧ exec (.nop 16) lit = .fault .noSuchRing := by
  constructor <;> rfl

theorem test_idle : (match step lit with | .next t => t.cyc == 1 && t.regs == lit.regs | _ => false) = true := by decide +kernel

end Sys2Proof.Tests
end

/-! ### The on-chip memories: what a store leaves to be read, and equality of canonical memories -/

section
namespace Sys2Proof.Machine

/-- A canonical memory lists no address below its first. -/
theorem mapGet_below_head (m : List (Nat × Byte)) (a : Nat) (h : Memory.wf m = true) (ha : ∀ e, m.head? = some e → a < e.1) :
    mapGet m a = none := by
  induction m with
  | nil => rfl
  | cons e r ih =>
    obtain ⟨b, v⟩ := e
    obtain ⟨-, hlow, hr⟩ := (wf_cons b v r).1 h
    have hab : a < b := ha (b, v) rfl
    rw [mapGet, if_neg (by omega)]
    exact ih hr fun e he => hab.trans (hlow e he)

/-- The first address of a canonical memory reads as a byte other than zero, so no memory that starts above it reads alike. -/
theorem head_reads_nonzero (a : Nat) (v : Byte) (r m : List (Nat × Byte)) (h : Memory.wf ((a, v) :: r) = true)
    (hm : Memory.wf m = true) (hlow : ∀ e, m.head? = some e → a < e.1) :
    (mapGet ((a, v) :: r) a).getD 0 ≠ (mapGet m a).getD 0 := by
  have hv : v ≠ 0 := ((wf_cons a v r).1 h).1
  simpa [mapGet, mapGet_below_head m a hm hlow] using hv

/-- Canonical memories that read alike at every address are the same list. -/
theorem wf_ext (m n : List (Nat × Byte)) (hm : Memory.wf m = true) (hn : Memory.wf n = true)
    (h : ∀ a, (mapGet m a).getD 0 = (mapGet n a).getD 0) : m = n := by
  induction m generalizing n with
  | nil =>
    cases n with
    | nil => rfl
    | cons f q => exact absurd (h f.1).symm (head_reads_nonzero f.1 f.2 q [] hn hm (by simp))
  | cons e r ih =>
    obtain ⟨a, v⟩ := e
    cases n with
    | nil => exact absurd (h a) (head_reads_nonzero a v r [] hm hn (by simp))
    | cons f q =>
      obtain ⟨b, w⟩ := f
      obtain hab | rfl | hba := Nat.lt_trichotomy a b
      · exact absurd (h a) (head_reads_nonzero a v r _ hm hn (by simpa using hab))
      · obtain ⟨-, hlr, hr⟩ := (wf_cons a v r).1 hm
        obtain ⟨-, hlq, hq⟩ := (wf_cons a w q).1 hn
        have hvw : v = w := by simpa [mapGet] using h a
        have htail : ∀ x, (mapGet r x).getD 0 = (mapGet q x).getD 0 := fun x => by
          by_cases hx : a = x
          · subst hx; rw [mapGet_below_head r a hr hlr, mapGet_below_head q a hq hlq]
          · simpa [mapGet, hx] using h x
        rw [hvw, ih q hr hq htail]
      · exact absurd (h b).symm (head_reads_nonzero b w q _ hn hm (by simpa using hba))

namespace State

/-- A store leaves in the memories what its run of bytes leaves; the poison marks are kept apart. -/
@[simp] theorem ramByte_ramStore (s : State) (a x : Nat) (bytes : List Byte) (bad : List Nat) :
    (s.ramStore a bytes bad).ramByte x = (s.ramWrite a bytes).ramByte x := rfl

/-- A byte of a run that is stored is read back. -/
theorem ramByte_ramWrite_same (s : State) (a i : Nat) (bytes : List Byte) (v : Byte) (h : bytes[i]? = some v) :
    (s.ramWrite a bytes).ramByte (a + i) = v := by
  induction bytes generalizing s a i with
  | nil => simp at h
  | cons u r ih =>
    rw [ramWrite]
    cases i with
    | zero =>
      obtain rfl : u = v := by simpa using h
      rw [ramByte_ramWrite _ _ _ _ (by omega), ramByte_ramPut, if_pos (by omega)]
    | succ i =>
      rw [show a + (i + 1) = a + 1 + i by omega]
      exact ih _ _ _ (by simpa using h)

/-- Byte `i` of a read is the byte at its address. -/
theorem getElem?_ramRead (s : State) (a n i : Nat) (h : i < n) : (s.ramRead a n)[i]? = some (s.ramByte (a + i)) := by
  unfold ramRead
  induction n generalizing a i with
  | zero => omega
  | succ n ih =>
    cases i with
    | zero => rfl
    | succ i =>
      rw [show a + (i + 1) = a + 1 + i by omega, ← ih (a + 1) i (by omega)]
      rfl

@[simp] theorem length_ramRead (s : State) (a n : Nat) : (s.ramRead a n).length = n := by simp [ramRead]

/-- A run of bytes that is stored is read back whole. -/
theorem ramRead_ramStore (s : State) (a : Nat) (bytes : List Byte) (bad : List Nat) :
    (s.ramStore a bytes bad).ramRead a bytes.length = bytes := by
  refine List.ext_getElem? fun i => ?_
  by_cases hi : i < bytes.length
  · have hb : bytes[i]? = some bytes[i] := List.getElem?_eq_getElem hi
    rw [getElem?_ramRead _ _ _ _ hi, ramByte_ramStore, ramByte_ramWrite_same s a i bytes _ hb, hb]
  · rw [List.getElem?_eq_none (by simpa using hi), List.getElem?_eq_none (by simpa using hi)]

/-- A store changes nothing but the memories and their poison marks. -/
theorem ramStore_frame (s : State) (a : Nat) (bytes : List Byte) (bad : List Nat) :
    { s.ramStore a bytes bad with ram := s.ram, ramBad := s.ramBad } = s :=
  congrArg (fun t : State => { t with ramBad := s.ramBad }) (ramWrite_frame s a bytes)

end State

/-- Settles O22: by induction on the bytes stored, and on the two lists for canonical memories. -/
theorem storedBytesReadBack : Obligations.StoredBytesReadBack := by
  unfold Obligations.StoredBytesReadBack
  refine ⟨fun s a bytes bad => ⟨fun i v h => ?_, State.ramRead_ramStore s a bytes bad, fun x h => ?_,
    State.ramStore_frame s a bytes bad⟩, fun s t hs ht h => wf_ext s.ram t.ram hs ht h⟩
  · exact State.ramByte_ramWrite_same s a i bytes v h
  · exact State.ramByte_ramWrite s a x bytes h

end Sys2Proof.Machine
end

/-! ### Every command: an effect at the part it names, or the fault of an ill-formed ring number -/

section
namespace Sys2Proof.Safety
open Sys2Proof.Machine

/-- The one fault is that of a ring number that no well-formed command has; otherwise the outcome is a next state of the same build
with the same commands waiting, and it is the state itself where the command does not act. -/
def Answered (c : Instr) (s : State) (o : Host.Outcome State Fault Refusal) : Prop :=
  (∃ t, o = .next t ∧ t.pending = s.pending ∧ t.build = s.build ∧ (acts c s = false → t = s)) ∨
    (o = .fault .noSuchRing ∧ c.wf = false)

/-! What makes an NI or a node run includes that the build has it. -/

theorem lt_nodes_of_nodeOn {s : State} {n : Nat} (h : s.nodeOn n = true) : n < s.build.nodes := by
  simp only [State.nodeOn, Bool.and_eq_true, decide_eq_true_eq] at h
  exact h.1

theorem lt_units_of_unitOn {s : State} {u : Nat} (h : s.unitOn u = true) : u < s.build.units := by
  simp only [State.unitOn, Bool.and_eq_true, decide_eq_true_eq] at h
  exact h.1

theorem portKind_ne_zero_of_portOn {s : State} {p : Nat} (h : s.portOn p = true) : s.build.portKind p ≠ 0 := by
  simp only [State.portOn, Bool.and_eq_true, bne_iff_ne] at h
  exact h.1

theorem epBuilt_of_nodeEp_on {s : State} {ep : Nat} (hn : ep < 0xF00) (h : s.epOn ep = true) : s.build.epBuilt ep = true := by
  simp only [State.epOn, hn, if_true, Bool.and_eq_true] at h
  exact h.1

section
variable {c : Instr} {s : State} {f : State → State}

/-- An effect that changes the state only where the command acts. -/
theorem answered_of_effect {on : Bool} (h : on = true → acts c s = false → f s = s) : Answered c s (act on s f) := by
  obtain ⟨t, ht, hp, hb⟩ := act_next on s f
  refine .inl ⟨t, ht, hp, hb, fun hc => ?_⟩
  obtain rfl : (if on then s.within (f s) else s) = t := Host.Outcome.next.inj ht
  split
  · exact (congrArg s.within (h ‹_› hc)).trans (within_self s s rfl rfl)
  · rfl

/-- An effect made only where the command acts. -/
theorem answered_of_acts {on : Bool} (h : on = true → acts c s = true) : Answered c s (act on s f) :=
  answered_of_effect fun hon hc => absurd (h hon) (by simp [hc])

/-- An effect made exactly where the command acts. -/
theorem answered_act {on : Bool} (ha : acts c s = on) : Answered c s (act on s f) :=
  answered_of_acts fun h => ha.trans h

/-- A ring number beyond the sixteen is one that no well-formed command has. -/
theorem answered_noSuchRing {r : Nat} (hr : c.ranges = [(r, 16)]) (h : ¬ r < 16) : Answered c s (.fault .noSuchRing) :=
  .inr ⟨rfl, by simp [Instr.wf, hr, h]⟩

/-! One lemma for each place at which a command may act. -/

theorem answered_atHost {wr : Bool} {a d : Nat} (ha : acts c s = !(s.boot == 3)) : Answered c s (atHost s wr a d) :=
  answered_act ha

theorem answered_atHds (ha : acts c s = !s.stopped) : Answered c s (atHds s f) := answered_act ha

theorem answered_atGlobal (ha : acts c s = !s.stopped) : Answered c s (atGlobal s f) := answered_act ha

theorem answered_atUnitOfCfg (ha : acts c s = !s.stopped) : Answered c s (atUnitOfCfg s f) := answered_act ha

theorem answered_atDom {d : Nat} (ha : acts c s = (decide (d < s.build.cfgDom) && !s.stopped)) : Answered c s (atDom d s f) :=
  answered_act ha

theorem answered_atHalf (ha : acts c s = (s.build.halves && !s.stopped)) : Answered c s (atHalf s f) := answered_act ha

theorem answered_atCross {x : Crossing} (ha : acts c s = (!State.noCrossing s.build x && !s.stopped)) :
    Answered c s (atCross x s f) :=
  answered_act ha

theorem answered_niAccess {ep off : Nat} {wr : Bool} {d : Word} (ha : acts c s = (decide (ep < 0xF7E) && !s.stopped)) :
    Answered c s (niAccess ep wr off d s) :=
  answered_act ha

theorem answered_atRing {r : Nat} (hr : c.ranges = [(r, 16)]) (ha : acts c s = (decide (r < 16) && !s.stopped)) :
    Answered c s (atRing r s f) := by
  unfold atRing
  split
  · exact answered_act (by simpa [‹r < 16›] using ha)
  · exact answered_noSuchRing hr ‹_›

/-- A register access of the CFG host that a command of a ring number stands for. -/
theorem answered_ringAccess {r a d : Nat} (hr : c.ranges = [(r, 16)]) (ha : acts c s = (decide (r < 16) && !(s.boot == 3))) :
    Answered c s (if r < 16 then atHost s true a d else .fault .noSuchRing) := by
  split
  · exact answered_atHost (by simpa [‹r < 16›] using ha)
  · exact answered_noSuchRing hr ‹_›

theorem answered_atNode {n : Nat} (ha : acts c s = (decide (n < s.build.nodes) && s.nodeOn n)) : Answered c s (atNode n s f) :=
  answered_of_acts fun h => by simp [ha, h, lt_nodes_of_nodeOn h]

theorem answered_atUnit {u : Nat} (ha : acts c s = (decide (u < s.build.units) && s.unitOn u)) : Answered c s (atUnit u s f) :=
  answered_of_acts fun h => by simp [ha, h, lt_units_of_unitOn h]

theorem answered_atNi {ep : Nat} (ha : acts c s = (s.build.epBuilt ep && (s.epOn ep && !s.stopped))) :
    Answered c s (atNi ep s f) :=
  answered_act (ha.trans (Bool.and_assoc ..).symm)

theorem answered_atBlockNi {ep : Nat} (ha : acts c s = (niEp s.build ep && (s.epOn ep && !s.stopped))) :
    Answered c s (atBlockNi ep s f) := by
  unfold atBlockNi
  split
  next => exact answered_of_acts nofun
  next h => exact answered_atNi (by rw [ha, niEp, bne, Bool.eq_false_of_not_eq_true h, Bool.not_false, Bool.true_and])

theorem answered_atNodeNi {ep : Nat} (ha : acts c s = (nodeEp s.build ep && (s.epOn ep && !s.stopped))) :
    Answered c s (atNodeNi ep s f) := by
  refine answered_of_acts fun h => ?_
  simp only [Bool.and_eq_true, decide_eq_true_eq] at h
  obtain ⟨⟨hn, hon⟩, hrun⟩ := h
  simp [ha, nodeEp, hn, epBuilt_of_nodeEp_on hn hon, hon, hrun]

theorem answered_atLathe {ep : Nat} (ha : acts c s = (latheEp s.build ep && (s.epOn ep && !s.stopped))) :
    Answered c s (atLathe ep s f) :=
  answered_act (ha.trans (Bool.and_assoc ..).symm)

theorem answered_atTap {t : Nat}
    (ha : acts c s = (tapBuilt s.build t && (s.nodeOn (t / 4) && !s.stopped && (s.heldX (.tap t)).isNone))) :
    Answered c s (atTap t s f) := by
  refine answered_of_acts fun h => ?_
  simp only [Bool.and_eq_true] at h
  obtain ⟨⟨⟨hA, hon⟩, hrun⟩, hfree⟩ := h
  have ht : t < 4 * s.build.nodes := by have := lt_nodes_of_nodeOn hon; omega
  simp [ha, tapBuilt, hA, ht, hon, hrun, hfree]

theorem answered_atMap {m : Nat}
    (ha : acts c s = (s.build.portKind m == 1 && (s.portOn m && !s.stopped && (s.heldX (.map m)).isNone))) :
    Answered c s (atMap m s f) :=
  answered_act (by simp [ha, Bool.and_assoc])

theorem answered_atBowl {p : Nat} (ha : acts c s = (s.build.isBowlPort p && (s.portOn p && !s.stopped))) :
    Answered c s (atBowl p s f) :=
  answered_act (ha.trans (Bool.and_assoc ..).symm)

theorem answered_atEngine {p : Nat} (ha : acts c s = (s.build.isBowlPort p && !s.build.isS && (s.portOn p && !s.stopped))) :
    Answered c s (atEngine p s f) :=
  answered_act (ha.trans (Bool.and_assoc ..).symm)

theorem answered_atExit {p : Nat} (ha : acts c s = (s.build.isLink p && (s.portOn p && !s.stopped))) :
    Answered c s (atExit p s f) :=
  answered_act (ha.trans (Bool.and_assoc ..).symm)

theorem answered_onLink {p : Nat} (ha : acts c s = (s.build.isLink p && (s.linkOn p && !s.stopped))) :
    Answered c s (onLink p s f) := by
  unfold onLink atLink
  refine answered_of_effect fun hon hc => ?_
  rw [ha, ← Bool.and_assoc, hon] at hc
  have hst : s.stopped = true := by simpa using hc
  exact if_pos hst

/-- A CFG request at a port block or at a node block. -/
theorem answered_atBlock {isPort : Bool} {k : Nat} {g : State → State}
    (ha : acts c s = ((if isPort then s.build.portKind k != 0 else decide (k < s.build.nodes)) &&
      ((if isPort then s.portOn k else s.nodeOn k) && !s.stopped))) :
    Answered c s (if isPort then act (s.portOn k && !s.stopped) s f else act (s.nodeOn k && !s.stopped) s g) := by
  cases isPort
  · refine answered_of_acts fun h => ?_
    obtain ⟨hon, -⟩ := Bool.and_eq_true_iff.1 h
    simpa [ha, lt_nodes_of_nodeOn hon] using h
  · refine answered_of_acts fun h => ?_
    obtain ⟨hon, -⟩ := Bool.and_eq_true_iff.1 h
    simpa [ha, portKind_ne_zero_of_portOn hon] using h

end

/-! Commands with a place of their own, and those whose row chooses between two places. -/

theorem answered_dbgReg (wr : Bool) (a : BitVec 28) (d : Word) (s : State) :
    Answered (.dbgReg wr a d) s (execDbgReg wr a d s) := by
  unfold execDbgReg
  exact answered_act rfl

theorem answered_secTamper (s : State) : Answered .secTamper s (execSecTamper s) := by
  unfold execSecTamper
  exact answered_act rfl

theorem answered_nklCtlWrite (p : Nat) (d : Word) (s : State) : Answered (.nklCtlWrite p d) s (execNklCtlWrite p d s) := by
  unfold execNklCtlWrite
  exact answered_act rfl

/-- A router whose domain does not run discards a flit that comes to one of its ports (R402). -/
theorem answered_flitReceive (n pl p : Nat) (u : BitVec 544) (sb : Bool) (s : State) :
    Answered (.flitReceive n pl p u sb) s (execFlitReceive n pl p u sb s) := by
  have ha : acts (.flitReceive n pl p u sb) s = (decide (n < s.build.nodes) && (s.nodeOn n || State.portOf pl p)) := rfl
  unfold execFlitReceive
  split
  next h => exact answered_of_acts fun _ => by simp_all
  next h => exact answered_of_acts fun hon => by simp [ha, hon, lt_nodes_of_nodeOn hon]

/-- CLM_REVOKE is written from the maintenance port, or by the CFG host. -/
theorem answered_clmRevoke (dbg : Bool) (d : Word) (s : State) : Answered (.clmRevoke dbg d) s (execClmRevoke dbg d s) := by
  unfold execClmRevoke
  cases dbg
  · exact answered_atHost rfl
  · rw [if_pos rfl]; exact answered_act rfl

/-- The clock of the West half stops in every build (log 11); any other crossing must be one that the build has. -/
theorem answered_clockStop (x : Crossing) (s : State) : Answered (.clockStop x) s (execClockStop x s) := by
  have ha : acts (.clockStop x) s = ((x == .seam false || !State.noCrossing s.build x) && !s.stopped) := rfl
  unfold execClockStop
  split
  next h => exact answered_act (by simp [ha, h])
  next h => exact answered_act (by simp [ha, h])

/-- A telemetry counter of a global unit is read by the CFG host, any other at its block. -/
theorem answered_tlmLoRead (a : BitVec 28) (s : State) : Answered (.tlmLoRead a) s (execTlmLoRead a s) := by
  have ha : acts (.tlmLoRead a) s =
      (!s.stopped || !(s.boot == 3) && decide (a.toNat < 0x1000000) && s.isTlm a.toNat) := rfl
  unfold execTlmLoRead
  split
  next h =>
    simp only [Bool.and_eq_true] at h
    obtain ⟨hlow, htlm⟩ := h
    exact answered_of_acts fun hon => by simp only [ha, hon, hlow, htlm, Bool.and_true, Bool.or_true]
  next => exact answered_of_acts fun hon => by rw [ha, hon, Bool.true_or]

/-- What every command's row can do. -/
theorem exec_answered (c : Instr) (s : State) : Answered c s (exec c s) := by
  unfold exec
  cases c with
  | cfgWrite _ _ | spnCtlWrite _ | spnNowRead | hdsRun _ | clmCommit _ | errPop | trigClear | keyLock => exact answered_atHost rfl
  | cfgTimeout _ | headstockStationReceive | cfgRsp | rtrDrainDone | rtrDrainTimeout | lthLoadDone | lthSwapEdge
  | latheResumeEdge | planComplete | guardNotify | guardExpiry _ => exact answered_atHds rfl
  | dbgReg _ _ _ => exact answered_dbgReg _ _ _ s
  | notchEdge | synthNotch | turnEdge | tcntAccept _ _ _ _ _ | stallDetect | beaconTimeout | domainQuiescent | domDownTimeout
  | stepBoundary | cfgInitDone | errorReport _ _ | fuseVFall | errorPacingTurn => exact answered_atUnitOfCfg rfl
  | flitReceive _ _ _ _ _ => exact answered_flitReceive _ _ _ _ _ s
  | creditReceive _ _ _ _ _ | packetLaunch _ _ _ | reflect _ _ _ _ | burlAbsorb _ _ _ | burlHoldExpiry _ _
  | latheFlitSwitch _ _ _ => exact answered_atNode rfl
  | niLaunch _ | rdata _ | wack _ | nack _ | credit _ | niRequestTimeout _ _ | niRetry _ _ => exact answered_atNi rfl
  | throttleUpdate _ | write _ | read _ | send _ | rslotHoleTimeout _ _ _ _ | mcTargetReceive _ | mcRelay _ | perTargetNack _
  | mcUnicastRetry _ _ | mcHoldExpiry _ _ | reduceAcc _ => exact answered_atBlockNi rfl
  | govWindowEnd => exact answered_act (on := !s.stopped) rfl
  | cfgRd _ _ | cfgWr _ _ => exact answered_atBlock rfl
  | blkFree _ _ | blkPoolEnable _ _ _ | wslotFree _ _ | cquHeadWrite _ _ _ | cquSelRead _ _ | cquEnable _ _ _ _
    => exact answered_niAccess rfl
  | nop _ | ringAbort _ | jobKill _ | xfer _ | xferMc _ | xferRed _ | rankBind _ | tableWrite _ | tsetSwap _ | tsetSwapEdge _
  | injStop _ | injResume _ | chanOpen _ | chanClose _ | rtrDrain _ | rtrReopen _ | domDown _ | domUp _ | semInit _ | semFree _
  | semSet _ | semRead _ | syncBind _ | barInit _ | barFree _ | realignSet _ | lthLoad _ | lthSwap _ | lthResume _
  | colGroupSet _ | colIssue _ | colPeerGone _ | linkAdmit _ | linkDown _ | linkSwap _ | linkRekey _ | keyLoad _ | keyErase _
  | regRead _ | regWrite _ | mirSnap _ | commandFetch _ | statusReply _ | hdsReservedOpcode _ => exact answered_atRing rfl rfl
  | latheStage _ _ | latheLaunch _ _ | latheDeposit _ => exact answered_atLathe rfl
  | doorbell _ _ | ringResume _ | ringEnable _ _ => exact answered_ringAccess rfl rfl
  | claim _ | commit _ | reduceBowl _ => exact answered_atBowl rfl
  | bowlResultDone _ | bowlSlotTimeout _ | bowlEntryExpire _ | claimAttempt _ | filterExpire _ => exact answered_atGlobal rfl
  | clmRevoke _ _ => exact answered_clmRevoke _ _ s
  | ready _ | gdone _ | colStageStart _ _ | colChunkSend _ _ _ _ | colProgressTimeout _ _ => exact answered_atEngine rfl
  | add _ | sub _ | wait _ | waitTake _ | syncRead _ | cancel _ | barArrive _ | barWait _ | barUp _ | barDown _ | set _
  | barTimedRelease _ _ | realign _ _ | watchTimeout _ _ | notificationLaunch _ | syncOpReserved _ => exact answered_atUnit rfl
  | syncNtf _ | wslotGuardExpiry _ _ | cqMessageStart _ _ | cqStallTimeout _ _ | creditUpdate _ _ => exact answered_atNodeNi rfl
  | desc _ _ | sync _ _ | qsubmit _ _ | reg _ _ | tapReadData _ _ _ _ _ | tapReservedOp _ _ _ => exact answered_atTap rfl
  | frameReceive _ _ | replayTimeout _ | admitSend _ | trainingTimeout _ | laneFail _ _ | spareRotate _ | spareCalibrate _ _
  | linkDead _ | linkIdleEnd _ | fdiError _ | phyLock _ _ | cellBoundary _ => exact answered_onLink rfl
  | nklCtlWrite _ _ => exact answered_nklCtlWrite _ _ s
  | scaleoutExit _ | scaleoutEntry _ | e2eAck _ | e2eRetransmit _ _ | e2eAbandon _ _ => exact answered_atExit rfl
  | pswAckFall _ | pswAckRise _ | pswAckTimeout _ | pswAckLost _ | domainInitDone _ | domainLit _ => exact answered_atDom rfl
  | rstNAssert | rstNRelease _ _ _ => exact answered_act (on := true) rfl
  | halfReset _ | halfResetRelease _ | eastClockRestart => exact answered_atHalf rfl
  | crossingFarReset _ | join _ | joinTimeout _ => exact answered_atCross rfl
  | clockStop _ => exact answered_clockStop _ s
  | tlmLoRead _ => exact answered_tlmLoRead _ s
  | secTamper => exact answered_secTamper s
  | mapWriteResponse _ _ _ | mapReadData _ _ _ _ _ | mapTimeout _ _ _ => exact answered_atMap rfl

/-- Settles O4: every command is answered as `exec_answered` says. -/
theorem everyWellFormedCommandAnswers : Obligations.EveryWellFormedCommandAnswers := by
  unfold Obligations.EveryWellFormedCommandAnswers
  intro c s
  obtain ⟨t, ht, hp, hb, -⟩ | ⟨hf, hwf⟩ := exec_answered c s
  · exact ⟨fun _ => ⟨t, ht, hp, hb⟩, fun f hf => (nomatch ht.symm.trans hf), fun r hr => (nomatch ht.symm.trans hr)⟩
  · refine ⟨fun h => absurd h (by simp [hwf]), fun f h => ⟨?_, hwf⟩, fun r hr => (nomatch hf.symm.trans hr)⟩
    exact (Host.Outcome.fault.inj (hf.symm.trans h)).symm

/-- Settles O5: a command that does not act leaves the state itself, as `exec_answered` says. -/
theorem partThatIsOffIgnoresItsCommands : Obligations.PartThatIsOffIgnoresItsCommands := by
  unfold Obligations.PartThatIsOffIgnoresItsCommands
  intro c s hoff
  obtain ⟨t, ht, -, -, hsame⟩ | hfault := exec_answered c s
  · exact .inl (by rw [ht, hsame hoff])
  · exact .inr hfault

end Sys2Proof.Safety
end

/-! ### Accesses of the CFG host: what is refused, and what is written at once -/

section
namespace Sys2Proof.Machine

theorem length_updFirst {α : Type} (p : α → Bool) (f : α → α) (l : List α) : (updFirst p f l).length = l.length := by
  induction l with
  | nil => rfl
  | cons x r ih =>
    rw [updFirst]
    split
    · rfl
    · simp [ih]

/-- Byte `i` of the little-endian bytes of a number. -/
theorem getElem?_leBytes (x n i : Nat) (h : i < n) : (leBytes x n)[i]? = some (BitVec.ofNat 8 (x / 256 ^ i % 256)) := by
  induction n generalizing x i with
  | zero => omega
  | succ n ih =>
    cases i with
    | zero => simp [leBytes]
    | succ i => rw [leBytes, List.getElem?_cons_succ, ih _ _ (by omega), Nat.pow_succ', Nat.div_div_eq_div_mul]

@[simp] theorem length_leBytes (x n : Nat) : (leBytes x n).length = n := by
  induction n generalizing x with
  | zero => rfl
  | succ n ih => simp [leBytes, ih]

theorem locate_glob (b : Build) (a : Nat) (h : a < 0x200000) : locate b a = .glob a := if_pos h

namespace State

/-! The checks of R9 and R10. -/

theorem accCheck_of_refused (s : State) (a : Nat) (h : a % 4 ≠ 0 ∨ s.mapped a = false) :
    s.accCheck a = if a % 4 ≠ 0 then stBADCMD else stDENIED := by
  unfold accCheck
  by_cases ha : a % 4 = 0
  · have hm : s.mapped a = false := h.resolve_left (not_not_intro ha)
    simp [ha, hm]
  · simp [ha]

theorem refusedSt_cases (a : Nat) :
    (if a % 4 ≠ 0 then stBADCMD else stDENIED) = stBADCMD ∨ (if a % 4 ≠ 0 then stBADCMD else stDENIED) = stDENIED :=
  ite_eq_or_eq ..

theorem ne_ok_of_refusedSt {st : Nat} (h : st = stBADCMD ∨ st = stDENIED) : st ≠ stOK := by
  rcases h with rfl | rfl <;> decide

/-- A refused access reads zero, and changes nothing but what its record changes. -/
theorem access_of_refused (s : State) (by' : AccBy) (wr : Bool) (a d : Nat) (h : s.accCheck a ≠ stOK) :
    s.access by' wr a d = (s.accCheck a, 0, s.recordAcc by' wr a d (s.accCheck a)) := by
  simp [access, h]

theorem recordAcc_of_ne (s : State) (by' : AccBy) (wr : Bool) (a d st : Nat) (h : st ≠ stOK) :
    s.recordAcc by' wr a d st = s.report 0 by'.src st
      (packFields [(28, a), (1, bit wr), (1, bit (by' == .dbg)), (2, 0), (32, if wr then d else 0)]) := by
  simp [recordAcc, h]

@[simp] theorem recordAcc_ok (s : State) (by' : AccBy) (wr : Bool) (a d : Nat) : s.recordAcc by' wr a d stOK = s := rfl

/-! A report of a refused access has no severity (R432). -/

theorem severity_access (st d : Nat) (h : st = stBADCMD ∨ st = stDENIED) : severity 0 st d = 0 := by
  rcases h with rfl | rfl <;> rfl

/-- The pending reports once one of a refused access has been made: one of its source takes it in, or it is added (R428). -/
def refusedReports (s : State) (src st d : Nat) : List Report :=
  if s.reports.any (fun r => r.cls == 0 && r.src == src) then
    updFirst (fun r => r.cls == 0 && r.src == src) (fun r => { r with count := r.count + 1, last := s.notchCount }) s.reports
  else s.reports ++ [⟨0, src, st, 1, s.notchCount, s.notchCount, d, s.cyc⟩]

theorem report_access (s : State) (src st d : Nat) (h : st = stBADCMD ∨ st = stDENIED) :
    s.report 0 src st d = { s with reports := s.refusedReports src st d } := by
  have hs : s.countSeverity (severity 0 st d) 1 = s := by rw [severity_access st d h]; rfl
  unfold report refusedReports
  simp only [hs]
  split <;> rfl

/-- A report of a refused access changes pending reports alone. -/
theorem report_access_frame (s : State) (src st d : Nat) (h : st = stBADCMD ∨ st = stDENIED) :
    { s.report 0 src st d with reports := s.reports } = s := by
  rw [report_access s src st d h]

theorem word_report_access (s : State) (src st d b : Nat) (h : st = stBADCMD ∨ st = stDENIED) :
    (s.report 0 src st d).word b = s.word b := by
  rw [report_access s src st d h]
  rfl

/-! The writes that no rule but the field types governs, and those of the command memory. -/

theorem isTlm_glob (s : State) (a : Nat) (h : a < 0x200000) (hp : a < 0xE00 ∨ 0x1000 ≤ a) : s.isTlm a = false := by
  rw [isTlm, locate_glob _ _ h]
  simp only [Bool.and_eq_false_iff, decide_eq_false_iff_not, Nat.not_le, Nat.not_lt]
  omega

/-- A write of a register that is not locked leaves the word of its field types. -/
theorem plainWrite_unlocked (s : State) (a d : Nat) (r : RegRow) (z : Bool) (hr : rowAt s.build a = some (r, z))
    (hl : s.get 0 F.KEY_LOCK_LOCK = 0) :
    s.plainWrite a d = (stOK, s.setWord a (BitVec.ofNat 32 (wordWrite false r.flds (s.word a).toNat d))) := by
  have hf : s.flag 0 F.KEY_LOCK_LOCK = false := by rw [flag, hl]; rfl
  simp [plainWrite, hr, hf]

/-- Five global registers have no rule but their field types; of NKL_E2E_CTL, 0x900, that holds for the values it admits. -/
theorem writeGlob_plain (s : State) (by' : AccBy) (a d : Nat) (ha : a ∈ [0xC, 0x120, 0x900, 0xB00, 0xC00])
    (hd : a = 0x900 → 1024 ≤ d % 2 ^ 14 ∧ d % 2 ^ 14 ≤ 16000) : s.writeGlob by' a d = s.plainWrite a d := by
  have ht : s.isTlm a = false := by
    simp only [List.mem_cons, List.not_mem_nil, or_false] at ha
    exact isTlm_glob s a (by omega) (by omega)
  simp only [List.mem_cons, List.not_mem_nil, or_false] at ha
  rcases ha with rfl | rfl | rfl | rfl | rfl
  case inr.inr.inl =>
    have hlo : 1024 ≤ d % 16384 := (hd rfl).1
    have hhi : d % 16384 ≤ 16000 := (hd rfl).2
    simp [writeGlob, writeIf, hlo, hhi]
  all_goals simp [writeGlob, ht]

/-- A write of a word of the command memory's window (R394). -/
theorem writeGlob_cmem (s : State) (by' : AccBy) (a d : Nat) (h0 : 0x110000 ≤ a) (h1 : a < 0x120000) :
    s.writeGlob by' a d = (stOK, s.ramStore (a - 0x110000) (leBytes d 4) []) := by
  have hne : ∀ k, k < 0x110000 → (a == k) = false := fun k hk => beq_false_of_ne (by omega)
  have hge : ∀ k, k ≤ 0x110000 → decide (a < k) = false := fun k hk => decide_eq_false (by omega)
  have ht : s.isTlm a = false := isTlm_glob s a (by omega) (by omega)
  simp (disch := decide) only [writeGlob, hne, hge, ht, h0, h1, Bool.or_false, Bool.and_false, Bool.false_eq_true, if_false,
    decide_true, Bool.and_true, if_true, ramBase, Nat.zero_add]

/-- No register above the sync units' own reads as zero in some builds. -/
theorem rowAt_high_glob (b : Build) (a : Nat) (h0 : 0x3000 ≤ a) (h1 : a < 0x200000) (r : RegRow) : rowAt b a ≠ some (r, true) := by
  rw [rowAt, locate_glob _ _ h1]
  simp only [ne_eq, Option.bind_eq_some_iff, not_exists, not_and]
  intro x _
  rw [if_neg (by simp; omega), if_neg (by simp; omega)]
  simp

theorem writeReg_glob (s : State) (by' : AccBy) (a d : Nat) (h : a < 0x200000) (hz : ∀ r, rowAt s.build a ≠ some (r, true)) :
    s.writeReg by' a d = s.writeGlob by' a d := by
  unfold writeReg
  split
  next r hr => exact absurd hr (hz r)
  next => rw [locate_glob _ _ h]

/-! One access of the CFG host. -/

/-- What a sender holds stable is what comes over the crossing. -/
@[simp] theorem crossed_steady (s : State) (port : Nat) (old v : Bool × Nat × Nat) : s.crossed port old (steady v) = (v, s) := by
  simp [crossed, agreed, steady]

theorem regAccess_of_refused (s : State) (k : Asker) (wr : Bool) (a d : Nat) (h : s.accCheck a ≠ stOK) :
    s.regAccess k wr a d = (s.recordAcc k.by' wr a d (s.accCheck a)).accEnd k 0 (s.accCheck a) := by
  simp [regAccess, h]

/-- A write of a global register is made at once. -/
theorem regAccess_write_glob (s u : State) (k : Asker) (a d : Nat) (ha : a < 0x200000) (hok : s.accCheck a = stOK)
    (hz : ∀ r, rowAt s.build a ≠ some (r, true)) (hw : s.writeGlob k.by' a d = (stOK, u)) :
    s.regAccess k true a d = u.accEnd k 0 stOK := by
  have hd : cfgDest s.build a = none := by rw [cfgDest, locate_glob _ _ ha]
  simp [regAccess, access, hd, hok, writeReg_glob s _ a d ha hz, hw]

/-- A write of the CFG host to one of the five plain registers. -/
theorem regAccess_plain (s : State) (a d : Nat) (r : RegRow) (ha : a ∈ [0xC, 0x120, 0x900, 0xB00, 0xC00])
    (hd : a = 0x900 → 1024 ≤ d % 2 ^ 14 ∧ d % 2 ^ 14 ≤ 16000) (hok : s.accCheck a = stOK) (hr : rowAt s.build a = some (r, false))
    (hl : s.get 0 F.KEY_LOCK_LOCK = 0) :
    s.regAccess .cfg true a d =
      (s.setWord a (BitVec.ofNat 32 (wordWrite false r.flds (s.word a).toNat d))).accEnd .cfg 0 stOK := by
  have hlow : a < 0x200000 := by
    simp only [List.mem_cons, List.not_mem_nil, or_false] at ha
    omega
  refine regAccess_write_glob s _ .cfg a d hlow hok (fun q => by simp [hr]) ?_
  rw [writeGlob_plain s _ a d ha hd, plainWrite_unlocked s a d r false hr hl]

/-- A write of the CFG host to a word of the command memory's window. -/
theorem regAccess_cmem (s : State) (a d : Nat) (h0 : 0x110000 ≤ a) (h1 : a < 0x120000) (hok : s.accCheck a = stOK) :
    s.regAccess .cfg true a d = (s.ramStore (a - 0x110000) (leBytes d 4) []).accEnd .cfg 0 stOK :=
  regAccess_write_glob s _ .cfg a d (by omega) hok (rowAt_high_glob s.build a (by omega) (by omega))
    (writeGlob_cmem s _ a d h0 h1)

/-- A store changes the memories and their poison marks alone. -/
theorem ramStore_eq (s : State) (a : Nat) (bytes : List Byte) (bad : List Nat) :
    ∃ m b, s.ramStore a bytes bad = { s with ram := m, ramBad := b } :=
  ⟨(s.ramStore a bytes bad).ram, (s.ramStore a bytes bad).ramBad, congrArg (fun t : State =>
    { t with ram := (s.ramStore a bytes bad).ram, ramBad := (s.ramStore a bytes bad).ramBad }) (ramStore_frame s a bytes bad)⟩

theorem word_ramStore (s : State) (a b : Nat) (bytes : List Byte) (bad : List Nat) :
    (s.ramStore a bytes bad).word b = s.word b := by
  obtain ⟨m, p, h⟩ := ramStore_eq s a bytes bad
  rw [h]
  rfl

end State
end Sys2Proof.Machine

namespace Sys2Proof.Safety
open Sys2Proof.Machine

/-- Where the CFG port can take an access, the access comes over the crossing and is made. -/
theorem cfgAccess_of_free (s : State) (wr : Bool) (a d : Nat) (h : CfgFree s) :
    s.cfgAccess wr a d = (hostAsked s wr a d).regAccess .cfg wr a d := by
  obtain ⟨hboot, hheld, haccs, hwait⟩ := h
  simp [State.cfgAccess, hboot, hheld, haccs, hwait, hostAsked]

/-- `t` with all that an access of the CFG host to a global register changes put back as in `s`. -/
def putBack (t s : State) : State :=
  { t with
    regs := s.regs, ram := s.ram, ramBad := s.ramBad, reports := s.reports, out := s.out, cfgAck := s.cfgAck, cfgVal := s.cfgVal }

/-! What an access shows at the port, at its beginning and at its end, is all that these change. -/

@[simp] theorem hostAsked_out (s : State) (wr : Bool) (a d : Nat) : (hostAsked s wr a d).out = s.out := rfl
@[simp] theorem hostAsked_word (s : State) (wr : Bool) (a d b : Nat) : (hostAsked s wr a d).word b = s.word b := rfl
@[simp] theorem hostAsked_ramByte (s : State) (wr : Bool) (a d x : Nat) : (hostAsked s wr a d).ramByte x = s.ramByte x := rfl
@[simp] theorem accEnd_cfg_ramByte (s : State) (w : Word) (st x : Nat) : (s.accEnd .cfg w st).ramByte x = s.ramByte x := rfl
@[simp] theorem accEnd_cfg_out (s : State) (w : Word) (st : Nat) : (s.accEnd .cfg w st).out = s.out ++ [.cfgAck w st] := by
  simp only [State.accEnd, State.drive]
@[simp] theorem accEnd_cfg_cfgAck (s : State) (w : Word) (st : Nat) : (s.accEnd .cfg w st).cfgAck = some (w, st) := rfl
@[simp] theorem accEnd_cfg_word (s : State) (w : Word) (st b : Nat) : (s.accEnd .cfg w st).word b = s.word b := rfl

/-- The effect of an access of the CFG host leads from `s` to `u` and leaves what is driven and the trace as they were; all it has
changed besides the port is registers, memories and pending reports. -/
structure Effect (s u : State) : Prop where
  back : putBack u s = s
  out : u.out = s.out
  trace : u.trace = s.trace

theorem effect_setWord (s : State) (wr : Bool) (a d b : Nat) (w : Word) : Effect s ((hostAsked s wr a d).setWord b w) :=
  ⟨by cases s; rfl, rfl, rfl⟩

theorem effect_report (s : State) (wr : Bool) (a d src st dt : Nat) (h : st = stBADCMD ∨ st = stDENIED) :
    Effect s ((hostAsked s wr a d).report 0 src st dt) := by
  rw [State.report_access _ _ _ _ h]
  exact ⟨by cases s; rfl, rfl, rfl⟩

theorem effect_ramStore (s : State) (wr : Bool) (a d b : Nat) (bytes : List Byte) (bad : List Nat) :
    Effect s ((hostAsked s wr a d).ramStore b bytes bad) := by
  obtain ⟨m, p, h⟩ := State.ramStore_eq (hostAsked s wr a d) b bytes bad
  rw [h]
  exact ⟨by cases s; rfl, rfl, rfl⟩

theorem hostOf_setWord (s : State) (wr : Bool) (a d b st : Nat) (v w : Word) :
    { hostOf (((hostAsked s wr a d).setWord b w).accEnd .cfg v st) s with regs := s.regs } = s := by
  cases s
  rfl

theorem hostOf_report (s : State) (wr : Bool) (a d src st dt st' : Nat) (v : Word) (h : st = stBADCMD ∨ st = stDENIED) :
    { hostOf (((hostAsked s wr a d).report 0 src st dt).accEnd .cfg v st') s with reports := s.reports } = s := by
  rw [State.report_access _ _ _ _ h]
  cases s
  rfl

theorem hostOf_ramStore (s : State) (wr : Bool) (a d b st : Nat) (v : Word) (bytes : List Byte) (bad : List Nat) :
    { hostOf (((hostAsked s wr a d).ramStore b bytes bad).accEnd .cfg v st) s with ram := s.ram, ramBad := s.ramBad } = s := by
  obtain ⟨m, p, h⟩ := State.ramStore_eq (hostAsked s wr a d) b bytes bad
  rw [h]
  cases s
  rfl

/-- An effect that leaves the register of the trace as it was makes no trace record be streamed. -/
theorem Effect.stream_of_word {s u : State} (he : Effect s u) (hq : Quiet s) (hw : u.word 0xC00 = s.word 0xC00) :
    u.trace = [] ∨ u.get 0 F.MIR_CTL_TRMODE ≠ 3 := by
  rw [he.trace, State.get, show u.word (0 + F.MIR_CTL_TRMODE.off) = _ from hw]
  exact hq.stream

/-- Such an effect leaves a quiet state quiet, also once the access has ended. -/
theorem Effect.quiet {s u : State} (he : Effect s u) (hf : CfgFree s) (hq : Quiet s) (w : Word) (st : Nat)
    (hstream : u.trace = [] ∨ u.get 0 F.MIR_CTL_TRMODE ≠ 3) : Quiet (u.accEnd .cfg w st) := by
  have haccs : (u.accEnd .cfg w st).accs = [] := (congrArg State.accs he.back :).trans hf.accs
  rw [← he.back] at hq
  exact ⟨hq.txns, hq.ops, hq.ownAns, hq.reqs, hq.colls, hq.farq, hq.exits, hq.rtx, hq.injecting, hq.smsgs, hq.lazies, hq.traceq,
    hstream, hq.snap, hq.tapw, hq.going, hq.claims, by simp [State.accsDown, haccs], hq.rings⟩

/-- An access of the CFG host to a global register leads to the state in which it has ended. -/
theorem exec_cfgWrite_of_effect {s u : State} {addr : BitVec 28} {data : Word} {st : Nat} (hf : CfgFree s) (hq : Quiet s)
    (hu : (hostAsked s true addr.toNat data.toNat).regAccess .cfg true addr.toNat data.toNat = u.accEnd .cfg 0 st)
    (he : Effect s u) (hstream : u.trace = [] ∨ u.get 0 F.MIR_CTL_TRMODE ≠ 3) :
    exec (.cfgWrite addr data) s = .next (u.accEnd .cfg 0 st) := by
  have hp : (u.accEnd .cfg 0 st).pending = s.pending := (congrArg State.pending he.back :)
  have hb : (u.accEnd .cfg 0 st).build = s.build := (congrArg State.build he.back :)
  have hon : (!(s.boot == 3)) = true := by rw [hf.boot]; rfl
  show act (!(s.boot == 3)) s (fun s => (s.cfgAccess true addr.toNat data.toNat).settle) = _
  rw [hon, act_on, cfgAccess_of_free s _ _ _ hf, hu, settle_of_quiet _ (he.quiet hf hq 0 st hstream), within_self s _ hp hb]

/-- Settles O20: a refused access ends in its record, which is a report without severity. -/
theorem misalignedAndUnmappedAccesses : Obligations.MisalignedAndUnmappedAccesses := by
  unfold Obligations.MisalignedAndUnmappedAccesses
  refine ⟨fun s by' wr a d h => ?_, fun s addr data hf hq h => ?_, fun s src st d hst =>
    ⟨State.report_access_frame s src st d hst, ?_⟩⟩
  · have hc := State.accCheck_of_refused s a h
    have hne := State.ne_ok_of_refusedSt (State.refusedSt_cases a)
    rw [State.access_of_refused s by' wr a d (hc ▸ hne), hc, State.recordAcc_of_ne s by' wr a d _ hne]
  · have hc : (hostAsked s true addr.toNat data.toNat).accCheck addr.toNat = _ := State.accCheck_of_refused s addr.toNat h
    have hst := State.refusedSt_cases addr.toNat
    generalize (if addr.toNat % 4 ≠ 0 then stBADCMD else stDENIED) = st at hc hst ⊢
    have hne := State.ne_ok_of_refusedSt hst
    have hu := State.regAccess_of_refused (hostAsked s true addr.toNat data.toNat) .cfg true addr.toNat data.toNat (hc ▸ hne)
    rw [hc, State.recordAcc_of_ne _ _ _ _ _ _ hne] at hu
    generalize packFields _ = detail at hu
    have he := effect_report s true addr.toNat data.toNat (Asker.by' .cfg).src st detail hst
    have hstream := he.stream_of_word hq (State.word_report_access _ _ st detail 0xC00 hst)
    exact ⟨_, exec_cfgWrite_of_effect hf hq hu he hstream, by rw [accEnd_cfg_out, he.out], accEnd_cfg_cfgAck ..,
      hostOf_report s true addr.toNat data.toNat _ st detail st 0 hst⟩
  · rw [State.report_access s src st d hst]
    unfold State.refusedReports
    split
    · exact length_updFirst ..
    · rfl

/-- Settles O21: both writes are made at once, by `regAccess_plain` and `regAccess_cmem`. -/
theorem plainRegisterAndCommandMemoryWrite : Obligations.PlainRegisterAndCommandMemoryWrite := by
  unfold Obligations.PlainRegisterAndCommandMemoryWrite
  refine ⟨fun s addr data r hf hq hok ha hr hd hl htr => ?_, fun s addr data hf hq hok h0 h1 => ?_⟩
  · have hu := State.regAccess_plain (hostAsked s true addr.toNat data.toNat) addr.toNat data.toNat r ha hd hok hr hl
    rw [hostAsked_word] at hu
    generalize BitVec.ofNat 32 (wordWrite false r.flds (s.word addr.toNat).toNat data.toNat) = w at hu ⊢
    have hword := fun b => State.word_setWord (hostAsked s true addr.toNat data.toNat) addr.toNat b w
    have he := effect_setWord s true addr.toNat data.toNat addr.toNat w
    refine ⟨_, exec_cfgWrite_of_effect hf hq hu he ?_, by simp [hword], fun a hne => by simp [hword, hne],
      by rw [accEnd_cfg_out, he.out], accEnd_cfg_cfgAck .., hostOf_setWord s true addr.toNat data.toNat _ stOK 0 w⟩
    by_cases hC00 : addr.toNat = 0xC00
    · exact .inl (he.trace.trans (htr hC00))
    · exact he.stream_of_word hq ((hword 0xC00).trans (if_neg (Ne.symm hC00)))
  · have hu := State.regAccess_cmem (hostAsked s true addr.toNat data.toNat) addr.toNat data.toNat h0 h1 hok
    have he := effect_ramStore s true addr.toNat data.toNat (addr.toNat - 0x110000) (leBytes data.toNat 4) []
    have hstream := he.stream_of_word hq (State.word_ramStore _ _ 0xC00 _ _)
    refine ⟨_, exec_cfgWrite_of_effect hf hq hu he hstream, fun i hi => ?_, fun x hx => ?_,
      by rw [accEnd_cfg_out, he.out], hostOf_ramStore s true addr.toNat data.toNat _ stOK 0 _ []⟩
    · rw [accEnd_cfg_ramByte, State.ramByte_ramStore, State.ramByte_ramWrite_same _ _ i _ _ (getElem?_leBytes data.toNat 4 i hi)]
    · rw [accEnd_cfg_ramByte, State.ramByte_ramStore, State.ramByte_ramWrite _ _ x _ (by simpa using hx), hostAsked_ramByte]

end Sys2Proof.Safety
end

/-! ### The half-range window, and what reset leaves -/

section
namespace Sys2Proof.Safety
open Sys2Proof.Machine

/-- The difference of two numbers modulo a power of two, as R42 takes it. -/
theorem subMod_eq_emod (w a b : Nat) : ((subMod w a b : Nat) : Int) = ((a : Int) - b) % 2 ^ w := by
  have hle : b % 2 ^ w ≤ 2 ^ w := (Nat.mod_lt b (Nat.two_pow_pos w)).le
  rw [subMod]
  push_cast [hle]
  rw [show (a : Int) % 2 ^ w + (2 ^ w - b % 2 ^ w) = a % 2 ^ w - b % 2 ^ w + 2 ^ w by ring, Int.add_emod_right, ← Int.sub_emod]

/-- Settles O16: the difference modulo 2^w is the one that R42 compares. -/
theorem liesAfterIsTheHalfRangeWindow : Obligations.LiesAfterIsTheHalfRangeWindow := by
  unfold Obligations.LiesAfterIsTheHalfRangeWindow
  intro w a b _
  have hpos : 1 ≤ 2 ^ (w - 1) := Nat.two_pow_pos (w - 1)
  rw [liesAfter, Bool.and_eq_true, decide_eq_true_iff, decide_eq_true_iff, ← subMod_eq_emod]
  zify [hpos]

/-- No bit of zero is set. -/
theorem bitAt_zero (i : Nat) : bitAt 0 i = false := by simp [bitAt]

/-- The DOM_STAT words of the reference build leave every domain Dark at reset but the configuration/Headstock domain (R420). -/
theorem reset_dom_dark : ∀ d, d < State.reset.build.cfgDom → State.reset.dom d = 0 := by decide +kernel

/-- Settles O3: each value is read from the reset state, and the domains by `reset_dom_dark`. -/
theorem resetLeavesTheSpecsValues : Obligations.ResetLeavesTheSpecsValues := by
  unfold Obligations.ResetLeavesTheSpecsValues
  have hIrq : State.reset.get 0 F.HDS_IRQ_RING = 0 := rfl
  refine ⟨rfl, rfl, rfl, rfl, rfl, rfl, rfl, fun _ _ => bitAt_zero 50, rfl, rfl, rfl, fun d hd => ⟨reset_dom_dark d hd, rfl, rfl⟩, rfl,
    rfl, rfl, rfl, fun r => ?_, rfl, rfl, rfl, rfl⟩
  rw [State.irqHds, hIrq, bitAt_zero, Bool.and_false]
end Sys2Proof.Safety
end

/-! ### Fields of a register word: what a field holds once it or another has been set -/

section
namespace Sys2Proof.Machine

theorem testBit_bitsOf (x lo w i : Nat) : (bitsOf x lo w).testBit i = (decide (i < w) && x.testBit (lo + i)) := by
  rw [bitsOf, Nat.testBit_mod_two_pow, Nat.testBit_div_two_pow, Nat.add_comm]

/-- What is above the field, the field's new bits and what is below it. -/
theorem putBits_eq (x lo w v : Nat) :
    putBits x lo w v = 2 ^ lo * (2 ^ w * (x / 2 ^ lo / 2 ^ w) + v % 2 ^ w) + x % 2 ^ lo := by
  have h : 2 ^ lo * (2 ^ w * (x / 2 ^ lo / 2 ^ w) + bitsOf x lo w) + x % 2 ^ lo = x := by
    rw [bitsOf, Nat.div_add_mod, Nat.div_add_mod]
  rw [mul_add] at h
  rw [putBits, mul_add, mul_comm _ (2 ^ lo), mul_comm _ (2 ^ lo)]
  omega

theorem testBit_putBits (x lo w v i : Nat) :
    (putBits x lo w v).testBit i = if lo ≤ i ∧ i < lo + w then v.testBit (i - lo) else x.testBit i := by
  rw [putBits_eq, Nat.testBit_two_pow_mul_add _ (Nat.mod_lt _ (Nat.two_pow_pos lo)),
    Nat.testBit_two_pow_mul_add _ (Nat.mod_lt _ (Nat.two_pow_pos w))]
  by_cases hlo : i < lo
  · rw [if_pos hlo, if_neg (by omega), Nat.testBit_mod_two_pow, decide_eq_true hlo, Bool.true_and]
  · rw [if_neg hlo]
    by_cases hw : i - lo < w
    · rw [if_pos hw, if_pos (by omega), Nat.testBit_mod_two_pow, decide_eq_true hw, Bool.true_and]
    · rw [if_neg hw, if_neg (by omega), Nat.testBit_div_two_pow, Nat.testBit_div_two_pow]
      congr 1
      omega

/-- A field of 32 bits holds what has been put there. -/
theorem wordField_setWordField_same (x : Word) (lo w v : Nat) (h : lo + w ≤ 32) :
    wordField (setWordField x lo w v) lo w = v % 2 ^ w := by
  refine Nat.eq_of_testBit_eq fun i => ?_
  rw [wordField, setWordField, testBit_bitsOf, BitVec.toNat_ofNat, Nat.testBit_mod_two_pow, testBit_putBits,
    Nat.testBit_mod_two_pow, Nat.add_sub_cancel_left]
  by_cases hi : i < w
  · rw [if_pos (by omega), decide_eq_true (show lo + i < 32 by omega), Bool.true_and]
  · simp [hi]

/-- A field apart from the one put there stays. -/
theorem wordField_setWordField_apart (x : Word) (lo w v lo' w' : Nat) (h : lo' + w' ≤ lo ∨ lo + w ≤ lo') :
    wordField (setWordField x lo w v) lo' w' = wordField x lo' w' := by
  refine Nat.eq_of_testBit_eq fun i => ?_
  rw [wordField, wordField, setWordField, testBit_bitsOf, testBit_bitsOf, BitVec.toNat_ofNat, Nat.testBit_mod_two_pow, testBit_putBits]
  by_cases hi : i < w'
  · rw [if_neg (by omega)]
    by_cases h32 : lo' + i < 32
    · rw [decide_eq_true h32, Bool.true_and]
    · rw [decide_eq_false h32, Bool.false_and, Nat.testBit_eq_false_of_lt]
      exact x.isLt.trans_le (Nat.pow_le_pow_right (by decide) (by omega))
  · simp [hi]

/-- Two fields at one base address do not share a bit. -/
def Fld.apart (f g : Fld) : Bool := f.off != g.off || g.lo + g.w ≤ f.lo || f.lo + f.w ≤ g.lo

namespace State

theorem get_set_same (s : State) (b v : Nat) (f : Fld) (h : f.lo + f.w ≤ 32) : (s.set b f v).get b f = v % 2 ^ f.w := by
  rw [get, set, word_setWord, if_pos rfl, wordField_setWordField_same _ _ _ _ h]

theorem get_set_apart (s : State) (b v : Nat) (f g : Fld) (h : f.apart g = true) : (s.set b f v).get b g = s.get b g := by
  simp only [Fld.apart, Bool.or_eq_true, bne_iff_ne, decide_eq_true_eq, or_assoc] at h
  by_cases hoff : f.off = g.off
  · rw [get, set, ← hoff, word_setWord, if_pos rfl, wordField_setWordField_apart _ _ _ _ _ _ (h.resolve_left (not_not_intro hoff)), get,
      hoff]
  · rw [get, word_set _ _ _ _ _ (by omega), get]

end State
end Sys2Proof.Machine
end

/-! ### Events of the Spindle: what they can change, and what follows from them -/

section
namespace Sys2Proof.Safety
open Sys2Proof.Machine

/-! ### What an event of the Spindle can change -/

/-- `t` with all that an event of the Spindle can change put back as in `s`. -/
def spindleBack (t s : State) : State :=
  { t with
    cyc := s.cyc, tmo := s.tmo, sub := s.sub, buckets := s.buckets, spn := s.spn, regs := s.regs, reports := s.reports
    lathe := s.lathe, links := s.links, trackers := s.trackers, pendTurn := s.pendTurn, paceEdge := s.paceEdge
    snapTlm := s.snapTlm, snapDepth := s.snapDepth, snapDue := s.snapDue }

/-- An event of the Spindle leads from `s` to `t`: of the global registers it changes at most the fields `fs`, and it sets no reserved
flit of a launch window on its way. -/
structure SpindleStep (fs : List Fld) (s t : State) : Prop where
  back : spindleBack t s = s
  get : ∀ g : Fld, (∀ f ∈ fs, f.apart g = true) → t.get 0 g = s.get 0 g
  going : s.lathe.going = [] → t.lathe.going = []

namespace SpindleStep
variable {fs gs : List Fld} {s t u : State}

theorem refl (s : State) : SpindleStep fs s s := ⟨rfl, fun _ _ => rfl, id⟩

theorem trans (h : SpindleStep fs s t) (h' : SpindleStep fs t u) : SpindleStep fs s u :=
  ⟨(congrArg (spindleBack · s) h'.back :).trans h.back, fun g hg => (h'.get g hg).trans (h.get g hg), h'.going ∘ h.going⟩

theorem mono (h : SpindleStep fs s t) (hfs : ∀ f ∈ fs, f ∈ gs) : SpindleStep gs s t :=
  ⟨h.back, fun g hg => h.get g fun f hf => hg f (hfs f hf), h.going⟩

/-- A register word of which no field may change stays. -/
theorem word (h : SpindleStep fs s t) (a : Nat) (ha : ∀ f ∈ fs, f.off ≠ a) : t.word a = s.word a := by
  have hw : ∀ r : State, r.get 0 ⟨a, 0, 32⟩ = (r.word a).toNat := fun r => by
    rw [State.get, wordField, bitsOf, Nat.zero_add, pow_zero, Nat.div_one, Nat.mod_eq_of_lt (r.word a).isLt]
  refine BitVec.eq_of_toNat_eq ?_
  rw [← hw, ← hw]
  exact h.get ⟨a, 0, 32⟩ fun f hf => by simp [Fld.apart, ha f hf]

theorem flag (h : SpindleStep fs s t) (g : Fld) (hg : ∀ f ∈ fs, f.apart g = true) : t.flag 0 g = s.flag 0 g := by
  rw [State.flag, h.get g hg, State.flag]

/-! Each step from `s` may be followed by one of these. -/

theorem spn (h : SpindleStep fs s t) (x : Spindle) : SpindleStep fs s { t with spn := x } :=
  h.trans ⟨rfl, fun _ _ => rfl, id⟩

theorem set (h : SpindleStep fs s t) {f : Fld} (hf : f ∈ fs) (v : Nat) : SpindleStep fs s (t.set 0 f v) :=
  h.trans ⟨rfl, fun g hg => State.get_set_apart t 0 v f g (hg f hf), id⟩

theorem bump (h : SpindleStep fs s t) {f : Fld} (hf : f ∈ fs) (n : Nat) : SpindleStep fs s (t.bump 0 f n) := h.set hf _

end SpindleStep

/-- The fields that a report can change (R432). -/
def reportFlds : List Fld := [F.ERR_CE_CNT_COUNT, F.ERR_UCE_CNT_COUNT, F.ERR_FATAL_CNT_COUNT, F.ERR_STAT_FATAL]

theorem countSeverity_step (s : State) (v n : Nat) : SpindleStep reportFlds s (s.countSeverity v n) := by
  unfold State.countSeverity
  split
  · exact (SpindleStep.refl s).bump (by decide) n
  · split
    · exact (SpindleStep.refl s).bump (by decide) n
    · split
      · exact ((SpindleStep.refl s).bump (by decide) n).set (by decide) 1
      · exact .refl s

theorem report_step (s : State) (c src st d : Nat) : SpindleStep reportFlds s (s.report c src st d) := by
  have h := countSeverity_step s (State.severity c st d) 1
  unfold State.report
  dsimp only
  split
  · exact h.trans ⟨rfl, fun _ _ => rfl, id⟩
  · exact h.trans ⟨rfl, fun _ _ => rfl, id⟩

theorem errBit_step (s : State) (c src st o : Nat) (f : Fld) : SpindleStep (f :: reportFlds) s (s.errBit 0 f c src st o) :=
  ((SpindleStep.refl s).set (.head _) 1).trans ((report_step _ c src st _).mono fun _ => .tail _)

theorem passCyc_step (s : State) (c : Nat) : SpindleStep [] s (s.passCyc c) := by
  obtain ⟨_, _, _, _, _, _, _, _, h⟩ := State.passCyc_eq s c
  rw [h]
  exact ⟨rfl, fun _ _ => rfl, id⟩

end Sys2Proof.Safety

namespace Sys2Proof.Safety
open Sys2Proof.Machine

/-! ### Settling where nothing goes on but accesses whose way is closed -/

/-- `u` differs from `t` by accesses that have ended: what they record, and what they show at the CFG port. -/
structure AccessesEnded (t u : State) : Prop where
  back : { u with regs := t.regs, reports := t.reports, accs := t.accs, out := t.out, cfgAck := t.cfgAck } = t
  get : ∀ g : Fld, (∀ f ∈ reportFlds, f.apart g = true) → u.get 0 g = t.get 0 g

namespace AccessesEnded
variable {t u v : State}

theorem refl (t : State) : AccessesEnded t t := ⟨rfl, fun _ _ => rfl⟩

theorem trans (h : AccessesEnded t u) (h' : AccessesEnded u v) : AccessesEnded t v :=
  ⟨(congrArg (fun r : State => { r with regs := t.regs, reports := t.reports, accs := t.accs, out := t.out, cfgAck := t.cfgAck })
    h'.back :).trans h.back, fun g hg => (h'.get g hg).trans (h.get g hg)⟩

end AccessesEnded

/-- Without a command nothing is there to complete. -/
theorem finishCmd_of_no_rings (s : State) (r i st x : Nat) (h : s.rings = []) : s.finishCmd r i st x = s := by
  have hc : s.cmds r = [] := by simp [State.cmds, h, mapGet]
  have hr : mapSet s.rings [] r ([] : List Cmd) = s.rings := by simp [h, mapSet, mapDel]
  simp [State.finishCmd, State.cmdAt, hc, State.updCmd, updFirst, State.setCmds, hr]

theorem report_ended (t : State) (c src st d : Nat) : AccessesEnded t (t.report c src st d) := by
  obtain ⟨r, l, h⟩ := State.report_eq t c src st d
  exact ⟨by rw [h], (report_step t c src st d).get⟩

theorem accEnd_ended (t : State) (k : Asker) (w : Word) (st : Nat) (hr : t.rings = []) : AccessesEnded t (t.accEnd k w st) := by
  cases k with
  | cfg => exact ⟨rfl, fun _ _ => rfl⟩
  | cmd r i =>
    rw [State.accEnd, finishCmd_of_no_rings t r i st _ hr]
    exact .refl t

theorem closeDown_ended (t : State) (hr : t.rings = []) : AccessesEnded t t.closeDown := by
  rw [State.closeDown]
  refine List.foldlRecOn (motive := AccessesEnded t) _ _ (.refl t) fun u hu x _ => hu.trans ?_
  have hur : u.rings = [] := (congrArg State.rings hu.back :).trans hr
  have hrec : AccessesEnded u (u.recordAcc x.asker.by' x.write x.addr x.data stDOMAIN_OFF) := by
    rw [State.recordAcc_of_ne _ _ _ _ _ _ (by decide)]
    exact report_ended u 0 _ _ _
  refine hrec.trans ?_
  generalize u.recordAcc x.asker.by' x.write x.addr x.data stDOMAIN_OFF = v at hrec
  have hv : AccessesEnded v { v with accs := delFirst (fun (y : CfgAcc) => y.id == x.id) v.accs } := ⟨rfl, fun _ _ => rfl⟩
  exact hv.trans (accEnd_ended _ _ _ _ ((congrArg State.rings hrec.back :).trans hur))

/-- With no access under way none ends. -/
theorem closeDown_of_no_accs (t : State) (h : t.accs = []) : t.closeDown = t := by simp [State.closeDown, State.accsDown, h]

/-- Nothing but accesses is under way that would go on by itself. -/
structure Still (s : State) : Prop where
  txns : s.txns = []
  ops : s.ops = []
  ownAns : s.ownAns = []
  reqs : s.reqs = []
  colls : s.colls = []
  farq : s.farq = []
  exits : s.exits = []
  rtx : s.rtx = []
  injecting : s.injecting = []
  smsgs : s.smsgs = []
  lazies : s.lazies = []
  traceq : s.traceq = []
  stream : s.trace = [] ∨ s.get 0 F.MIR_CTL_TRMODE ≠ 3
  tapw : s.tapw = []
  going : s.lathe.going = []
  rings : s.rings = []

theorem Still.settleOne {s : State} (h : Still s) : s.settleOne = none := by
  simp [State.settleOne, State.nextTxn, h.txns, h.ops, h.ownAns, h.reqs]

theorem Still.traceGo {s : State} (h : Still s) : s.traceGo = s := by
  unfold State.traceGo
  rw [h.traceq]
  obtain ht | hm := h.stream
  · simp [ht]
  · have hrun : s.streamRun (4095 + 1) = s := by unfold State.streamRun; split <;> simp [hm]
    simp [hrun]

theorem Still.lookAgain {s : State} (h : Still s) : s.lookAgain = s.closeDown := by
  have htap : s.tapDrain = s := by simp [State.tapDrain, h.tapw]
  have hlath : s.lathDrain = s := by simp [State.lathDrain, State.lathGoTill, h.going]
  have hrings : s.closeDown.rings = [] := (congrArg State.rings (closeDown_ended s h.rings).back :).trans h.rings
  simp [State.lookAgain, h.colls, h.smsgs, h.lazies, h.farq, h.exits, h.rtx, h.injecting, h.traceGo, htap, hlath, hrings]

theorem Still.of_ended {s u : State} (h : Still s) (he : AccessesEnded s u) : Still u := by
  have h' : Still { u with regs := s.regs, reports := s.reports, accs := s.accs, out := s.out, cfgAck := s.cfgAck } := he.back.symm ▸ h
  have htrace : u.trace = s.trace := (congrArg State.trace he.back :)
  exact { h' with stream := by rw [htrace, he.get _ (by decide)]; exact h.stream }

/-- Where nothing but accesses is under way, settling ends those whose way is closed. -/
theorem Still.settle {s : State} (h : Still s) (hs : s.stopped = false) : s.settle = s.closeDown := by
  have hone : s.closeDown.settleOne = none := (h.of_ended (closeDown_ended s h.rings)).settleOne
  rw [State.settle, hs]
  show s.settleLoop (4095 + 1) = s.closeDown
  simp [State.settleLoop, h.settleOne, h.lookAgain, hone]

/-- A quiet state is still. -/
theorem Still.of_quiet {s : State} (h : Quiet s) : Still s := { h with }

/-- An event of the Spindle that leaves the trace's mode leaves a still state still. -/
theorem Still.of_step {fs : List Fld} {s t : State} (h : Still s) (hst : SpindleStep fs s t)
    (hfs : ∀ f ∈ fs, f.apart F.MIR_CTL_TRMODE = true) : Still t := by
  have h' : Still (spindleBack t s) := hst.back.symm ▸ h
  have htrace : t.trace = s.trace := (congrArg State.trace hst.back :)
  exact { h' with
    stream := by rw [htrace, hst.get _ hfs]; exact h.stream
    going := hst.going h.going }

end Sys2Proof.Safety

namespace Sys2Proof.Safety
open Sys2Proof.Machine

/-! ### The parts of a Spindle event -/

/-- No command waits for a snapshot where no command is fetched. -/
theorem snapCmds_of_no_rings (s : State) (h : s.rings = []) : s.snapCmds = s := by simp [State.snapCmds, h]

theorem cancelSwaps_of_no_rings (s : State) (c : Nat) (h : s.rings = []) : s.cancelSwaps c = s := by simp [State.cancelSwaps, h]

theorem lathGoTill_of_no_going (s : State) (c : Nat) (h : s.lathe.going = []) : s.lathGoTill c = s := by
  simp [State.lathGoTill, h]

theorem firstAttempts_of_no_claims (s : State) (h : s.freshClaims = []) : s.firstAttempts = s := by
  simp [State.firstAttempts, h]

/-- The fields in which the Lathe plane shows whether it is held. -/
def latheFlds : List Fld := [F.SPN_STAT_LATHE_SUSP, F.LTH_STAT_STATE]

theorem lathe_step {fs : List Fld} (s : State) (l : Lathe) (h : s.lathe.going = [] → l.going = []) :
    SpindleStep fs s { s with lathe := l } := ⟨rfl, fun _ _ => rfl, h⟩

/-- In a state without launch windows in progress, noting the plane's state sets the two fields that show it, and notes when a suspension
begins. -/
theorem noteLathe_eq (s : State) (hg : s.lathe.going = []) : ∃ l : Lathe, l.going = [] ∧
    s.noteLathe = State.set { s.set 0 F.SPN_STAT_LATHE_SUSP (bit s.latheHeld) with lathe := l } 0 F.LTH_STAT_STATE
      (if !s.lathe.active then 0 else if s.latheHeld then 2 else 1) := by
  unfold State.noteLathe
  dsimp only
  split
  · rw [lathGoTill_of_no_going _ _ (by exact hg)]
    exact ⟨_, rfl, rfl⟩
  · exact ⟨s.lathe, hg, rfl⟩

theorem noteLathe_step (s : State) (hg : s.lathe.going = []) : SpindleStep latheFlds s s.noteLathe := by
  obtain ⟨l, hl, h⟩ := noteLathe_eq s hg
  rw [h]
  refine SpindleStep.set (SpindleStep.trans ?_ (lathe_step _ l fun _ => hl)) (by decide) _
  exact (SpindleStep.refl s).set (by decide) _

@[simp] theorem noteLathe_spn (s : State) (hg : s.lathe.going = []) : s.noteLathe.spn = s.spn := by
  obtain ⟨l, -, h⟩ := noteLathe_eq s hg
  rw [h]
  rfl

theorem noteLathe_tmo (s : State) (hg : s.lathe.going = []) : s.noteLathe.tmo = s.tmo := by
  obtain ⟨l, -, h⟩ := noteLathe_eq s hg
  rw [h]
  rfl

/-- SPN_STAT.LATHE_SUSP shows whether the plane is held. -/
theorem noteLathe_susp (s : State) (hg : s.lathe.going = []) : s.noteLathe.get 0 F.SPN_STAT_LATHE_SUSP = bit s.latheHeld := by
  obtain ⟨l, -, h⟩ := noteLathe_eq s hg
  rw [h, State.get_set_apart _ _ _ _ _ (by decide)]
  refine (State.get_set_same s 0 _ _ (by decide)).trans ?_
  cases s.latheHeld <;> rfl

/-- A plane that is held is not active. -/
theorem noteLathe_not_active (s : State) (hg : s.lathe.going = []) (hheld : s.latheHeld = true) : s.noteLathe.latheActive = false := by
  obtain ⟨l, -, h⟩ := noteLathe_eq s hg
  have hst : s.noteLathe.get 0 F.LTH_STAT_STATE ≠ 1 := by
    rw [h, State.get_set_same _ _ _ _ (by decide), hheld]
    cases s.lathe.active <;> decide
  simp [State.latheActive, hst]

theorem planSt_step (s : State) (st : Nat) : SpindleStep [F.LTH_STAT_PSTAT] s (s.planSt st) := by
  unfold State.planSt
  split
  · exact (SpindleStep.refl s).set (by decide) st
  · exact .refl s

theorem lathTurn_step (s : State) (c : Nat) : SpindleStep [F.LTH_STAT_PSTAT] s (s.lathTurn c) := by
  unfold State.lathTurn
  extract_lets l t ended
  have h0 : SpindleStep [F.LTH_STAT_PSTAT] s t := lathe_step s _ id
  split
  · exact h0
  · split
    · refine SpindleStep.trans ?_ (planSt_step _ _)
      exact h0.trans (lathe_step t _ id)
    · split
      · exact h0.trans (lathe_step t _ id)
      · exact h0

theorem paceTurn_step (s : State) : SpindleStep [F.ERR_STAT_HELD, F.ERR_STAT_PEND] s s.paceTurn := by
  have h : SpindleStep [F.ERR_STAT_HELD, F.ERR_STAT_PEND] s { s with pendTurn := s.flag 0 F.ERR_STAT_HELD, paceEdge := s.cyc } :=
    ⟨rfl, fun _ _ => rfl, id⟩
  unfold State.paceTurn
  dsimp only
  split
  · exact (h.set (by decide) 0).set (by decide) 1
  · exact h

theorem trackersTurn_step (s : State) : SpindleStep [] s s.trackersTurn := ⟨rfl, fun _ _ => rfl, id⟩

theorem oweBeacons_step (s : State) : SpindleStep [] s s.oweBeacons := ⟨rfl, fun _ _ => rfl, id⟩

theorem snapshot_step (s : State) : SpindleStep [F.MIR_SNAP_STAT_TURN] s s.snapshot := by
  unfold State.snapshot
  refine SpindleStep.set ?_ (by decide) _
  exact ⟨rfl, fun _ _ => rfl, id⟩

theorem turnSnap_step (s : State) : SpindleStep [F.MIR_SNAP_STAT_TURN] s s.turnSnap := by
  unfold State.turnSnap
  dsimp only
  split
  · exact snapshot_step s
  · exact .refl s

theorem jumpSnap_step (s : State) (a b : Nat) : SpindleStep [F.MIR_SNAP_STAT_TURN] s (s.jumpSnap a b) := by
  unfold State.jumpSnap
  dsimp only
  split
  · exact snapshot_step s
  · exact .refl s

theorem countSkips_step (s : State) (a b : Nat) : SpindleStep [F.MIR_SNAP_SKIP_SKIPPED] s (s.countSkips a b) := by
  unfold State.countSkips
  dsimp only
  split
  · exact .refl s
  · exact (SpindleStep.refl s).bump (by decide) _

theorem spnEvt_step (s : State) (f : Fld) : SpindleStep (f :: reportFlds) s (s.spnEvt f) := errBit_step s ..

theorem spnInfo_step (s : State) (f : Fld) : SpindleStep (f :: reportFlds) s (s.spnInfo f) := errBit_step s ..

/-- The fields that a change of the turn count's era can change (R44). -/
def eraFlds : List Fld := F.SPN_TURN_ERA_ERA :: F.SPN_EVT_WRAP :: reportFlds

theorem eraStep_step (s : State) (a b : Nat) : SpindleStep eraFlds s (s.eraStep a b) := by
  have h : ∀ v, SpindleStep eraFlds s ((s.set 0 F.SPN_TURN_ERA_ERA v).spnInfo F.SPN_EVT_WRAP) := fun v =>
    ((SpindleStep.refl s).set (.head _) v).trans ((spnInfo_step _ _).mono fun _ => .tail _)
  unfold State.eraStep
  dsimp only
  split
  · exact h _
  · split
    · exact h _
    · exact .refl s

/-- The fields that roles taking effect can change (R56, R466). -/
def roleFlds : List Fld := [F.SPN_STAT_SOURCE, F.SPN_STAT_STRATUM, F.SPN_OFFSET_EST]

theorem takeRoles_step (s : State) : SpindleStep roleFlds s s.takeRoles := by
  unfold State.takeRoles
  extract_lets rp rp2 sp t u v
  have ht : SpindleStep roleFlds s t := by
    dsimp only [t]
    split
    · exact (SpindleStep.refl s).set (by decide) _
    · exact .refl s
  have hu : SpindleStep roleFlds s u := ht.spn _
  have hv : SpindleStep roleFlds s v := by
    dsimp only [v]
    split
    · exact hu.set (by decide) _
    · split
      · exact hu.set (by decide) _
      · exact hu
  split
  · exact hv.set (by decide) _
  · exact hv

/-- The fields that the events of a turn edge can change. -/
def turnFlds : List Fld := [F.LTH_STAT_PSTAT, F.ERR_STAT_HELD, F.ERR_STAT_PEND, F.MIR_SNAP_STAT_TURN, F.SPN_STAT_LATHE_SUSP, F.LTH_STAT_STATE]

/-- What a turn edge brings about before the holds of the Lathe plane are looked at. -/
theorem turnParts_step (s : State) (c : Nat) :
    SpindleStep turnFlds s (s.lathTurn c).paceTurn.trackersTurn.oweBeacons.turnSnap := by
  have h1 := (lathTurn_step s c).mono (gs := turnFlds) (by decide)
  have h2 := h1.trans ((paceTurn_step _).mono (by decide))
  have h3 := h2.trans ((trackersTurn_step _).mono (by decide))
  have h4 := h3.trans ((oweBeacons_step _).mono (by decide))
  exact h4.trans ((turnSnap_step _).mono (by decide))

theorem turnEvents_step (s : State) (hg : s.lathe.going = []) : SpindleStep turnFlds s s.turnEvents := by
  have h := turnParts_step s s.spn.turn
  unfold State.turnEvents
  rw [State.lathDrain, lathGoTill_of_no_going s _ hg]
  exact (h.spn _).trans ((noteLathe_step _ ((h.spn _).going hg)).mono (by decide))

end Sys2Proof.Safety

namespace Sys2Proof.Machine.State

/-! ### What leaves Spindle time as it is -/

@[simp] theorem bump_spn (s : State) (b n : Nat) (f : Fld) : (s.bump b f n).spn = s.spn := rfl

@[simp] theorem report_spn (s : State) (c src st d : Nat) : (s.report c src st d).spn = s.spn := by
  obtain ⟨_, _, h⟩ := report_eq s c src st d
  rw [h]

@[simp] theorem errBit_spn (s : State) (b c src st o : Nat) (f : Fld) : (s.errBit b f c src st o).spn = s.spn := report_spn ..

@[simp] theorem spnEvt_spn (s : State) (f : Fld) : (s.spnEvt f).spn = s.spn := errBit_spn ..

@[simp] theorem spnInfo_spn (s : State) (f : Fld) : (s.spnInfo f).spn = s.spn := errBit_spn ..

@[simp] theorem eraStep_spn (s : State) (a b : Nat) : (s.eraStep a b).spn = s.spn := by
  unfold eraStep
  dsimp only
  split
  · simp
  · split <;> simp

@[simp] theorem planSt_spn (s : State) (st : Nat) : (s.planSt st).spn = s.spn := by
  unfold planSt
  split <;> simp

@[simp] theorem lathTurn_spn (s : State) (c : Nat) : (s.lathTurn c).spn = s.spn := by
  unfold lathTurn
  extract_lets l t ended
  have ht : t.spn = s.spn := rfl
  split
  · exact ht
  · split
    · exact (planSt_spn _ _).trans ht
    · split <;> exact ht

@[simp] theorem paceTurn_spn (s : State) : s.paceTurn.spn = s.spn := by
  unfold paceTurn
  dsimp only
  split <;> simp

@[simp] theorem trackersTurn_spn (s : State) : s.trackersTurn.spn = s.spn := rfl

@[simp] theorem oweBeacons_spn (s : State) : s.oweBeacons.spn = s.spn := rfl

@[simp] theorem snapshot_spn (s : State) : s.snapshot.spn = s.spn := rfl

@[simp] theorem turnSnap_spn (s : State) : s.turnSnap.spn = s.spn := by
  unfold turnSnap
  dsimp only
  split <;> simp

@[simp] theorem jumpSnap_spn (s : State) (a b : Nat) : (s.jumpSnap a b).spn = s.spn := by
  unfold jumpSnap
  dsimp only
  split <;> simp

@[simp] theorem countSkips_spn (s : State) (a b : Nat) : (s.countSkips a b).spn = s.spn := by
  unfold countSkips
  dsimp only
  split <;> simp

end Sys2Proof.Machine.State

namespace Sys2Proof.Safety
open Sys2Proof.Machine

/-- The turn edge's events move nothing of Spindle time but the turns that a stall hold still lasts. -/
theorem turnEvents_spn (s : State) (hg : s.lathe.going = []) : ∃ n, s.turnEvents.spn = { s.spn with resumeIn := n } := by
  unfold State.turnEvents
  rw [State.lathDrain, lathGoTill_of_no_going s _ hg]
  extract_lets t x u
  have ht : t.spn = s.spn := by simp [t]
  have hu : u.spn = { s.spn with resumeIn := t.spn.resumeIn.map (· - 1) } := by rw [← ht]
  exact ⟨_, (noteLathe_spn u ((turnParts_step s s.spn.turn).going hg)).trans hu⟩

end Sys2Proof.Safety
end

/-! ### The rows of the Spindle -/

section
namespace Sys2Proof.Safety
open Sys2Proof.Machine

/-! ### Rows of the Spindle -/

/-- A row of a unit of the configuration domain whose effect is an event of the Spindle: what follows from it is that accesses end
whose way is closed. -/
theorem atUnitOfCfg_of_step {fs : List Fld} (s : State) (f : State → State) (hs : s.stopped = false) (hq : Quiet s)
    (h : SpindleStep fs s (f s)) (hfs : ∀ g ∈ fs, g.apart F.MIR_CTL_TRMODE = true) :
    atUnitOfCfg s f = .next (f s).closeDown ∧ AccessesEnded (f s) (f s).closeDown := by
  have hstill := (Still.of_quiet hq).of_step h hfs
  have hended := closeDown_ended _ hstill.rings
  have hstop : (f s).stopped = false := (congrArg State.stopped h.back :).trans hs
  have hpending : (f s).closeDown.pending = s.pending := (congrArg State.pending hended.back :).trans (congrArg State.pending h.back :)
  have hbuild : (f s).closeDown.build = s.build := (congrArg State.build hended.back :).trans (congrArg State.build h.back :)
  refine ⟨?_, hended⟩
  rw [atUnitOfCfg, hs]
  show act true s _ = _
  rw [act_on, hstill.settle hstop, within_self _ _ hpending hbuild]

/-- Where the event changes no register, no access ends. -/
theorem atUnitOfCfg_of_clocks (s : State) (f : State → State) (hs : s.stopped = false) (hq : Quiet s) (y m n : Nat)
    (b : List (Nat × Bucket)) (x : Spindle) (h : f s = { s with cyc := y, tmo := m, sub := n, buckets := b, spn := x }) :
    atUnitOfCfg s f = .next { s with cyc := y, tmo := m, sub := n, buckets := b, spn := x } := by
  have hstep : SpindleStep [] s (f s) := h ▸ ⟨rfl, fun _ _ => rfl, id⟩
  have hdown : (f s).accsDown = [] := by rw [h]; exact hq.down
  rw [(atUnitOfCfg_of_step s f hs hq hstep (by simp)).1, State.closeDown, hdown, List.foldl_nil, h]

/-- Cycles that pass in RUN, with no snapshot copy outstanding, move the cycle count, the phase and the token buckets alone. -/
theorem passCyc_running (s : State) (c : Nat) (hrun : s.running = true) (hdue : s.snapDue = none) :
    ∃ y b p, s.passCyc c = { s with cyc := y, sub := 0, buckets := b, spn := { s.spn with phase := p } } := by
  have he : s.snapEast c = s := by simp [State.snapEast, hdue]
  unfold State.passCyc
  rw [he]
  exact ⟨_, _, _, if_pos hrun⟩

theorem atEdge_of_quiet (s : State) (e : Nat) (hrun : s.running = true) (hdue : s.snapDue = none) (hclaims : s.freshClaims = []) :
    ∃ y b x, s.atEdge e = { s with cyc := y, sub := 0, buckets := b, spn := x } ∧ x.turn = s.spn.turn ∧ x.notch = s.spn.notch := by
  obtain ⟨y, b, p, h⟩ := passCyc_running s e hrun hdue
  unfold State.atEdge
  rw [firstAttempts_of_no_claims s hclaims]
  dsimp only
  rw [h]
  exact ⟨_, _, _, rfl, rfl, rfl⟩

theorem nextNotch_of_quiet (s : State) (e : Nat) (hrun : s.running = true) (hdue : s.snapDue = none) (hclaims : s.freshClaims = [])
    (hr : s.rings = []) : ∃ y b x, s.nextNotch e = { s with cyc := y, tmo := s.tmo + 1, sub := 0, buckets := b, spn := x } ∧
      x.turn = s.spn.turn ∧ x.notch = s.spn.notch + 1 := by
  obtain ⟨y, b, x, h, ht, hn⟩ := atEdge_of_quiet s e hrun hdue hclaims
  unfold State.nextNotch
  rw [h]
  dsimp only
  rw [snapCmds_of_no_rings _ (by exact hr)]
  exact ⟨_, _, _, rfl, ht, congrArg (· + 1) hn⟩

theorem running_of_spnState (s : State) (h : s.spnState = 2) : s.running = true := by
  rw [State.running, ← State.spnState, h]
  rfl

/-- The row that makes the next notch: SYNTH_NOTCH in beacon mode, NOTCH_EDGE in SPX mode. -/
theorem notchRow_eq (s : State) (hen : s.spnEn = true) (hst : s.spnState = 2) (hn : s.spn.notch < 2047) :
    ∃ x e, (if s.beaconMode then s.synthNotch else s.notchEdge) = State.nextNotch { s with spn := x } e ∧
      x.turn = s.spn.turn ∧ x.notch = s.spn.notch := by
  have hne : (s.spn.notch == 2047) = false := beq_false_of_ne (by omega)
  cases hb : s.beaconMode
  · exact ⟨{ s.spn with sampleNotches := s.spn.sampleNotches + 1 }, s.outsideEdge, by simp [State.notchEdge, hb, hen, hst, hne], rfl, rfl⟩
  · exact ⟨s.spn, s.spn.edge + s.notchLen, by simp [State.synthNotch, hb, hen, hst, hne], rfl, rfl⟩

/-- Settles O23: the row makes the next notch, and passing cycles moves only clocks and token buckets. -/
theorem notchMovesSpindleTime : Obligations.NotchMovesSpindleTime := by
  unfold Obligations.NotchMovesSpindleTime
  refine ⟨fun s hs hq hen hst hn => ?_, fun s hs hq hen => ?_⟩
  · obtain ⟨x, e, hrow, hxt, hxn⟩ := notchRow_eq s hen hst hn
    obtain ⟨y, b, x', hnext, ht, hn'⟩ := nextNotch_of_quiet { s with spn := x } e (running_of_spnState s hst) hq.snap hq.claims hq.rings
    have hexec : (if s.beaconMode then exec .synthNotch s else exec .notchEdge s) =
        atUnitOfCfg s (fun s => if s.beaconMode then s.synthNotch else s.notchEdge) := by
      show (if s.beaconMode then atUnitOfCfg s _ else atUnitOfCfg s _) = _
      unfold atUnitOfCfg act
      cases hb : s.beaconMode <;> simp [hb]
    refine ⟨_, hexec.trans (atUnitOfCfg_of_clocks s _ hs hq _ _ _ _ _ (hrow.trans hnext)), ?_, ?_, ?_, rfl, ?_⟩
    · simp only [State.notchCount, ht, hn', hxt, hxn]
      omega
    · exact hn'.trans (congrArg (· + 1) hxn)
    · exact ht.trans hxt
    · cases s
      rfl
  · have hoff : ∀ f : State → State, f s = s → atUnitOfCfg s f = .next s := fun f hf =>
      atUnitOfCfg_of_clocks s f hs hq s.cyc s.tmo s.sub s.buckets s.spn hf
    refine ⟨hoff (fun s => s.notchEdge) ?_, hoff (fun s => s.synthNotch) ?_,
      hoff (fun s => if s.beaconMode then (if s.spn.notch == 2047 then s.synthNotch else s) else s.turnEdgeRow) ?_⟩
    · simp [State.notchEdge, hen]
    · simp [State.synthNotch, hen]
    · simp [State.synthNotch, State.turnEdgeRow, hen]

end Sys2Proof.Safety

namespace Sys2Proof.Safety
open Sys2Proof.Machine

/-! ### STALLED, and the failover to RPORT2 -/

/-- The fields that entry to STALLED can change. -/
def stallFlds : List Fld :=
  F.SPN_STAT_STATE :: F.SPN_EVT_STALL :: F.SPN_STALLS_COUNT :: F.SPN_STAT_LOCKED :: F.SPN_STAT_LATHE_SUSP :: F.LTH_STAT_STATE :: reportFlds

/-- What entry to STALLED leaves (R53). -/
structure Stalled (s t : State) : Prop where
  step : SpindleStep stallFlds s t
  state : t.spnState = 3
  turn : t.spn.turn = s.spn.turn
  notch : t.spn.notch = s.spn.notch
  tmo : t.tmo = s.tmo + 8
  stall : t.flag 0 F.SPN_EVT_STALL = true
  count : t.get 0 F.SPN_STALLS_COUNT = min (s.get 0 F.SPN_STALLS_COUNT + 1) 65535
  susp : t.get 0 F.SPN_STAT_LATHE_SUSP = 1
  active : t.latheActive = false

theorem report_tmo (s : State) (c src st d : Nat) : (s.report c src st d).tmo = s.tmo := by
  obtain ⟨_, _, h⟩ := State.report_eq s c src st d
  rw [h]

theorem enterStalled_spec (s : State) (hg : s.lathe.going = []) : Stalled s s.enterStalled := by
  unfold State.enterStalled
  extract_lets a b c _
  let d : State := { c with
    tmo := c.tmo + 8, sub := 0
    spn := { c.spn with frozen := c.notchCount, sample := none, stallHold := true, resumeIn := none, good := 0 } }
  change Stalled s d.noteLathe
  have ha : SpindleStep stallFlds s a := (SpindleStep.refl s).set (by decide) 3
  have hevt : SpindleStep (F.SPN_EVT_STALL :: reportFlds) a (a.spnEvt F.SPN_EVT_STALL) := spnEvt_step a _
  have hb : SpindleStep stallFlds s b := (ha.trans (hevt.mono (by decide))).bump (by decide) 1
  have hb_eq : b = (a.spnEvt F.SPN_EVT_STALL).set 0 F.SPN_STALLS_COUNT
    (min ((a.spnEvt F.SPN_EVT_STALL).get 0 F.SPN_STALLS_COUNT + 1) 65535) := rfl
  have hbc : SpindleStep [F.SPN_STAT_LOCKED] b c := by
    dsimp only [c]
    split
    · exact (SpindleStep.refl b).set (by decide) 0
    · exact .refl b
  have hcd : SpindleStep [] c d := ⟨rfl, fun _ _ => rfl, id⟩
  have hbd := hbc.trans (hcd.mono (by simp))
  have hd : SpindleStep stallFlds s d := hb.trans (hbd.mono (by decide))
  have hnote := noteLathe_step d (hd.going hg)
  have hspn : c.spn = s.spn := by
    dsimp only [c, b]
    split <;> simp [a]
  have htmo : c.tmo = s.tmo := by
    dsimp only [c, b]
    split <;> exact report_tmo _ _ _ _ _
  have hstate : d.get 0 F.SPN_STAT_STATE = 3 := by
    rw [hbd.get _ (by decide), hb_eq, State.get_set_apart _ _ _ _ _ (by decide), hevt.get _ (by decide)]
    exact State.get_set_same s 0 3 _ (by decide)
  have hheld : d.latheHeld = true := by simp [State.latheHeld, State.running, hstate]
  refine ⟨hd.trans (hnote.mono (by decide)), ?_, ?_, ?_, ?_, ?_, ?_, ?_, noteLathe_not_active d (hd.going hg) hheld⟩
  · exact (hnote.get _ (by decide)).trans hstate
  · rw [noteLathe_spn d (hd.going hg)]
    exact (congrArg Spindle.turn hspn :)
  · rw [noteLathe_spn d (hd.going hg)]
    exact (congrArg Spindle.notch hspn :)
  · rw [noteLathe_tmo d (hd.going hg)]
    exact congrArg (· + 8) htmo
  · rw [hnote.flag _ (by decide), hbd.flag _ (by decide), State.flag, hb_eq, State.get_set_apart _ _ _ _ _ (by decide), State.spnEvt,
      State.errBit, (report_step _ _ _ _ _).get _ (by decide), State.get_set_same _ _ _ _ (by decide)]
    rfl
  · rw [hnote.get _ (by decide), hbd.get _ (by decide), hb_eq, State.get_set_same _ _ _ _ (by decide), hevt.get _ (by decide),
      State.get_set_apart _ _ _ _ _ (by decide)]
    show min _ 65535 % 65536 = _
    omega
  · rw [noteLathe_susp d (hd.going hg), hheld]
    rfl

end Sys2Proof.Safety

namespace Sys2Proof.Safety
open Sys2Proof.Machine

/-- Time that passes before the block enters STALLED, without a notch, is no part of what the entry leaves. -/
theorem Stalled.after_clock {s r t : State} (h : Stalled r t) (hstep : SpindleStep [] s r) (hturn : r.spn.turn = s.spn.turn)
    (hnotch : r.spn.notch = s.spn.notch) (htmo : r.tmo = s.tmo) : Stalled s t :=
  ⟨(hstep.mono (by simp)).trans h.step, h.state, h.turn.trans hturn, h.notch.trans hnotch, h.tmo.trans (congrArg (· + 8) htmo), h.stall,
    h.count.trans (by rw [hstep.get _ (by simp)]), h.susp, h.active⟩

/-- STALL_DETECT in SPX mode, and BEACON_TIMEOUT once the beacons are gone, enter STALLED. -/
theorem stallRow_eq (s : State) (c : Instr) (hq : Quiet s) (hrun : s.running = true)
    (h : (c = .stallDetect ∧ s.beaconMode = false) ∨
      (c = .beaconTimeout ∧ s.beaconMode = true ∧ s.refChip = false ∧ s.beaconsGone = true)) :
    ∃ f : State → State, exec c s = atUnitOfCfg s f ∧ Stalled s (f s) := by
  obtain ⟨rfl, hb⟩ | ⟨rfl, hb, href, hgone⟩ := h
  · refine ⟨State.stallDetect, rfl, ?_⟩
    have hrow : s.stallDetect = (s.passCyc (s.spn.edge + 64)).enterStalled := by simp [State.stallDetect, hb, hrun]
    have hpass := passCyc_step s (s.spn.edge + 64)
    obtain ⟨y, b, p, hp⟩ := passCyc_running s (s.spn.edge + 64) hrun hq.snap
    rw [hrow]
    exact (enterStalled_spec _ (hpass.going hq.going)).after_clock hpass (by rw [hp]) (by rw [hp]) (by rw [hp])
  · refine ⟨State.beaconTimeout, rfl, ?_⟩
    have hrow : s.beaconTimeout = s.enterStalled := by simp [State.beaconTimeout, hb, hrun, href, hgone]
    rw [hrow]
    exact enterStalled_spec s hq.going

/-- BEACON_TIMEOUT of two turns without a beacon (R47). -/
theorem failoverRow_eq (s : State) (hrun : s.running = true) (hb : s.beaconMode = true) (href : s.refChip = false)
    (hmissed : 2 ≤ s.spn.missed) (hgone : s.beaconsGone = false) (hsrc : s.get 0 F.SPN_STAT_SOURCE = 1) :
    s.beaconTimeout = if s.spn.rport2 = 127 then s else (s.set 0 F.SPN_STAT_SOURCE 2).spnInfo F.SPN_EVT_FAILOVER := by
  by_cases h : s.spn.rport2 = 127 <;> simp [State.beaconTimeout, hb, hrun, href, hgone, hmissed, hsrc, h]

/-- Settles O26: by what entry to STALLED leaves, and the failover row. -/
theorem stallFreezesSpindleTime : Obligations.StallFreezesSpindleTime := by
  unfold Obligations.StallFreezesSpindleTime
  refine ⟨fun s c hs hq hrun hc => ?_, fun s hs hq hrun hb href hmissed hgone hsrc => ?_⟩
  · obtain ⟨f, hexec, hst⟩ := stallRow_eq s c hq hrun hc
    obtain ⟨hnext, hended⟩ := atUnitOfCfg_of_step s f hs hq hst.step (by decide)
    have hspn : (f s).closeDown.spn = (f s).spn := (congrArg State.spn hended.back :)
    have htmo : (f s).closeDown.tmo = (f s).tmo := (congrArg State.tmo hended.back :)
    have hlathe : (f s).closeDown.lathe = (f s).lathe := (congrArg State.lathe hended.back :)
    have hram : (f s).closeDown.ram = s.ram := (congrArg State.ram hended.back :).trans (congrArg State.ram hst.step.back :)
    have hsems : (f s).closeDown.sems = s.sems := (congrArg State.sems hended.back :).trans (congrArg State.sems hst.step.back :)
    refine ⟨_, hexec.trans hnext, (hended.get _ (by decide)).trans hst.state, by rw [hspn, hst.turn], by rw [hspn, hst.notch],
      by rw [htmo, hst.tmo], ?_, (hended.get _ (by decide)).trans hst.count, (hended.get _ (by decide)).trans hst.susp, ?_, ?_, hsems⟩
    · rw [State.flag, hended.get _ (by decide)]
      exact hst.stall
    · rw [State.latheActive, hended.get _ (by decide), hlathe]
      exact hst.active
    · exact fun a => by rw [State.ramByte, hram, State.ramByte]
  · have hrow := failoverRow_eq s hrun hb href hmissed hgone hsrc
    by_cases h127 : s.spn.rport2 = 127
    · rw [if_pos h127] at hrow
      exact ⟨s, atUnitOfCfg_of_clocks s _ hs hq s.cyc s.tmo s.sub s.buckets s.spn hrow, rfl, fun _ => rfl, fun h => absurd h127 h⟩
    · rw [if_neg h127] at hrow
      have hinfo := spnInfo_step (s.set 0 F.SPN_STAT_SOURCE 2) F.SPN_EVT_FAILOVER
      have hstep : SpindleStep (F.SPN_STAT_SOURCE :: F.SPN_EVT_FAILOVER :: reportFlds) s s.beaconTimeout := by
        rw [hrow]
        exact ((SpindleStep.refl s).set (.head _) 2).trans (hinfo.mono fun _ => .tail _)
      obtain ⟨hnext, hended⟩ := atUnitOfCfg_of_step s State.beaconTimeout hs hq hstep (by decide)
      refine ⟨_, hnext, (congrArg State.spn hended.back :).trans ?_, fun h => absurd h h127, fun _ => ⟨?_, ?_⟩⟩
      · rw [hrow]
        exact State.spnInfo_spn ..
      · rw [hended.get _ (by decide), hrow, hinfo.get _ (by decide)]
        exact State.get_set_same s 0 2 _ (by decide)
      · rw [State.flag, hended.get _ (by decide), hrow, State.spnInfo, State.errBit, (report_step _ _ _ _ _).get _ (by decide),
          State.get_set_same _ _ _ _ (by decide)]
        rfl

end Sys2Proof.Safety

namespace Sys2Proof.Safety
open Sys2Proof.Machine

/-! ### The samples of SPX_TCNT -/

/-- The fields that adopting a turn count can change (R39). -/
def adoptFlds : List Fld := F.SPN_EVT_JUMP :: F.LTH_STAT_PSTAT :: F.MIR_SNAP_STAT_TURN :: eraFlds

/-- Adopting a turn count reports a jump (R39). -/
theorem adoptTurn_spec (s : State) (c : Nat) (hr : s.rings = []) :
    SpindleStep adoptFlds s (s.adoptTurn c) ∧ (s.adoptTurn c).spn = { s.spn with turn := c } ∧
      (s.adoptTurn c).flag 0 F.SPN_EVT_JUMP = true := by
  unfold State.adoptTurn
  extract_lets old t _ u
  have hevt : SpindleStep (F.SPN_EVT_JUMP :: reportFlds) s (s.spnEvt F.SPN_EVT_JUMP) := spnEvt_step s _
  have hera : SpindleStep eraFlds (s.spnEvt F.SPN_EVT_JUMP) t := eraStep_step _ old c
  have htu : SpindleStep eraFlds t u := (SpindleStep.refl t).spn _
  have hu : SpindleStep adoptFlds s u := ((hevt.mono (by decide)).trans (hera.mono (by decide))).trans (htu.mono (by decide))
  have hspn : u.spn = { s.spn with turn := c } := by
    have ht : t.spn = s.spn := (State.eraStep_spn _ _ _).trans (State.spnEvt_spn _ _)
    rw [← ht]
  have hjump : u.flag 0 F.SPN_EVT_JUMP = true := by
    rw [htu.flag _ (by decide), hera.flag _ (by decide), State.flag, State.spnEvt, State.errBit, (report_step _ _ _ _ _).get _ (by decide),
      State.get_set_same _ _ _ _ (by decide)]
    rfl
  split
  · rw [cancelSwaps_of_no_rings u c ((congrArg State.rings hu.back :).trans hr)]
    have hl := (lathTurn_step u c).mono (gs := [F.LTH_STAT_PSTAT, F.MIR_SNAP_STAT_TURN]) (by decide)
    have hj := hl.trans ((jumpSnap_step (u.lathTurn c) old c).mono (by decide))
    refine ⟨hu.trans (hj.mono (by decide)), ?_, (hj.flag _ (by decide)).trans hjump⟩
    rw [State.jumpSnap_spn, State.lathTurn_spn, hspn]
  · exact ⟨hu, hspn, hjump⟩

/-- The fields that entry to RUN can change once STATE shows RUN. -/
def runFlds : List Fld :=
  [F.SPN_CORR_SUM, F.SPN_STAT_LOCKED, F.SPN_STAT_STRATUM, F.SPN_MISSED_NOTCHES, F.SPN_EVT_RESUME, F.MIR_SNAP_SKIP_SKIPPED] ++ eraFlds ++ turnFlds

/-- What entry to RUN leaves (R54, R55). -/
structure RunEntered (c : Nat) (s t : State) : Prop where
  step : SpindleStep (F.SPN_STAT_STATE :: roleFlds ++ runFlds) s t
  state : t.spnState = 2
  turn : t.spn.turn = c
  sample : t.spn.sample = none

theorem enterRun_spec (s : State) (c n edge : Nat) (hr : s.rings = []) (hg : s.lathe.going = []) : RunEntered c s (s.enterRun c n edge) := by
  unfold State.enterRun
  extract_lets stalled old t u _ v w y z a
  have hu : SpindleStep (F.SPN_STAT_STATE :: roleFlds ++ runFlds) s u := ((takeRoles_step s).mono (by decide)).set (by decide) 2
  have huv : SpindleStep runFlds u v := ⟨rfl, fun _ _ => rfl, id⟩
  have hvw : SpindleStep runFlds v w := (SpindleStep.refl v).set (by decide) 0
  have hwy : SpindleStep runFlds w y := by
    dsimp only [y]
    split
    · exact ((SpindleStep.refl w).set (by decide) 1).set (by decide) 0
    · exact .refl w
  have hya : SpindleStep runFlds y a := by
    dsimp only [a]
    split
    · have hz : SpindleStep runFlds y z := (SpindleStep.refl y).set (by decide) _
      have hinfo := hz.trans ((spnInfo_step z F.SPN_EVT_RESUME).mono (by decide))
      exact (hinfo.trans ((eraStep_step _ _ _).mono (by decide))).trans ((countSkips_step _ _ _).mono (by decide))
    · exact .refl y
  have hua := ((huv.trans hvw).trans hwy).trans hya
  have hsa := hu.trans (hua.mono (by decide))
  have hspn : a.spn = v.spn := by
    have hy : y.spn = v.spn := by
      dsimp only [y]
      split <;> rfl
    dsimp only [a]
    split
    · rw [State.countSkips_spn, State.eraStep_spn, State.spnInfo_spn]
      exact hy
    · exact hy
  rw [cancelSwaps_of_no_rings a c ((congrArg State.rings hsa.back :).trans hr)]
  have hturn := (turnEvents_step a (hsa.going hg)).mono (gs := runFlds) (by decide)
  obtain ⟨m, hm⟩ := turnEvents_spn a (hsa.going hg)
  refine ⟨hsa.trans (hturn.mono (by decide)), ?_, ?_, ?_⟩
  · rw [State.spnState, (hua.trans hturn).get _ (by decide)]
    exact State.get_set_same t 0 2 _ (by decide)
  · rw [hm, hspn]
  · rw [hm, hspn]

/-- The samples of a turn edge are awaited no more, and `k` cycles have passed since that edge. -/
def sampled (s : State) (k : Nat) : State := State.passCyc { s with spn := { s.spn with sample := none } } (s.spn.turnEdge + k)

theorem sampled_step (s : State) (k : Nat) : SpindleStep [] s (sampled s k) :=
  ((SpindleStep.refl s).spn _).trans (passCyc_step _ _)

theorem sampled_turn (s : State) (k : Nat) : (sampled s k).spn.turn = s.spn.turn := State.passCyc_turn ..

theorem sampled_sample (s : State) (k : Nat) : (sampled s k).spn.sample = none := by
  obtain ⟨_, _, _, _, _, _, _, _, h⟩ := State.passCyc_eq { s with spn := { s.spn with sample := none } } (s.spn.turnEdge + k)
  rw [sampled, h]

/-- TCNT_ACCEPT where a pair of samples agrees (R38, R39, R54, R55). -/
theorem tcntAccept_of_pair (s : State) (samples : List Nat) (old c k : Nat) (hold : s.spn.sample = some old)
    (hp : State.firstPair samples 4 = some (c, k)) : s.tcntAccept samples =
      if s.spnState == 2 then (if c == (old + 1) % 2 ^ 40 then sampled s k else (sampled s k).adoptTurn c)
      else (sampled s k).enterRun c (sampled s k).spn.sampleNotches (sampled s k).spn.turnEdge := by
  unfold State.tcntAccept
  rw [hold]
  dsimp only
  rw [hp]
  rfl

/-- TCNT_ACCEPT where no pair of samples agrees. -/
theorem tcntAccept_of_no_pair (s : State) (samples : List Nat) (old : Nat) (hold : s.spn.sample = some old)
    (hp : State.firstPair samples 4 = none) : s.tcntAccept samples =
      if s.spnState == 1 then sampled s 10 else (sampled s 10).spnEvt F.SPN_EVT_TCNT := by
  unfold State.tcntAccept
  rw [hold]
  dsimp only
  rw [hp]
  rfl

/-- The first of four pairs of samples that agrees gives its value. -/
theorem firstPair_of_agree (v : Fin 5 → BitVec 40) (k : Fin 4) (hk : v k.castSucc = v k.succ)
    (hfirst : ∀ j : Fin 4, j < k → v j.castSucc ≠ v j.succ) :
    ∃ n, State.firstPair [(v 0).toNat, (v 1).toNat, (v 2).toNat, (v 3).toNat, (v 4).toNat] 4 = some ((v k.succ).toNat, n) := by
  have hne : ∀ j : Fin 4, j < k → ¬((v j.castSucc).toNat == (v j.succ).toNat) = true := fun j hj h =>
    hfirst j hj (BitVec.eq_of_toNat_eq (beq_iff_eq.1 h))
  have heq : ((v k.castSucc).toNat == (v k.succ).toNat) = true := by simp [hk]
  fin_cases k
  · exact ⟨_, if_pos heq⟩
  · exact ⟨_, (if_neg (hne 0 (by decide))).trans (if_pos heq)⟩
  · exact ⟨_, (if_neg (hne 0 (by decide))).trans ((if_neg (hne 1 (by decide))).trans (if_pos heq))⟩
  · exact ⟨_, (if_neg (hne 0 (by decide))).trans ((if_neg (hne 1 (by decide))).trans ((if_neg (hne 2 (by decide))).trans (if_pos heq)))⟩

theorem firstPair_of_no_agree (v : Fin 5 → BitVec 40) (h : ∀ j : Fin 4, v j.castSucc ≠ v j.succ) :
    State.firstPair [(v 0).toNat, (v 1).toNat, (v 2).toNat, (v 3).toNat, (v 4).toNat] 4 = none := by
  have hne : ∀ j : Fin 4, ¬((v j.castSucc).toNat == (v j.succ).toNat) = true := fun j hj =>
    h j (BitVec.eq_of_toNat_eq (beq_iff_eq.1 hj))
  exact (if_neg (hne 0)).trans ((if_neg (hne 1)).trans ((if_neg (hne 2)).trans (if_neg (hne 3))))

/-- What TCNT_ACCEPT leaves where the value `c` is accepted. -/
structure Accepted (c old : Nat) (s t : State) : Prop where
  step : ∃ fs, SpindleStep fs s t ∧ ∀ f ∈ fs, f.apart F.MIR_CTL_TRMODE = true
  state : t.spnState = 2
  turn : t.spn.turn = c
  sample : t.spn.sample = none
  tcnt : t.flag 0 F.SPN_EVT_TCNT = s.flag 0 F.SPN_EVT_TCNT
  jump : s.spnState = 2 → (t.flag 0 F.SPN_EVT_JUMP = true ↔ s.flag 0 F.SPN_EVT_JUMP = true ∨ c ≠ (old + 1) % 2 ^ 40)

theorem tcntAccept_accepted (s : State) (samples : List Nat) (old c k : Nat) (hq : Quiet s) (hold : s.spn.sample = some old)
    (hturn : s.spnState = 2 → s.spn.turn = (old + 1) % 2 ^ 40) (hp : State.firstPair samples 4 = some (c, k)) :
    Accepted c old s (s.tcntAccept samples) := by
  have hs := sampled_step s k
  have hrings : (sampled s k).rings = [] := (congrArg State.rings hs.back :).trans hq.rings
  rw [tcntAccept_of_pair s samples old c k hold hp]
  by_cases hrun : s.spnState = 2
  · rw [if_pos (by simp [hrun])]
    have hstate : (sampled s k).spnState = 2 := (hs.get _ (by simp)).trans hrun
    by_cases hc : c = (old + 1) % 2 ^ 40
    · rw [if_pos (by simp [hc])]
      refine ⟨⟨[], hs, by simp⟩, hstate, ?_, sampled_sample s k, hs.flag _ (by simp), fun _ => ?_⟩
      · rw [sampled_turn, hturn hrun, hc]
      · simp [hs.flag F.SPN_EVT_JUMP (by simp), hc]
    · rw [if_neg (by simpa using hc)]
      obtain ⟨ha, hspn, hjump⟩ := adoptTurn_spec (sampled s k) c hrings
      have hsa := (hs.mono (by simp)).trans ha
      refine ⟨⟨_, hsa, by decide⟩, (ha.get _ (by decide)).trans hstate, by rw [hspn], ?_, hsa.flag _ (by decide), fun _ => ?_⟩
      · rw [hspn]
        exact sampled_sample s k
      · exact ⟨fun _ => .inr hc, fun _ => hjump⟩
  · rw [if_neg (by simpa using hrun)]
    have he := enterRun_spec (sampled s k) c (sampled s k).spn.sampleNotches (sampled s k).spn.turnEdge hrings (hs.going hq.going)
    have hsa := (hs.mono (by simp)).trans he.step
    exact ⟨⟨_, hsa, by decide⟩, he.state, he.turn, he.sample, hsa.flag _ (by decide), fun h => absurd h hrun⟩

/-- What TCNT_ACCEPT leaves where no pair of samples agrees. -/
structure NotAccepted (s t : State) : Prop where
  step : SpindleStep (F.SPN_EVT_TCNT :: reportFlds) s t
  turn : t.spn.turn = s.spn.turn
  sample : t.spn.sample = none
  tcnt : t.flag 0 F.SPN_EVT_TCNT = true ↔ s.flag 0 F.SPN_EVT_TCNT = true ∨ s.spnState ≠ 1

theorem tcntAccept_notAccepted (s : State) (samples : List Nat) (old : Nat) (hold : s.spn.sample = some old)
    (hp : State.firstPair samples 4 = none) : NotAccepted s (s.tcntAccept samples) := by
  have hs := sampled_step s 10
  rw [tcntAccept_of_no_pair s samples old hold hp]
  by_cases hacq : s.spnState = 1
  · rw [if_pos (by simp [hacq])]
    exact ⟨hs.mono (by simp), sampled_turn s 10, sampled_sample s 10, by simp [hs.flag F.SPN_EVT_TCNT (by simp), hacq]⟩
  · rw [if_neg (by simpa using hacq)]
    have htcnt : ((sampled s 10).spnEvt F.SPN_EVT_TCNT).flag 0 F.SPN_EVT_TCNT = true := by
      rw [State.flag, State.spnEvt, State.errBit, (report_step _ _ _ _ _).get _ (by decide), State.get_set_same _ _ _ _ (by decide)]
      rfl
    refine ⟨(hs.mono (by simp)).trans (spnEvt_step _ _), ?_, ?_, by simp [htcnt, hacq]⟩
    · rw [State.spnEvt_spn, sampled_turn]
    · rw [State.spnEvt_spn, sampled_sample]

/-- Settles O25: by what TCNT_ACCEPT leaves with and without an agreeing pair; accesses that end change nothing of it. -/
theorem tcntIsAccepted : Obligations.TcntIsAccepted := by
  unfold Obligations.TcntIsAccepted
  intro s v old hs hq _ hold _ hturn htcnt hjump
  generalize hl : [(v 0).toNat, (v 1).toNat, (v 2).toNat, (v 3).toNat, (v 4).toNat] = samples
  have hexec : exec (.tcntAccept (v 0) (v 1) (v 2) (v 3) (v 4)) s = atUnitOfCfg s (fun s => s.tcntAccept samples) := by rw [← hl]; rfl
  cases hp : State.firstPair samples 4 with
  | none =>
    have ha := tcntAccept_notAccepted s samples old hold hp
    obtain ⟨hnext, hended⟩ := atUnitOfCfg_of_step s (fun s => s.tcntAccept samples) hs hq ha.step (by decide)
    have hspn : (s.tcntAccept samples).closeDown.spn = (s.tcntAccept samples).spn := (congrArg State.spn hended.back :)
    refine ⟨_, hexec.trans hnext, by rw [hspn, ha.sample], fun k hk hfirst => ?_, fun _ => ⟨?_, by rw [hspn, ha.turn], ?_⟩⟩
    · obtain ⟨n, hn⟩ := firstPair_of_agree v k hk hfirst
      rw [hl, hp] at hn
      exact absurd hn (by simp)
    · exact (hended.get _ (by decide)).trans (ha.step.get _ (by decide))
    · rw [State.flag, hended.get _ (by decide), ← State.flag, ha.tcnt, htcnt]
      simp
  | some r =>
    obtain ⟨c, n⟩ := r
    have ha := tcntAccept_accepted s samples old c n hq hold hturn hp
    obtain ⟨fs, hstep, hmode⟩ := ha.step
    obtain ⟨hnext, hended⟩ := atUnitOfCfg_of_step s (fun s => s.tcntAccept samples) hs hq hstep hmode
    have hspn : (s.tcntAccept samples).closeDown.spn = (s.tcntAccept samples).spn := (congrArg State.spn hended.back :)
    refine ⟨_, hexec.trans hnext, by rw [hspn, ha.sample], fun k hk hfirst => ?_, fun hno => ?_⟩
    · obtain ⟨n', hn'⟩ := firstPair_of_agree v k hk hfirst
      rw [hl, hp] at hn'
      obtain rfl : c = (v k.succ).toNat := congrArg Prod.fst (Option.some.inj hn')
      refine ⟨(hended.get _ (by decide)).trans ha.state, by rw [hspn, ha.turn], ?_, fun hst => ?_⟩
      · rw [State.flag, hended.get _ (by decide), ← State.flag, ha.tcnt, htcnt]
      · rw [State.flag, hended.get _ (by decide), ← State.flag, ha.jump hst, hjump]
        simp
    · rw [← hl, firstPair_of_no_agree v hno] at hp
      exact absurd hp (by simp)

end Sys2Proof.Safety

namespace Sys2Proof.Safety
open Sys2Proof.Machine

/-! ### The turn edge: what the rounding of an estimate draws -/

theorem loseLock_step (s : State) : SpindleStep (F.SPN_STAT_LOCKED :: F.SPN_EVT_ALIGN :: reportFlds) s s.loseLock := by
  unfold State.loseLock
  extract_lets _ t
  have ht : SpindleStep (F.SPN_STAT_LOCKED :: F.SPN_EVT_ALIGN :: reportFlds) s t := (SpindleStep.refl s).spn _
  split
  · exact (ht.set (by decide) 0).trans ((spnEvt_step _ _).mono (by decide))
  · exact ht

theorem measureTurn_step (s : State) (e : Nat) : SpindleStep (F.SPN_CPT_CYCLES :: F.SPN_EVT_RATE :: reportFlds) s (s.measureTurn e) := by
  unfold State.measureTurn
  extract_lets n t _
  have ht : SpindleStep (F.SPN_CPT_CYCLES :: F.SPN_EVT_RATE :: reportFlds) s t := (SpindleStep.refl s).set (by decide) _
  split
  · refine SpindleStep.trans ?_ ((spnEvt_step _ F.SPN_EVT_RATE).mono (by decide))
    exact ht.spn _
  · exact ht.spn _

/-- The fields that the end of a turn can change (R48-R51). -/
def followFlds : List Fld :=
  F.SPN_OFFSET_EST :: F.SPN_OFFSET_TRIM :: F.SPN_CORR_SUM :: F.SPN_STAT_LOCKED :: F.SPN_EVT_ALIGN :: reportFlds

/-- The estimate of the turn apart, the end of a turn is an event of the Spindle. -/
theorem followTurn_step (s : State) (h : s.noReference = false) : SpindleStep followFlds s.turnEstimate.2 s.followTurn := by
  unfold State.followTurn
  extract_lets r t applied u v corr w far _ clear
  have ht : t = s.turnEstimate.2 := congrArg Prod.snd (if_neg (by simp [h]))
  have hu : SpindleStep followFlds t u := by
    dsimp only [u]
    split
    · exact .refl t
    · exact (SpindleStep.refl t).set (by decide) _
  have hv : SpindleStep followFlds t v := hu.set (by decide) _
  have hw : SpindleStep followFlds t w := by
    dsimp only [w]
    split
    · exact hv
    · exact hv.set (by decide) _
  have hclear : SpindleStep followFlds t clear := hw.spn _
  rw [← ht]
  split
  · exact hclear.set (by decide) _
  · split
    · exact hclear.trans ((loseLock_step clear).mono (by decide))
    · split
      · exact hclear.spn _
      · extract_lets z
        have hz : SpindleStep followFlds t z := hclear.spn _
        refine iteInduction (motive := SpindleStep followFlds t) (fun _ => ?_) fun _ => ?_
        · exact hz.trans ((loseLock_step z).mono (by decide))
        · split
          · exact hz.set (by decide) _
          · exact hz

/-- The state in which a turn edge has measured the turn that ends, and the roles of the new turn hold. -/
def turnMeasured (s : State) (e : Nat) : State :=
  let d : Int := if s.spn.notch == 2047 then (s.notchLen : Int) - 8 else 0
  (State.measureTurn { s with spn := { s.spn with trimmed := s.spn.trimmed + d } } e).takeRoles

theorem turnMeasured_step (s : State) (e : Nat) :
    SpindleStep (F.SPN_CPT_CYCLES :: F.SPN_EVT_RATE :: roleFlds ++ reportFlds) s (turnMeasured s e) := by
  have hm := ((SpindleStep.refl s).spn _).trans (measureTurn_step
    { s with spn := { s.spn with trimmed := s.spn.trimmed + if s.spn.notch == 2047 then (s.notchLen : Int) - 8 else 0 } } e)
  exact (hm.mono (by decide)).trans ((takeRoles_step _).mono (by decide))

theorem atEdge_step (s : State) (e : Nat) (hc : s.freshClaims = []) : SpindleStep [] s (s.atEdge e) := by
  unfold State.atEdge
  rw [firstAttempts_of_no_claims s hc]
  exact (passCyc_step s e).spn _

theorem Still.drawFree {s : State} (h : Still s) : Still s.drawFree := { h with }

/-- After the estimate, the rest of a turn edge is an event of the Spindle. -/
theorem beginTurn_step (s : State) (e : Nat) (hr : s.rings = []) (hc : s.freshClaims = []) (hg : s.lathe.going = [])
    (h : (turnMeasured s e).noReference = false) (hdraw : (turnMeasured s e).turnEstimate.2 = (turnMeasured s e).drawFree) :
    SpindleStep (followFlds ++ eraFlds ++ turnFlds) (turnMeasured s e).drawFree (s.beginTurn e) := by
  have hfollow := followTurn_step _ h
  rw [hdraw] at hfollow
  unfold State.beginTurn
  extract_lets turn d _ t u v w sp x
  have hu : SpindleStep (followFlds ++ eraFlds ++ turnFlds) (turnMeasured s e).drawFree u := hfollow.mono (by decide)
  have hv := hu.trans ((eraStep_step u u.spn.turn turn).mono (by decide))
  have hvs : v.rings = [] ∧ v.freshClaims = [] ∧ v.lathe.going = [] :=
    ⟨(congrArg State.rings hv.back :).trans ((congrArg State.rings (turnMeasured_step s e).back :).trans hr),
      (congrArg State.freshClaims hv.back :).trans ((congrArg State.freshClaims (turnMeasured_step s e).back :).trans hc),
      hv.going ((turnMeasured_step s e).going hg)⟩
  obtain ⟨hvr, hvc, hvg⟩ := hvs
  have hw : SpindleStep [] v w := atEdge_step v e hvc
  have hx : SpindleStep [] v x := hw.trans ⟨rfl, fun _ _ => rfl, id⟩
  have hev := turnEvents_step x (hx.going hvg)
  have hxr : x.turnEvents.rings = [] := (congrArg State.rings hev.back :).trans ((congrArg State.rings hx.back :).trans hvr)
  rw [snapCmds_of_no_rings _ hxr]
  exact (hv.trans (hx.mono (by simp))).trans (hev.mono (by decide))

/-- A follower in RUN at notch 2,047 whose one offset sample of the turn, of half a cycle, has a mean that is no whole number (R48). -/
def halfCycleTurn : State :=
  let s := ((State.reset.set 0 F.SPN_CTL_EN 1).set 0 F.SPN_CTL_RPORT 1).set 0 F.SPN_STAT_STATE 2
  { s with boot := 0, spn := { s.spn with notch := 2047, offSum := 1, offNum := 1 } }

theorem quiet_halfCycleTurn : Quiet halfCycleTurn :=
  ⟨rfl, rfl, rfl, rfl, rfl, rfl, rfl, rfl, rfl, rfl, rfl, rfl, .inl rfl, rfl, rfl, rfl, rfl, rfl, rfl⟩

theorem halfCycleTurn_runs : halfCycleTurn.beaconMode = false ∧ halfCycleTurn.spnEn = true ∧ halfCycleTurn.spnState = 2 := by
  decide +kernel

/-- Its estimate is no whole number of cycles, so that a free value rounds it. -/
theorem halfCycleTurn_draws : (turnMeasured halfCycleTurn halfCycleTurn.outsideEdge).noReference = false ∧
    (turnMeasured halfCycleTurn halfCycleTurn.outsideEdge).turnEstimate.2 =
      (turnMeasured halfCycleTurn halfCycleTurn.outsideEdge).drawFree := by
  have h : ∀ s : State, s.spn.offNum = 1 → s.spn.offSum = 1 → s.turnEstimate.2 = s.drawFree := fun s hn hsum => by
    simp [State.turnEstimate, hn, hsum]
  refine ⟨by decide +kernel, h _ ?_ ?_⟩ <;> decide +kernel

/-- The turn edge of SPX mode at notch 2,047. -/
theorem turnEdgeRow_of_run (s : State) (hspx : s.beaconMode = false) (hen : s.spnEn = true) (hst : s.spnState = 2)
    (hn : s.spn.notch = 2047) : ∃ x, s.turnEdgeRow = { s.beginTurn s.outsideEdge with spn := x } :=
  ⟨_, by simp [State.turnEdgeRow, hspx, hen, hst, hn]; rfl⟩

/-- A turn edge whose estimate draws a free value leaves the counter of free values one higher. -/
theorem turnEdge_free (s : State) (hs : s.stopped = false) (hq : Quiet s) (hspx : s.beaconMode = false) (hen : s.spnEn = true)
    (hst : s.spnState = 2) (hn : s.spn.notch = 2047) (href : (turnMeasured s s.outsideEdge).noReference = false)
    (hdraw : (turnMeasured s s.outsideEdge).turnEstimate.2 = (turnMeasured s s.outsideEdge).drawFree) :
    ∃ t, exec .turnEdge s = .next t ∧ t.free = s.free + 1 := by
  obtain ⟨x, hrow⟩ := turnEdgeRow_of_run s hspx hen hst hn
  have hmeasured := turnMeasured_step s s.outsideEdge
  have hstep := (beginTurn_step s s.outsideEdge hq.rings hq.claims hq.going href hdraw).spn x
  rw [← hrow] at hstep
  have hstill : Still s.turnEdgeRow :=
    ((Still.of_quiet hq).of_step hmeasured (by decide)).drawFree.of_step hstep (by decide)
  have hstop : s.turnEdgeRow.stopped = false :=
    (congrArg State.stopped hstep.back :).trans ((congrArg State.stopped hmeasured.back :).trans hs)
  have hended := closeDown_ended _ hstill.rings
  refine ⟨s.within s.turnEdgeRow.closeDown, ?_, ?_⟩
  · have hexec : exec .turnEdge s = atUnitOfCfg s
        (fun s => if s.beaconMode then (if s.spn.notch == 2047 then s.synthNotch else s) else s.turnEdgeRow) := rfl
    rw [hexec, atUnitOfCfg, hs]
    show act true s _ = _
    rw [act_on, hspx]
    show Host.Outcome.next (s.within s.turnEdgeRow.settle) = _
    rw [hstill.settle hstop]
  · calc s.turnEdgeRow.closeDown.free = s.turnEdgeRow.free := (congrArg State.free hended.back :)
      _ = (turnMeasured s s.outsideEdge).drawFree.free := (congrArg State.free hstep.back :)
      _ = s.free + 1 := congrArg (· + 1) (congrArg State.free hmeasured.back :)

/-- Refutes O24: the rounding of an estimate that is no whole number of cycles draws a free value (R48, log 6), so that the counter of
free values does not stay. -/
theorem not_turnEdgeBeginsTurn : ¬ Obligations.TurnEdgeBeginsTurn := by
  unfold Obligations.TurnEdgeBeginsTurn
  intro h
  obtain ⟨hspx, hen, hst⟩ := halfCycleTurn_runs
  obtain ⟨href, hdraw⟩ := halfCycleTurn_draws
  obtain ⟨⟨t, ht, -, -, -, -, -, hframe⟩, -⟩ := h halfCycleTurn rfl quiet_halfCycleTurn hen hst rfl
  obtain ⟨u, hu, hfree⟩ := turnEdge_free halfCycleTurn rfl quiet_halfCycleTurn hspx hen hst rfl href hdraw
  obtain rfl : u = t := Host.Outcome.next.inj (hu.symm.trans ht)
  have hstays : u.free = halfCycleTurn.free := (congrArg State.free hframe :)
  exact absurd (hstays.symm.trans hfree) (by decide)

end Sys2Proof.Safety
end

/-! ### SPN_CTL and SPN_NOW through the CFG port -/

section
namespace Sys2Proof.Machine

/-- The low bits of a number hold its low fields. -/
theorem bitsOf_mod (x n lo w : Nat) (h : lo + w ≤ n) : bitsOf (x % 2 ^ n) lo w = bitsOf x lo w := by
  refine Nat.eq_of_testBit_eq fun i => ?_
  rw [testBit_bitsOf, testBit_bitsOf, Nat.testBit_mod_two_pow]
  by_cases hi : i < w
  · rw [decide_eq_true (show lo + i < n by omega), Bool.true_and]
  · simp [hi]

/-- No register below the plan's own reads as zero in some builds. -/
theorem State.rowAt_low_glob (b : Build) (a : Nat) (h : a < 0x400) (r : RegRow) : rowAt b a ≠ some (r, true) := by
  rw [rowAt, locate_glob _ _ (by omega)]
  simp only [ne_eq, Option.bind_eq_some_iff, not_exists, not_and]
  intro x _
  rw [if_neg (by simp; omega), if_neg (by simp; omega)]
  simp

/-- A write of a global register, with the status that its own rule gives. -/
theorem State.regAccess_write_glob_status (s u : State) (k : Asker) (a d st : Nat) (ha : a < 0x200000) (hok : s.accCheck a = stOK)
    (hz : ∀ r, rowAt s.build a ≠ some (r, true)) (hw : s.writeGlob k.by' a d = (st, u)) :
    s.regAccess k true a d = (u.recordAcc k.by' true a d st).accEnd k 0 st := by
  have hd : cfgDest s.build a = none := by rw [cfgDest, locate_glob _ _ ha]
  simp [State.regAccess, State.access, hd, hok, State.writeReg_glob s _ a d ha hz, hw]

/-- A read of a global register. -/
theorem State.regAccess_read_glob (s u : State) (k : Asker) (a d : Nat) (w : Word) (ha : a < 0x200000) (hok : s.accCheck a = stOK)
    (hz : ∀ r, rowAt s.build a ≠ some (r, true)) (hr : s.readGlob a = (w, u)) :
    s.regAccess k false a d = u.accEnd k w stOK := by
  have hd : cfgDest s.build a = none := by rw [cfgDest, locate_glob _ _ ha]
  have hreg : s.readReg a = (w, u) := by
    unfold State.readReg
    split
    next r h => exact absurd h (hz r)
    next => rw [locate_glob _ _ ha]; exact hr
  simp [State.regAccess, State.access, hd, hok, hreg]

end Sys2Proof.Machine

namespace Sys2Proof.Safety
open Sys2Proof.Machine



theorem SpindleStep.setWord {fs : List Fld} {s t : State} (h : SpindleStep fs s t) {a : Nat} (ha : ⟨a, 0, 32⟩ ∈ fs) (w : Word) :
    SpindleStep fs s (t.setWord a w) := by
  refine h.trans ⟨rfl, fun g hg => ?_, id⟩
  have hap := hg _ ha
  by_cases hoff : a = 0 + g.off
  · have hzero : g.w + g.lo = 0 ∨ 32 ≤ g.lo := by
      simp [Fld.apart] at hap
      omega
    have hread : ∀ x : Word, wordField x g.lo g.w = 0 := fun x => by
      have hlt := x.isLt
      obtain hz | hz := hzero
      · rw [wordField, bitsOf, show g.w = 0 by omega, pow_zero, Nat.mod_one]
      · rw [wordField, bitsOf, Nat.div_eq_of_lt (hlt.trans_le (Nat.pow_le_pow_right (by decide) hz)), Nat.zero_mod]
    rw [State.get, State.get, hread, hread]
  · rw [State.get, State.get, State.word_setWord, if_neg (Ne.symm hoff)]

/-- An access of the CFG host whose effect is an event of the Spindle leads to the state in which it has ended. -/
theorem atHost_of_step {fs : List Fld} {s u : State} {wr : Bool} {a d st : Nat} {w : Word} (hf : CfgFree s) (hq : Quiet s)
    (hu : (hostAsked s wr a d).regAccess .cfg wr a d = u.accEnd .cfg w st) (h : SpindleStep fs (hostAsked s wr a d) u)
    (hfs : ∀ g ∈ fs, g.apart F.MIR_CTL_TRMODE = true) : atHost s wr a d = .next (u.accEnd .cfg w st) := by
  have hasked : Still (hostAsked s wr a d) := { Still.of_quiet hq with }
  have hended : Still (u.accEnd .cfg w st) := { hasked.of_step h hfs with }
  have haccs : (u.accEnd .cfg w st).accs = [] := (congrArg State.accs h.back :).trans hf.accs
  have hstop : (u.accEnd .cfg w st).stopped = false := (congrArg State.stopped h.back :).trans (by simp [hostAsked, State.stopped, hf.boot])
  have hpending : (u.accEnd .cfg w st).pending = s.pending := (congrArg State.pending h.back :)
  have hbuild : (u.accEnd .cfg w st).build = s.build := (congrArg State.build h.back :)
  have hon : (!(s.boot == 3)) = true := by rw [hf.boot]; rfl
  rw [atHost, hon, act_on, cfgAccess_of_free s _ _ _ hf, hu, hended.settle hstop, closeDown_of_no_accs _ haccs,
    within_self _ _ hpending hbuild]

/-- What roles taking effect leave of Spindle time (R56). -/
theorem takeRoles_spn (s : State) : ∃ m m2, s.takeRoles.spn = { s.spn with
    role := s.get 0 F.SPN_CTL_ROLE, rport := s.get 0 F.SPN_CTL_RPORT, rport2 := s.get 0 F.SPN_CTL_RPORT2, missed := m, missed2 := m2 } := by
  unfold State.takeRoles
  extract_lets rp rp2 sp t u v
  have ht : SpindleStep roleFlds s t := by
    dsimp only [t]
    split
    · exact (SpindleStep.refl s).set (by decide) _
    · exact .refl s
  have hv : v.spn = u.spn := by
    dsimp only [v]
    split
    · rfl
    · split <;> rfl
  have hspn : (if v.noReference then v.set 0 F.SPN_OFFSET_EST 0 else v).spn = v.spn := by split <;> rfl
  exact ⟨_, _, (hspn.trans hv).trans (by dsimp only [u]; rw [ht.get F.SPN_CTL_ROLE (by decide)])⟩

/-- While SPN_CTL.EN is 0, roles taking effect change no source. -/
theorem takeRoles_step_of_off (s : State) (hen : s.spnEn = false) : SpindleStep [F.SPN_STAT_STRATUM, F.SPN_OFFSET_EST] s s.takeRoles := by
  unfold State.takeRoles
  extract_lets rp rp2 sp t u v
  have ht : t = s := if_neg (by simp [hen])
  have hu : SpindleStep [F.SPN_STAT_STRATUM, F.SPN_OFFSET_EST] s u := by
    rw [← ht]
    exact (SpindleStep.refl t).spn _
  have hv : SpindleStep [F.SPN_STAT_STRATUM, F.SPN_OFFSET_EST] s v := by
    dsimp only [v]
    split
    · exact hu.set (by decide) _
    · split
      · exact hu.set (by decide) _
      · exact hu
  split
  · exact hv.set (by decide) _
  · exact hv

end Sys2Proof.Safety

namespace Sys2Proof.Safety
open Sys2Proof.Machine

/-- SPN_CTL as a whole. -/
def ctlFld : Fld := ⟨0x100, 0, 32⟩

/-- The word that a write leaves in SPN_CTL. -/
def ctlWord (d : Nat) : Word := BitVec.ofNat 32 (d % 2 ^ 18)

/-- A field of SPN_CTL once it has been written. -/
theorem get_ctlWord (s : State) (d : Nat) (f : Fld) (hoff : f.off = 0x100) (hw : f.lo + f.w ≤ 18) :
    (s.setWord 0x100 (ctlWord d)).get 0 f = bitsOf d f.lo f.w := by
  rw [State.get, hoff, Nat.zero_add, State.word_setWord, if_pos rfl, wordField, ctlWord, BitVec.toNat_ofNat,
    Nat.mod_eq_of_lt ((Nat.mod_lt d (by decide)).trans (by decide)), bitsOf_mod _ _ _ _ hw]

theorem spnEn_ctlWord (s : State) (d : Nat) : (s.setWord 0x100 (ctlWord d)).spnEn = bitAt d 0 := by
  rw [State.spnEn, State.flag, get_ctlWord s d _ rfl (by decide)]
  rfl

/-- A write that changes SRC while EN is 1 is refused, and has no effect. -/
theorem spnCtlWrite_refused (s : State) (d : Nat) (h : (s.spnEn && bitAt d 1 != s.beaconMode) = true) :
    s.spnCtlWrite d = (stBADCMD, s) := by
  unfold State.spnCtlWrite
  exact if_pos h

/-- While EN stays 1, a write leaves nothing but its word. -/
theorem spnCtlWrite_kept (s : State) (d : Nat) (h : (s.spnEn && bitAt d 1 != s.beaconMode) = false) (hen : bitAt d 0 = true)
    (hwas : s.spnEn = true) : s.spnCtlWrite d = (stOK, s.setWord 0x100 (ctlWord d)) := by
  unfold State.spnCtlWrite
  exact (if_neg (by simp [h])).trans ((if_neg (by simp [hen])).trans (if_pos hwas))

/-- The fields that a write of SPN_CTL can change. -/
def ctlFlds : List Fld :=
  ctlFld :: F.SPN_STAT_STATE :: F.SPN_STAT_LOCKED :: F.SPN_STAT_SOURCE :: F.SPN_STAT_STRATUM :: F.SPN_OFFSET_EST :: latheFlds

/-- The block OFF with Spindle time zero (R55). -/
structure SpindleOff (d : Nat) (s t : State) : Prop where
  step : SpindleStep ctlFlds s t
  word : t.word 0x100 = ctlWord d
  state : t.spnState = 0
  turn : t.spn.turn = 0
  notch : t.spn.notch = 0
  locked : t.get 0 F.SPN_STAT_LOCKED = 0
  source : t.get 0 F.SPN_STAT_SOURCE = 3
  susp : t.get 0 F.SPN_STAT_LATHE_SUSP = 1

/-- Clearing EN returns the block to OFF. -/
theorem spnCtlWrite_off (s : State) (d : Nat) (hg : s.lathe.going = []) (h : (s.spnEn && bitAt d 1 != s.beaconMode) = false)
    (hen : bitAt d 0 = false) : ∃ t, s.spnCtlWrite d = (stOK, t) ∧ SpindleOff d s t := by
  have hoff : SpindleStep ctlFlds s (s.setWord 0x100 (ctlWord d)) := (SpindleStep.refl s).setWord (by decide) _
  unfold State.spnCtlWrite
  extract_lets was en t u sp v
  have ht : t = s.setWord 0x100 (ctlWord d) := rfl
  have hu : SpindleStep (ctlFlds.drop 1) t u :=
    ((((SpindleStep.refl t).set (by decide) 0).set (by decide) 0).set (by decide) 3).set (by decide) 15
  have huv : SpindleStep [] u v := (SpindleStep.refl u).spn _
  have htv := hu.trans (huv.mono (by simp))
  have hven : v.spnEn = false := by
    rw [State.spnEn, htv.flag _ (by decide), ← State.spnEn, ht, spnEn_ctlWord, hen]
  have hr := takeRoles_step_of_off v hven
  have hsv := hoff.trans (htv.mono (by decide))
  have hrg : v.takeRoles.lathe.going = [] := hr.going (hsv.going hg)
  have hnote := noteLathe_step v.takeRoles hrg
  have hvt : SpindleStep (ctlFlds.drop 1) v v.takeRoles.noteLathe := (hr.mono (by decide)).trans (hnote.mono (by decide))
  have hfrom : SpindleStep (F.SPN_STAT_STRATUM :: F.SPN_OFFSET_EST :: latheFlds) v v.takeRoles.noteLathe :=
    (hr.mono (by decide)).trans (hnote.mono (by decide))
  obtain ⟨m, m2, hspn⟩ := takeRoles_spn v
  have hstate : v.get 0 F.SPN_STAT_STATE = 0 := by
    rw [huv.get _ (by simp)]
    dsimp only [u]
    rw [State.get_set_apart _ _ _ _ _ (by decide), State.get_set_apart _ _ _ _ _ (by decide), State.get_set_apart _ _ _ _ _ (by decide)]
    exact State.get_set_same t 0 0 _ (by decide)
  rw [if_neg (show ¬(was && bitAt d 1 != s.beaconMode) = true by simp [was, h]), if_pos (show (!en) = true by simp [en, hen])]
  refine ⟨v.takeRoles.noteLathe, rfl, ?_⟩
  refine ⟨hsv.trans (hvt.mono (by decide)), ?_, ?_, ?_, ?_, ?_, ?_, ?_⟩
  · rw [(htv.trans hvt).word 0x100 (by decide), ht, State.word_setWord, if_pos rfl]
  · exact (hfrom.get _ (by decide)).trans hstate
  · rw [noteLathe_spn _ hrg, hspn]
  · rw [noteLathe_spn _ hrg, hspn]
  · rw [hfrom.get _ (by decide), huv.get _ (by simp)]
    dsimp only [u]
    rw [State.get_set_apart _ _ _ _ _ (by decide), State.get_set_apart _ _ _ _ _ (by decide)]
    exact State.get_set_same _ 0 0 _ (by decide)
  · rw [hfrom.get _ (by decide), huv.get _ (by simp)]
    dsimp only [u]
    rw [State.get_set_apart _ _ _ _ _ (by decide)]
    exact State.get_set_same _ 0 3 _ (by decide)
  · have hheld : v.takeRoles.latheHeld = true := by simp [State.latheHeld, State.running, hr.get F.SPN_STAT_STATE (by decide), hstate]
    rw [noteLathe_susp _ hrg, hheld]
    rfl

/-- The block in ACQUIRE with the roles that SPN_CTL names (R55, R56). -/
structure SpindleAcquires (d : Nat) (s t : State) : Prop where
  step : SpindleStep ctlFlds s t
  word : t.word 0x100 = ctlWord d
  state : t.spnState = 1
  role : t.spn.role = bitsOf d 2 1
  rport : t.spn.rport = bitsOf d 4 7
  rport2 : t.spn.rport2 = bitsOf d 11 7

/-- Setting EN enters ACQUIRE. -/
theorem spnCtlWrite_on (s : State) (d : Nat) (hg : s.lathe.going = []) (hen : bitAt d 0 = true) (hwas : s.spnEn = false) :
    ∃ t, s.spnCtlWrite d = (stOK, t) ∧ SpindleAcquires d s t := by
  have hoff : SpindleStep ctlFlds s (s.setWord 0x100 (ctlWord d)) := (SpindleStep.refl s).setWord (by decide) _
  unfold State.spnCtlWrite
  extract_lets was en t _ _ _ u w _ v
  have ht : t = s.setWord 0x100 (ctlWord d) := rfl
  have hu : SpindleStep (ctlFlds.drop 1) t u := (SpindleStep.refl t).set (by decide) 1
  have huw : SpindleStep [F.SPN_STAT_SOURCE] u w := (SpindleStep.refl u).set (by decide) _
  have hwv : SpindleStep [F.SPN_STAT_SOURCE] w v := (SpindleStep.refl w).spn _
  have htv := hu.trans ((huw.trans hwv).mono (by decide))
  have hr := (takeRoles_step v).mono (gs := roleFlds ++ latheFlds) (by decide)
  have hrg : v.takeRoles.lathe.going = [] := hr.going (htv.going ((ht ▸ hoff).going hg))
  have hvt := hr.trans ((noteLathe_step v.takeRoles hrg).mono (by decide))
  have hctl : ∀ f : Fld, f.off = 0x100 → f.lo + f.w ≤ 18 → (∀ g ∈ ctlFlds.drop 1, g.apart f = true) → v.get 0 f = bitsOf d f.lo f.w :=
    fun f hf hw hap => by rw [htv.get f hap, ht, get_ctlWord s d f hf hw]
  obtain ⟨m, m2, hspn⟩ := takeRoles_spn v
  rw [if_neg (show ¬(was && bitAt d 1 != s.beaconMode) = true by simp [was, hwas]), if_neg (show ¬(!en) = true by simp [en, hen]),
    if_neg (show ¬was = true by simp [was, hwas])]
  refine ⟨v.takeRoles.noteLathe, rfl, (hoff.trans (htv.mono (by decide))).trans (hvt.mono (by decide)), ?_, ?_, ?_, ?_, ?_⟩
  · rw [hvt.word 0x100 (by decide), htv.word 0x100 (by decide), ht, State.word_setWord, if_pos rfl]
  · rw [State.spnState, hvt.get _ (by decide), (huw.trans hwv).get _ (by decide)]
    exact State.get_set_same t 0 1 _ (by decide)
  · rw [noteLathe_spn _ hrg, hspn]
    exact hctl _ rfl (by decide) (by decide)
  · rw [noteLathe_spn _ hrg, hspn]
    exact hctl _ rfl (by decide) (by decide)
  · rw [noteLathe_spn _ hrg, hspn]
    exact hctl _ rfl (by decide) (by decide)

end Sys2Proof.Safety

namespace Sys2Proof.Safety
open Sys2Proof.Machine

/-- A write of SPN_CTL through the CFG port follows the register's own rule. -/
theorem regAccess_spnCtl (s u : State) (d st : Nat) (hok : s.accCheck 0x100 = stOK) (hw : s.spnCtlWrite d = (st, u)) :
    s.regAccess .cfg true 0x100 d = (u.recordAcc .cfg true 0x100 d st).accEnd .cfg 0 st :=
  State.regAccess_write_glob_status s u .cfg 0x100 d st (by decide) hok (State.rowAt_low_glob s.build 0x100 (by decide)) hw

/-- A refused write of SPN_CTL leaves the report of its access. -/
theorem spnCtlRow_refused (s : State) (data : Word) (hf : CfgFree s) (hq : Quiet s) (hok : s.accCheck 0x100 = stOK)
    (h : (s.spnEn && bitAt data.toNat 1 != s.beaconMode) = true) :
    ∃ t, exec (.spnCtlWrite data) s = .next t ∧ t.ram = s.ram ∧ t.sems = s.sems ∧ t.out = s.out ++ [.cfgAck 0 stBADCMD] ∧
      t.spn = s.spn ∧ t.regs = s.regs := by
  have hu := regAccess_spnCtl (hostAsked s true 0x100 data.toNat) _ data.toNat stBADCMD hok (spnCtlWrite_refused _ _ h)
  rw [State.recordAcc_of_ne _ _ _ _ _ _ (by decide)] at hu
  have hstep := report_step (hostAsked s true 0x100 data.toNat) 0 (AccBy.src .cfg) stBADCMD
    (packFields [(28, 0x100), (1, bit true), (1, bit (AccBy.cfg == .dbg)), (2, 0), (32, if true then data.toNat else 0)])
  refine ⟨_, atHost_of_step hf hq hu hstep (by decide), ?_⟩
  rw [State.report_access _ _ _ _ (.inl rfl)]
  exact ⟨rfl, rfl, accEnd_cfg_out .., rfl, rfl⟩

/-- A write of SPN_CTL that its rule takes leaves what that rule leaves, and is acknowledged. -/
theorem spnCtlRow_taken {fs : List Fld} {u : State} (s : State) (data : Word) (hf : CfgFree s) (hq : Quiet s)
    (hok : s.accCheck 0x100 = stOK) (hw : (hostAsked s true 0x100 data.toNat).spnCtlWrite data.toNat = (stOK, u))
    (hstep : SpindleStep fs (hostAsked s true 0x100 data.toNat) u) (hfs : ∀ g ∈ fs, g.apart F.MIR_CTL_TRMODE = true) :
    exec (.spnCtlWrite data) s = .next (u.accEnd .cfg 0 stOK) ∧ (u.accEnd .cfg 0 stOK).ram = s.ram ∧
      (u.accEnd .cfg 0 stOK).sems = s.sems ∧ (u.accEnd .cfg 0 stOK).out = s.out ++ [.cfgAck 0 stOK] := by
  have hu := regAccess_spnCtl (hostAsked s true 0x100 data.toNat) u data.toNat stOK hok hw
  rw [State.recordAcc_ok] at hu
  have hout : u.out = s.out := (congrArg State.out hstep.back :)
  exact ⟨atHost_of_step hf hq hu hstep hfs, (congrArg State.ram hstep.back :), (congrArg State.sems hstep.back :),
    by rw [accEnd_cfg_out, hout]⟩

/-- The word that a read of SPN_NOW_LO captures in SPN_NOW_HI (R56). -/
def nowWord (s : State) : Word := BitVec.ofNat 32 (packFields [(8, s.spn.turn / 2 ^ 32), (11, s.spn.notch), (3, s.spn.phase)])

/-- The captured word holds the high bits of the turn count, the notch index and the cycle in their fields. -/
theorem get_nowWord (s u : State) (ht : s.spn.turn < 2 ^ 40) (hn : s.spn.notch < 2048) (hp : s.spn.phase < 8)
    (hu : u.word 0x114 = nowWord s) : u.get 0 F.SPN_NOW_HI_TURN_HI = s.spn.turn / 2 ^ 32 ∧ u.get 0 F.SPN_NOW_HI_NOTCH = s.spn.notch ∧
      u.get 0 F.SPN_NOW_HI_PHASE = s.spn.phase := by
  have hpack : packFields [(8, s.spn.turn / 2 ^ 32), (11, s.spn.notch), (3, s.spn.phase)] =
      s.spn.turn / 2 ^ 32 + 256 * (s.spn.notch + 2048 * s.spn.phase) := by
    have h8 : s.spn.turn / 2 ^ 32 < 2 ^ 8 := by omega
    simp only [packFields, Nat.mod_eq_of_lt h8, Nat.mod_eq_of_lt (show s.spn.notch < 2 ^ 11 from hn),
      Nat.mod_eq_of_lt (show s.spn.phase < 2 ^ 3 from hp)]
    ring
  have hget : ∀ f : Fld, f.off = 0x114 → u.get 0 f =
      (s.spn.turn / 2 ^ 32 + 256 * (s.spn.notch + 2048 * s.spn.phase)) % 2 ^ 32 / 2 ^ f.lo % 2 ^ f.w := fun f hf => by
    rw [State.get, hf, Nat.zero_add, hu, nowWord, wordField, BitVec.toNat_ofNat, hpack, bitsOf]
  refine ⟨(hget _ rfl).trans ?_, (hget _ rfl).trans ?_, (hget _ rfl).trans ?_⟩
  · show _ % 2 ^ 32 / 2 ^ 0 % 2 ^ 8 = _
    omega
  · show _ % 2 ^ 32 / 2 ^ 8 % 2 ^ 11 = _
    omega
  · show _ % 2 ^ 32 / 2 ^ 19 % 2 ^ 3 = _
    omega

/-- A read of SPN_NOW_LO through the CFG port. -/
theorem spnNowRow (s : State) (hf : CfgFree s) (hq : Quiet s) (hok : s.accCheck 0x110 = stOK) : exec .spnNowRead s =
    .next (((hostAsked s false 0x110 0).setWord 0x114 (nowWord s)).accEnd .cfg (BitVec.ofNat 32 s.spn.turn) stOK) := by
  have hread : (hostAsked s false 0x110 0).readGlob 0x110 =
      (BitVec.ofNat 32 s.spn.turn, (hostAsked s false 0x110 0).setWord 0x114 (nowWord s)) := rfl
  have hu := State.regAccess_read_glob (hostAsked s false 0x110 0) _ .cfg 0x110 0 _ (by decide) hok (State.rowAt_low_glob s.build 0x110 (by decide)) hread
  have hstep := (SpindleStep.refl (hostAsked s false 0x110 0)).setWord (fs := [⟨0x114, 0, 32⟩]) (a := 0x114) (by decide) (nowWord s)
  exact atHost_of_step hf hq hu hstep (by decide)

/-- Settles O27: the rule of SPN_CTL by its four cases, and the word that a read of SPN_NOW_LO captures. -/
theorem spindleControl : Obligations.SpindleControl := by
  unfold Obligations.SpindleControl
  refine ⟨fun s data hf hq hok => ?_, fun s hf hq hok hturn hnotch hphase => ?_⟩
  · have hram : ∀ t : State, t.ram = s.ram → ∀ a, t.ramByte a = s.ramByte a := fun t h a => by rw [State.ramByte, h, State.ramByte]
    by_cases href : (s.spnEn && bitAt data.toNat 1 != s.beaconMode) = true
    · obtain ⟨t, hexec, hr, hsems, hrest⟩ := spnCtlRow_refused s data hf hq hok href
      exact ⟨t, hexec, hram t hr, hsems, by rw [if_pos href]; exact hrest⟩
    · have hno : (s.spnEn && bitAt data.toNat 1 != s.beaconMode) = false := by simpa using href
      have hgoing : (hostAsked s true 0x100 data.toNat).lathe.going = [] := hq.going
      cases hen : bitAt data.toNat 0 with
      | false =>
        obtain ⟨u, hw, hoff⟩ := spnCtlWrite_off (hostAsked s true 0x100 data.toNat) data.toNat hgoing hno hen
        obtain ⟨hexec, hr, hsems, hout⟩ := spnCtlRow_taken s data hf hq hok hw hoff.step (by decide)
        refine ⟨_, hexec, hram _ hr, hsems, ?_⟩
        rw [if_neg href]
        exact ⟨hout, hoff.word, fun _ => ⟨hoff.state, hoff.turn, hoff.notch, hoff.locked, hoff.source, hoff.susp⟩, nofun, nofun⟩
      | true =>
        cases hwas : s.spnEn with
        | false =>
          obtain ⟨u, hw, hon⟩ := spnCtlWrite_on (hostAsked s true 0x100 data.toNat) data.toNat hgoing hen hwas
          obtain ⟨hexec, hr, hsems, hout⟩ := spnCtlRow_taken s data hf hq hok hw hon.step (by decide)
          refine ⟨_, hexec, hram _ hr, hsems, ?_⟩
          rw [if_neg (by simp)]
          exact ⟨hout, hon.word, nofun, fun _ _ => ⟨hon.state, hon.role, hon.rport, hon.rport2⟩, nofun⟩
        | true =>
          have hw := spnCtlWrite_kept (hostAsked s true 0x100 data.toNat) data.toNat hno hen hwas
          have hstep := (SpindleStep.refl (hostAsked s true 0x100 data.toNat)).setWord (fs := [ctlFld]) (a := 0x100) (by decide) (ctlWord data.toNat)
          obtain ⟨hexec, hr, hsems, hout⟩ := spnCtlRow_taken s data hf hq hok hw hstep (by decide)
          refine ⟨_, hexec, hram _ hr, hsems, ?_⟩
          rw [if_neg (hwas ▸ href)]
          exact ⟨hout, (State.word_setWord _ _ _ _).trans (if_pos rfl), nofun, nofun,
            fun _ _ => ⟨rfl, hstep.get F.SPN_STAT_STATE (by decide)⟩⟩
  · have hword : ∀ b, (((hostAsked s false 0x110 0).setWord 0x114 (nowWord s)).accEnd .cfg (BitVec.ofNat 32 s.spn.turn) stOK).word b =
        if b = 0x114 then nowWord s else s.word b := fun b => by rw [accEnd_cfg_word, State.word_setWord, hostAsked_word]
    obtain ⟨hhi, hno, hph⟩ := get_nowWord s _ hturn hnotch hphase ((hword 0x114).trans (if_pos rfl))
    exact ⟨_, spnNowRow s hf hq hok, by rw [accEnd_cfg_out, State.setWord_out, hostAsked_out], hhi, hno, hph,
      fun a ha => (hword a).trans (if_neg ha), hostOf_setWord ..⟩

end Sys2Proof.Safety
end

/-! ### The resume edge of the Lathe plane -/

section
namespace Sys2Proof.Safety
open Sys2Proof.Machine

/-- RUN with a stall hold whose edge has come and a rate hold, where LATHE_SUSP does not show the holds. -/
def unshownHold : State :=
  let s := (State.reset.set 0 F.SPN_STAT_STATE 2).set 0 F.SPN_STAT_LATHE_SUSP 0
  { s with boot := 0, cyc := 1, spn := { s.spn with stallHold := true, rateHold := true, resumeIn := some 0 } }

theorem quiet_unshownHold : Quiet unshownHold :=
  ⟨rfl, rfl, rfl, rfl, rfl, rfl, rfl, rfl, rfl, rfl, rfl, rfl, .inl rfl, rfl, rfl, rfl, rfl, rfl, rfl⟩

/-- The cycle from which the plane is suspended in the state of an outcome. -/
def suspOf : Host.Outcome State Fault Refusal → Nat
  | .next t => t.lathe.susp
  | _ => 0

/-- The rate hold keeps the plane held, so that its suspension is noted at the present cycle. -/
theorem suspOf_resume_unshownHold : suspOf (exec .latheResumeEdge unshownHold) = 1 := by decide +kernel

/-- Refutes O59: where a rate hold stands (R41) and LATHE_SUSP does not show it yet, the resume edge notes when the suspension begins,
which is neither Spindle time nor a register (R173). -/
theorem not_ringsAndLaterEvents : ¬ Obligations.RingsAndLaterEvents := by
  unfold Obligations.RingsAndLaterEvents
  rintro ⟨-, -, -, -, -, -, hlater⟩
  obtain ⟨-, -, -, hresume, -⟩ := hlater unshownHold rfl
  obtain ⟨t, ht, -, hframe⟩ := hresume (by decide +kernel) rfl rfl quiet_unshownHold
  have hone : t.lathe.susp = 1 := by simpa [suspOf, ht] using suspOf_resume_unshownHold
  have hzero : t.lathe.susp = 0 := congrArg (fun s : State => s.lathe.susp) hframe
  exact absurd (hone.symm.trans hzero) (by decide)

end Sys2Proof.Safety
end

/-! ### What the shape of the hardware's state rests on -/

/-! For each function of the model on the way of a step, `f_hw` says that it leaves the memories, the turn count and the notch
index as they are, or `f_ok` that it keeps their shape; the lemmas stand in the order of the model's functions. -/

section
namespace Sys2Proof.Machine.State

/-- What the shape of the hardware's state rests on: the memories, the turn count and the notch index. -/
def hw (s : State) : List (Nat × Byte) × Nat × Nat := (s.ram, s.spn.turn, s.spn.notch)

/- `hw_def`, `hw_mk` and the lemmas like them hold by computation. They are proved by `(rfl)`, which simp does not take for a
definitional unfolding, so that it can also use them on the hypothesis of another lemma. -/

theorem hw_def (s : State) : (s.ram, s.spn.turn, s.spn.notch) = s.hw := (rfl)

theorem hw_mk build regs cyc tmo sub spn tlm snapTlm snapDepth trace traceq probing mirAt snapDue traceAt postLeft reports log
    pendTurn paceEdge wires buf cur own owed crw rr refl burl injSt sendq rx arrivals ram ramBad txns nextId deadTags
    tapw mwNext lathe ops reqs sslots rslots gens rankC pathC smapC blank spills holds relayq farq tapq smsgs rlands
    lazies selPtr bigs accJobs bents bslots ownAns pwReq clmPtr clmLast clmEff colrecs colls readys scans trackers
    auxSeen buckets psns rings squashTo hwatch hgens accs cfgWait cfgVal jtag cfgAck sems watches ntfq bars realigns
    armed links asms exits rtx injecting filt keys fuse boot gov trans autos drain transq upq lastSw pswEn isoLow
    rankCnt xheld out free pending :
    hw (State.mk build regs cyc tmo sub spn tlm snapTlm snapDepth trace traceq probing mirAt snapDue traceAt postLeft reports log
        pendTurn paceEdge wires buf cur own owed crw rr refl burl injSt sendq rx arrivals ram ramBad txns nextId
        deadTags tapw mwNext lathe ops reqs sslots rslots gens rankC pathC smapC blank spills holds relayq farq tapq
        smsgs rlands lazies selPtr bigs accJobs bents bslots ownAns pwReq clmPtr clmLast clmEff colrecs colls readys
        scans trackers auxSeen buckets psns rings squashTo hwatch hgens accs cfgWait cfgVal jtag cfgAck sems watches
        ntfq bars realigns armed links asms exits rtx injecting filt keys fuse boot gov trans autos drain transq upq
        lastSw pswEn isoLow rankCnt xheld out free pending) = (ram, spn.turn, spn.notch) := (rfl)

@[simp] theorem hw_ite (c : Prop) [Decidable c] (a b : State) :
    (if c then a else b).hw = if c then a.hw else b.hw := apply_ite hw c a b

/-- A fold of steps that keep the hardware's shape keeps it. -/
@[simp] theorem hw_foldl {α : Type} (f : State → α → State) (l : List α) (s : State)
    (h : ∀ s x, (f s x).hw = s.hw) : (l.foldl f s).hw = s.hw := by
  induction l generalizing s with
  | nil => rfl
  | cons x r ih => rw [List.foldl_cons, ih, h]

/-- A fold that carries a value beside the state. -/
@[simp] theorem hw_foldl_snd {α β : Type} (f : α × State → β → α × State) (l : List β) (p : α × State)
    (h : ∀ p x, (f p x).2.hw = p.2.hw) : (l.foldl f p).2.hw = p.2.hw := by
  induction l generalizing p with
  | nil => rfl
  | cons x r ih => rw [List.foldl_cons, ih, h]

@[simp] theorem hw_foldl_fst {α β : Type} (f : State × α → β → State × α) (l : List β) (p : State × α)
    (h : ∀ p x, (f p x).1.hw = p.1.hw) : (l.foldl f p).1.hw = p.1.hw := by
  induction l generalizing p with
  | nil => rfl
  | cons x r ih => rw [List.foldl_cons, ih, h]

@[simp] theorem snd_ite {α β : Type} (c : Prop) [Decidable c] (a b : α × β) :
    (if c then a else b).2 = if c then a.2 else b.2 := apply_ite Prod.snd c a b

@[simp] theorem hw_elim {α : Type} (o : Option α) (s : State) (f : α → State) (h : ∀ x, (f x).hw = s.hw) :
    (o.elim s f).hw = s.hw := by
  cases o with
  | none => rfl
  | some x => exact h x

theorem hw_snd_of_eq {α : Type} {p : α × State} {x : α} {t : State} (h : p = (x, t)) : t.hw = p.2.hw := h ▸ rfl

/-- The shape of the hardware's state, said of the part of the state that it rests on. -/
def HwOk (p : List (Nat × Byte) × Nat × Nat) : Prop :=
  Memory.wf p.1 = true ∧ p.2.1 < 2 ^ 40 ∧ p.2.2 < 2048

theorem hardwareWf_iff (s : State) : Safety.HardwareWf s ↔ HwOk s.hw :=
  ⟨fun ⟨hram, hturn, hnotch⟩ => ⟨hram, hturn, hnotch⟩, fun ⟨hram, hturn, hnotch⟩ => ⟨hram, hturn, hnotch⟩⟩

@[simp] theorem hwOk_ite (c : Prop) [Decidable c] (p q) : HwOk (if c then p else q) ↔ (c → HwOk p) ∧ (¬c → HwOk q) := by
  split <;> simp [*]

theorem ram_of_hw {s t : State} (h : t.hw = s.hw) : t.ram = s.ram := congrArg Prod.fst h

theorem turn_of_hw {s t : State} (h : t.hw = s.hw) : t.spn.turn = s.spn.turn := congrArg (·.2.1) h

theorem notch_of_hw {s t : State} (h : t.hw = s.hw) : t.spn.notch = s.spn.notch := congrArg (·.2.2) h

/-- Spindle time is set, and the memories stay. -/
theorem hwOk_of_ram {s t : State} (hs : HwOk s.hw) (hram : t.ram = s.ram) (hturn : t.spn.turn < 2 ^ 40)
    (hnotch : t.spn.notch < 2048) : HwOk t.hw :=
  ⟨(congrArg (Memory.wf ·) hram).trans hs.1, hturn, hnotch⟩

/-- A fold of steps that keep the hardware's state well-formed keeps it so. -/
theorem hwOk_foldl {α : Type} (f : State → α → State) (l : List α) (s : State)
    (hf : ∀ s x, HwOk s.hw → HwOk (f s x).hw) (hs : HwOk s.hw) : HwOk (l.foldl f s).hw := by
  induction l generalizing s with
  | nil => exact hs
  | cons x r ih => exact ih (f s x) (hf s x hs)

end Sys2Proof.Machine.State
end

/-! ### The shape of the hardware's state: the state at reset -/

section
namespace Sys2Proof.Machine.State

@[simp] theorem resetOf_ok (b : Build) : HwOk (State.resetOf b).hw :=
  ⟨rfl, Nat.two_pow_pos 40, Nat.two_pow_pos 11⟩

end Sys2Proof.Machine.State
end

/-! ### The shape of the hardware's state: registers, reports and the ports -/

section
namespace Sys2Proof.Machine.State

@[simp] theorem setWord_hw (s : State) (a w) : (s.setWord a w).hw = s.hw := (rfl)
@[simp] theorem set_hw (s : State) (base f v) : (s.set base f v).hw = s.hw := (rfl)
@[simp] theorem bump_hw (s : State) (base f n) : (s.bump base f n).hw = s.hw := (rfl)
@[simp] theorem snapUnits_hw (s : State) (east) : (s.snapUnits east).hw = s.hw := (rfl)

@[simp] theorem snapEast_hw (s : State) (c) : (s.snapEast c).hw = s.hw := by
  unfold snapEast
  split <;> simp [↓hw_mk, hw_def]

@[simp] theorem passCyc_hw (s : State) (c) : (s.passCyc c).hw = s.hw := by
  simp only [passCyc]
  repeat' split
  all_goals simp [↓hw_mk, hw_def]

@[simp] theorem passTo_hw (s : State) (d) : (s.passTo d).hw = s.hw := by simp [passTo, ↓hw_mk, hw_def]
@[simp] theorem drawFree_hw (s : State) : (s.drawFree).hw = s.hw := (rfl)
@[simp] theorem drive_hw (s : State) (o) : (s.drive o).hw = s.hw := (rfl)
@[simp] theorem setDom_hw (s : State) (d v) : (s.setDom d v).hw = s.hw := (rfl)
@[simp] theorem countSeverity_hw (s : State) (sev n) : (s.countSeverity sev n).hw = s.hw := by simp [countSeverity]
@[simp] theorem completion_hw (s : State) (st) : (s.completion st).hw = s.hw := by simp [completion]

@[simp] theorem report_hw (s : State) (cls src status detail) : (s.report cls src status detail).hw = s.hw := by
  simp [report, ↓hw_mk, hw_def]

@[simp] theorem errBit_hw (s : State) (base f cls src status obj) : (s.errBit base f cls src status obj).hw = s.hw := by
  simp [errBit]

end Sys2Proof.Machine.State
end

/-! ### The shape of the hardware's state: the mesh -/

section
namespace Sys2Proof.Machine.State

@[simp] theorem tlmBump_hw (s : State) (a) : (s.tlmBump a).hw = s.hw := (rfl)
@[simp] theorem setRtrOut_hw (s : State) (n port v) : (s.setRtrOut n port v).hw = s.hw := by simp only [setRtrOut, setWord_hw]

@[simp] theorem markFailed_hw (s : State) (out n pl port) : (s.markFailed out n pl port).hw = s.hw := by
  unfold markFailed
  repeat' split
  all_goals simp [↓hw_mk, hw_def]

@[simp] theorem takeCredit_hw (s : State) (link vc) : (s.takeCredit link vc).hw = s.hw := (rfl)

@[simp] theorem giveCredit_hw (s : State) (link vc n) : (s.giveCredit link vc n).hw = s.hw := by
  simp [giveCredit, ↓hw_mk, hw_def]

@[simp] theorem setBuf_hw (s : State) (k l) : (s.setBuf k l).hw = s.hw := (rfl)
@[simp] theorem drainFront_hw (s : State) (k) : (s.drainFront k).hw = s.hw := by simp [drainFront]
@[simp] theorem notePeak_hw (s : State) (k) : (s.notePeak k).hw = s.hw := by simp [notePeak]

@[simp] theorem writeTrace_hw (s : State) (r) : (s.writeTrace r).hw = s.hw := by
  unfold writeTrace
  extract_lets mode full wr t s1 s2 s3 s4
  have h1 : s1.hw = s.hw := rfl
  have h4 : s4.hw = s.hw := by simp only [s4, s3, s2, hw_ite, set_hw, h1, ite_self]
  split
  · rfl
  · split
    · rw [bump_hw]
    · split
      · rfl
      · split
        · exact h4
        · exact h4
        · simp only [hw_ite, set_hw, ite_self]
          exact h4

@[simp] theorem trigger_hw (s : State) (p idx) : (s.trigger p idx).hw = s.hw := by
  simp only [trigger, ↓hw_mk, hw_def, hw_ite, ite_self, report_hw, set_hw]

@[simp] theorem traceTake_hw (s : State) : (s.traceTake).hw = s.hw := by
  unfold traceTake
  split <;> simp [↓hw_mk, hw_def]

@[simp] theorem streamRun_hw (s : State) (x1) : (s.streamRun x1).hw = s.hw := by
  fun_induction streamRun <;> simp_all [↓hw_mk, hw_def]

@[simp] theorem traceRun_hw (s : State) (x1) : (s.traceRun x1).hw = s.hw := by
  fun_induction traceRun <;> simp_all []

@[simp] theorem traceGo_hw (s : State) : (s.traceGo).hw = s.hw := by simp [traceGo]
@[simp] theorem traceIn_hw (s : State) (e) : (s.traceIn e).hw = s.hw := by simp [traceIn, ↓hw_mk, hw_def]

@[simp] theorem probeOne_hw (n pl port notch phase pk) (s : State) (p) :
    (probeOne n pl port notch phase pk s p).hw = s.hw := by
  simp [probeOne]

@[simp] theorem probe_hw (s : State) (n pl port notch phase pk) : (s.probe n pl port notch phase pk).hw = s.hw := by
  simp [probe]

@[simp] theorem probeLaunch_hw (s : State) (n pl port vc pk flits) : (s.probeLaunch n pl port vc pk flits).hw = s.hw := by
  simp [probeLaunch, ↓hw_mk, hw_def]

@[simp] theorem probeFlit_hw (s : State) (link f) : (s.probeFlit link f).hw = s.hw := by
  simp only [probeFlit]
  split <;> simp [↓hw_mk, hw_def]

@[simp] theorem probeLt_hw (s : State) (n port) : (s.probeLt n port).hw = s.hw := by simp [probeLt]
@[simp] theorem setArrived_hw (s : State) (e l) : (s.setArrived e l).hw = s.hw := (rfl)
@[simp] theorem xdrop_hw (s : State) (e k) : (s.xdrop e k).hw = s.hw := by simp [xdrop]
@[simp] theorem arrive_hw (s : State) (e a) : (s.arrive e a).hw = s.hw := by simp [arrive]
@[simp] theorem deliverLt_hw (s : State) (e link f) : (s.deliverLt e link f).hw = s.hw := by simp [deliverLt, ↓hw_mk, hw_def]
@[simp] theorem deliver_hw (s : State) (e link pl f) : (s.deliver e link pl f).hw = s.hw := by simp [deliver, ↓hw_mk, hw_def]

theorem takeArrival_hw {s : State} {e} {p : Arrival → Bool} {a' v} (h : s.takeArrival e p = some (a', v)) : v.hw = s.hw := by
  simp only [takeArrival] at h
  split at h
  · cases h
  · cases h
    simp

@[simp] theorem putFlit_hw (s : State) (link f) : (s.putFlit link f).hw = s.hw := by
  unfold putFlit
  extract_lets s1 n pl port i gov s2 s3 s4 s5
  have h1 : s1.hw = s.hw := by simp only [s1, hw_ite, takeCredit_hw, ite_self]
  have h2 : s2.hw = s.hw := h1
  have h5 : s5.hw = s.hw := by simp only [s5, s4, s3, hw_ite, probeFlit_hw, tlmBump_hw, h2, ite_self]
  split
  · exact h1
  · split
    · exact h5
    · rw [deliver_hw, h5]
    · exact h5

theorem nextFlit_hw {s : State} {link f v} (h : s.nextFlit link = some (f, v)) : v.hw = s.hw := by
  simp only [nextFlit] at h
  split at h
  · cases h
  · split at h
    · split at h
      · cases h
      · cases h
        simp
    · split at h <;> cases h
      rfl

@[simp] theorem advanceFlit_hw (s : State) (link up) : (s.advanceFlit link up).hw = s.hw := by
  unfold advanceFlit
  split
  · rename_i h
    simp [↓hw_mk, hw_def, nextFlit_hw h]
  · simp

@[simp] theorem putIdle_hw (s : State) (link vc) : (s.putIdle link vc).hw = s.hw := by
  unfold putIdle
  repeat' split
  all_goals simp [↓hw_mk, hw_def]

@[simp] theorem advanceOwned_hw (s : State) (link) : (s.advanceOwned link).hw = s.hw := by
  unfold advanceOwned
  split <;> simp

@[simp] theorem dropRefl_hw (s : State) (n) : (s.dropRefl n).hw = s.hw := by simp [dropRefl, ↓hw_mk, hw_def]
@[simp] theorem reflect_hw (s : State) (n pk st) : (s.reflect n pk st).hw = s.hw := by simp [reflect, ↓hw_mk, hw_def]
@[simp] theorem noteRun_hw (s : State) (key c d) : (s.noteRun key c d).hw = s.hw := (rfl)

@[simp] theorem startInjection_hw (s : State) (link) : (s.startInjection link).hw = s.hw := by
  simp only [startInjection]
  repeat' split
  all_goals simp [↓hw_mk, hw_def]

@[simp] theorem advanceLink_hw (s : State) (link) : (s.advanceLink link).hw = s.hw := by
  unfold advanceLink
  repeat' split
  all_goals simp

@[simp] theorem inject_hw (s : State) (link pk) : (s.inject link pk).hw = s.hw := (rfl)

@[simp] theorem sendFrom_hw (s : State) (ep pk) : (s.sendFrom ep pk).hw = s.hw := by
  unfold sendFrom
  split <;> simp

@[simp] theorem pump_hw (s : State) (link x1) : (s.pump link x1).hw = s.hw := by
  fun_induction pump <;> simp_all []

end Sys2Proof.Machine.State
end

/-! ### The shape of the hardware's state: the routers -/

section
namespace Sys2Proof.Machine.State

@[simp] theorem rtrErr_hw (s : State) (n pl port f cls status) : (s.rtrErr n pl port f cls status).hw = s.hw := by
  simp [rtrErr]

@[simp] theorem discarded_hw (s : State) (n k) : (s.discarded n k).hw = s.hw := by simp only [discarded, bump_hw]

theorem takeWire_hw {s : State} {link} {a' v} (h : s.takeWire link = some (a', v)) : v.hw = s.hw := by
  simp only [takeWire] at h
  split at h
  · cases h
  · cases h
    simp [↓hw_mk, hw_def]

@[simp] theorem writeBuf_hw (s : State) (k f) : (s.writeBuf k f).hw = s.hw := by simp [writeBuf]
@[simp] theorem dropFlit_hw (s : State) (link k f) : (s.dropFlit link k f).hw = s.hw := by simp [dropFlit, ↓hw_mk, hw_def]

@[simp] theorem headFlit_hw (s : State) (n pl port link f) : (s.headFlit n pl port link f).hw = s.hw := by
  simp only [headFlit]
  split <;> simp only [↓hw_mk, hw_def, hw_ite, ite_self, discarded_hw, dropFlit_hw, rtrErr_hw, writeBuf_hw]

@[simp] theorem bodyFlit_hw (s : State) (n pl port link f) : (s.bodyFlit n pl port link f).hw = s.hw := by
  simp only [bodyFlit]
  split <;> simp [↓hw_mk, hw_def]

@[simp] theorem decodedFlit_hw (s : State) (n pl port link f d raw) : (s.decodedFlit n pl port link f d raw).hw = s.hw := by
  unfold decodedFlit
  split <;> simp

@[simp] theorem failVc_hw (n pl port) (s : State) (vc) : (failVc n pl port s vc).hw = s.hw := by
  simp only [failVc]
  split <;> simp [↓hw_mk, hw_def]

@[simp] theorem failedFlit_hw (s : State) (link f) : (s.failedFlit link f).hw = s.hw := by simp [failedFlit]

@[simp] theorem failInput_hw (s : State) (n pl port) : (s.failInput n pl port).hw = s.hw := by
  simp [failInput, ↓hw_mk, hw_def]

theorem laneStep_hw {s : State} {n i start v} (h : s.laneStep n i start = some v) : v.hw = s.hw := by
  simp only [laneStep] at h
  split at h
  · cases h
  · split at h
    · cases h
    · rw [Option.ite_none_left_eq_some, Option.some.injEq] at h
      obtain ⟨-, rfl⟩ := h
      simp

@[simp] theorem laneRun_hw (n i start) (k : Nat) (s : State) : (laneRun n i start k s).hw = s.hw := by
  induction k generalizing s start with
  | zero => rfl
  | succ k ih =>
    unfold laneRun
    split
    · rfl
    · rename_i h
      rw [ih, laneStep_hw h]

@[simp] theorem receiveFlit_hw (s : State) (n pl port upset sbp) : (s.receiveFlit n pl port upset sbp).hw = s.hw := by
  unfold receiveFlit
  extract_lets link s0
  have hin : s0.hw = s.hw := by
    dsimp only [s0]
    split <;> simp
  split
  · split <;> simp [hin]
  · rename_i h
    have hw := (takeWire_hw h).trans hin
    split
    · simp [hin]
    · split
      · exact hin
      · split
        · simp [hw]
        · dsimp only
          refine (hw_foldl _ _ _ fun s o => ?_).trans ?_
          · split <;> simp
          · split <;> split <;> simp [hw]

@[simp] theorem isolatedFlit_hw (s : State) (n pl port) : (s.isolatedFlit n pl port).hw = s.hw := by
  simp only [isolatedFlit]
  split
  · simp
  · rename_i h
    simp [takeWire_hw h]

@[simp] theorem creditVc_hw (n pl port cr) (s : State) (vc) : (creditVc n pl port cr s vc).hw = s.hw := by
  simp [creditVc, ↓hw_mk, hw_def]

@[simp] theorem receiveCredit_hw (s : State) (n pl port upset crp) : (s.receiveCredit n pl port upset crp).hw = s.hw := by
  unfold receiveCredit
  extract_lets link cr s1
  have h1 : s1.hw = s.hw := hw_foldl _ _ _ fun s vc => rfl
  split
  · simp [h1]
  · split
    · simp [h1]
    · split <;> simp [h1]

@[simp] theorem stallBump_hw (n pl port) (s : State) (vc) : (stallBump n pl port s vc).hw = s.hw := by simp [stallBump]

@[simp] theorem cutBranches_hw (s : State) (n pl port) : (s.cutBranches n pl port).hw = s.hw := by
  unfold cutBranches
  split
  · rfl
  · refine hw_foldl _ _ _ fun s i => hw_foldl _ _ _ fun s vc => ?_
    dsimp only
    split
    · rfl
    · split <;> simp [↓hw_mk, hw_def]

@[simp] theorem grant_hw (s : State) (n pl port c) : (s.grant n pl port c).hw = s.hw := by simp [grant, ↓hw_mk, hw_def]
@[simp] theorem stalled_hw (n pl port) (s : State) (waiting) : (stalled n pl port s waiting).hw = s.hw := by simp [stalled]
@[simp] theorem stallOwned_hw (s : State) (link) : (s.stallOwned link).hw = s.hw := by simp [stallOwned]

@[simp] theorem arbitrate_hw (s : State) (n pl port) : (s.arbitrate n pl port).hw = s.hw := by
  simp only [arbitrate]
  repeat' split
  all_goals simp

@[simp] theorem reflectEntry_hw (s : State) (n vc) : (s.reflectEntry n vc).hw = s.hw := by
  simp only [reflectEntry]
  split <;> simp [↓hw_mk, hw_def]

@[simp] theorem reflectHead_hw (s : State) (n pl port vc) : (s.reflectHead n pl port vc).hw = s.hw := by
  simp only [reflectHead]
  repeat' split
  all_goals simp

@[simp] theorem kerfCount_hw (s : State) (sat nans badcode) : (s.kerfCount sat nans badcode).hw = s.hw := by simp [kerfCount]
@[simp] theorem markPass_hw (s : State) (k) : (s.markPass k).hw = s.hw := (rfl)
@[simp] theorem absorbHead_hw (s : State) (k len) : (s.absorbHead k len).hw = s.hw := by simp [absorbHead]

@[simp] theorem burlAbsorb_hw (s : State) (n port vc) : (s.burlAbsorb n port vc).hw = s.hw := by
  simp only [burlAbsorb]
  repeat' split
  all_goals simp [↓hw_mk, hw_def]

@[simp] theorem burlReleaseAll_hw (s : State) (n) : (s.burlReleaseAll n).hw = s.hw := (rfl)

@[simp] theorem burlExpire_hw (s : State) (n k) : (s.burlExpire n k).hw = s.hw := by
  unfold burlExpire
  split <;> simp [↓hw_mk, hw_def]

end Sys2Proof.Machine.State
end

/-! ### The shape of the hardware's state: the on-chip memories and the unit requests -/

section
namespace Sys2Proof.Machine.State

@[simp] theorem ramPut_ok (s : State) (a v) (hs : HwOk s.hw) : HwOk (s.ramPut a v).hw :=
  ⟨ramPut_wf s a v hs.1, hs.2⟩

@[simp] theorem ramWrite_ok (s : State) (a l) (hs : HwOk s.hw) : HwOk (s.ramWrite a l).hw := by
  induction l generalizing s a with
  | nil => exact hs
  | cons v r ih => exact ih _ _ (ramPut_ok s a v hs)

@[simp] theorem ramStore_ok (s : State) (a bytes bad) (hs : HwOk s.hw) : HwOk (s.ramStore a bytes bad).hw :=
  ramWrite_ok s a bytes hs

@[simp] theorem addTxn_hw (s : State) (map port wr addr len todo got st p) :
    (s.addTxn map port wr addr len todo got st p).hw = s.hw := (rfl)

theorem issueUnit_hw {s : State} {t v} (h : s.issueUnit t = some v) : v.hw = s.hw := by
  simp only [issueUnit] at h
  split at h
  · cases h
  · split at h
    · cases h
      rfl
    · split at h
      · cases h
      · split at h
        · cases h
        · cases h
          simp [↓hw_mk, hw_def]

@[simp] theorem issueMem_hw (s : State) (n : Nat) : (s.issueMem n).hw = s.hw := by
  induction n generalizing s with
  | zero => rfl
  | succ n ih =>
    unfold issueMem
    split
    · rename_i h
      obtain ⟨t, -, ht⟩ := List.exists_of_findSome?_eq_some h
      rw [ih, issueUnit_hw ht]
    · rfl

@[simp] theorem tapPut_hw (s : State) (t o unit lathe) : (s.tapPut t o unit lathe).hw = s.hw := by
  unfold tapPut
  split <;> simp [↓hw_mk, hw_def]

@[simp] theorem tapDrain_hw (s : State) : (s.tapDrain).hw = s.hw := by simp [tapDrain, ↓hw_mk, hw_def]

@[simp] theorem crossDrop_hw (s : State) (g n) : (s.crossDrop g n).hw = s.hw := by
  unfold crossDrop
  split <;> simp

@[simp] theorem readMem_hw (s : State) (g addr len p) : (s.readMem g addr len p).hw = s.hw := by
  unfold readMem
  repeat' split
  all_goals simp

@[simp] theorem writeMem_ok (s : State) (g addr bytes bad p) (hs : HwOk s.hw) : HwOk (s.writeMem g addr bytes bad p).hw := by
  unfold writeMem
  repeat' split
  all_goals simp [hs]

@[simp] theorem tapPulse_hw (s : State) (t line) : (s.tapPulse t line).hw = s.hw := by simp [tapPulse]

theorem unitAnswered_hw {s : State} {map port wr tag data bad st} {v : State}
    (h : s.unitAnswered map port wr tag data bad st = some v) : v.hw = s.hw := by
  simp only [unitAnswered] at h
  split at h
  · cases h
  · cases h
    simp [↓hw_mk, hw_def]

@[simp] theorem unitAnswered_getD_hw (s : State) (map port wr tag data bad st) :
    ((s.unitAnswered map port wr tag data bad st).getD s).hw = s.hw := by
  cases h : s.unitAnswered map port wr tag data bad st with
  | none => rfl
  | some v => exact unitAnswered_hw h

end Sys2Proof.Machine.State
end

/-! ### The shape of the hardware's state: what the network interfaces share -/

section
namespace Sys2Proof.Machine.State

@[simp] theorem niErr_hw (s : State) (ep f st obj) : (s.niErr ep f st obj).hw = s.hw := by simp [niErr]
@[simp] theorem addReq_hw (s : State) (q) : (s.addReq q).hw = s.hw := (rfl)

@[simp] theorem ownReq_hw (s : State) (ep ctx port h pay p bad) : (s.ownReq ep ctx port h pay p bad).hw = s.hw := by
  simp [ownReq]

@[simp] theorem ownRead_hw (s : State) (ep ctx port addr len p) : (s.ownRead ep ctx port addr len p).hw = s.hw := by
  simp [ownRead]

@[simp] theorem ownWrite_ok (s : State) (ep ctx port addr bytes p bad) (hs : HwOk s.hw) :
    HwOk (s.ownWrite ep ctx port addr bytes p bad).hw := by
  simp [ownWrite, hs]

@[simp] theorem recLost_hw (s : State) (ep ctx st) : (s.recLost ep ctx st).hw = s.hw := by simp [recLost]

@[simp] theorem postRec_ok (s : State) (ep ctx kind st job ws) (hs : HwOk s.hw) :
    HwOk (s.postRec ep ctx kind st job ws).hw := by
  simp [postRec, hs]

@[simp] theorem slotDone_hw (s : State) (ep slot st value) : (s.slotDone ep slot st value).hw = s.hw := by
  unfold slotDone
  split <;> simp only [↓hw_mk, hw_def, completion_hw, set_hw, tapPulse_hw]

@[simp] theorem slotArm_hw (s : State) (ep slot wait desc index kind) :
    (s.slotArm ep slot wait desc index kind).hw = s.hw := by
  simp only [slotArm, ↓hw_mk, hw_def, set_hw]

end Sys2Proof.Machine.State
end

/-! ### The shape of the hardware's state: the Blank pools -/

section
namespace Sys2Proof.Machine.State

@[simp] theorem setBlank_hw (s : State) (ep n l) : (s.setBlank ep n l).hw = s.hw := (rfl)

@[simp] theorem allocBuf_hw (s : State) (ep b core) : (s.allocBuf ep b core).2.hw = s.hw := by
  simp only [allocBuf]
  repeat' split
  all_goals simp

@[simp] theorem allocIn_hw (s : State) (ep n) : (s.allocIn ep n).2.hw = s.hw := by
  simp only [allocIn]
  repeat' split
  all_goals simp

@[simp] theorem freeBuf_hw (s : State) (ep handle) : (s.freeBuf ep handle).hw = s.hw := (rfl)

@[simp] theorem blkFreeWrite_hw (s : State) (ep handle) : (s.blkFreeWrite ep handle).2.hw = s.hw := by
  simp only [blkFreeWrite]
  repeat' split
  all_goals simp

@[simp] theorem poolCfgWrite_hw (s : State) (ep n data) : (s.poolCfgWrite ep n data).2.hw = s.hw := by
  simp only [poolCfgWrite]
  repeat' split
  all_goals simp

end Sys2Proof.Machine.State
end

/-! ### The shape of the hardware's state: the Headstock's shared operations -/

section
namespace Sys2Proof.Machine.State

@[simp] theorem setCmds_hw (s : State) (r l) : (s.setCmds r l).hw = s.hw := (rfl)
@[simp] theorem updCmd_hw (s : State) (r idx) (f : Cmd → Cmd) : (s.updCmd r idx f).hw = s.hw := (rfl)
@[simp] theorem finishCmd_hw (s : State) (r idx st result) : (s.finishCmd r idx st result).hw = s.hw := by simp [finishCmd]
@[simp] theorem haltRing_hw (s : State) (r why) : (s.haltRing r why).hw = s.hw := by simp [haltRing]
@[simp] theorem noteAhead_hw (s : State) (r) : (s.noteAhead r).hw = s.hw := by simp [noteAhead]

@[simp] theorem armHWatch_hw (s : State) (slot r idx unit sem wtmo) :
    (s.armHWatch slot r idx unit sem wtmo).2.hw = s.hw := (rfl)

@[simp] theorem hdsSyncOp_hw (s : State) (unit op tag opnd index wtmo spec) :
    (s.hdsSyncOp unit op tag opnd index wtmo spec).hw = s.hw := (rfl)

end Sys2Proof.Machine.State
end

/-! ### The shape of the hardware's state: the sync units -/

section
namespace Sys2Proof.Machine.State

@[simp] theorem setSem_hw (s : State) (u i v) : (s.setSem u i v).hw = s.hw := (rfl)
@[simp] theorem setSemVal_hw (s : State) (u i v) : (s.setSemVal u i v).hw = s.hw := (rfl)
@[simp] theorem synErr_hw (s : State) (u f cls st detail) : (s.synErr u f cls st detail).hw = s.hw := by simp [synErr]
@[simp] theorem addWatch_hw (s : State) (w) : (s.addWatch w).hw = s.hw := (rfl)
@[simp] theorem fire_hw (s : State) (u ent st value) : (s.fire u ent st value).hw = s.hw := (rfl)
@[simp] theorem fireNew_hw (s : State) (w st value) : (s.fireNew w st value).hw = s.hw := (rfl)

@[simp] theorem walkOne_hw (u i) (a : State × Bool) (ent) : (walkOne u i a ent).1.hw = a.1.hw := by
  simp only [walkOne]
  repeat' split
  all_goals simp

@[simp] theorem walk_hw (s : State) (u i) : (s.walk u i).hw = s.hw := by
  simp only [walk, hw_foldl_fst, walkOne_hw, implies_true]

@[simp] theorem refuseOp_hw (s : State) (u pk f st value) : (s.refuseOp u pk f st value).hw = s.hw := by simp [refuseOp]
@[simp] theorem applied_hw (s : State) (u) : (s.applied u).hw = s.hw := by simp [applied]

@[simp] theorem checkOp_hw (s : State) (u pk) (ok : State → State) (hok : ∀ s, (ok s).hw = s.hw) :
    (s.checkOp u pk ok).hw = s.hw := by
  simp only [checkOp]
  repeat' split
  all_goals simp [hok]

@[simp] theorem addSub_hw (s : State) (u pk sub) : (s.addSub u pk sub).hw = s.hw := by simp [addSub]
@[simp] theorem waitOp_hw (s : State) (u pk take) : (s.waitOp u pk take).hw = s.hw := by simp [waitOp]
@[simp] theorem readOp_hw (s : State) (u pk) : (s.readOp u pk).hw = s.hw := by simp [readOp]
@[simp] theorem endWatch_hw (s : State) (w st) : (s.endWatch w st).hw = s.hw := by simp [endWatch]

@[simp] theorem cancelOp_hw (s : State) (u pk) : (s.cancelOp u pk).hw = s.hw := by
  simp only [cancelOp]
  split <;> simp

@[simp] theorem setOp_hw (s : State) (u pk) : (s.setOp u pk).hw = s.hw := by
  simp only [setOp]
  repeat' split
  all_goals simp

@[simp] theorem updBar_hw (s : State) (u b) (f : Bar → Bar) : (s.updBar u b f).hw = s.hw := (rfl)
@[simp] theorem releaseBar_hw (s : State) (u b e) : (s.releaseBar u b e).hw = s.hw := by simp [releaseBar]
@[simp] theorem unitOp_hw (s : State) (u v op job opnd inst) : (s.unitOp u v op job opnd inst).hw = s.hw := by simp [unitOp]

@[simp] theorem unitOpFar_hw (s : State) (u dest op job opnd inst) : (s.unitOpFar u dest op job opnd inst).hw = s.hw := by
  simp only [unitOpFar]
  split <;> simp

@[simp] theorem sendDown_hw (s : State) (u b x1 r e turn timed) : (s.sendDown u b x1 r e turn timed).hw = s.hw := by
  simp [sendDown]

@[simp] theorem takeDown_hw (s : State) (u b e low timed) : (s.takeDown u b e low timed).hw = s.hw := by simp [takeDown]

@[simp] theorem rootRelease_hw (s : State) (u b e turn timed) : (s.rootRelease u b e turn timed).hw = s.hw := by
  unfold rootRelease
  repeat' split
  all_goals simp

@[simp] theorem barComplete_hw (s : State) (u b) : (s.barComplete u b).hw = s.hw := by
  unfold barComplete
  repeat' split
  all_goals simp

@[simp] theorem rootReport_hw (s : State) (u b dom kid e detail) : (s.rootReport u b dom kid e detail).hw = s.hw := by
  unfold rootReport
  repeat' split
  all_goals simp

@[simp] theorem barArriveOp_hw (s : State) (u pk) : (s.barArriveOp u pk).hw = s.hw := by
  simp only [barArriveOp]
  split <;> simp

@[simp] theorem barWaitOp_hw (s : State) (u pk) : (s.barWaitOp u pk).hw = s.hw := by
  simp only [barWaitOp]
  split <;> simp

@[simp] theorem barUpOp_hw (s : State) (u pk) : (s.barUpOp u pk).hw = s.hw := by
  simp only [barUpOp]
  repeat' split
  all_goals simp

@[simp] theorem barDownOp_hw (s : State) (u pk) : (s.barDownOp u pk).hw = s.hw := by
  simp only [barDownOp]
  repeat' split
  all_goals simp

@[simp] theorem barTimed_hw (s : State) (u b) : (s.barTimed u b).hw = s.hw := by
  unfold barTimed
  repeat' split
  all_goals simp

@[simp] theorem realignOne_hw (s : State) (x1) : (s.realignOne x1).hw = s.hw := by
  simp only [realignOne, ↓hw_mk, hw_def, hw_ite, ite_self, bump_hw, setSemVal_hw, synErr_hw, walk_hw]

@[simp] theorem realignSlot_hw (s : State) (u slot) : (s.realignSlot u slot).hw = s.hw := by
  unfold realignSlot
  split <;> simp

@[simp] theorem watchTimeoutOp_hw (s : State) (u ent) : (s.watchTimeoutOp u ent).hw = s.hw := by
  unfold watchTimeoutOp
  split <;> simp

@[simp] theorem launchNtf_hw (s : State) (u) : (s.launchNtf u).hw = s.hw := by
  unfold launchNtf
  repeat' split
  all_goals simp [↓hw_mk, hw_def]

theorem takeSyncOp_hw {s : State} {u} {op : Nat → Bool} {pk v} (h : s.takeSyncOp u op = some (pk, v)) :
    v.hw = s.hw := by
  simp only [takeSyncOp, Option.map_eq_some_iff, Prod.mk.injEq] at h
  obtain ⟨r, hr, -, rfl⟩ := h
  exact takeArrival_hw hr

@[simp] theorem syncRow_hw (s : State) (u op) (f : State → Pkt → State) (hf : ∀ s pk, (f s pk).hw = s.hw) :
    (s.syncRow u op f).hw = s.hw := by
  unfold syncRow
  split
  · rfl
  · rename_i h
    simp [hf, takeSyncOp_hw h]

end Sys2Proof.Machine.State
end

/-! ### The shape of the hardware's state: the sending side of a network interface -/

section
namespace Sys2Proof.Machine.State

@[simp] theorem setCache_hw (s : State) (path ep l) : (s.setCache path ep l).hw = s.hw := by simp [setCache, ↓hw_mk, hw_def]
@[simp] theorem dropCaches_hw (s : State) (t) : (s.dropCaches t).hw = s.hw := (rfl)

@[simp] theorem look_hw (s : State) (ep ctx t path key) : (s.look ep ctx t path key).2.hw = s.hw := by
  simp only [look]
  repeat' split
  all_goals simp

@[simp] theorem updSslot_hw (s : State) (ep ctx chan) (f : SendSlot → SendSlot) :
    (s.updSslot ep ctx chan f).hw = s.hw := (rfl)

@[simp] theorem updOp_hw (s : State) (id) (f : Op → Op) : (s.updOp id f).hw = s.hw := (rfl)
@[simp] theorem updReq_hw (s : State) (id) (f : Req → Req) : (s.updReq id f).hw = s.hw := (rfl)
@[simp] theorem dropReq_hw (s : State) (id) : (s.dropReq id).hw = s.hw := (rfl)

@[simp] theorem endOp_hw (s : State) (o) : (s.endOp o).hw = s.hw := by
  unfold endOp
  split <;> simp [↓hw_mk, hw_def]

@[simp] theorem checkOp'_hw (s : State) (id) : (s.checkOp' id).hw = s.hw := by
  unfold checkOp'
  split <;> simp

@[simp] theorem checkClose_hw (s : State) (ep ctx chan) : (s.checkClose ep ctx chan).hw = s.hw := by
  unfold checkClose
  repeat' split
  all_goals simp [↓hw_mk, hw_def]

@[simp] theorem returnSeqs_hw (s : State) (o) : (s.returnSeqs o).hw = s.hw := by
  unfold returnSeqs
  split <;> simp

@[simp] theorem failOp_hw (s : State) (id st) : (s.failOp id st).hw = s.hw := by
  simp only [failOp]
  split <;> simp [↓hw_mk, hw_def]

@[simp] theorem breakQueue_hw (s : State) (ep ctx chan) : (s.breakQueue ep ctx chan).hw = s.hw := by simp [breakQueue]
@[simp] theorem breakSlot_hw (s : State) (ep ctx chan st) : (s.breakSlot ep ctx chan st).hw = s.hw := by simp [breakSlot]

@[simp] theorem formPkt_hw (s : State) (o core h e path) : (s.formPkt o core h e path).hw = s.hw := by
  simp only [formPkt, hw_ite, ite_self, addReq_hw, readMem_hw, updOp_hw]

@[simp] theorem formMcHere_hw (s : State) (o) : (s.formMcHere o).hw = s.hw := by simp [formMcHere]

/-- The state in which forming a packet leaves the machine. -/
def Formed.after : Formed → State
  | .stuck s => s
  | .done s => s
  | .fail _ s => s

@[simp] theorem formOne_hw (s : State) (o) : (s.formOne o).after.hw = s.hw := by
  unfold formOne
  extract_lets t ch room
  split
  · rfl
  · split
    · rfl
    · split
      · rfl
      · split
        · simp [Formed.after]
        · split
          · rfl
          · rename_i rk _ _ _ _ _ _ _ _
            have hrk : rk.2.hw = s.hw := by
              dsimp only [rk]
              clear rk
              split
              · rfl
              · split
                · split <;> simp
                · simp
            clear_value rk
            obtain ⟨_ | ent, v⟩ := rk
            · simp [Formed.after, hrk]
            · have h1 : v.hw = s.hw := hrk
              dsimp only
              split
              · exact h1
              · split
                · exact h1
                · split
                  · exact h1
                  · split
                    · rename_i h2
                      simp [Formed.after, hw_snd_of_eq h2, h1]
                    · rename_i h2
                      have h3 := (hw_snd_of_eq h2).trans ((look_hw _ _ _ _ _ _).trans h1)
                      split
                      · exact h3
                      · split
                        · exact h3
                        · split
                          · exact h3
                          · simp [Formed.after, h3]

/-- One step of a search over the operations for one that forms a packet. -/
def formFirst (s : State) (ep : Nat) (acc : Option State) (o : Op) : Option State :=
  match acc with
  | some s' => some s'
  | none =>
    if o.ep != ep || !s.mayForm o then none
    else match s.formOne o with
      | .done s' => some s'
      | .fail st s' => some (s'.failOp o.id st)
      | .stuck s' => if s' == s then none else some s'

theorem formFirst_hw (s : State) (ep acc o) (hacc : ∀ t ∈ acc, t.hw = s.hw) : ∀ t ∈ s.formFirst ep acc o, t.hw = s.hw := by
  have h1 := formOne_hw s o
  unfold formFirst
  split
  · exact hacc
  · split
    · simp
    · split <;> rename_i h <;> rw [h] at h1
      · simpa [Formed.after] using h1
      · simpa [Formed.after] using h1
      · split
        · simp
        · simpa [Formed.after] using h1

theorem formFirst_foldl_hw (s : State) (ep) (l : List Op) (acc) (hacc : ∀ t ∈ acc, t.hw = s.hw) :
    ∀ t ∈ l.foldl (s.formFirst ep) acc, t.hw = s.hw := by
  induction l generalizing acc with
  | nil => exact hacc
  | cons o r ih => exact ih _ (formFirst_hw s ep acc o hacc)

@[simp] theorem formMore_hw (s : State) (ep) (k : Nat) : (s.formMore ep k).hw = s.hw := by
  induction k generalizing s with
  | zero => rfl
  | succ k ih =>
    unfold formMore
    extract_lets step
    split
    · rename_i v h
      rw [ih]
      exact formFirst_foldl_hw s ep s.ops none (by simp) v h
    · rfl

@[simp] theorem form_hw (s : State) (ep) : (s.form ep).hw = s.hw := by simp [form]
@[simp] theorem startOp_hw (s : State) (o) : (s.startOp o).hw = s.hw := by simp [startOp, ↓hw_mk, hw_def]
@[simp] theorem reserveOp_hw (s : State) (o) : (s.reserveOp o).hw = s.hw := (rfl)
@[simp] theorem releaseOp_hw (s : State) (o) : (s.releaseOp o).hw = s.hw := by simp [releaseOp]
@[simp] theorem setBucket_hw (s : State) (ep cls b) : (s.setBucket ep cls b).hw = s.hw := (rfl)
@[simp] theorem setThrLevel_hw (s : State) (ep cls v) : (s.setThrLevel ep cls v).hw = s.hw := by simp [setThrLevel]
@[simp] theorem throttleCls_hw (ep) (s : State) (cls) : (throttleCls ep s cls).hw = s.hw := by simp [throttleCls]
@[simp] theorem spend_hw (s : State) (ep cls flits) : (s.spend ep cls flits).hw = s.hw := by simp [spend]

theorem takeEntry_hw {s : State} {ep} {a' b' v} (h : s.takeEntry ep = some (a', b', v)) : v.hw = s.hw := by
  simp only [takeEntry] at h
  split at h
  · cases h
  · cases h
    simp [↓hw_mk, hw_def]

@[simp] theorem takePsn_hw (s : State) (ep exit) : (s.takePsn ep exit).2.hw = s.hw := (rfl)
@[simp] theorem sendReq_hw (s : State) (q) : (s.sendReq q).hw = s.hw := by simp [sendReq]

@[simp] theorem sendSeg_hw (s : State) (q k) : (s.sendSeg q k).hw = s.hw := by
  unfold sendSeg
  split <;> simp

@[simp] theorem launchSeg_hw (s : State) (q pk) : (s.launchSeg q pk).hw = s.hw := by simp [launchSeg]

@[simp] theorem takeHold_ok (s : State) (q) (hs : HwOk s.hw) : HwOk (s.takeHold q).2.hw := by
  unfold takeHold
  split
  · split <;> rename_i h <;> simp [hw_snd_of_eq h, hs]
  · exact hs

@[simp] theorem addHold_hw (s : State) (q buf pk) : (s.addHold q buf pk).hw = s.hw := by
  simp only [addHold]
  split <;> simp [↓hw_mk, hw_def]

@[simp] theorem launchWith_hw (s : State) (q buf) : (s.launchWith q buf).hw = s.hw := by
  unfold launchWith
  extract_lets cls op held seq s1 s2 ps s3 ep1 h pk
  have h1 : s1.hw = s.hw := by
    dsimp only [s1]
    split
    · simp
    · split <;> simp
  have h3 : s3.hw = s.hw := by
    dsimp only [s3, ps, s2]
    split <;> simp [h1]
  split
  · split
    · exact h3
    · rename_i h
      dsimp only
      rw [sendSeg_hw, updReq_hw]
      split <;> simp [takeEntry_hw h, h3]
  · rename_i q' v _
    have hv : v.hw = s.hw := by simp [v, h3]
    split
    · rw [checkOp'_hw, hv]
    · exact hv

@[simp] theorem launch_ok (s : State) (q) (hs : HwOk s.hw) : HwOk (s.launch q).hw := by
  unfold launch
  split <;> rename_i h
  · simp [hw_snd_of_eq h, hs]
  · split <;> simp [hw_snd_of_eq h, hs]

@[simp] theorem failReq_hw (s : State) (q st) : (s.failReq q st).hw = s.hw := by
  simp only [failReq]
  repeat' split
  all_goals simp only [addTxn_hw, breakSlot_hw, checkClose_hw, checkOp'_hw, dropReq_hw, form_hw, updOp_hw]

@[simp] theorem retryOrFail_hw (s : State) (q timeout st) : (s.retryOrFail q timeout st).hw = s.hw := by simp [retryOrFail]

@[simp] theorem resendBy_hw (s : State) (q rh re i) : (s.resendBy q rh re i).hw = s.hw := by
  unfold resendBy
  split <;> simp [↓hw_mk, hw_def]

@[simp] theorem resend_hw (s : State) (q) : (s.resend q).hw = s.hw := by
  simp only [resend]
  split
  · simp
  · split
    · simp
    · split <;> rename_i h
      · simp [hw_snd_of_eq h]
      · repeat' split
        all_goals simp [hw_snd_of_eq h]

@[simp] theorem lateReply_hw (s : State) (ep) : (s.lateReply ep).hw = s.hw := by simp [lateReply]

@[simp] theorem answered_hw (s : State) (q n st) : (s.answered q n st).hw = s.hw := by
  simp only [answered]
  repeat' split
  all_goals simp

@[simp] theorem takeReply_ok (s : State) (q pk) (hs : HwOk s.hw) : HwOk (s.takeReply q pk).hw := by
  unfold takeReply
  repeat' split
  all_goals simp [hs]

@[simp] theorem unform_hw (s : State) (ep ctx) : (s.unform ep ctx).hw = s.hw := by
  simp only [unform]
  refine (hw_foldl _ _ _ fun s q => ?_).trans rfl
  split <;> simp

end Sys2Proof.Machine.State
end

/-! ### The shape of the hardware's state: the receiving side of a network interface -/

section
namespace Sys2Proof.Machine.State

@[simp] theorem nackReq_hw (s : State) (ep pk st) : (s.nackReq ep pk st).hw = s.hw := by simp [nackReq]

@[simp] theorem replyReq_hw (s : State) (ep pk ptype st addr pay bad) :
    (s.replyReq ep pk ptype st addr pay bad).hw = s.hw := by
  simp [replyReq]

@[simp] theorem answer_hw (s : State) (ep pk t) : (s.answer ep pk t).hw = s.hw := by simp [answer]
@[simp] theorem setRland_hw (s : State) (ep q r) : (s.setRland ep q r).hw = s.hw := (rfl)
@[simp] theorem noLazy_hw (s : State) (ep q) : (s.noLazy ep q).hw = s.hw := (rfl)
@[simp] theorem creditReq_hw (s : State) (ep pk hv) : (s.creditReq ep pk hv).hw = s.hw := by simp [creditReq]
@[simp] theorem refuseSend_hw (s : State) (ep pk f st) : (s.refuseSend ep pk f st).hw = s.hw := by simp [refuseSend]

@[simp] theorem landPacket_ok (s : State) (ep q pk r) (hs : HwOk s.hw) : HwOk (s.landPacket ep q pk r).hw := by
  simp [landPacket, hs]

@[simp] theorem landSend_ok (s : State) (ep pk) (hs : HwOk s.hw) : HwOk (s.landSend ep pk).hw := by
  simp only [landSend]
  repeat' split
  all_goals simp [hs]

@[simp] theorem performReq_ok (s : State) (ep pk) (hs : HwOk s.hw) : HwOk (s.performReq ep pk).hw := by
  simp only [performReq]
  split <;> simp [↓hw_mk, hw_def, hs]

@[simp] theorem updRslot_hw (s : State) (ep src ctx chan) (f : RecvSlot → RecvSlot) :
    (s.updRslot ep src ctx chan f).hw = s.hw := (rfl)

@[simp] theorem updHeld_hw (s : State) (ep src ctx chan seq seg) (f : Held → Held) :
    (s.updHeld ep src ctx chan seq seg f).hw = s.hw := (rfl)

@[simp] theorem freeHeld_hw (s : State) (ep h) : (s.freeHeld ep h).hw = s.hw := by
  unfold freeHeld
  repeat' split
  all_goals simp [↓hw_mk, hw_def]

@[simp] theorem freeSlotHeld_ok (s : State) (x1 st) (hs : HwOk s.hw) : HwOk (s.freeSlotHeld x1 st).hw := by
  simp only [freeSlotHeld]
  split <;> simp [hs]

@[simp] theorem breakRslot_ok (s : State) (ep src ctx chan st) (hs : HwOk s.hw) :
    HwOk (s.breakRslot ep src ctx chan st).hw := by
  unfold breakRslot
  split <;> simp [hs]

@[simp] theorem spillAccess_hw (s : State) (ep ctx h pay bad p) : (s.spillAccess ep ctx h pay bad p).hw = s.hw := by
  simp [spillAccess, ↓hw_mk, hw_def]

@[simp] theorem holdReq_ok (s : State) (x pk) (hs : HwOk s.hw) : HwOk (s.holdReq x pk).hw := by
  unfold holdReq
  extract_lets ep held add head purp hdr spill
  have hadd : ∀ s h, (add s h).hw = s.hw := fun s h => updRslot_hw ..
  have hspill : ∀ s, (spill s).hw = s.hw := by
    intro s
    simp only [spill]
    split
    · simp
    · split
      · simp
      · split <;> simp [hadd, ↓hw_mk, hw_def]
  split
  · simp [hspill, hs]
  · split
    · simp [hadd, hs]
    · split <;> rename_i h <;> simp [hspill, hadd, hw_snd_of_eq h, hs]

@[simp] theorem slotAdvance_hw (s : State) (ep src ctx chan pk) : (s.slotAdvance ep src ctx chan pk).hw = s.hw := (rfl)

@[simp] theorem slotRun_ok (s : State) (ep src ctx chan) (k : Nat) (hs : HwOk s.hw) :
    HwOk (s.slotRun ep src ctx chan k).hw := by
  induction k generalizing s with
  | zero => exact hs
  | succ k ih =>
    unfold slotRun
    split
    · exact hs
    · split
      · exact hs
      · split
        · exact hs
        · split
          · exact ih _ (by simp [hs])
          · dsimp only
            split
            · simp [hs]
            · split <;> simp [hs]
            · exact hs

@[simp] theorem heldRead_ok (s : State) (ep src ctx chan seq seg t head) (hs : HwOk s.hw) :
    HwOk (s.heldRead ep src ctx chan seq seg t head).hw := by
  unfold heldRead
  split <;> simp [hs]

@[simp] theorem spillWritten_ok (s : State) (ep src ctx chan seq seg st) (hs : HwOk s.hw) :
    HwOk (s.spillWritten ep src ctx chan seq seg st).hw := by
  simp [spillWritten, hs]

@[simp] theorem slotReq_ok (s : State) (x1 pk) (hs : HwOk s.hw) : HwOk (s.slotReq x1 pk).hw := by simp [slotReq, hs]
@[simp] theorem served_ok (s : State) (ep pk t) (hs : HwOk s.hw) : HwOk (s.served ep pk t).hw := by simp [served, hs]

@[simp] theorem takeReq_ok (s : State) (ep pk) (hs : HwOk s.hw) : HwOk (s.takeReq ep pk).hw := by
  unfold takeReq
  repeat' split
  all_goals simp [hs]

@[simp] theorem holeExpire_ok (s : State) (ep src ctx chan) (hs : HwOk s.hw) : HwOk (s.holeExpire ep src ctx chan).hw := by
  unfold holeExpire
  repeat' split
  all_goals simp [hs]

end Sys2Proof.Machine.State
end

/-! ### The shape of the hardware's state: multicast and relay -/

section
namespace Sys2Proof.Machine.State

@[simp] theorem mcLost_hw (s : State) (ep) : (s.mcLost ep).hw = s.hw := by simp [mcLost]

@[simp] theorem postMc_ok (s : State) (ep ctx kind st job ws) (hs : HwOk s.hw) :
    HwOk (s.postMc ep ctx kind st job ws).hw := by
  simp [postMc, hs]

@[simp] theorem postTarget_ok (s : State) (ep kind st pk w4) (hs : HwOk s.hw) : HwOk (s.postTarget ep kind st pk w4).hw := by
  simp only [postTarget]
  split <;> simp [hs]

@[simp] theorem postFail_ok (s : State) (ep st target tries h) (hs : HwOk s.hw) :
    HwOk (s.postFail ep st target tries h).hw := by
  simp [postFail, hs]

@[simp] theorem mcMiss_hw (s : State) (ep f st) : (s.mcMiss ep f st).hw = s.hw := by simp [mcMiss]
@[simp] theorem mcNack_hw (s : State) (ep pk st) : (s.mcNack ep pk st).hw = s.hw := by simp [mcNack]

@[simp] theorem depositReq_ok (s : State) (ep pk) (hs : HwOk s.hw) : HwOk (s.depositReq ep pk).hw := by
  unfold depositReq
  split <;> simp [hs]

@[simp] theorem queueReq_ok (s : State) (ep pk) (hs : HwOk s.hw) : HwOk (s.queueReq ep pk).hw := by
  simp only [queueReq]
  split
  · simp [hs]
  · split
    · simp [hs]
    · split <;> rename_i h <;> simp [hw_snd_of_eq h, hs]

@[simp] theorem mcLand_ok (s : State) (ep pk) (hs : HwOk s.hw) : HwOk (s.mcLand ep pk).hw := by simp [mcLand, hs]

@[simp] theorem mcTarget_ok (s : State) (ep pk) (hs : HwOk s.hw) : HwOk (s.mcTarget ep pk).hw := by
  simp [mcTarget, ↓hw_mk, hw_def, hs]

@[simp] theorem reqRow_ok (s : State) (ep ptype) (hs : HwOk s.hw) : HwOk (s.reqRow ep ptype).hw := by
  unfold reqRow
  split
  · simp [hs]
  · rename_i h
    simp [hs, takeArrival_hw h]

@[simp] theorem relayLaunch_hw (s : State) (ep) : (s.relayLaunch ep).hw = s.hw := by
  unfold relayLaunch
  split <;> simp [↓hw_mk, hw_def]

@[simp] theorem updHold_hw (s : State) (id) (f : Hold → Hold) : (s.updHold id f).hw = s.hw := (rfl)

@[simp] theorem targetNack_ok (s : State) (ep pk) (hs : HwOk s.hw) : HwOk (s.targetNack ep pk).hw := by
  simp only [targetNack]
  split <;> simp [hs]

@[simp] theorem mcRetry_hw (s : State) (ep k) : (s.mcRetry ep k).hw = s.hw := by
  simp only [mcRetry]
  split <;> simp

@[simp] theorem mcRetrySend_hw (s : State) (hold target t) : (s.mcRetrySend hold target t).hw = s.hw := by
  unfold mcRetrySend
  split <;> simp

@[simp] theorem holdExpire_hw (s : State) (ep k) : (s.holdExpire ep k).hw = s.hw := by
  unfold holdExpire
  split <;> simp

end Sys2Proof.Machine.State
end

/-! ### The shape of the hardware's state: core queues -/

section
namespace Sys2Proof.Machine.State

@[simp] theorem postQueue_ok (s : State) (ep q mtag st) (hs : HwOk s.hw) : HwOk (s.postQueue ep q mtag st).hw := by
  simp [postQueue, hs]

@[simp] theorem sqSettle_hw (s : State) (ep q) : (s.sqSettle ep q).hw = s.hw := by
  simp only [sqSettle]
  split <;> simp [↓hw_mk, hw_def]

@[simp] theorem noteSq_hw (s : State) (ep q) : (s.noteSq ep q).hw = s.hw := by simp [noteSq]

@[simp] theorem submitMsg_ok (s : State) (ep q core src len mtag) (hs : HwOk s.hw) :
    HwOk (s.submitMsg ep q core src len mtag).2.hw := by
  simp [submitMsg, ↓hw_mk, hw_def, hs]

@[simp] theorem startMsg_hw (s : State) (ep q) : (s.startMsg ep q).hw = s.hw := by
  simp only [startMsg]
  split <;> simp only [↓hw_mk, hw_def, hw_ite, ite_self, noteSq_hw, set_hw, sqSettle_hw, startOp_hw]

@[simp] theorem sqFail_ok (s : State) (ep q st) (hs : HwOk s.hw) : HwOk (s.sqFail ep q st).hw := by
  unfold sqFail
  extract_lets s1 s2 ms s3 s4 s5
  have h4 : s4.hw = s.hw := by simp [s4, s3, s2, s1, ↓hw_mk, hw_def]
  rw [noteSq_hw]
  refine hwOk_foldl _ _ _ (fun s m h => ?_) (h4 ▸ hs)
  split
  · simp [h]
  · simp [↓hw_mk, hw_def, h]

@[simp] theorem endPad_ok (s : State) (o q) (hs : HwOk s.hw) : HwOk (s.endPad o q).hw := by simp [endPad, ↓hw_mk, hw_def, hs]

@[simp] theorem endMsg_ok (s : State) (o q mtag) (hs : HwOk s.hw) : HwOk (s.endMsg o q mtag).hw := by
  simp [endMsg, ↓hw_mk, hw_def, hs]

@[simp] theorem sqAll_ok (s : State) (hs : HwOk s.hw) : HwOk (s.sqAll).hw := by
  unfold sqAll
  refine hwOk_foldl _ _ _ (fun s x hs => ?_) hs
  simp [hs]

@[simp] theorem stallExpire_ok (s : State) (ep q) (hs : HwOk s.hw) : HwOk (s.stallExpire ep q).hw := by
  simp only [stallExpire]
  repeat' split
  all_goals simp [↓hw_mk, hw_def, hs]

@[simp] theorem takeCreditHead_hw (s : State) (ep q pk) : (s.takeCreditHead ep q pk).hw = s.hw := by simp [takeCreditHead]

@[simp] theorem takeCredit'_ok (s : State) (ep pk) (hs : HwOk s.hw) : HwOk (s.takeCredit' ep pk).hw := by
  simp only [takeCredit']
  repeat' split
  all_goals simp [hs]

@[simp] theorem sendUpdate_hw (s : State) (ep q) : (s.sendUpdate ep q).hw = s.hw := by simp [sendUpdate, ↓hw_mk, hw_def]
@[simp] theorem lazyAll_hw (s : State) : (s.lazyAll).hw = s.hw := by simp [lazyAll]

@[simp] theorem headWrite_hw (s : State) (ep q h) : (s.headWrite ep q h).2.hw = s.hw := by
  simp only [headWrite]
  repeat' split
  all_goals simp [↓hw_mk, hw_def]

@[simp] theorem selRead_hw (s : State) (ep core) : (s.selRead ep core).2.hw = s.hw := by
  unfold selRead
  split <;> simp [↓hw_mk, hw_def]

@[simp] theorem rqCtlWrite_hw (s : State) (ep q data) : (s.rqCtlWrite ep q data).2.hw = s.hw := by
  simp only [rqCtlWrite]
  repeat' split
  all_goals simp

@[simp] theorem sqCtlWrite_hw (s : State) (ep q data) : (s.sqCtlWrite ep q data).2.hw = s.hw := by
  simp only [sqCtlWrite]
  repeat' split
  all_goals simp

end Sys2Proof.Machine.State
end

/-! ### The shape of the hardware's state: the transfer commands -/

section
namespace Sys2Proof.Machine.State

@[simp] theorem xferFail_hw (s : State) (o st) : (s.xferFail o st).hw = s.hw := by
  unfold xferFail
  split <;> simp

@[simp] theorem xferStart_hw (s : State) (bits who) : (s.xferStart bits who).hw = s.hw := by simp [xferStart]

@[simp] theorem tableDone_hw (s : State) (ep tset path key epoch t) : (s.tableDone ep tset path key epoch t).hw = s.hw := by
  simp [tableDone, ↓hw_mk, hw_def]

@[simp] theorem sourceDone_hw (s : State) (id t) : (s.sourceDone id t).hw = s.hw := by
  unfold sourceDone
  repeat' split
  all_goals simp

@[simp] theorem opWriteDone_hw (s : State) (op len st t) : (s.opWriteDone op len st t).hw = s.hw := by simp [opWriteDone]

@[simp] theorem routeFar_hw (s : State) (f) : (s.routeFar f).hw = s.hw := by
  simp only [routeFar]
  split
  · simp
  · split <;> rename_i h
    · simp [↓hw_mk, hw_def, hw_snd_of_eq h]
    · repeat' split
      all_goals simp [hw_snd_of_eq h]

@[simp] theorem routeAll_hw (s : State) : (s.routeAll).hw = s.hw := by simp [routeAll, ↓hw_mk, hw_def]
@[simp] theorem setMapCache_hw (s : State) (ep l) : (s.setMapCache ep l).hw = s.hw := (rfl)

@[simp] theorem lookMap_hw (s : State) (ep ctx m vid) : (s.lookMap ep ctx m vid).2.hw = s.hw := by
  simp only [lookMap]
  repeat' split
  all_goals simp

@[simp] theorem smapDone_hw (s : State) (ep m vid t) : (s.smapDone ep m vid t).hw = s.hw := (rfl)

end Sys2Proof.Machine.State
end

/-! ### The shape of the hardware's state: the TAP request channel -/

section
namespace Sys2Proof.Machine.State

@[simp] theorem wslotWrite_hw (s : State) (ep slot data) : (s.wslotWrite ep slot data).2.hw = s.hw := by
  unfold wslotWrite
  repeat' split
  all_goals simp

@[simp] theorem takeNtf_hw (s : State) (ep pk) : (s.takeNtf ep pk).hw = s.hw := by simp [takeNtf]

@[simp] theorem guardExpire_hw (s : State) (ep slot) : (s.guardExpire ep slot).hw = s.hw := by
  unfold guardExpire
  split <;> simp

@[simp] theorem cqHeadWrite_hw (s : State) (ep c data) : (s.cqHeadWrite ep c data).2.hw = s.hw := by
  simp only [cqHeadWrite]
  split <;> simp

@[simp] theorem regReq_hw (s : State) (ep k off wr data) : (s.regReq ep k off wr data).2.2.hw = s.hw := by simp [regReq]

@[simp] theorem sendSync_hw (s : State) (ep ctx op opnd slot wtmo sv h0 e index) :
    (s.sendSync ep ctx op opnd slot wtmo sv h0 e index).hw = s.hw := by
  simp [sendSync]

/-- The state in which a sync operation of a core leaves the machine. -/
def SyncRes.after : SyncRes → State
  | .wait s => s
  | .fail _ s => s
  | .sent s => s

theorem SyncRes.after_hw_ite {c : Prop} [Decidable c] {a b : SyncRes} {x} (ha : a.after.hw = x) (hb : b.after.hw = x) :
    (if c then a else b).after.hw = x := by
  split
  · exact ha
  · exact hb

@[simp] theorem syncReq_hw (s : State) (ep k ctx vid op opnd slot wtmo sv) :
    (s.syncReq ep k ctx vid op opnd slot wtmo sv).after.hw = s.hw := by
  delta syncReq
  refine SyncRes.after_hw_ite rfl (SyncRes.after_hw_ite rfl ?_)
  extract_lets m
  refine SyncRes.after_hw_ite rfl ?_
  generalize hp : s.lookMap ep ctx m vid = p
  have h1 : p.2.hw = s.hw := by rw [← hp, lookMap_hw]
  obtain ⟨_ | ent, t⟩ := p
  · exact h1
  · dsimp only at h1 ⊢
    refine SyncRes.after_hw_ite h1 (SyncRes.after_hw_ite h1 (SyncRes.after_hw_ite h1 (SyncRes.after_hw_ite ?_
      (SyncRes.after_hw_ite (SyncRes.after_hw_ite h1 ?_) (SyncRes.after_hw_ite h1 ?_)))))
    · simp [SyncRes.after, h1]
    · simp [SyncRes.after, h1]
    · generalize hq : t.look ep ctx (t.ctxTset ep ctx) true (epChip (bitsOf ent 0 24)) = q
      have h2 : q.2.hw = s.hw := by rw [← hq, look_hw, h1]
      obtain ⟨_ | ps, v⟩ := q
      · exact h2
      · dsimp only at h2 ⊢
        split
        · exact h2
        · split
          · exact h2
          · simp [SyncRes.after, h2]

@[simp] theorem syncFail_hw (s : State) (ep k op slot st sv) : (s.syncFail ep k op slot st sv).hw = s.hw := by simp [syncFail]

theorem hw_of_syncReq {s : State} {ep k ctx vid op opnd slot wtmo sv r} (h : s.syncReq ep k ctx vid op opnd slot wtmo sv = r) :
    r.after.hw = s.hw := h ▸ syncReq_hw ..

@[simp] theorem tapAnswer_ok (s : State) (t) (hs : HwOk s.hw) : HwOk (s.tapAnswer t).2.hw := by
  unfold tapAnswer
  extract_lets ep k x f say
  have hsay : ∀ st (s : State), (say st s).2 = s := fun _ _ => rfl
  split
  · simp [hsay, hs]
  · split
    · exact hs
    · split
      · split <;> simp [hsay, hs]
      · split
        · split
          · exact hs
          · split <;> rename_i h <;> replace h : _ = s.hw := hw_of_syncReq h <;>
              simp only [SyncRes.after] at h <;> simp [hsay, h, hs]
        · split
          · split
            · exact hs
            · split <;> rename_i h <;> simp [hsay, hw_snd_of_eq h, hs]
          · split
            · split
              · exact hs
              · rw [regReq_hw]
                exact hs
            · exact hs

@[simp] theorem tapRun_ok (s : State) (tap) (k : Nat) (hs : HwOk s.hw) : HwOk (s.tapRun tap k).hw := by
  induction k generalizing s with
  | zero => exact hs
  | succ k ih =>
    unfold tapRun
    split
    · exact hs
    · split <;> rename_i h
      · simp [hw_snd_of_eq h, hs]
      · exact ih _ (by simp [↓hw_mk, hw_def, hw_snd_of_eq h, hs])

@[simp] theorem tapTake_ok (s : State) (tap op data) (hs : HwOk s.hw) : HwOk (s.tapTake tap op data).hw := by
  simp [tapTake, ↓hw_mk, hw_def, hs]

@[simp] theorem tapRunAll_ok (s : State) (ep) (hs : HwOk s.hw) : HwOk (s.tapRunAll ep).hw := by
  unfold tapRunAll
  refine hwOk_foldl _ _ _ (fun s x hs => ?_) hs
  simp [hs]

@[simp] theorem tapFailWaiting_ok (s : State) (ep st) (hit : Nat → Bool) (hs : HwOk s.hw) :
    HwOk (s.tapFailWaiting ep st hit).hw := by
  unfold tapFailWaiting
  refine hwOk_foldl _ _ _ (fun s t h => ?_) hs
  split
  · exact h
  · dsimp only
    split
    · exact h
    · simp [↓hw_mk, hw_def, h]

end Sys2Proof.Machine.State
end

/-! ### The shape of the hardware's state: accesses in several packets, and accumulate windows -/

section
namespace Sys2Proof.Machine.State

@[simp] theorem bigRead_hw (s : State) (ep ctx port addr len p) : (s.bigRead ep ctx port addr len p).hw = s.hw := by
  simp [bigRead, ↓hw_mk, hw_def]

@[simp] theorem bigWrite_ok (s : State) (ep ctx port addr bytes p bad) (hs : HwOk s.hw) :
    HwOk (s.bigWrite ep ctx port addr bytes p bad).hw := by
  unfold bigWrite
  split
  · simp [hs]
  · exact hwOk_foldl _ _ _ (fun s k h => by simp [h]) hs

@[simp] theorem srcRead_hw (s : State) (r idx mapp addr len step) : (s.srcRead r idx mapp addr len step).hw = s.hw := by
  simp [srcRead]

@[simp] theorem pieceDone_hw (s : State) (id off t) : (s.pieceDone id off t).hw = s.hw := by
  unfold pieceDone
  split <;> simp [↓hw_mk, hw_def]

@[simp] theorem redDisc_hw (s : State) (ep) : (s.redDisc ep).hw = s.hw := by simp [redDisc]
@[simp] theorem accRead_hw (s : State) (j off len step) : (s.accRead j off len step).hw = s.hw := by simp [accRead]

@[simp] theorem accWrite_ok (s : State) (j off bytes step) (hs : HwOk s.hw) : HwOk (s.accWrite j off bytes step).hw := by
  simp [accWrite, hs]

@[simp] theorem updAcc_hw (s : State) (id) (f : AccJob → AccJob) : (s.updAcc id f).hw = s.hw := (rfl)
@[simp] theorem beginAcc_hw (s : State) (j) : (s.beginAcc j).hw = s.hw := by simp [beginAcc]

@[simp] theorem nextAcc_hw (s : State) (ep win chunk) : (s.nextAcc ep win chunk).hw = s.hw := by
  unfold nextAcc
  split <;> simp

@[simp] theorem endAcc_hw (s : State) (j) : (s.endAcc j).hw = s.hw := by simp [endAcc, ↓hw_mk, hw_def]

@[simp] theorem postChunk_ok (s : State) (j t) (hs : HwOk s.hw) : HwOk (s.postChunk j t).hw := by
  simp only [postChunk]
  split <;> simp [hs]

@[simp] theorem accPut_ok (s : State) (j t fin) (hs : HwOk s.hw) : HwOk (s.accPut j t fin).hw := by simp [accPut, hs]

@[simp] theorem accPoison_ok (s : State) (j t) (hs : HwOk s.hw) : HwOk (s.accPoison j t).hw := by
  unfold accPoison
  split <;> simp [hs]

@[simp] theorem accStep_ok (s : State) (id step x1) (hs : HwOk s.hw) : HwOk (s.accStep id step x1).hw := by
  simp only [accStep]
  repeat' split
  all_goals simp [↓hw_mk, hw_def, hs]

@[simp] theorem dropAccs_hw (s : State) (ep win) : (s.dropAccs ep win).hw = s.hw := by simp [dropAccs, ↓hw_mk, hw_def]

@[simp] theorem addAcc_hw (s : State) (ep win core mapp base chunks w pk) :
    (s.addAcc ep win core mapp base chunks w pk).hw = s.hw := by
  simp [addAcc, ↓hw_mk, hw_def]

@[simp] theorem accWindow_hw (s : State) (ep w pk) : (s.accWindow ep w pk).hw = s.hw := by simp [accWindow]
@[simp] theorem reduceNack_hw (s : State) (ep pk) : (s.reduceNack ep pk).hw = s.hw := by simp [reduceNack]

end Sys2Proof.Machine.State
end

/-! ### The shape of the hardware's state: the Bowl store and the Claim Arbiter -/

section
namespace Sys2Proof.Machine.State

@[simp] theorem answerBowl_hw (s : State) (p a st) : (s.answerBowl p a st).hw = s.hw := by simp [answerBowl]
@[simp] theorem bwlErr_hw (s : State) (f st obj) : (s.bwlErr f st obj).hw = s.hw := by simp [bwlErr]
@[simp] theorem updBent_hw (s : State) (id) (f : BEnt → BEnt) : (s.updBent id f).hw = s.hw := (rfl)
@[simp] theorem updBslot_hw (s : State) (slot) (f : BSlot → BSlot) : (s.updBslot slot f).hw = s.hw := (rfl)

@[simp] theorem closeEnt_hw (s : State) (e state claimSt commitSt) : (s.closeEnt e state claimSt commitSt).hw = s.hw := by
  simp [closeEnt]

@[simp] theorem slotFall_hw (s : State) (x1) : (s.slotFall x1).hw = s.hw := by
  simp only [slotFall]
  split <;> simp [↓hw_mk, hw_def]

@[simp] theorem grantSlot_hw (s : State) (e slot) : (s.grantSlot e slot).hw = s.hw := by simp [grantSlot, ↓hw_mk, hw_def]
@[simp] theorem loseAttempt_hw (s : State) (e) : (s.loseAttempt e).hw = s.hw := by simp [loseAttempt]

@[simp] theorem attempt_hw (s : State) (e) : (s.attempt e).hw = s.hw := by
  unfold attempt
  split <;> simp

@[simp] theorem holdClaim_hw (s : State) (e src a) : (s.holdClaim e src a).hw = s.hw := by simp [holdClaim]

@[simp] theorem bowlClaim_hw (s : State) (p pos job src chunk x1 a) : (s.bowlClaim p pos job src chunk x1 a).hw = s.hw := by
  simp only [bowlClaim]
  repeat' split
  all_goals simp [↓hw_mk, hw_def]

@[simp] theorem bowlCommit_hw (s : State) (p job chunk x1 a) : (s.bowlCommit p job chunk x1 a).hw = s.hw := by
  unfold bowlCommit
  split <;> simp

@[simp] theorem sendResult_hw (s : State) (x e) : (s.sendResult x e).hw = s.hw := by
  simp only [sendResult]
  split
  · simp
  · rw [hw_foldl _ _ _ fun s d => hw_foldl _ _ _ fun s k => ?_]
    · simp
    · rfl

@[simp] theorem bowlData_hw (s : State) (job pk) : (s.bowlData job pk).hw = s.hw := by
  simp only [bowlData]
  repeat' split
  all_goals simp only [bump_hw, bwlErr_hw, kerfCount_hw, sendResult_hw, updBslot_hw]

@[simp] theorem resultAnswered_hw (s : State) (ent st) : (s.resultAnswered ent st).hw = s.hw := by
  unfold resultAnswered
  split <;> simp

@[simp] theorem resultDone_hw (s : State) (slot) : (s.resultDone slot).hw = s.hw := by
  simp only [resultDone]
  repeat' split
  all_goals simp [↓hw_mk, hw_def]

@[simp] theorem slotTimeout_hw (s : State) (slot) : (s.slotTimeout slot).hw = s.hw := by
  unfold slotTimeout
  split <;> simp

@[simp] theorem entExpire_hw (s : State) (k) : (s.entExpire k).hw = s.hw := by
  unfold entExpire
  split <;> simp [↓hw_mk, hw_def]

@[simp] theorem firstAttempts_hw (s : State) : (s.firstAttempts).hw = s.hw := by simp [firstAttempts]

@[simp] theorem claimAttempt_hw (s : State) (k) : (s.claimAttempt k).hw = s.hw := by
  simp only [claimAttempt]
  repeat' split
  all_goals simp

@[simp] theorem clmTake_hw (s : State) : (s.clmTake).hw = s.hw := (rfl)
@[simp] theorem clmPrioWrite_hw (s : State) (a w) : (s.clmPrioWrite a w).hw = s.hw := by simp [clmPrioWrite, ↓hw_mk, hw_def]
@[simp] theorem bowlCtl_hw (s : State) (p pk) : (s.bowlCtl p pk).hw = s.hw := by simp [bowlCtl]

end Sys2Proof.Machine.State
end

/-! ### The shape of the hardware's state: the collective engines -/

section
namespace Sys2Proof.Machine.State

@[simp] theorem updRec_hw (s : State) (p g) (f : ColRec → ColRec) : (s.updRec p g f).hw = s.hw := (rfl)
@[simp] theorem updColl_hw (s : State) (c) (f : Coll → Coll) : (s.updColl c f).hw = s.hw := (rfl)
@[simp] theorem colErr_hw (s : State) (p f st obj) : (s.colErr p f st obj).hw = s.hw := by simp [colErr]
@[simp] theorem colDisc_hw (s : State) (p) : (s.colDisc p).hw = s.hw := by simp [colDisc]
@[simp] theorem useTracker_hw (s : State) (p group y) : (s.useTracker p group y).hw = s.hw := (rfl)
@[simp] theorem trackersTurn_hw (s : State) : (s.trackersTurn).hw = s.hw := (rfl)
@[simp] theorem colOp_hw (s : State) (p r dest o) : (s.colOp p r dest o).hw = s.hw := by simp [colOp]
@[simp] theorem colClear_hw (s : State) (c) : (s.colClear c).hw = s.hw := by simp [colClear, ↓hw_mk, hw_def]
@[simp] theorem dropReadys_hw (s : State) (p group n) : (s.dropReadys p group n).hw = s.hw := (rfl)
@[simp] theorem colRecord_ok (s : State) (x1 c st) (hs : HwOk s.hw) : HwOk (s.colRecord x1 c st).hw := by simp [colRecord, hs]
@[simp] theorem colNext_hw (s : State) (p g) : (s.colNext p g).hw = s.hw := by simp [colNext, ↓hw_mk, hw_def]

@[simp] theorem colEnd_ok (s : State) (c st) (hs : HwOk s.hw) : HwOk (s.colEnd c st).hw := by
  unfold colEnd
  split <;> simp [↓hw_mk, hw_def, hs]

@[simp] theorem colEndAll_ok (s : State) (p g st) (hs : HwOk s.hw) : HwOk (s.colEndAll p g st).hw := by
  unfold colEndAll
  refine hwOk_foldl _ _ _ (fun s c h => ?_) hs
  split <;> simp [h]

@[simp] theorem colEndPort_ok (s : State) (p st) (hs : HwOk s.hw) : HwOk (s.colEndPort p st).hw := by
  unfold colEndPort
  refine hwOk_foldl _ _ _ (fun s x hs => ?_) hs
  simp [hs]

@[simp] theorem colGone_ok (s : State) (p g) (hs : HwOk s.hw) : HwOk (s.colGone p g).hw := by simp [colGone, hs]

@[simp] theorem colDir_hw (s : State) (p g l) : (s.colDir p g l).hw = s.hw := by
  simp only [colDir]
  split <;> simp

@[simp] theorem colScan_hw (s : State) (p r x1 cmd) : (s.colScan p r x1 cmd).hw = s.hw := by simp [colScan, ↓hw_mk, hw_def]

@[simp] theorem colDepart_ok (s : State) (p x1 cmd) (hs : HwOk s.hw) : HwOk (s.colDepart p x1 cmd).hw := by
  unfold colDepart
  refine hwOk_foldl _ _ _ (fun s x hs => ?_) hs
  simp [hs]

@[simp] theorem colScanned_ok (s : State) (p g x t) (hs : HwOk s.hw) : HwOk (s.colScanned p g x t).hw := by
  unfold colScanned
  extract_lets hit s1 es s2
  have h2 : HwOk s2.hw := by
    dsimp only [s2]
    split
    · simpa [↓hw_mk, hw_def, s1] using hs
    · split
      · exact colGone_ok _ _ _ hs
      · exact hs
  rw [hw_foldl]
  · exact h2
  · intro s k
    split
    · rfl
    · repeat' split
      all_goals simp

@[simp] theorem sendReady_hw (s : State) (c r l j kind raddr step gath) :
    (s.sendReady c r l j kind raddr step gath).hw = s.hw := by
  unfold sendReady
  split <;> simp

@[simp] theorem takeReady_hw (s : State) (p pk) : (s.takeReady p pk).hw = s.hw := by
  simp only [takeReady]
  repeat' split
  all_goals simp [↓hw_mk, hw_def]

@[simp] theorem sendChunk_hw (s : State) (c r l k dest bowl step) : (s.sendChunk c r l k dest bowl step).1.hw = s.hw := by
  unfold sendChunk
  split <;> simp

@[simp] theorem updChunk_hw (s : State) (c part chunk) (f : CChunk → CChunk) : (s.updChunk c part chunk f).hw = s.hw := (rfl)

@[simp] theorem settleChunk_hw (s : State) (c k) : (s.settleChunk c k).hw = s.hw := by
  simp only [settleChunk, freeBuf_hw, updChunk_hw, updColl_hw]

@[simp] theorem completeChunk_hw (s : State) (c x1 l chunk) : (s.completeChunk c x1 l chunk).hw = s.hw := by
  simp only [completeChunk]
  split <;> simp

@[simp] theorem sendCtl_hw (s : State) (c r l k dest kind rd) : (s.sendCtl c r l k dest kind rd).hw = s.hw := by
  simp [sendCtl]

@[simp] theorem encodeChunk_ok (s : State) (c r l k src rd) (hs : HwOk s.hw) : HwOk (s.encodeChunk c r l k src rd).hw := by
  simp [encodeChunk, hs]

@[simp] theorem takeAux_hw (s : State) (c x1 l chunk) : (s.takeAux c x1 l chunk).hw = s.hw := (rfl)
@[simp] theorem forgetAux_hw (s : State) (c x1 l) : (s.forgetAux c x1 l).hw = s.hw := (rfl)

@[simp] theorem ctlAnswered_ok (s : State) (c x1 l k st) (hs : HwOk s.hw) : HwOk (s.ctlAnswered c x1 l k st).hw := by
  simp [ctlAnswered, hs]

@[simp] theorem beginChunk_hw (s : State) (c r l part chunk) : (s.beginChunk c r l part chunk).hw = s.hw := by
  simp only [beginChunk]
  split
  · rfl
  · split <;> rename_i h
    · simp [hw_snd_of_eq h]
    · simp [hw_snd_of_eq h]

@[simp] theorem chunkStep_ok (s : State) (p g part chunk) (hs : HwOk s.hw) : HwOk (s.chunkStep p g part chunk).hw := by
  unfold chunkStep
  repeat' split
  all_goals simp [hs]

@[simp] theorem nextStage_hw (s : State) (c x1) : (s.nextStage c x1).hw = s.hw := by
  unfold nextStage
  split <;> simp [↓hw_mk, hw_def]

@[simp] theorem colRead_hw (s : State) (c x1 addr len part chunk step) :
    (s.colRead c x1 addr len part chunk step).hw = s.hw := by
  simp [colRead]

@[simp] theorem colWrite_ok (s : State) (c x1 addr bytes bad part chunk step) (hs : HwOk s.hw) :
    HwOk (s.colWrite c x1 addr bytes bad part chunk step).hw := by
  simp [colWrite, hs]

@[simp] theorem loadMembers_hw (s : State) (c r l) : (s.loadMembers c r l).hw = s.hw := by simp [loadMembers]

@[simp] theorem stageStart_hw (s : State) (p g) : (s.stageStart p g).hw = s.hw := by
  unfold stageStart
  repeat' split
  all_goals simp

@[simp] theorem convert_hw (s : State) (c x1 v) : (s.convert c x1 v).hw = s.hw := by simp [convert]

@[simp] theorem gatherRun_hw (s : State) (c r l) : (s.gatherRun c r l).hw = s.hw := by
  simp only [gatherRun]
  repeat' split
  all_goals simp

@[simp] theorem colStep_ok (s : State) (c) (hs : HwOk s.hw) : HwOk (s.colStep c).hw := by
  unfold colStep
  repeat' split
  all_goals simp [↓hw_mk, hw_def, hs]

@[simp] theorem mlistDone_ok (s : State) (p g q t) (hs : HwOk s.hw) : HwOk (s.mlistDone p g q t).hw := by
  simp only [mlistDone]
  repeat' split
  all_goals simp [hs]

@[simp] theorem windowRead_ok (s : State) (c x1 l chunk all t) (hs : HwOk s.hw) :
    HwOk (s.windowRead c x1 l chunk all t).hw := by
  simp [windowRead, hs]

@[simp] theorem convertBytes_hw (s : State) (copy fmt ofmt t) : (s.convertBytes copy fmt ofmt t).2.2.hw = s.hw := by
  unfold convertBytes
  split <;> simp

@[simp] theorem colMem_ok (s : State) (p g n part chunk step t) (hs : HwOk s.hw) :
    HwOk (s.colMem p g n part chunk step t).hw := by
  unfold colMem
  split
  · simp [hs]
  · split
    · rw [colNext_hw]
      change HwOk (s.updRec p g (fun r => { r with resOut := r.resOut - 1 })).hw
      simp [hs]
    · split
      · split
        · exact hs
        · extract_lets x bad less fail note
          have hless : ∀ s, (less s).hw = s.hw := fun s => updColl_hw ..
          have hnote : ∀ s, (note s).hw = s.hw := fun s => updColl_hw ..
          have hfail : ∀ s, HwOk s.hw → HwOk (fail s).hw := by
            intro s h
            dsimp only [fail]
            split <;> simp [h]
          clear_value less note fail
          split
          · split
            · split
              · exact hfail _ hs
              · simp [hs]
            · simp [hnote, hs]
          · split
            · split
              · split
                · exact hfail _ (hless s ▸ hs)
                · split
                  · simp [hless, hs]
                  · split <;> simp [hless, hs]
              · split
                · exact hfail _ (hless s ▸ hs)
                · simp [hless, hs]
            · split
              · exact hfail _ (hless s ▸ hs)
              · split <;> simp [hless, hnote, hs]
            · extract_lets v
              split
              · exact hfail _ (hless s ▸ hs)
              · split
                · rename_i w s2 _ _
                  have h2 : s2.hw = s.hw := by
                    dsimp only [s2, w]
                    split <;> simp [hnote, hless]
                  simp [h2, hs]
                · simp [hless, hs]
            · simp [hless, hs]
      · exact hs

@[simp] theorem colOpEnd_ok (s : State) (p g part chunk step st dest) (hs : HwOk s.hw) :
    HwOk (s.colOpEnd p g part chunk step st dest).hw := by
  unfold colOpEnd
  repeat' split
  all_goals simp [hs]

@[simp] theorem colEvent_hw (s : State) (e) : (s.colEvent e).hw = s.hw := by
  unfold colEvent
  repeat' split
  all_goals simp

@[simp] theorem takeAcc_hw (s : State) (ep pk) : (s.takeAcc ep pk).hw = s.hw := by
  simp only [takeAcc]
  repeat' split
  all_goals simp

@[simp] theorem groupSet_ok (s : State) (p g x1) (hs : HwOk s.hw) : HwOk (s.groupSet p g x1).hw := by
  simp [groupSet, ↓hw_mk, hw_def, hs]

@[simp] theorem colIssue_hw (s : State) (p d) : (s.colIssue p d).2.2.hw = s.hw := by
  simp only [colIssue]
  repeat' split
  all_goals simp [↓hw_mk, hw_def]

@[simp] theorem colTimeout_ok (s : State) (p g) (hs : HwOk s.hw) : HwOk (s.colTimeout p g).hw := by
  unfold colTimeout
  split <;> simp [hs]

end Sys2Proof.Machine.State
end

/-! ### The shape of the hardware's state: the Lathe plane -/

section
namespace Sys2Proof.Machine.State

@[simp] theorem setSent_hw (s : State) (ep bk i v) : (s.setSent ep bk i v).hw = s.hw := by simp only [setSent, setWord_hw]
@[simp] theorem lathGo_hw (s : State) (g) : (s.lathGo g).hw = s.hw := by simp [lathGo]
@[simp] theorem lathGoTill_hw (s : State) (c) : (s.lathGoTill c).hw = s.hw := by simp [lathGoTill, ↓hw_mk, hw_def]
@[simp] theorem lathDrain_hw (s : State) : (s.lathDrain).hw = s.hw := by simp [lathDrain]
@[simp] theorem noteLathe_hw (s : State) : (s.noteLathe).hw = s.hw := by simp [noteLathe, ↓hw_mk, hw_def]
@[simp] theorem planSt_hw (s : State) (st) : (s.planSt st).hw = s.hw := by simp [planSt]
@[simp] theorem lateDrop_hw (s : State) (n port st) : (s.lateDrop n port st).hw = s.hw := by simp [lateDrop]
@[simp] theorem lathCopy_hw (n inp f) (s : State) (port) : (lathCopy n inp f s port).hw = s.hw := by simp [lathCopy]

@[simp] theorem switchFlit_hw (s : State) (n port upset) : (s.switchFlit n port upset).hw = s.hw := by
  unfold switchFlit
  extract_lets link
  split
  · rfl
  · split
    · rfl
    · split
      · rw [bump_hw]
        rfl
      · extract_lets s1 x s2 s3 fs s4 l s5 f' outs
        have h1 : s1.hw = s.hw := rfl
        have h4 : s4.hw = s.hw := by
          dsimp only [s4, fs]
          split <;> simp only [s3, s2, planSt_hw, bump_hw, errBit_hw, h1]
        have h5 : s5.hw = s.hw := by rw [noteRun_hw, h4]
        simp only [hw_ite, lateDrop_hw, hw_foldl, lathCopy_hw, implies_true, h5, ite_self]

@[simp] theorem stageLaunch_hw (s : State) (ep k) : (s.stageLaunch ep k).hw = s.hw := by
  unfold stageLaunch
  repeat' split
  all_goals simp [↓hw_mk, hw_def]

@[simp] theorem stageDone_hw (s : State) (ep k bk t) : (s.stageDone ep k bk t).hw = s.hw := (rfl)

@[simp] theorem dropStaged_hw (s : State) (p : Staged → Bool) : (s.dropStaged p).hw = s.hw := by
  simp [dropStaged, ↓hw_mk, hw_def]

@[simp] theorem voidLaunch_hw (s : State) (ep bk i) : (s.voidLaunch ep bk i).hw = s.hw := by simp [voidLaunch]
@[simp] theorem nextLathSeq_hw (s : State) (ep i) : (s.nextLathSeq ep i).2.hw = s.hw := (rfl)

@[simp] theorem launchPkt_hw (s : State) (ep bk i sent n cyc bytes bad) :
    (s.launchPkt ep bk i sent n cyc bytes bad).hw = s.hw := by
  simp only [launchPkt, ↓hw_mk, hw_def, nextLathSeq_hw]

@[simp] theorem launchPkts_hw (s : State) (ep bk i sent cyc bytes bad) (l : List Nat) :
    (s.launchPkts ep bk i sent cyc bytes bad l).hw = s.hw := by
  induction l generalizing s sent cyc bytes bad with
  | nil => rfl
  | cons n r ih => simp [launchPkts, ih]

@[simp] theorem makeLaunch_hw (s : State) (ep k) : (s.makeLaunch ep k).hw = s.hw := by
  simp only [makeLaunch]
  repeat' split
  all_goals simp [↓hw_mk, hw_def]

@[simp] theorem lathRefuse_hw (s : State) (ep st) : (s.lathRefuse ep st).hw = s.hw := by simp [lathRefuse, ↓hw_mk, hw_def]

@[simp] theorem lathDeposit_ok (s : State) (ep pk) (hs : HwOk s.hw) : HwOk (s.lathDeposit ep pk).hw := by
  simp only [lathDeposit]
  repeat' split
  all_goals simp [hs]

@[simp] theorem takeDeposit_ok (s : State) (ep) (hs : HwOk s.hw) : HwOk (s.takeDeposit ep).hw := by
  unfold takeDeposit
  split
  · simp [hs]
  · rename_i h
    simp [hs, takeArrival_hw h]

@[simp] theorem writeRouterRec_hw (bk) (s : State) (x1) : (writeRouterRec bk s x1).hw = s.hw := by simp [writeRouterRec]
@[simp] theorem writeStreamRec_hw (bk) (s : State) (x1) : (writeStreamRec bk s x1).hw = s.hw := by simp [writeStreamRec]

@[simp] theorem writeLaunchRec_hw (bk) (a : NMap × State) (x) : (writeLaunchRec bk a x).2.hw = a.2.hw := by
  simp only [writeLaunchRec]
  split <;> simp

@[simp] theorem loadImage_hw (s : State) (img) : (s.loadImage img).2.2.hw = s.hw := by
  simp only [loadImage]
  split
  · simp [↓hw_mk, hw_def]
  · split <;> simp [↓hw_mk, hw_def]

@[simp] theorem endLoad_hw (s : State) (l st n) : (s.endLoad l st n).hw = s.hw := by simp [endLoad, ↓hw_mk, hw_def]

@[simp] theorem pwAttempt_hw (s : State) (l) : (s.pwAttempt l).hw = s.hw := by
  simp only [pwAttempt, ↓hw_mk, hw_def, hw_ite, ite_self, bump_hw, srcRead_hw]

@[simp] theorem startLoad_hw (s : State) (r idx mapp tmo addr) : (s.startLoad r idx mapp tmo addr).hw = s.hw := by
  simp [startLoad]

@[simp] theorem pwRetry_hw (s : State) : (s.pwRetry).hw = s.hw := by
  unfold pwRetry
  split <;> simp

@[simp] theorem loadRead_hw (s : State) (step t) : (s.loadRead step t).hw = s.hw := by
  unfold loadRead
  split <;> simp [↓hw_mk, hw_def]

@[simp] theorem loadDone_hw (s : State) : (s.loadDone).hw = s.hw := by
  unfold loadDone
  repeat' split
  all_goals simp

@[simp] theorem pwRevoke_hw (s : State) : (s.pwRevoke).hw = s.hw := by
  unfold pwRevoke
  split <;> simp

@[simp] theorem planEnd_ok (s : State) (hs : HwOk s.hw) : HwOk (s.planEnd).hw := by simp [planEnd, ↓hw_mk, hw_def, hs]
@[simp] theorem lathTurn_hw (s : State) (t) : (s.lathTurn t).hw = s.hw := by simp [lathTurn, ↓hw_mk, hw_def]
@[simp] theorem planOver_ok (s : State) (hs : HwOk s.hw) : HwOk (s.planOver).hw := by simp [planOver, hs]

@[simp] theorem flipPlan_ok (s : State) (t ni ctx) (hs : HwOk s.hw) : HwOk (s.flipPlan t ni ctx).hw := by
  simp [flipPlan, ↓hw_mk, hw_def, hs]

@[simp] theorem swapEdge_ok (s : State) (hs : HwOk s.hw) : HwOk (s.swapEdge).hw := by
  simp only [swapEdge]
  repeat' split
  all_goals simp [hs]

@[simp] theorem startResume_hw (s : State) (r idx) : (s.startResume r idx).hw = s.hw := by simp [startResume, ↓hw_mk, hw_def]
@[simp] theorem resumeEdge_hw (s : State) : (s.resumeEdge).hw = s.hw := by simp [resumeEdge, ↓hw_mk, hw_def]

end Sys2Proof.Machine.State
end

/-! ### The shape of the hardware's state: the Fabric Power Governor -/

section
namespace Sys2Proof.Machine.State

@[simp] theorem govEvt_hw (s : State) (f) : (s.govEvt f).hw = s.hw := by simp [govEvt]
@[simp] theorem govWindowEnd_hw (s : State) : (s.govWindowEnd).hw = s.hw := by simp [govWindowEnd, ↓hw_mk, hw_def]

end Sys2Proof.Machine.State
end

/-! ### The shape of the hardware's state: the error log, telemetry and the trace -/

section
namespace Sys2Proof.Machine.State

@[simp] theorem reportable_hw (s : State) : (s.reportable).hw = s.hw := by
  simp only [reportable, ↓hw_mk, hw_def, hw_ite, ite_self, set_hw]

@[simp] theorem noteLog_hw (s : State) : (s.noteLog).hw = s.hw := (rfl)
@[simp] theorem logReport_hw (s : State) (r) : (s.logReport r).hw = s.hw := by simp [logReport, ↓hw_mk, hw_def]
@[simp] theorem takeOne_hw (s : State) (r) : (s.takeOne r).hw = s.hw := by simp [takeOne, ↓hw_mk, hw_def]

@[simp] theorem takeReport_hw (s : State) (cls src) : (s.takeReport cls src).hw = s.hw := by
  unfold takeReport
  split <;> simp

@[simp] theorem popLog_hw (s : State) : (s.popLog).hw = s.hw := by
  unfold popLog
  split <;> simp [↓hw_mk, hw_def]

@[simp] theorem paceTurn_hw (s : State) : (s.paceTurn).hw = s.hw := by simp [paceTurn, ↓hw_mk, hw_def]

@[simp] theorem pacingTurn_hw (s : State) : (s.pacingTurn).hw = s.hw := by
  simp only [pacingTurn, ↓hw_mk, hw_def, hw_ite, ite_self, paceTurn_hw, passCyc_hw]

@[simp] theorem snapshot_hw (s : State) : (s.snapshot).hw = s.hw := (rfl)
@[simp] theorem snapCmds_hw (s : State) : (s.snapCmds).hw = s.hw := by simp [snapCmds]
@[simp] theorem turnSnap_hw (s : State) : (s.turnSnap).hw = s.hw := by simp [turnSnap]
@[simp] theorem countSkips_hw (s : State) (a b) : (s.countSkips a b).hw = s.hw := by simp [countSkips]
@[simp] theorem jumpSnap_hw (s : State) (a b) : (s.jumpSnap a b).hw = s.hw := by simp [jumpSnap]
@[simp] theorem tlmLoRead_hw (s : State) (a) : (s.tlmLoRead a).2.hw = s.hw := (rfl)
@[simp] theorem tlmLoWrite_hw (s : State) (a data) : (s.tlmLoWrite a data).hw = s.hw := by simp [tlmLoWrite, ↓hw_mk, hw_def]

@[simp] theorem trigClear_hw (s : State) : (s.trigClear).hw = s.hw := by
  simp only [trigClear, ↓hw_mk, hw_def, hw_ite, ite_self, set_hw]

end Sys2Proof.Machine.State
end

/-! ### The shape of the hardware's state: the Spindle time base -/

section
namespace Sys2Proof.Machine.State

@[simp] theorem spnEvt_hw (s : State) (f) : (s.spnEvt f).hw = s.hw := by simp [spnEvt]
@[simp] theorem spnInfo_hw (s : State) (f) : (s.spnInfo f).hw = s.hw := by simp [spnInfo]
@[simp] theorem loseLock_hw (s : State) : (s.loseLock).hw = s.hw := by simp [loseLock, ↓hw_mk, hw_def]
@[simp] theorem eraStep_hw (s : State) (a b) : (s.eraStep a b).hw = s.hw := by simp [eraStep]
@[simp] theorem cancelSwaps_hw (s : State) (t) : (s.cancelSwaps t).hw = s.hw := by simp [cancelSwaps]
@[simp] theorem oweBeacons_hw (s : State) : (s.oweBeacons).hw = s.hw := (rfl)
@[simp] theorem measureTurn_hw (s : State) (edge) : (s.measureTurn edge).hw = s.hw := by simp [measureTurn, ↓hw_mk, hw_def]

@[simp] theorem turnEstimate_hw (s : State) : (s.turnEstimate).2.hw = s.hw := by
  simp only [turnEstimate]
  repeat' split
  all_goals simp

@[simp] theorem followTurn_hw (s : State) : s.followTurn.hw = s.hw := by
  unfold followTurn
  extract_lets r s1 applied s2 s3 corr s4 far sp clear
  have h1 : s1.hw = s.hw := by simp only [s1, r, snd_ite, hw_ite, turnEstimate_hw, ite_self]
  have h2 : s2.hw = s.hw := by
    dsimp only [s2]
    split <;> simp only [set_hw, h1]
  have h4 : s4.hw = s.hw := by simp only [s4, s3, hw_ite, set_hw, h2, ite_self]
  have hc : clear.hw = s.hw := by simp only [clear, sp, hw_mk, hw_def, h4]
  clear_value clear
  split
  · rw [set_hw, hc]
  · split
    · rw [loseLock_hw, hc]
    · split
      · exact hc
      · simp only [hw_ite, loseLock_hw, set_hw, ite_self]
        exact hc

@[simp] theorem offsetSample_hw (s : State) (p t1 t2 t3 t4) : (s.offsetSample p t1 t2 t3 t4).hw = s.hw := by
  simp [offsetSample, ↓hw_mk, hw_def]

@[simp] theorem glintTime_hw (s : State) (p ts) : (s.glintTime p ts).hw = s.hw := by simp [glintTime]

@[simp] theorem takeRoles_hw (s : State) : (s.takeRoles).hw = s.hw := by
  simp only [takeRoles]
  split <;> simp [↓hw_mk, hw_def]

@[simp] theorem atEdge_hw (s : State) (edge) : (s.atEdge edge).hw = s.hw := by simp [atEdge, ↓hw_mk, hw_def]

@[simp] theorem turnEvents_hw (s : State) : (s.turnEvents).hw = s.hw := by
  simp only [turnEvents, ↓hw_mk, hw_def, turnSnap_hw, oweBeacons_hw, trackersTurn_hw, paceTurn_hw, lathTurn_hw, lathDrain_hw,
    noteLathe_hw]

@[simp] theorem beginTurn_ok (s : State) (edge) (hs : HwOk s.hw) : HwOk (s.beginTurn edge).hw := by
  unfold beginTurn
  extract_lets t d sp1 s1 s2 s3 s4 sp s5
  have h1 : s1.hw = s.hw := rfl
  have h4 : s4.hw = s.hw := by simp [s4, s3, s2, h1]
  have h5 : HwOk s5.hw := hwOk_of_ram hs (ram_of_hw h4 :) (Nat.mod_lt _ (Nat.two_pow_pos 40)) (Nat.two_pow_pos 11)
  rw [snapCmds_hw, turnEvents_hw]
  exact h5

theorem nextNotch_ok (s : State) (edge) (hs : HwOk s.hw) (hn : s.spn.notch ≠ 2047) : HwOk (s.nextNotch edge).hw := by
  have h0 : (s.atEdge edge).hw = s.hw := atEdge_hw s edge
  have hlt : s.spn.notch < 2048 := hs.2.2
  unfold nextNotch
  rw [snapCmds_hw]
  refine hwOk_of_ram hs (ram_of_hw h0 :) ((turn_of_hw h0).trans_lt hs.2.1 :) ?_
  have : (s.atEdge edge).spn.notch + 1 < 2048 := by
    rw [notch_of_hw h0]
    omega
  exact this

@[simp] theorem adoptTurn_ok (s : State) (c) (hs : HwOk s.hw) (hc : c < 2 ^ 40) : HwOk (s.adoptTurn c).hw := by
  unfold adoptTurn
  extract_lets old s1 sp s2
  have h1 : s1.hw = s.hw := by simp [s1]
  have h2 : HwOk s2.hw := hwOk_of_ram hs (ram_of_hw h1 :) hc ((notch_of_hw h1).trans_lt hs.2.2 :)
  split
  · rw [jumpSnap_hw, lathTurn_hw, cancelSwaps_hw]
    exact h2
  · exact h2

@[simp] theorem enterRun_ok (s : State) (c n edge) (hs : HwOk s.hw) (hc : c < 2 ^ 40) : HwOk (s.enterRun c n edge).hw := by
  unfold enterRun
  extract_lets stalled old s1 s2 sp s3 s4 s5 s6 s7
  have h2 : s2.hw = s.hw := by simp [s2, s1]
  have h3 : HwOk s3.hw := hwOk_of_ram hs (ram_of_hw h2 :) hc (Nat.mod_lt _ (Nat.two_pow_pos 11))
  have h5 : s5.hw = s3.hw := by
    dsimp only [s5, s4]
    split <;> simp
  have h7 : s7.hw = s5.hw := by
    dsimp only [s7, s6]
    split <;> simp
  rw [turnEvents_hw, cancelSwaps_hw, h7, h5]
  exact h3

@[simp] theorem enterStalled_hw (s : State) : (s.enterStalled).hw = s.hw := by simp [enterStalled, ↓hw_mk, hw_def]

@[simp] theorem notchEdge_ok (s : State) (hs : HwOk s.hw) : HwOk s.notchEdge.hw := by
  simp only [notchEdge]
  split
  · exact hs
  · split
    · split
      · simp [hs]
      · rename_i hn
        exact nextNotch_ok _ _ hs (by simpa using hn)
    · split <;> simpa [↓hw_mk, hw_def] using hs

@[simp] theorem turnEdgeRow_ok (s : State) (hs : HwOk s.hw) : HwOk (s.turnEdgeRow).hw := by
  simp [turnEdgeRow, ↓hw_mk, hw_def, hs]

theorem mem_of_firstPair {l : List Nat} {k c n : Nat} (h : firstPair l k = some (c, n)) : c ∈ l := by
  induction l generalizing k with
  | nil => cases h
  | cons a r ih =>
    cases r with
    | nil => cases h
    | cons b r =>
      simp only [firstPair] at h
      split at h
      · cases h
        simp
      · exact List.mem_cons_of_mem _ (ih h)

@[simp] theorem tcntAccept_ok (s : State) (samples : List Nat) (hs : HwOk s.hw) (hc : ∀ c ∈ samples, c < 2 ^ 40) :
    HwOk (s.tcntAccept samples).hw := by
  unfold tcntAccept
  split
  · exact hs
  · extract_lets st r sp s1 s2
    have h1 : s1.hw = s.hw := rfl
    have h2 : s2.hw = s.hw := by simp [s2, h1]
    have hok : HwOk s2.hw := h2 ▸ hs
    have hr : firstPair samples 4 = r := rfl
    clear_value s2 r
    split
    · have hlt := hc _ (mem_of_firstPair hr)
      split
      · split
        · exact hok
        · exact adoptTurn_ok _ _ hok hlt
      · exact enterRun_ok _ _ _ _ hok hlt
    · split
      · exact hok
      · simp [hok]

@[simp] theorem synthNotch_ok (s : State) (hs : HwOk s.hw) : HwOk s.synthNotch.hw := by
  simp only [synthNotch]
  split
  · exact hs
  · split
    · split
      · simp [hs]
      · rename_i hn
        exact nextNotch_ok _ _ hs (by simpa using hn)
    · split <;> simp [hs]

@[simp] theorem stallDetect_hw (s : State) : (s.stallDetect).hw = s.hw := by simp [stallDetect]
@[simp] theorem beaconTimeout_hw (s : State) : (s.beaconTimeout).hw = s.hw := by simp [beaconTimeout]
@[simp] theorem noteBeacon_hw (s : State) (p) : (s.noteBeacon p).hw = s.hw := (rfl)

@[simp] theorem takeBeacon_ok (s : State) (p tcnt locked stratum) (hs : HwOk s.hw) (hc : tcnt < 2 ^ 40) :
    HwOk (s.takeBeacon p tcnt locked stratum).hw := by
  unfold takeBeacon
  extract_lets st near s1 expect
  have h1 : HwOk s1.hw := by simpa [s1] using hs
  split
  · exact hs
  · split
    · exact hs
    · split
      · simp [hs]
      · split
        · split
          · exact h1
          · refine adoptTurn_ok _ _ h1 ?_
            split
            · exact hc
            · exact Nat.mod_lt _ (Nat.two_pow_pos 40)
        · rw [noteBeacon_hw]
          exact enterRun_ok _ _ _ _ (atEdge_hw s1 _ ▸ h1) hc

@[simp] theorem spnCtlWrite_ok (s : State) (data) (hs : HwOk s.hw) : HwOk (s.spnCtlWrite data).2.hw := by
  simp only [spnCtlWrite]
  split
  · exact hs
  · split
    · rw [noteLathe_hw, takeRoles_hw]
      exact hwOk_of_ram hs (by simp) (Nat.two_pow_pos 40) (Nat.two_pow_pos 11)
    · split
      · simpa using hs
      · rw [noteLathe_hw, takeRoles_hw]
        exact hwOk_of_ram hs rfl (Nat.two_pow_pos 40) (Nat.two_pow_pos 11)

@[simp] theorem spnNowRead_hw (s : State) : (s.spnNowRead).2.hw = s.hw := (rfl)

end Sys2Proof.Machine.State
end

/-! ### The shape of the hardware's state: links, and what they send -/

section
namespace Sys2Proof.Machine.State

@[simp] theorem setLink_hw (s : State) (p l) : (s.setLink p l).hw = s.hw := (rfl)
@[simp] theorem updLink_hw (s : State) (p) (f : LinkPort → LinkPort) : (s.updLink p f).hw = s.hw := (rfl)
@[simp] theorem setLinkState_hw (s : State) (p v) : (s.setLinkState p v).hw = s.hw := by simp [setLinkState]
@[simp] theorem setMask_hw (s : State) (p v) : (s.setMask p v).hw = s.hw := (rfl)
@[simp] theorem nklEvt_hw (s : State) (p f st) : (s.nklEvt p f st).hw = s.hw := by simp [nklEvt]
@[simp] theorem nklErr_hw (s : State) (p f st) : (s.nklErr p f st).hw = s.hw := by simp [nklErr]

@[simp] theorem freePb_hw (s : State) (p b) : (s.freePb p b).hw = s.hw := by
  unfold freePb
  split <;> simp

@[simp] theorem dropWaiting_hw (s : State) (p l) : (s.dropWaiting p l).hw = s.hw := by simp [dropWaiting]

@[simp] theorem linkDownBy_hw (s : State) (p why) : (s.linkDownBy p why).hw = s.hw := by
  simp only [linkDownBy]
  repeat' split
  all_goals simp [↓hw_mk, hw_def]

@[simp] theorem noteKeys_hw (s : State) : (s.noteKeys).hw = s.hw := (rfl)
@[simp] theorem putKey_hw (s : State) (k) : (s.putKey k).hw = s.hw := (rfl)
@[simp] theorem eraseDown_hw (s : State) (p) : (s.eraseDown p).hw = s.hw := by simp [eraseDown]
@[simp] theorem erase_hw (s : State) : (s.erase).hw = s.hw := by simp [erase, ↓hw_mk, hw_def]
@[simp] theorem violation_hw (s : State) (c obj) : (s.violation c obj).hw = s.hw := by simp [violation]
@[simp] theorem linkDown_hw (s : State) (p why) : (s.linkDown p why).hw = s.hw := by simp [linkDown]
@[simp] theorem spendCtr_hw (s : State) (p rx ph) : (s.spendCtr p rx ph).hw = s.hw := by simp [spendCtr]

@[simp] theorem linkBytes_hw (s : State) (p pk) : (s.linkBytes p pk).2.hw = s.hw := by
  simp only [linkBytes]
  repeat' split
  all_goals simp

@[simp] theorem rekey_hw (s : State) (p rx kslot sslot) : (s.rekey p rx kslot sslot).2.hw = s.hw := by
  unfold rekey
  repeat' split
  all_goals simp

@[simp] theorem grantMore_hw (s : State) (p) (k : Nat) : (s.grantMore p k).hw = s.hw := by
  induction k generalizing s with
  | zero => rfl
  | succ k ih =>
    simp only [grantMore]
    split
    · rfl
    · split
      · split
        · rfl
        · rename_i h
          simp [ih, hw_snd_of_eq h]
      · split
        · split
          · rfl
          · rename_i h
            simp [ih, hw_snd_of_eq h]
        · rfl

@[simp] theorem grant'_hw (s : State) (p) : (s.grant' p).hw = s.hw := by simp [grant']
@[simp] theorem driveLanes_hw (s : State) (p lanes) : (s.driveLanes p lanes).hw = s.hw := (rfl)
@[simp] theorem emitCell_hw (s : State) (p head pay) : (s.emitCell p head pay).hw = s.hw := by simp [emitCell, ↓hw_mk, hw_def]
@[simp] theorem isolated_hw (s : State) (p) : (s.isolated p).hw = s.hw := by simp [isolated]

@[simp] theorem startPkt_hw (s : State) (p glint) : (s.startPkt p glint).hw = s.hw := by
  simp only [startPkt]
  split <;> simp

@[simp] theorem sendData_hw (s : State) (p glint) : (s.sendData p glint).hw = s.hw := by
  simp only [sendData]
  repeat' split
  all_goals simp

@[simp] theorem sendReplay_hw (s : State) (p) : (s.sendReplay p).hw = s.hw := by
  simp only [sendReplay]
  repeat' split
  all_goals simp

@[simp] theorem sendCtrl_hw (s : State) (p) : (s.sendCtrl p).hw = s.hw := by simp [sendCtrl]
@[simp] theorem downAfter_hw (s : State) (p) : (s.downAfter p).hw = s.hw := by simp [downAfter]

@[simp] theorem nextCell_hw (s : State) (p) : (s.nextCell p).hw = s.hw := by
  unfold nextCell
  extract_lets st s1 l room s2
  have h1 : s1.hw = s.hw := by simp only [s1, hw_ite, startPkt_hw, ite_self]
  split
  · rfl
  · split
    · rw [emitCell_hw, updLink_hw, h1]
    · split
      · simp only [s2, hw_ite, isolated_hw, emitCell_hw, updLink_hw, h1, ite_self]
      · split
        · rw [emitCell_hw, updLink_hw, h1]
        · rw [emitCell_hw, updLink_hw, h1]
        · simp only [hw_ite, sendReplay_hw, sendData_hw, sendCtrl_hw, emitCell_hw, h1, ite_self]

@[simp] theorem cellBoundary_hw (s : State) (p) : (s.cellBoundary p).hw = s.hw := by simp [cellBoundary]

end Sys2Proof.Machine.State
end

/-! ### The shape of the hardware's state: the rings of the Headstock -/

section
namespace Sys2Proof.Machine.State

theorem takeTxn_hw {s : State} {p} {a' v} (h : s.takeTxn p = some (a', v)) : v.hw = s.hw := by
  simp only [takeTxn] at h
  split at h
  · cases h
  · cases h
    simp [↓hw_mk, hw_def]

@[simp] theorem orphan_hw (s : State) (p : Purp → Bool) : (s.orphan p).hw = s.hw := (rfl)
@[simp] theorem clearSquash_hw (s : State) (r) : (s.clearSquash r).hw = s.hw := (rfl)

@[simp] theorem kickFetch_hw (s : State) (r) : (s.kickFetch r).hw = s.hw := by
  unfold kickFetch
  repeat' split
  all_goals simp

@[simp] theorem undoAhead_hw (s : State) (r c) : (s.undoAhead r c).hw = s.hw := by
  simp only [undoAhead]
  repeat' split
  all_goals simp [↓hw_mk, hw_def]

@[simp] theorem takeAhead_hw (s : State) (r c) : (s.takeAhead r c).hw = s.hw := by
  simp only [takeAhead]
  split
  · rfl
  · rw [updCmd_hw, reserveOp_hw]
    refine hw_foldl_snd _ _ _ fun a k => ?_
    split
    · split
      · rename_i h
        simp [hw_snd_of_eq h]
      · rfl
    · rfl

@[simp] theorem squashCmd_hw (s : State) (r c) : (s.squashCmd r c).hw = s.hw := by simp [squashCmd]
@[simp] theorem squash_hw (s : State) (r) (p : Cmd → Bool) : (s.squash r p).hw = s.hw := by simp [squash, ↓hw_mk, hw_def]

@[simp] theorem squashLater_hw (s : State) (r held) : (s.squashLater r held).hw = s.hw := by
  simp [squashLater, ↓hw_mk, hw_def]

@[simp] theorem dropCmd_hw (s : State) (r c st) : (s.dropCmd r c st).hw = s.hw := by simp [dropCmd]

@[simp] theorem guardFail_hw (s : State) (r idx st) : (s.guardFail r idx st).hw = s.hw := by
  unfold guardFail
  split <;> simp

@[simp] theorem guardEntry_hw (s : State) (r c ent spec) : (s.guardEntry r c ent spec).hw = s.hw := by
  unfold guardEntry
  repeat' split
  all_goals simp

@[simp] theorem sendGuard_hw (s : State) (r c spec) : (s.sendGuard r c spec).hw = s.hw := by simp [sendGuard]

@[simp] theorem prepOne_hw (r) (a : State × Bool) (c) : (prepOne r a c).1.hw = a.1.hw := by
  simp only [prepOne]
  repeat' split
  all_goals simp

@[simp] theorem prepare_hw (s : State) (r) : (s.prepare r).hw = s.hw := by
  simp only [prepare, hw_ite, noteAhead_hw, hw_foldl_fst, prepOne_hw, implies_true, ite_self]

@[simp] theorem prepareAll_hw (s : State) : (s.prepareAll).hw = s.hw := by simp [prepareAll]

@[simp] theorem startRow_hw (s : State) (r opc) (f : State → Cmd → State) (hf : ∀ s c, (f s c).hw = s.hw) :
    (s.startRow r opc f).hw = s.hw := by
  simp only [startRow]
  repeat' split
  all_goals simp [hf]

@[simp] theorem doorbellWrite_hw (s : State) (r tail resume) : (s.doorbellWrite r tail resume).2.hw = s.hw := by
  simp [doorbellWrite]

@[simp] theorem ringCtlWrite_hw (s : State) (r data) : (s.ringCtlWrite r data).2.hw = s.hw := by simp [ringCtlWrite]

@[simp] theorem hdsCtlWrite_hw (s : State) (data) : (s.hdsCtlWrite data).2.hw = s.hw := by
  unfold hdsCtlWrite
  split <;> simp

@[simp] theorem insertCmd_hw (s : State) (r c) : (s.insertCmd r c).hw = s.hw := (rfl)
@[simp] theorem tsetOwed_hw (s : State) (r c) : (s.tsetOwed r c).2.hw = s.hw := (rfl)

@[simp] theorem fetched_hw (s : State) (r i st bytes) : (s.fetched r i st bytes).hw = s.hw := by
  simp [fetched, ↓hw_mk, hw_def]

@[simp] theorem commandFetch_hw (s : State) (r) : (s.commandFetch r).hw = s.hw := by
  unfold commandFetch
  split
  · rfl
  · split
    · rfl
    · split
      · rfl
      · split
        · split
          · simp
          · rename_i h
            simp [takeTxn_hw h]
        · simp

@[simp] theorem moveHead_hw (s : State) (r x1) : (s.moveHead r x1).hw = s.hw := by
  fun_induction moveHead <;> simp_all []

@[simp] theorem replied_hw (s : State) (r c st) : (s.replied r c st).hw = s.hw := by simp [replied]

@[simp] theorem statusReply_ok (s : State) (r) (hs : HwOk s.hw) : HwOk (s.statusReply r).hw := by
  unfold statusReply
  extract_lets due
  split
  · rename_i h
    obtain ⟨c, -, hc⟩ := List.exists_of_findSome?_eq_some h
    obtain ⟨p, hp, he⟩ := Option.map_eq_some_iff.1 hc
    cases he
    simp [takeTxn_hw hp, hs]
  · split
    · exact hs
    · dsimp only
      split
      · simp [hs]
      · split <;> simp [hs]

@[simp] theorem hdsSlotEnd_hw (s : State) (w st) : (s.hdsSlotEnd w st).hw = s.hw := by
  simp only [hdsSlotEnd]
  split <;> simp [↓hw_mk, hw_def]

@[simp] theorem guardNotify_hw (s : State) : (s.guardNotify).hw = s.hw := by
  unfold guardNotify
  split
  · rfl
  · rename_i h
    split <;> simp [takeArrival_hw h]

@[simp] theorem guardExpiry_hw (s : State) (slot) : (s.guardExpiry slot).hw = s.hw := by
  unfold guardExpiry
  split <;> simp

@[simp] theorem runXfer_hw (r) (s : State) (c) : (runXfer r s c).hw = s.hw := by
  unfold runXfer
  split <;> simp

@[simp] theorem runAbort_hw (r) (s : State) (c) : (runAbort r s c).hw = s.hw := by simp [runAbort]
@[simp] theorem stopCtxs_hw (s : State) (l stop) : (s.stopCtxs l stop).hw = s.hw := by simp [stopCtxs]

@[simp] theorem killChan_hw (s : State) (ep ctx chan st) : (s.killChan ep ctx chan st).hw = s.hw := by
  simp [killChan, ↓hw_mk, hw_def]

@[simp] theorem runKill_ok (r) (s : State) (c) (hs : HwOk s.hw) : HwOk (runKill r s c).hw := by
  unfold runKill
  extract_lets job l s1 rs s2 s3 s4 s5
  have h4 : s4.hw = s.hw := by simp [s4, s3, s2, s1]
  rw [finishCmd_hw]
  exact hwOk_foldl _ _ _ (fun s g h => by simp [h]) (h4 ▸ hs)

end Sys2Proof.Machine.State
end

/-! ### The shape of the hardware's state: commands that write tables and act on channels and sync units -/

section
namespace Sys2Proof.Machine.State

@[simp] theorem refuseJob_hw (s : State) (r c) : (s.refuseJob r c).hw = s.hw := by simp [refuseJob]
@[simp] theorem keep_hw (s : State) (r c l) : (s.keep r c l).hw = s.hw := (rfl)
@[simp] theorem countRank_hw (up) (s : State) (e) : (countRank up s e).hw = s.hw := by simp [countRank, ↓hw_mk, hw_def]

@[simp] theorem tsetRead_hw (s : State) (r c t addr len step) : (s.tsetRead r c t addr len step).hw = s.hw := by
  simp [tsetRead]

@[simp] theorem tsetWrite_ok (s : State) (r c t addr bytes step) (hs : HwOk s.hw) :
    HwOk (s.tsetWrite r c t addr bytes step).hw := by
  simp [tsetWrite, hs]

@[simp] theorem runRankBind_hw (r) (s : State) (c) : (runRankBind r s c).hw = s.hw := by simp [runRankBind]

@[simp] theorem rankParam_ok (s : State) (r c step t) (hs : HwOk s.hw) : HwOk (s.rankParam r c step t).hw := by
  simp [rankParam, hs]

@[simp] theorem runTableWrite_hw (r) (s : State) (c) : (runTableWrite r s c).hw = s.hw := by simp [runTableWrite]

@[simp] theorem tableParam_ok (s : State) (r c step t) (hs : HwOk s.hw) : HwOk (s.tableParam r c step t).hw := by
  simp [tableParam, hs]

@[simp] theorem runTsetSwap_hw (r) (s : State) (c) : (runTsetSwap r s c).hw = s.hw := by simp [runTsetSwap]

@[simp] theorem squashTset_hw (t) (s : State) (r) : (squashTset t s r).hw = s.hw := by
  simp only [squashTset]
  repeat' split
  all_goals simp [↓hw_mk, hw_def]

@[simp] theorem tsetEdge_hw (s : State) (r) : (s.tsetEdge r).hw = s.hw := by
  unfold tsetEdge
  split <;> simp

@[simp] theorem runInj_hw (stop r) (s : State) (c) : (runInj stop r s c).hw = s.hw := by simp [runInj]
@[simp] theorem runChanOpen_hw (r) (s : State) (c) : (runChanOpen r s c).hw = s.hw := by simp [runChanOpen, ↓hw_mk, hw_def]

@[simp] theorem closeRecv_ok (s : State) (x1 st) (hs : HwOk s.hw) : HwOk (s.closeRecv x1 st).hw := by
  simp [closeRecv, ↓hw_mk, hw_def, hs]

@[simp] theorem closeSend_hw (s : State) (x1 st) : (s.closeSend x1 st).hw = s.hw := by simp [closeSend, ↓hw_mk, hw_def]

@[simp] theorem runChanClose_ok (r) (s : State) (c) (hs : HwOk s.hw) : HwOk (runChanClose r s c).hw := by
  unfold runChanClose
  extract_lets ep ctx chan fin
  have hfin : ∀ (s : State) st, (fin s st).hw = s.hw := fun s st => finishCmd_hw ..
  split
  · simp [hfin, hs]
  · split
    · split
      · simp [hs]
      · rw [hfin, hw_foldl _ _ _ fun s y => closeSend_hw ..]
        exact hwOk_foldl _ _ _ (fun s y h => by simp [h]) hs
    · split
      · split
        · simp [hfin, hs]
        · split <;> simp [hfin, hs]
      · split
        · simp [hs]
        · split
          · simp [hfin, hs]
          · repeat' split
            all_goals simp [hfin, hs]

@[simp] theorem closedAll_hw (s : State) : (s.closedAll).hw = s.hw := by simp [closedAll]

@[simp] theorem atUnitCmd_hw (r) (s : State) (c) (f : State → State) (hf : ∀ s, (f s).hw = s.hw) :
    (atUnitCmd r s c f).hw = s.hw := by
  simp [atUnitCmd, hf]

@[simp] theorem runSemInit_hw (r) (s : State) (c) : (runSemInit r s c).hw = s.hw := by simp [runSemInit]
@[simp] theorem runSemFree_hw (r) (s : State) (c) : (runSemFree r s c).hw = s.hw := by simp [runSemFree]

@[simp] theorem runSemSet_hw (r) (s : State) (c) : (runSemSet r s c).hw = s.hw := by
  unfold runSemSet
  repeat' split
  all_goals simp

@[simp] theorem runSemRead_hw (r) (s : State) (c) : (runSemRead r s c).hw = s.hw := by simp [runSemRead]
@[simp] theorem runSyncBind_hw (r) (s : State) (c) : (runSyncBind r s c).hw = s.hw := by simp [runSyncBind]
@[simp] theorem dropMap_hw (s : State) (m first n) : (s.dropMap m first n).hw = s.hw := (rfl)

@[simp] theorem bindParam_ok (s : State) (r c step t) (hs : HwOk s.hw) : HwOk (s.bindParam r c step t).hw := by
  simp [bindParam, hs]

@[simp] theorem runBarInit_hw (r) (s : State) (c) : (runBarInit r s c).hw = s.hw := by simp [runBarInit]
@[simp] theorem barCreate_hw (s : State) (x1 mask) : (s.barCreate x1 mask).hw = s.hw := (rfl)
@[simp] theorem barFinish_hw (s : State) (r c x1 mask) : (s.barFinish r c x1 mask).hw = s.hw := by simp [barFinish]
@[simp] theorem barParam_hw (s : State) (r c step t) : (s.barParam r c step t).hw = s.hw := by simp [barParam]

@[simp] theorem runBarFree_hw (r) (s : State) (c) : (runBarFree r s c).hw = s.hw := by
  simp only [runBarFree, ↓hw_mk, hw_def, hw_ite, ite_self, hw_foldl, implies_true, endWatch_hw, finishCmd_hw]

@[simp] theorem runRealignSet_hw (r) (s : State) (c) : (runRealignSet r s c).hw = s.hw := by
  simp [runRealignSet, ↓hw_mk, hw_def]

@[simp] theorem realignedAll_hw (s : State) : (s.realignedAll).hw = s.hw := by simp [realignedAll]

end Sys2Proof.Machine.State
end

/-! ### The shape of the hardware's state: links, and what they receive -/

section
namespace Sys2Proof.Machine.State

@[simp] theorem takeAck_hw (s : State) (p a) : (s.takeAck p a).hw = s.hw := by
  simp only [takeAck]
  split <;> simp

@[simp] theorem startReplay_hw (s : State) (p a) : (s.startReplay p a).hw = s.hw := by simp [startReplay]
@[simp] theorem discardCell_hw (s : State) (p) : (s.discardCell p).hw = s.hw := by simp [discardCell]
@[simp] theorem beginSwap_hw (s : State) (p lane cmd) : (s.beginSwap p lane cmd).hw = s.hw := (rfl)

@[simp] theorem denySwap_hw (s : State) (p) : (s.denySwap p).hw = s.hw := by
  unfold denySwap
  split <;> simp

@[simp] theorem laneFail_hw (s : State) (p lane) : (s.laneFail p lane).hw = s.hw := by simp [laneFail]
@[simp] theorem spareRotate_hw (s : State) (p) : (s.spareRotate p).hw = s.hw := by simp [spareRotate]
@[simp] theorem spareCalibrate_hw (s : State) (p count) : (s.spareCalibrate p count).hw = s.hw := by simp [spareCalibrate]
@[simp] theorem swapLane_hw (s : State) (p lane r i) : (s.swapLane p lane r i).hw = s.hw := by simp [swapLane]

@[simp] theorem endSwap_hw (s : State) (p x1) : (s.endSwap p x1).hw = s.hw := by
  unfold endSwap
  split <;> simp

@[simp] theorem takeLane_hw (s : State) (p x1) : (s.takeLane p x1).hw = s.hw := by
  simp only [takeLane]
  repeat' split
  all_goals simp

@[simp] theorem switchRx_hw (s : State) (p) : (s.switchRx p).hw = s.hw := by
  simp only [switchRx]
  split <;> simp

@[simp] theorem alignRx_hw (s : State) (p lanes) : (s.alignRx p lanes).hw = s.hw := by
  simp only [alignRx]
  repeat' split
  all_goals simp

@[simp] theorem noteMarks_hw (s : State) (p lanes) : (s.noteMarks p lanes).2.hw = s.hw := by
  simp only [noteMarks]
  split <;> simp

@[simp] theorem compareSpare_hw (s : State) (p lanes) : (s.compareSpare p lanes).hw = s.hw := by
  simp only [compareSpare]
  repeat' split
  all_goals simp only [updLink_hw]

@[simp] theorem readFrame_hw (s : State) (p lanes) : (s.readFrame p lanes).2.hw = s.hw := (rfl)
@[simp] theorem takeData_hw (s : State) (p head pay) : (s.takeData p head pay).hw = s.hw := by simp [takeData]
@[simp] theorem takeCtrl_hw (s : State) (p x1) : (s.takeCtrl p x1).hw = s.hw := by simp [takeCtrl]

@[simp] theorem takeBeaconCell_ok (s : State) (p x) (hs : HwOk s.hw) : HwOk (s.takeBeaconCell p x).hw :=
  takeBeacon_ok _ _ _ _ _ (by simpa using hs) (Nat.mod_lt _ (by decide))

@[simp] theorem takeAdmit_hw (s : State) (p x1) : (s.takeAdmit p x1).hw = s.hw := by simp [takeAdmit]
@[simp] theorem goodCell_ok (s : State) (p c) (hs : HwOk s.hw) : HwOk (s.goodCell p c).hw := by simp [goodCell, hs]
@[simp] theorem takeCell_ok (p) (s : State) (c) (hs : HwOk s.hw) : HwOk (takeCell p s c).hw := by simp [takeCell, hs]

@[simp] theorem takeFrame_ok (s : State) (p sy) (hs : HwOk s.hw) : HwOk (s.takeFrame p sy).hw := by
  unfold takeFrame
  extract_lets b
  split
  · rw [discardCell_hw, updLink_hw, countSeverity_hw, nklErr_hw, bump_hw]
    exact hs
  · extract_lets s1 s2
    have h2 : s2.hw = s.hw := by
      dsimp only [s2, s1]
      split <;> simp
    split
    · exact h2 ▸ hs
    · refine hwOk_foldl _ _ _ (fun s k h => ?_) (h2 ▸ hs)
      split
      · exact h
      · exact takeCell_ok _ _ _ h

@[simp] theorem frameReceive_ok (s : State) (p lanes) (hs : HwOk s.hw) : HwOk (s.frameReceive p lanes).hw := by
  simp [frameReceive, hs]

@[simp] theorem startTraining_hw (s : State) (p) : (s.startTraining p).hw = s.hw := by simp [startTraining]
@[simp] theorem noteLanes_hw (s : State) (p lanes) : (s.noteLanes p lanes).hw = s.hw := by simp [noteLanes]
@[simp] theorem phyLock_hw (s : State) (p lanes) : (s.phyLock p lanes).hw = s.hw := by simp [phyLock]
@[simp] theorem admitSend_hw (s : State) (p) : (s.admitSend p).hw = s.hw := by simp [admitSend]
@[simp] theorem trainingTimeout_hw (s : State) (p) : (s.trainingTimeout p).hw = s.hw := by simp [trainingTimeout]

@[simp] theorem idleEnd_hw (s : State) (p) : (s.idleEnd p).hw = s.hw := by
  unfold idleEnd
  split <;> simp

@[simp] theorem replayTimeout_hw (s : State) (p) : (s.replayTimeout p).hw = s.hw := by
  unfold replayTimeout
  split <;> simp

@[simp] theorem linkDead_hw (s : State) (p) : (s.linkDead p).hw = s.hw := by simp [linkDead]
@[simp] theorem fdiError_hw (s : State) (p) : (s.fdiError p).hw = s.hw := by simp [fdiError]

@[simp] theorem linkAdmit_hw (s : State) (p epoch) : (s.linkAdmit p epoch).2.hw = s.hw := by
  simp only [linkAdmit]
  split <;> simp

@[simp] theorem nklCtlWrite_hw (s : State) (p data) : (s.nklCtlWrite p data).2.hw = s.hw := by
  simp only [nklCtlWrite]
  repeat' split
  all_goals simp

@[simp] theorem nklKeyWrite_hw (s : State) (p data) : (s.nklKeyWrite p data).hw = s.hw := by simp [nklKeyWrite]

end Sys2Proof.Machine.State
end

/-! ### The shape of the hardware's state: the Key Store -/

section
namespace Sys2Proof.Machine.State

@[simp] theorem runKeyLoad_hw (r) (s : State) (c) : (runKeyLoad r s c).hw = s.hw := by simp [runKeyLoad]

@[simp] theorem keyParam_hw (s : State) (r c t) : (s.keyParam r c t).hw = s.hw := by
  simp only [keyParam]
  repeat' split
  all_goals simp

@[simp] theorem runKeyErase_hw (r) (s : State) (c) : (runKeyErase r s c).hw = s.hw := by simp [runKeyErase]
@[simp] theorem tamper_hw (s : State) : (s.tamper).hw = s.hw := by simp [tamper, ↓hw_mk, hw_def]
@[simp] theorem fuseFall_hw (s : State) : (s.fuseFall).hw = s.hw := by simp [fuseFall]
@[simp] theorem lockKeys_hw (s : State) : (s.lockKeys).hw = s.hw := (rfl)

end Sys2Proof.Machine.State
end

/-! ### The shape of the hardware's state: commands that act on collectives, links, plans and counters -/

section
namespace Sys2Proof.Machine.State

@[simp] theorem atEngine_hw (r) (s : State) (c) (f : State → State) (hf : ∀ s, (f s).hw = s.hw) :
    (atEngine r s c f).hw = s.hw := by
  simp [atEngine, hf]

@[simp] theorem runGroupSet_hw (r) (s : State) (c) : (runGroupSet r s c).hw = s.hw := by simp [runGroupSet]

@[simp] theorem groupParam_ok (s : State) (r c step t) (hs : HwOk s.hw) : HwOk (s.groupParam r c step t).hw := by
  simp [groupParam, hs]

@[simp] theorem runColIssue_hw (r) (s : State) (c) : (runColIssue r s c).hw = s.hw := by simp [runColIssue]

@[simp] theorem issueParam_hw (s : State) (r c t) : (s.issueParam r c t).hw = s.hw := by
  simp only [issueParam]
  repeat' split
  all_goals simp

@[simp] theorem runPeerGone_ok (r) (s : State) (c) (hs : HwOk s.hw) : HwOk (runPeerGone r s c).hw := by
  simp [runPeerGone, atEngine, hs]

@[simp] theorem atLinkCmd_hw (r) (s : State) (c) (f : State → Nat → State) (hf : ∀ s n, (f s n).hw = s.hw) :
    (atLinkCmd r s c f).hw = s.hw := by
  simp [atLinkCmd, hf]

@[simp] theorem runLinkAdmit_hw (r) (s : State) (c) : (runLinkAdmit r s c).hw = s.hw := by simp [runLinkAdmit]
@[simp] theorem runLinkDown_hw (r) (s : State) (c) : (runLinkDown r s c).hw = s.hw := by simp [runLinkDown]
@[simp] theorem runLinkSwap_hw (r) (s : State) (c) : (runLinkSwap r s c).hw = s.hw := by simp [runLinkSwap]
@[simp] theorem runLinkRekey_hw (r) (s : State) (c) : (runLinkRekey r s c).hw = s.hw := by simp [runLinkRekey]
@[simp] theorem runLthSwap_hw (r) (s : State) (c) : (runLthSwap r s c).hw = s.hw := by simp [runLthSwap]

end Sys2Proof.Machine.State
end

/-! ### The shape of the hardware's state: scale-out packets -/

section
namespace Sys2Proof.Machine.State

@[simp] theorem noteRtx_hw (s : State) (p) : (s.noteRtx p).hw = s.hw := by simp [noteRtx]
@[simp] theorem sendOn_hw (s : State) (p pk buf held) : (s.sendOn p pk buf held).hw = s.hw := by simp [sendOn]
@[simp] theorem updRtx_hw (s : State) (e) (f : RtxEnt → RtxEnt) : (s.updRtx e f).hw = s.hw := (rfl)
@[simp] theorem moveOut_ok (s : State) (e) (hs : HwOk s.hw) : HwOk (s.moveOut e).hw := by simp [moveOut, hs]

@[simp] theorem moveAll_ok (s : State) (hs : HwOk s.hw) : HwOk (s.moveAll).hw := by
  unfold moveAll
  refine hwOk_foldl _ _ _ (fun s x hs => ?_) hs
  simp [hs]

@[simp] theorem holdPkt_ok (s : State) (p pk buf) (hs : HwOk s.hw) : HwOk (s.holdPkt p pk buf).hw := by
  simp [holdPkt, ↓hw_mk, hw_def, hs]

@[simp] theorem exitRoute_hw (s : State) (x) : (s.exitRoute x).hw = s.hw := by
  simp only [exitRoute]
  split
  · simp
  · split <;> rename_i h
    · simp [↓hw_mk, hw_def, hw_snd_of_eq h]
    · split
      · simp [hw_snd_of_eq h]
      · split
        · simp [hw_snd_of_eq h]
        · repeat' split
          all_goals simp [hw_snd_of_eq h]

@[simp] theorem exitAll_hw (s : State) : (s.exitAll).hw = s.hw := by simp [exitAll, ↓hw_mk, hw_def]

@[simp] theorem exitWhole_ok (s : State) (p pk buf) (hs : HwOk s.hw) : HwOk (s.exitWhole p pk buf).hw := by
  simp [exitWhole, ↓hw_mk, hw_def, hs]

@[simp] theorem scaleoutExit_ok (s : State) (p) (hs : HwOk s.hw) : HwOk (s.scaleoutExit p).hw := by
  simp only [scaleoutExit]
  split
  · exact hs
  · rename_i h
    repeat' split
    all_goals simp [↓hw_mk, hw_def, hs, takeArrival_hw h]

@[simp] theorem dropRtx_hw (s : State) (e) : (s.dropRtx e).hw = s.hw := by simp [dropRtx, ↓hw_mk, hw_def]
@[simp] theorem abandon_hw (s : State) (e st) : (s.abandon e st).hw = s.hw := by simp [abandon]

@[simp] theorem rtxTry_hw (s : State) (e) : (s.rtxTry e).hw = s.hw := by
  simp only [rtxTry]
  split
  · rfl
  · split
    · simp
    · split <;> rename_i h
      · simp [hw_snd_of_eq h]
      · repeat' split
        all_goals simp [hw_snd_of_eq h]

@[simp] theorem rtxAll_hw (s : State) : (s.rtxAll).hw = s.hw := by simp [rtxAll]

@[simp] theorem rtxDone_hw (s : State) (p key step t) : (s.rtxDone p key step t).hw = s.hw := by
  simp only [rtxDone]
  repeat' split
  all_goals simp

@[simp] theorem e2eAck_hw (s : State) (p) : (s.e2eAck p).hw = s.hw := by
  unfold e2eAck
  split
  · rfl
  · rename_i h
    split <;> simp [takeArrival_hw h]

@[simp] theorem e2eRetransmit_hw (s : State) (p num) : (s.e2eRetransmit p num).hw = s.hw := by
  simp only [e2eRetransmit]
  repeat' split
  all_goals simp

@[simp] theorem e2eAbandon_hw (s : State) (p num) : (s.e2eAbandon p num).hw = s.hw := by
  unfold e2eAbandon
  split <;> simp

@[simp] theorem noteFilt_hw (s : State) : (s.noteFilt).hw = s.hw := (rfl)

@[simp] theorem filterExpire_hw (s : State) (k) : (s.filterExpire k).hw = s.hw := by
  unfold filterExpire
  split <;> simp [↓hw_mk, hw_def]

@[simp] theorem ackBack_hw (s : State) (p src psn) : (s.ackBack p src psn).hw = s.hw := by simp [ackBack, ↓hw_mk, hw_def]
@[simp] theorem ackHere_hw (s : State) (p pk) : (s.ackHere p pk).hw = s.hw := by simp [ackHere]
@[simp] theorem injectSegs_hw (s : State) (p pk) : (s.injectSegs p pk).hw = s.hw := by simp [injectSegs]

@[simp] theorem refuseEntry_hw (s : State) (p pk st) : (s.refuseEntry p pk st).hw = s.hw := by
  simp [refuseEntry, ↓hw_mk, hw_def]

@[simp] theorem arrivalCheck_hw (s : State) (p pk) : (s.arrivalCheck p pk).2.hw = s.hw := by
  unfold arrivalCheck
  repeat' split
  all_goals simp [↓hw_mk, hw_def]

@[simp] theorem injDone_hw (s : State) (x1) : (s.injDone x1).hw = s.hw := by simp [injDone]
@[simp] theorem injAll_hw (s : State) : (s.injAll).hw = s.hw := by simp [injAll, ↓hw_mk, hw_def]

@[simp] theorem enterPkt_hw (s : State) (p pk) : (s.enterPkt p pk).2.hw = s.hw := by
  simp only [enterPkt]
  repeat' split
  all_goals simp

@[simp] theorem tagFail_hw (s : State) (p) : (s.tagFail p).hw = s.hw := by simp [tagFail]

@[simp] theorem scaleoutEntry_hw (s : State) (p) : (s.scaleoutEntry p).hw = s.hw := by
  unfold scaleoutEntry
  split
  · rfl
  · extract_lets s1 opened s2 s3 res s4
    have hres : res.2.hw = s.hw := by
      dsimp only [res]
      clear s4 res
      clear_value opened
      split
      · simp [s1]
      · have h3 : s3.hw = s.hw := by
          dsimp only [s3, s2, s1]
          split <;> simp
        split
        · simp [h3]
        · split <;> simp [h3]
    split
    · exact (injAll_hw _).trans hres
    · simp [hres]

end Sys2Proof.Machine.State
end

/-! ### The shape of the hardware's state: power domains -/

section
namespace Sys2Proof.Machine.State

@[simp] theorem setOut_hw (s : State) (n port v) : (s.setOut n port v).hw = s.hw := by simp [setOut]

@[simp] theorem setFacing_hw (s : State) (n port v) : (s.setFacing n port v).hw = s.hw := by
  unfold setFacing
  split <;> simp [↓hw_mk, hw_def]

@[simp] theorem fullCredits_hw (s : State) (link) : (s.fullCredits link).hw = s.hw := (rfl)
@[simp] theorem clearFail_hw (s : State) (n port) : (s.clearFail n port).hw = s.hw := by simp [clearFail]

@[simp] theorem rejoinLink_hw (s : State) (n port) : (s.rejoinLink n port).hw = s.hw := by
  simp only [rejoinLink]
  split <;> simp

@[simp] theorem cutVc_hw (n pl port) (s : State) (vc) : (cutVc n pl port s vc).hw = s.hw := by
  simp only [cutVc]
  repeat' split
  all_goals simp [↓hw_mk, hw_def]

@[simp] theorem cutInput_hw (s : State) (n port) : (s.cutInput n port).2.hw = s.hw := by simp [cutInput, ↓hw_mk, hw_def]
@[simp] theorem emptyNet_hw (s : State) (d) : (s.emptyNet d).hw = s.hw := (rfl)

@[simp] theorem cutEdges_hw (s : State) (d) : (s.cutEdges d).hw = s.hw := by
  refine hw_foldl _ _ _ fun s e => ?_
  repeat' split
  all_goals simp

@[simp] theorem emptyUnits_hw (s : State) (d) : (s.emptyUnits d).hw = s.hw := by simp [emptyUnits, ↓hw_mk, hw_def]
@[simp] theorem dropHeld_hw (s : State) (d) : (s.dropHeld d).hw = s.hw := by simp [dropHeld]
@[simp] theorem isolate_hw (s : State) (d) : (s.isolate d).hw = s.hw := by simp [isolate, ↓hw_mk, hw_def]

/-- The canonical form, said of all pairs: no zero is listed, and the addresses rise. -/
theorem wf_iff_pairwise (m : List (Nat × Byte)) :
    Memory.wf m = true ↔ (∀ e ∈ m, e.2 ≠ 0) ∧ m.Pairwise (fun e f => e.1 < f.1) := by
  induction m with
  | nil => simp [Memory.wf]
  | cons e r ih =>
    obtain ⟨a, v⟩ := e
    rw [wf_cons, ih, List.forall_mem_cons, List.pairwise_cons]
    refine ⟨fun ⟨hv, hhead, hz, hp⟩ => ⟨⟨hv, hz⟩, fun f hf => ?_, hp⟩,
      fun ⟨⟨hv, hz⟩, hlt, hp⟩ => ⟨hv, fun f hf => hlt f (List.mem_of_mem_head? hf), hz, hp⟩⟩
    cases r with
    | nil => cases hf
    | cons g r =>
      have hg : a < g.1 := hhead g rfl
      rcases List.mem_cons.1 hf with rfl | hf
      · exact hg
      · exact hg.trans ((List.pairwise_cons.1 hp).1 f hf)

theorem wf_filter (m : List (Nat × Byte)) (p : Nat × Byte → Bool) (h : Memory.wf m = true) :
    Memory.wf (m.filter p) = true := by
  rw [wf_iff_pairwise] at h ⊢
  obtain ⟨hz, hp⟩ := h
  exact ⟨fun e he => hz e (List.mem_of_mem_filter he), hp.filter _⟩

@[simp] theorem loseDomain_ok (s : State) (d) (hs : HwOk s.hw) : HwOk (s.loseDomain d).hw := by
  unfold loseDomain
  extract_lets b s1 s2 s3 out outP purpOut spilled pools dark
  have h3 : s3.hw = s.hw := by simp [s3, s2, s1]
  have hok : HwOk s3.hw := h3 ▸ hs
  exact ⟨wf_filter _ _ hok.1, hok.2⟩

@[simp] theorem goDark_ok (s : State) (d) (hs : HwOk s.hw) : HwOk (s.goDark d).hw := by simp [goDark, hs]
@[simp] theorem enterPenumbra_hw (s : State) (d) : (s.enterPenumbra d).hw = s.hw := by simp [enterPenumbra]
@[simp] theorem enterUmbra_hw (s : State) (d forced) : (s.enterUmbra d forced).hw = s.hw := by simp [enterUmbra]
@[simp] theorem joinEdge_hw (s : State) (n p) : (s.joinEdge n p).hw = s.hw := by simp [joinEdge]
@[simp] theorem relight_hw (s : State) (d) : (s.relight d).hw = s.hw := by simp [relight]
@[simp] theorem light_hw (s : State) (d) : (s.light d).hw = s.hw := by simp [light]

end Sys2Proof.Machine.State
end

/-! ### The shape of the hardware's state: domain transitions and router drains -/

section
namespace Sys2Proof.Machine.State

@[simp] theorem downForced_ok (s : State) (d) (hs : HwOk s.hw) : HwOk (s.downForced d).hw := by
  unfold downForced
  extract_lets s1 s2 s3
  have h2 : s2.hw = s.hw := by simp [s2, s1]
  have h3 : HwOk s3.hw := hwOk_foldl _ _ _ (fun s p h => by simp [h]) (h2 ▸ hs)
  simpa using h3

@[simp] theorem setTrans_hw (s : State) (t) : (s.setTrans t).hw = s.hw := by simp [setTrans, ↓hw_mk, hw_def]
@[simp] theorem phaseTo_hw (s : State) (t ph born) : (s.phaseTo t ph born).hw = s.hw := by simp [phaseTo]

@[simp] theorem closeTrans_hw (s : State) (t st) : (s.closeTrans t st).hw = s.hw := by
  simp only [closeTrans]
  split <;> simp [↓hw_mk, hw_def]

@[simp] theorem dropTrans_hw (s : State) (r idx st) : (s.dropTrans r idx st).hw = s.hw := by simp [dropTrans, ↓hw_mk, hw_def]
@[simp] theorem goDown_ok (s : State) (r c hit) (hs : HwOk s.hw) : HwOk (s.goDown r c hit).hw := by simp [goDown, hs]

@[simp] theorem goUp_hw (s : State) (d cmd) : (s.goUp d cmd).hw = s.hw := by
  unfold goUp
  split <;> simp [↓hw_mk, hw_def]

@[simp] theorem holdLocal_hw (s : State) (n old v) : (s.holdLocal n old v).hw = s.hw := by simp [holdLocal, ↓hw_mk, hw_def]
@[simp] theorem holdInputs_hw (s : State) (n old v) : (s.holdInputs n old v).hw = s.hw := by simp [holdInputs]

@[simp] theorem startDrain_hw (s : State) (r c hit) : (s.startDrain r c hit).hw = s.hw := by
  simp only [startDrain, ↓hw_mk, hw_def, hw_ite, ite_self, burlReleaseAll_hw, dropTrans_hw, holdInputs_hw, set_hw]

@[simp] theorem fence_hw (s : State) (n) : (s.fence n).hw = s.hw := by
  simp only [fence]
  split <;> simp [↓hw_mk, hw_def]

@[simp] theorem discardHeld_hw (s : State) (n) : (s.discardHeld n).hw = s.hw := by
  simp only [discardHeld, ↓hw_mk, hw_def, hw_ite, ite_self, hw_foldl, implies_true, discarded_hw, giveCredit_hw, setBuf_hw]

@[simp] theorem closeDrain_hw (s : State) (st) : (s.closeDrain st).hw = s.hw := by
  unfold closeDrain
  split <;> simp [↓hw_mk, hw_def]

@[simp] theorem checksDone_ok (s : State) (r c hit) (hs : HwOk s.hw) : HwOk (s.checksDone r c hit).hw := by
  simp [checksDone, hs]

@[simp] theorem readSets_ok (s : State) (r c t) (hs : HwOk s.hw) : HwOk (s.readSets r c t).hw := by
  unfold readSets
  split <;> simp [hs]

@[simp] theorem beginChecks_ok (s : State) (r c) (hs : HwOk s.hw) : HwOk (s.beginChecks r c).hw := by simp [beginChecks, hs]

@[simp] theorem takeTurn_ok (s : State) (r c) (hs : HwOk s.hw) : HwOk (s.takeTurn r c).hw := by
  simp [takeTurn, ↓hw_mk, hw_def, hs]

@[simp] theorem nextTrans_ok (s : State) (k : Nat) (hs : HwOk s.hw) : HwOk (s.nextTrans k).hw := by
  induction k generalizing s with
  | zero => exact hs
  | succ k ih =>
    unfold nextTrans
    split
    · exact hs
    · split
      · split
        · exact hs
        · dsimp only
          split <;> exact ih _ (by simp [↓hw_mk, hw_def, hs])
      · split
        · split <;> simp [hs]
        · split
          · exact ih _ hs
          · split
            · exact hs
            · exact ih _ (by simp [↓hw_mk, hw_def, hs])

@[simp] theorem turns_ok (s : State) (hs : HwOk s.hw) : HwOk (s.turns).hw := by simp [turns, hs]
@[simp] theorem endTrans_ok (s : State) (t st) (hs : HwOk s.hw) : HwOk (s.endTrans t st).hw := by simp [endTrans, hs]

@[simp] theorem runDomDown_ok (r) (s : State) (c) (hs : HwOk s.hw) : HwOk (runDomDown r s c).hw := by
  simp [runDomDown, ↓hw_mk, hw_def, hs]

@[simp] theorem runDomUp_ok (r) (s : State) (c) (hs : HwOk s.hw) : HwOk (runDomUp r s c).hw := by
  simp [runDomUp, ↓hw_mk, hw_def, hs]

@[simp] theorem runDrain_ok (r) (s : State) (c) (hs : HwOk s.hw) : HwOk (runDrain r s c).hw := by
  simp [runDrain, ↓hw_mk, hw_def, hs]

@[simp] theorem checkParam_ok (s : State) (r c step x1) (hs : HwOk s.hw) : HwOk (s.checkParam r c step x1).hw := by
  simp [checkParam, hs]

@[simp] theorem drainDone_ok (s : State) (hs : HwOk s.hw) : HwOk (s.drainDone).hw := by
  unfold drainDone
  split <;> simp [hs]

@[simp] theorem drainTimeout_ok (s : State) (hs : HwOk s.hw) : HwOk (s.drainTimeout).hw := by
  unfold drainTimeout
  split <;> simp [hs]

@[simp] theorem runReopen_hw (r) (s : State) (c) : (runReopen r s c).hw = s.hw := by
  simp only [runReopen]
  repeat' split
  all_goals simp [↓hw_mk, hw_def]

@[simp] theorem quiescentNow_ok (s : State) (t forced) (hs : HwOk s.hw) : HwOk (s.quiescentNow t forced).hw := by
  simp [quiescentNow, hs]

@[simp] theorem domainQuiescent_ok (s : State) (hs : HwOk s.hw) : HwOk (s.domainQuiescent).hw := by
  unfold domainQuiescent
  split <;> simp [hs]

@[simp] theorem domDownTimeout_ok (s : State) (hs : HwOk s.hw) : HwOk (s.domDownTimeout).hw := by
  unfold domDownTimeout
  split <;> simp [hs]

@[simp] theorem switch_ok (s : State) (t) (hs : HwOk s.hw) : HwOk (s.switch t).hw := by simp [switch, ↓hw_mk, hw_def, hs]

@[simp] theorem stepBoundary_ok (s : State) (hs : HwOk s.hw) : HwOk (s.stepBoundary).hw := by
  unfold stepBoundary
  repeat' split
  all_goals simp [hs]

@[simp] theorem pwrErr_hw (s : State) (f st obj) : (s.pwrErr f st obj).hw = s.hw := by simp [pwrErr]

@[simp] theorem ackLost_ok (s : State) (d) (hs : HwOk s.hw) : HwOk (s.ackLost d).hw := by
  simp only [ackLost]
  repeat' split
  all_goals simp [↓hw_mk, hw_def, hs]

@[simp] theorem ackFall_ok (s : State) (d) (hs : HwOk s.hw) : HwOk (s.ackFall d).hw := by
  unfold ackFall
  split <;> simp [hs]

@[simp] theorem ackRise_hw (s : State) (d) : (s.ackRise d).hw = s.hw := by
  unfold ackRise
  repeat' split
  all_goals simp

@[simp] theorem ackTimeout_ok (s : State) (d) (hs : HwOk s.hw) : HwOk (s.ackTimeout d).hw := by
  unfold ackTimeout
  split <;> simp [hs]

@[simp] theorem initDone_ok (s : State) (d) (hs : HwOk s.hw) : HwOk (s.initDone d).hw := by
  unfold initDone
  split <;> simp [↓hw_mk, hw_def, hs]

@[simp] theorem domainLit_ok (s : State) (d) (hs : HwOk s.hw) : HwOk (s.domainLit d).hw := by
  unfold domainLit
  split <;> simp [hs]

end Sys2Proof.Machine.State
end

/-! ### The shape of the hardware's state: resets, stopped clocks and crossings -/

section
namespace Sys2Proof.Machine.State

@[simp] theorem rstAssert_ok (s : State) : HwOk s.rstAssert.hw := by
  simp only [rstAssert, set_hw]
  exact resetOf_ok s.build

@[simp] theorem rstRelease_hw (s : State) (key par valid) : (s.rstRelease key par valid).hw = s.hw := by
  simp [rstRelease, ↓hw_mk, hw_def]

@[simp] theorem autoUp_ok (s : State) (l) (hs : HwOk s.hw) : HwOk (s.autoUp l).hw := by simp [autoUp, ↓hw_mk, hw_def, hs]

@[simp] theorem cfgInitDone_ok (s : State) (hs : HwOk s.hw) : HwOk (s.cfgInitDone).hw := by
  simp [cfgInitDone, ↓hw_mk, hw_def, hs]

@[simp] theorem resetHalf_ok (s : State) (east) (hs : HwOk s.hw) : HwOk (s.resetHalf east).hw := by
  unfold resetHalf
  split
  · exact hs
  · extract_lets s1 ds lt s2 s3 cut out lost cs s4 s5 s6 s7 s8 s9
    have h1 : s1.hw = s.hw := by simp [s1]
    have h2 : s2.hw = s.hw := h1
    have h3 : s3.hw = s.hw := by simp [s3, h2]
    have hcut : cut.2.hw = s.hw := by simp [cut, h3]
    have h4 : s4.hw = s.hw := hcut
    have h5 : s5.hw = s.hw := by simp [s5, h4]
    clear_value s5 ds
    have h6 : HwOk s6.hw := hwOk_foldl _ _ _ (fun s d h => by simp [h]) (h5 ▸ hs)
    have h7 : HwOk s7.hw := by
      dsimp only [s7]
      split
      · split <;> simp [h6]
      · exact h6
    have h8 : HwOk s8.hw := hwOk_foldl _ _ _ (fun s t h => by simp [h]) h7
    refine turns_ok _ ?_
    dsimp only [s9]
    split
    · split <;> simp [h8]
    · exact h8

@[simp] theorem farReset_hw (s : State) (obj) : (s.farReset obj).hw = s.hw := by simp [farReset]
@[simp] theorem dropX_hw (s : State) (x1) : (s.dropX x1).hw = s.hw := (rfl)
@[simp] theorem holdX_hw (s : State) (x1 stopped) : (s.holdX x1 stopped).hw = s.hw := (rfl)

@[simp] theorem halfResetRow_ok (s : State) (east) (hs : HwOk s.hw) : HwOk (s.halfResetRow east).hw := by
  simp [halfResetRow, hs]

@[simp] theorem releaseHalf_ok (s : State) (east) (hs : HwOk s.hw) : HwOk (s.releaseHalf east).hw := by
  unfold releaseHalf
  extract_lets s1 s2
  have h2 : s2.hw = s.hw := by simp [s2, s1]
  exact autoUp_ok _ _ (h2 ▸ hs)

@[simp] theorem halfReleaseRow_ok (s : State) (east) (hs : HwOk s.hw) : HwOk (s.halfReleaseRow east).hw := by
  simp [halfReleaseRow, hs]

@[simp] theorem flushMem_hw (s : State) (map port) : (s.flushMem map port).hw = s.hw := by simp [flushMem, ↓hw_mk, hw_def]

@[simp] theorem farSideGone_ok (s : State) (x1 stopped) (hs : HwOk s.hw) : HwOk (s.farSideGone x1 stopped).hw := by
  unfold farSideGone
  split <;> simp [↓hw_mk, hw_def, hs]

@[simp] theorem crossingReset_ok (s : State) (x1) (hs : HwOk s.hw) : HwOk (s.crossingReset x1).hw := by
  simp [crossingReset, hs]

@[simp] theorem clockStop_ok (s : State) (x1) (hs : HwOk s.hw) : HwOk (s.clockStop x1).hw := by
  simp [clockStop, ↓hw_mk, hw_def, hs]

@[simp] theorem freeSlots_hw (s : State) (t) : (s.freeSlots t).hw = s.hw := by
  simp only [freeSlots, ↓hw_mk, hw_def, set_hw, hw_foldl, implies_true]

@[simp] theorem joinRow_hw (s : State) (x1) : (s.joinRow x1).hw = s.hw := by
  unfold joinRow
  repeat' split
  all_goals simp

@[simp] theorem joinTimeout_hw (s : State) (x1) : (s.joinTimeout x1).hw = s.hw := by simp [joinTimeout, ↓hw_mk, hw_def]
@[simp] theorem eastRestart_ok (s : State) (hs : HwOk s.hw) : HwOk (s.eastRestart).hw := by simp [eastRestart, hs]

end Sys2Proof.Machine.State
end

/-! ### The shape of the hardware's state: register accesses -/

section
namespace Sys2Proof.Machine.State

@[simp] theorem recordAcc_hw (s : State) (by' wr a data st) : (s.recordAcc by' wr a data st).hw = s.hw := by simp [recordAcc]

@[simp] theorem syncWinRead_hw (s : State) (u o) : (s.syncWinRead u o).2.hw = s.hw := by
  unfold syncWinRead
  repeat' split
  all_goals simp

@[simp] theorem bowlWinRead_hw (s : State) (off) : (s.bowlWinRead off).2.hw = s.hw := by
  unfold bowlWinRead
  split <;> simp

@[simp] theorem readGlob_hw (s : State) (a) : (s.readGlob a).2.hw = s.hw := by
  unfold readGlob
  extract_lets plain val
  have hval : ∀ x, (val x).2 = s := fun _ => rfl
  simp only [snd_ite, hw_ite, hval, spnNowRead_hw, tlmLoRead_hw, plain, ite_self]

@[simp] theorem readNi_hw (s : State) (ep off) : (s.readNi ep off).2.hw = s.hw := by
  unfold readNi
  extract_lets a plain val
  have hval : ∀ x, (val x).2 = s := fun _ => rfl
  simp only [snd_ite, hw_ite, hval, selRead_hw, plain, ite_self]

@[simp] theorem readNode_hw (s : State) (n off) : (s.readNode n off).2.hw = s.hw := by
  simp only [readNode]
  repeat' split
  all_goals simp

@[simp] theorem readPort_hw (s : State) (p off) : (s.readPort p off).2.hw = s.hw := by
  unfold readPort
  repeat' split
  all_goals simp

@[simp] theorem readReg_hw (s : State) (a) : (s.readReg a).2.hw = s.hw := by
  unfold readReg
  repeat' split
  all_goals simp

@[simp] theorem plainWrite_hw (s : State) (a data) : (s.plainWrite a data).2.hw = s.hw := by
  simp only [plainWrite]
  repeat' split
  all_goals simp

@[simp] theorem writeIf_hw (s : State) (ok st a data) : (s.writeIf ok st a data).2.hw = s.hw := by
  unfold writeIf
  repeat' split
  all_goals simp

@[simp] theorem tsetRegWrite_hw (s : State) (t ctl data) : (s.tsetRegWrite t ctl data).2.hw = s.hw := by
  simp only [tsetRegWrite]
  repeat' split
  all_goals simp

@[simp] theorem smapWrite_hw (s : State) (m ctl data) : (s.smapWrite m ctl data).2.hw = s.hw := by
  simp only [smapWrite]
  repeat' split
  all_goals simp

@[simp] theorem revokeWrite_hw (s : State) (by' data) : (s.revokeWrite by' data).2.hw = s.hw := by
  unfold revokeWrite
  repeat' split
  all_goals simp

@[simp] theorem clmCtlWrite_hw (s : State) (data) : (s.clmCtlWrite data).2.hw = s.hw := by
  unfold clmCtlWrite
  split <;> simp

@[simp] theorem govCtlWrite_hw (s : State) (data) : (s.govCtlWrite data).2.hw = s.hw := by
  unfold govCtlWrite
  split <;> simp

@[simp] theorem ringWrite_hw (s : State) (r off data) : (s.ringWrite r off data).2.hw = s.hw := by
  unfold ringWrite
  repeat' split
  all_goals simp

@[simp] theorem writeGlob_ok (s : State) (by' a data) (hs : HwOk s.hw) : HwOk (s.writeGlob by' a data).2.hw := by
  simp [writeGlob, hs]

@[simp] theorem quotaWrite_hw (s : State) (ep data) : (s.quotaWrite ep data).2.hw = s.hw := by
  simp only [quotaWrite]
  split <;> simp

@[simp] theorem ctxCtlWrite_hw (s : State) (ep c data) : (s.ctxCtlWrite ep c data).2.hw = s.hw := by
  simp only [ctxCtlWrite]
  repeat' split
  all_goals simp

@[simp] theorem ctxSynWrite_hw (s : State) (ep c data) : (s.ctxSynWrite ep c data).2.hw = s.hw := by
  simp only [ctxSynWrite]
  repeat' split
  all_goals simp

@[simp] theorem dwinWrite_hw (s : State) (ep w ctl data) : (s.dwinWrite ep w ctl data).2.hw = s.hw := by
  simp only [dwinWrite]
  repeat' split
  all_goals simp

@[simp] theorem awinWrite_hw (s : State) (ep w k data) : (s.awinWrite ep w k data).2.hw = s.hw := by
  simp only [awinWrite]
  repeat' split
  all_goals simp

@[simp] theorem cqWrite_hw (s : State) (ep c k data) : (s.cqWrite ep c k data).2.hw = s.hw := by
  simp only [cqWrite]
  repeat' split
  all_goals simp

@[simp] theorem rqWrite_hw (s : State) (ep q k data) : (s.rqWrite ep q k data).2.hw = s.hw := by
  simp only [rqWrite]
  repeat' split
  all_goals simp

@[simp] theorem sqWrite_hw (s : State) (ep q k data) : (s.sqWrite ep q k data).2.hw = s.hw := by
  simp only [sqWrite]
  repeat' split
  all_goals simp

@[simp] theorem thrWrite_hw (s : State) (ep data) : (s.thrWrite ep data).2.hw = s.hw := by simp [thrWrite]
@[simp] theorem writeNi_hw (s : State) (ep off data) : (s.writeNi ep off data).2.hw = s.hw := by simp [writeNi]
@[simp] theorem slotWrite_hw (s : State) (n off data) : (s.slotWrite n off data).2.hw = s.hw := by simp [slotWrite]

@[simp] theorem writeNode_hw (s : State) (n off data) : (s.writeNode n off data).2.hw = s.hw := by
  simp only [writeNode]
  repeat' split
  all_goals simp

@[simp] theorem writePort_hw (s : State) (p off data) : (s.writePort p off data).2.hw = s.hw := by
  unfold writePort
  repeat' split
  all_goals simp

@[simp] theorem writeReg_ok (s : State) (by' a data) (hs : HwOk s.hw) : HwOk (s.writeReg by' a data).2.hw := by
  unfold writeReg
  repeat' split
  all_goals simp [hs]

@[simp] theorem access_ok (s : State) (by' wr a data) (hs : HwOk s.hw) : HwOk (s.access by' wr a data).2.2.hw := by
  simp [access, hs]

end Sys2Proof.Machine.State
end

/-! ### The shape of the hardware's state: the CFG and DBG ports and the station -/

section
namespace Sys2Proof.Machine.State

@[simp] theorem accEnd_hw (s : State) (k data st) : (s.accEnd k data st).hw = s.hw := by
  unfold accEnd
  split <;> simp [↓hw_mk, hw_def]

@[simp] theorem sendCfg_hw (s : State) (k wr a data d) : (s.sendCfg k wr a data d).hw = s.hw := by
  simp [sendCfg, ↓hw_mk, hw_def]

@[simp] theorem regAccess_ok (s : State) (k wr a data) (hs : HwOk s.hw) : HwOk (s.regAccess k wr a data).hw := by
  simp only [regAccess]
  split <;> simp [hs]

@[simp] theorem cfgAccess_ok (s : State) (wr a data) (hs : HwOk s.hw) : HwOk (s.cfgAccess wr a data).hw := by
  simp [cfgAccess, ↓hw_mk, hw_def, hs]

@[simp] theorem cfgWaited_ok (s : State) (hs : HwOk s.hw) : HwOk (s.cfgWaited).hw := by
  unfold cfgWaited
  split <;> simp [↓hw_mk, hw_def, hs]

@[simp] theorem dbgEnd_hw (s : State) (data st) : (s.dbgEnd data st).hw = s.hw := (rfl)

@[simp] theorem dbgAccess_ok (s : State) (wr a data) (hs : HwOk s.hw) : HwOk (s.dbgAccess wr a data).hw := by
  simp [dbgAccess, ↓hw_mk, hw_def, hs]

@[simp] theorem closeAcc_hw (s : State) (x1 data st) : (s.closeAcc x1 data st).hw = s.hw := by simp [closeAcc, ↓hw_mk, hw_def]
@[simp] theorem closeDown_hw (s : State) : (s.closeDown).hw = s.hw := by simp [closeDown]

@[simp] theorem cfgRow_ok (s : State) (e wr) (hs : HwOk s.hw) : HwOk (s.cfgRow e wr).hw := by
  unfold cfgRow
  split
  · simp [hs]
  · rename_i h
    simp [hs, takeArrival_hw h]

@[simp] theorem stationDisc_hw (s : State) : (s.stationDisc).hw = s.hw := (rfl)

@[simp] theorem cfgRspRow_hw (s : State) : (s.cfgRspRow).hw = s.hw := by
  unfold cfgRspRow
  split
  · rfl
  · rename_i h
    split <;> simp [takeArrival_hw h]

@[simp] theorem cfgTimeout_hw (s : State) (k) : (s.cfgTimeout k).hw = s.hw := by
  unfold cfgTimeout
  split <;> simp

@[simp] theorem storeRead_hw (s : State) (pk) : (s.storeRead pk).hw = s.hw := by simp [storeRead]

@[simp] theorem stationReceive_hw (s : State) : (s.stationReceive).hw = s.hw := by
  unfold stationReceive
  split
  · simp
  · rename_i h
    simp [takeArrival_hw h]

end Sys2Proof.Machine.State
end

/-! ### The shape of the hardware's state: what comes about without an event of its own -/

section
namespace Sys2Proof.Machine.State

@[simp] theorem paramDone_ok (s : State) (r idx step t) (hs : HwOk s.hw) : HwOk (s.paramDone r idx step t).hw := by
  unfold paramDone
  repeat' split
  all_goals simp [hs]

@[simp] theorem pathLost_ok (s : State) (ep tset key st) (hs : HwOk s.hw) : HwOk (s.pathLost ep tset key st).hw := by
  simp [pathLost, ↓hw_mk, hw_def, hs]

@[simp] theorem tableCame_ok (s : State) (ep tset path key epoch t) (hs : HwOk s.hw) :
    HwOk (s.tableCame ep tset path key epoch t).hw := by
  simp [tableCame, hs]

@[simp] theorem smapCame_ok (s : State) (ep m vid t) (hs : HwOk s.hw) : HwOk (s.smapCame ep m vid t).hw := by
  simp [smapCame, hs]

@[simp] theorem txnDone_ok (s : State) (t) (hs : HwOk s.hw) : HwOk (s.txnDone t).hw := by
  unfold txnDone
  split <;> simp [hs]

theorem nextTxn_hw {s : State} {a' v} (h : s.nextTxn = some (a', v)) : v.hw = s.hw := by
  simp only [nextTxn] at h
  split at h
  · cases h
  · cases h
    simp [↓hw_mk, hw_def]

@[simp] theorem opOver_ok (s : State) (o) (hs : HwOk s.hw) : HwOk (s.opOver o).hw := by
  unfold opOver
  split <;> simp [↓hw_mk, hw_def, hs]

theorem settleOne_ok {s v : State} (h : s.settleOne = some v) (hs : HwOk s.hw) : HwOk v.hw := by
  unfold settleOne at h
  split at h
  · rename_i hn
    cases h
    simp [nextTxn_hw hn, hs]
  · split at h
    · cases h
      simp [hs]
    · split at h
      · cases h
        simpa [↓hw_mk, hw_def] using hs
      · split at h
        · cases h
          simp [hs]
        · cases h

@[simp] theorem colRun_ok (s : State) (p g) (k : Nat) (hs : HwOk s.hw) : HwOk (s.colRun p g k).hw := by
  induction k generalizing s with
  | zero => exact hs
  | succ k ih =>
    unfold colRun
    split
    · exact hs
    · dsimp only
      split
      · exact colStep_ok _ _ hs
      · exact ih _ (colStep_ok _ _ hs)

@[simp] theorem lookAgain_ok (s : State) (hs : HwOk s.hw) : HwOk s.lookAgain.hw := by
  unfold lookAgain
  extract_lets s1 s2 s3 s4 s5 s6 s7 s8 s9 s10 s11
  have h1 : HwOk s1.hw := hwOk_foldl _ _ _ (fun s c h => by simp [h]) hs
  have h2 : HwOk s2.hw := by
    dsimp only [s2]
    split <;> simp [h1]
  have h5 : s5.hw = s2.hw := by simp [s5, s4, s3]
  have h6 : HwOk s6.hw := by
    dsimp only [s6]
    split <;> simp [h5, h2]
  have h10 : s10.hw = s6.hw := by simp [s10, s9, s8, s7]
  split
  · exact h10 ▸ h6
  · simp [s11, h10, h6]

@[simp] theorem settleLoop_ok (s : State) (k : Nat) (hs : HwOk s.hw) : HwOk (s.settleLoop k).hw := by
  induction k generalizing s with
  | zero => exact hs
  | succ k ih =>
    unfold settleLoop
    split
    · rename_i h
      exact ih _ (settleOne_ok h hs)
    · dsimp only
      split
      · exact ih _ (lookAgain_ok s hs)
      · exact lookAgain_ok s hs

@[simp] theorem settle_ok (s : State) (hs : HwOk s.hw) : HwOk (s.settle).hw := by simp [settle, hs]

end Sys2Proof.Machine.State
end

/-! ### The shape of the hardware's state: the rows of the network interfaces -/

section
namespace Sys2Proof.Machine.State

@[simp] theorem replyTaken_ok (s : State) (ep pk) (hs : HwOk s.hw) : HwOk (s.replyTaken ep pk).hw := by
  unfold replyTaken
  split <;> simp [hs]

@[simp] theorem replyRow_ok (s : State) (ep ptype) (p : Arrival → Bool) (hs : HwOk s.hw) :
    HwOk (s.replyRow ep ptype p).hw := by
  unfold replyRow
  split
  · simp [hs]
  · rename_i h
    simp [hs, takeArrival_hw h]

@[simp] theorem nackRow_ok (s : State) (ep) (hs : HwOk s.hw) : HwOk (s.nackRow ep).hw := by
  unfold nackRow
  split
  · exact hs
  · rename_i h
    repeat' split
    all_goals simp [hs, takeArrival_hw h]

@[simp] theorem niLaunch_ok (s : State) (ep) (hs : HwOk s.hw) : HwOk (s.niLaunch ep).hw := by
  unfold niLaunch
  repeat' split
  all_goals simp [hs]

@[simp] theorem reqTimeout_hw (s : State) (ep idx) : (s.reqTimeout ep idx).hw = s.hw := by
  unfold reqTimeout
  repeat' split
  all_goals simp

@[simp] theorem reqRetry_hw (s : State) (ep idx) : (s.reqRetry ep idx).hw = s.hw := by
  unfold reqRetry
  repeat' split
  all_goals simp

@[simp] theorem mcRow_ok (s : State) (ep) (hs : HwOk s.hw) : HwOk (s.mcRow ep).hw := by
  unfold mcRow
  split
  · simp [hs]
  · rename_i h
    simp [hs, takeArrival_hw h]

@[simp] theorem mcNackRow_ok (s : State) (ep) (hs : HwOk s.hw) : HwOk (s.mcNackRow ep).hw := by
  unfold mcNackRow
  split
  · simp [hs]
  · rename_i h
    simp [hs, takeArrival_hw h]

@[simp] theorem accRow_hw (s : State) (ep) : (s.accRow ep).hw = s.hw := by
  unfold accRow
  split
  · simp
  · rename_i h
    simp [takeArrival_hw h]

end Sys2Proof.Machine.State
end

/-! ### The shape of the hardware's state: the rows of cores and queues -/

section
namespace Sys2Proof.Machine.State

@[simp] theorem ntfRow_hw (s : State) (ep) : (s.ntfRow ep).hw = s.hw := by
  unfold ntfRow
  split
  · simp
  · rename_i h
    simp [takeArrival_hw h]

@[simp] theorem mapAnswer_hw (s : State) (m wr tag data bad st) : (s.mapAnswer m wr tag data bad st).hw = s.hw := by
  unfold mapAnswer
  split
  · rename_i h
    simp [unitAnswered_hw h]
  · simp [↓hw_mk, hw_def]

@[simp] theorem mapTimeout_hw (s : State) (m wr tag) : (s.mapTimeout m wr tag).hw = s.hw := by
  unfold mapTimeout
  split
  · rfl
  · simp [↓hw_mk, hw_def]

@[simp] theorem tapData_hw (s : State) (tap tag data poison err) : (s.tapData tap tag data poison err).hw = s.hw := by
  simp only [tapData, unitAnswered_getD_hw]

end Sys2Proof.Machine.State
end

/-! ### The shape of the hardware's state: the rows of the Headstock -/

section
namespace Sys2Proof.Machine.State

@[simp] theorem reservedRow_hw (s : State) (r) : (s.reservedRow r).hw = s.hw := by
  unfold reservedRow
  split <;> simp

end Sys2Proof.Machine.State
end

/-! ### The shape of the hardware's state: the rows of the port blocks -/

section
namespace Sys2Proof.Machine.State

@[simp] theorem bowlRow_hw (s : State) (p commit) : (s.bowlRow p commit).hw = s.hw := by
  unfold bowlRow
  split
  · simp
  · rename_i h
    simp [takeArrival_hw h]

@[simp] theorem bowlDataRow_hw (s : State) (p) : (s.bowlDataRow p).hw = s.hw := by
  unfold bowlDataRow
  split
  · simp
  · rename_i h
    simp [takeArrival_hw h]

@[simp] theorem readyRow_hw (s : State) (p gdone) : (s.readyRow p gdone).hw = s.hw := by
  unfold readyRow
  split
  · simp
  · rename_i h
    simp [takeArrival_hw h]

@[simp] theorem attemptOf_hw (s : State) (who) : (s.attemptOf who).hw = s.hw := by simp [attemptOf]

end Sys2Proof.Machine.State
end

/-! ### The shape of the hardware's state: the idle cycle -/

section
namespace Sys2Proof.Machine.State

@[simp] theorem tickClock_hw (s : State) : (s.tickClock).hw = s.hw := by simp [tickClock, ↓hw_mk, hw_def]
@[simp] theorem tick_hw (s : State) : (s.tick).hw = s.hw := by simp [tick]

end Sys2Proof.Machine.State
end

/-! ### Every step keeps the shape of the hardware's state -/

section
namespace Sys2Proof.Machine

/-- Where the outcome is a next state, its hardware has its shape. -/
def Keeps (o : Host.Outcome State Fault Refusal) : Prop := ∀ t, o = .next t → State.HwOk t.hw

theorem keeps_noSuchRing : Keeps (.fault .noSuchRing) := fun _ h => by injection h

theorem keeps_ite {c : Prop} [Decidable c] {a b : Host.Outcome State Fault Refusal} (ha : Keeps a) (hb : Keeps b) :
    Keeps (if c then a else b) := by
  split
  · exact ha
  · exact hb

/-! A command keeps the shape where the effect at its place does, and so does the pending work that follows it. -/

section
variable {s : State} {f : State → State} (hs : State.HwOk s.hw) (hf : State.HwOk (f s).hw)
include hs

theorem keeps_atHost {wr a d} : Keeps (atHost s wr a d) := by
  rintro t ⟨⟩
  split
  · exact State.settle_ok _ (State.cfgAccess_ok _ _ _ _ hs)
  · exact hs

theorem keeps_niAccess {ep wr off d} : Keeps (niAccess ep wr off d s) := by
  rintro t ⟨⟩
  split
  · exact State.settle_ok _ (State.access_ok _ _ _ _ _ hs)
  · exact hs

/-- A register access of the CFG host that a command of a ring number stands for. -/
theorem keeps_ringAccess {r a d : Nat} : Keeps (if r < 16 then atHost s true a d else .fault .noSuchRing) :=
  keeps_ite (keeps_atHost hs) keeps_noSuchRing

include hf

theorem keeps_act {on} : Keeps (act on s f) := by
  rintro t ⟨⟩
  split
  · exact hf
  · exact hs

theorem keeps_settle {on} : Keeps (act on s fun s => (f s).settle) := keeps_act hs (State.settle_ok (f s) hf)

theorem keeps_atHds : Keeps (atHds s f) := keeps_settle hs hf
theorem keeps_atUnitOfCfg : Keeps (atUnitOfCfg s f) := keeps_settle hs hf
theorem keeps_atGlobal : Keeps (atGlobal s f) := keeps_settle hs hf
theorem keeps_atHalf : Keeps (atHalf s f) := keeps_settle hs hf
theorem keeps_atNode {n} : Keeps (atNode n s f) := keeps_act hs hf
theorem keeps_atUnit {u} : Keeps (atUnit u s f) := keeps_act hs hf
theorem keeps_atNi {ep} : Keeps (atNi ep s f) := keeps_settle hs hf
theorem keeps_atNodeNi {ep} : Keeps (atNodeNi ep s f) := keeps_settle hs hf
theorem keeps_atLathe {ep} : Keeps (atLathe ep s f) := keeps_settle hs hf
theorem keeps_atTap {t} : Keeps (atTap t s f) := keeps_settle hs hf
theorem keeps_atMap {m} : Keeps (atMap m s f) := keeps_settle hs hf
theorem keeps_atBowl {p} : Keeps (atBowl p s f) := keeps_settle hs hf
theorem keeps_atEngine {p} : Keeps (atEngine p s f) := keeps_settle hs hf
theorem keeps_atExit {p} : Keeps (atExit p s f) := keeps_settle hs hf
theorem keeps_atDom {d} : Keeps (atDom d s f) := keeps_settle hs hf
theorem keeps_atCross {x} : Keeps (atCross x s f) := keeps_settle hs hf
theorem keeps_atBlockNi {ep} : Keeps (atBlockNi ep s f) := keeps_ite (keeps_act hs hf) (keeps_atNi hs hf)
theorem keeps_atRing {r} : Keeps (atRing r s f) := keeps_ite (keeps_settle hs hf) keeps_noSuchRing

theorem keeps_onLink {p} : Keeps (onLink p s f) := by
  unfold onLink atLink
  refine keeps_act hs ?_
  split
  · exact hs
  · exact State.settle_ok (f s) hf

end

/-- A row that starts a command of a ring. -/
theorem keeps_startRow {s : State} (hs : State.HwOk s.hw) {r r' opc} {f : State → Cmd → State}
    (hf : ∀ s c, State.HwOk s.hw → State.HwOk (f s c).hw) : Keeps (atRing r s fun s => s.startRow r' opc f) := by
  refine keeps_atRing hs ?_
  unfold State.startRow
  repeat' split
  all_goals simp [hs, hf]

/-- Every command keeps the shape of the hardware's state. -/
theorem exec_keeps (c : Instr) (s : State) (hs : State.HwOk s.hw) : Keeps (exec c s) := by
  unfold exec
  cases c with
  | cfgWrite _ _ | spnCtlWrite _ | spnNowRead | hdsRun _ | clmCommit _ | errPop | trigClear | keyLock => exact keeps_atHost hs
  | doorbell _ _ | ringResume _ | ringEnable _ _ => exact keeps_ringAccess hs
  | blkFree _ _ | blkPoolEnable _ _ _ | wslotFree _ _ | cquHeadWrite _ _ _ | cquSelRead _ _ | cquEnable _ _ _ _ =>
    exact keeps_niAccess hs
  | cfgTimeout _ | headstockStationReceive | cfgRsp | rtrDrainDone | rtrDrainTimeout | lthLoadDone | lthSwapEdge
  | latheResumeEdge | planComplete | guardNotify | guardExpiry _ => exact keeps_atHds hs (by simp [hs])
  | notchEdge | synthNotch | stallDetect | beaconTimeout | domainQuiescent | domDownTimeout | stepBoundary | cfgInitDone
  | errorReport _ _ | fuseVFall | errorPacingTurn => exact keeps_atUnitOfCfg hs (by simp [hs])
  | turnEdge => exact keeps_atUnitOfCfg hs (by simp [hs])
  | tcntAccept a b c d e =>
    refine keeps_atUnitOfCfg hs (State.tcntAccept_ok _ _ hs ?_)
    simp only [List.forall_mem_cons]
    exact ⟨a.isLt, b.isLt, c.isLt, d.isLt, e.isLt, nofun⟩
  | creditReceive _ _ _ _ _ | packetLaunch _ _ _ | reflect _ _ _ _ | burlAbsorb _ _ _ | burlHoldExpiry _ _
  | latheFlitSwitch _ _ _ => exact keeps_atNode hs (by simp [hs])
  | niLaunch _ | rdata _ | wack _ | nack _ | niRequestTimeout _ _ | niRetry _ _ => exact keeps_atNi hs (by simp [hs])
  | throttleUpdate _ | write _ | read _ | send _ | rslotHoleTimeout _ _ _ _ | mcTargetReceive _ | mcRelay _ | perTargetNack _
  | mcUnicastRetry _ _ | mcHoldExpiry _ _ | reduceAcc _ => exact keeps_atBlockNi hs (by simp [hs])
  | nop _ | ringAbort _ | jobKill _ | xfer _ | xferMc _ | xferRed _ | rankBind _ | tableWrite _ | tsetSwap _
  | injStop _ | injResume _ | chanOpen _ | chanClose _ | rtrDrain _ | rtrReopen _ | domDown _ | domUp _ | semInit _ | semFree _
  | semSet _ | semRead _ | syncBind _ | barInit _ | barFree _ | realignSet _ | lthLoad _ | lthSwap _ | lthResume _
  | colGroupSet _ | colIssue _ | colPeerGone _ | linkAdmit _ | linkDown _ | linkSwap _ | linkRekey _ | keyLoad _ | keyErase _
  | regRead _ | regWrite _ | mirSnap _ => exact keeps_startRow hs fun s c h => by simp [h]
  | tsetSwapEdge _ | commandFetch _ | statusReply _ | hdsReservedOpcode _ => exact keeps_atRing hs (by simp [hs])
  | latheStage _ _ | latheLaunch _ _ | latheDeposit _ => exact keeps_atLathe hs (by simp [hs])
  | claim _ | commit _ | reduceBowl _ => exact keeps_atBowl hs (by simp [hs])
  | bowlResultDone _ | bowlSlotTimeout _ | bowlEntryExpire _ | claimAttempt _ | filterExpire _ =>
    exact keeps_atGlobal hs (by simp [hs])
  | ready _ | gdone _ | colStageStart _ _ | colChunkSend _ _ _ _ | colProgressTimeout _ _ =>
    exact keeps_atEngine hs (by simp [hs])
  | add _ | sub _ | wait _ | waitTake _ | syncRead _ | cancel _ | barArrive _ | barWait _ | barUp _ | barDown _ | set _
  | barTimedRelease _ _ | realign _ _ | watchTimeout _ _ | notificationLaunch _ =>
    exact keeps_atUnit hs (by simp [hs])
  | syncNtf _ | wslotGuardExpiry _ _ | cqMessageStart _ _ | cqStallTimeout _ _ | creditUpdate _ _ =>
    exact keeps_atNodeNi hs (by simp [hs])
  | desc _ _ | sync _ _ | qsubmit _ _ | reg _ _ | tapReadData _ _ _ _ _ | tapReservedOp _ _ _ =>
    exact keeps_atTap hs (by simp [hs])
  | mapReadData _ _ _ _ _ | mapWriteResponse _ _ _ | mapTimeout _ _ _ => exact keeps_atMap hs (by simp [hs])
  | frameReceive _ _ | replayTimeout _ | admitSend _ | trainingTimeout _ | laneFail _ _ | spareRotate _ | spareCalibrate _ _
  | linkDead _ | linkIdleEnd _ | fdiError _ | phyLock _ _ | cellBoundary _ => exact keeps_onLink hs (by simp [hs])
  | scaleoutExit _ | scaleoutEntry _ | e2eAck _ | e2eRetransmit _ _ | e2eAbandon _ _ => exact keeps_atExit hs (by simp [hs])
  | pswAckFall _ | pswAckRise _ | pswAckTimeout _ | pswAckLost _ | domainInitDone _ | domainLit _ =>
    exact keeps_atDom hs (by simp [hs])
  | halfReset _ | halfResetRelease _ | eastClockRestart => exact keeps_atHalf hs (by simp [hs])
  | crossingFarReset _ | join _ | joinTimeout _ => exact keeps_atCross hs (by simp [hs])
  | rstNAssert | rstNRelease _ _ _ | govWindowEnd | secTamper | dbgReg _ _ _ | nklCtlWrite _ _ =>
    exact keeps_act hs (by simp [hs])
  | flitReceive _ _ _ _ _ => exact keeps_ite (keeps_act hs (by simp [hs])) (keeps_atNode hs (by simp [hs]))
  | cfgRd _ _ | cfgWr _ _ => exact keeps_ite (keeps_act hs (by simp [hs])) (keeps_act hs (by simp [hs]))
  | clmRevoke _ _ => exact keeps_ite (keeps_act hs (by simp [hs])) (keeps_atHost hs)
  | clockStop _ => exact keeps_ite (keeps_act hs (by simp [hs])) (keeps_atCross hs (by simp [hs]))
  | tlmLoRead _ => exact keeps_ite (keeps_atHost hs) (keeps_atUnitOfCfg hs (by simp [hs]))
  | credit _ =>
    refine keeps_atNi hs ?_
    split
    · exact hs
    · rename_i h
      simp [State.takeArrival_hw h, hs]
  | syncOpReserved _ =>
    refine keeps_atUnit hs ?_
    split
    · exact hs
    · rename_i h
      simp [State.takeSyncOp_hw h, hs]

end Sys2Proof.Machine

namespace Sys2Proof.Safety
open Sys2Proof.Machine

/-- Settles O7: the idle cycle leaves what the shape rests on as it is, and each command keeps it. -/
theorem everyStepKeepsTheHardwareWellFormed : Obligations.EveryStepKeepsTheHardwareWellFormed := by
  intro s t hs h
  rw [State.hardwareWf_iff] at hs ⊢
  unfold step at h
  split at h
  · exact keeps_act hs (by simp [hs]) t h
  · refine exec_keeps _ _ ?_ t h
    exact hs

end Sys2Proof.Safety
end

/-! ### Packed fields and little-endian bytes: what is read back from them -/

section
namespace Sys2Proof.Machine

/-- Fields of the given widths, read one after another from bit `lo` upward. -/
def readFields (x : Nat) : Nat → List Nat → List Nat
  | _, [] => []
  | lo, w :: ws => bitsOf x lo w :: readFields x (lo + w) ws

/-- Bits above a shift are bits of the shifted number. -/
theorem bitsOf_div (x n lo w : Nat) : bitsOf (x / 2 ^ n) lo w = bitsOf x (n + lo) w := by
  rw [bitsOf, bitsOf, Nat.div_div_eq_div_mul, Nat.pow_add]

theorem readFields_div (x n lo : Nat) (ws : List Nat) : readFields (x / 2 ^ n) lo ws = readFields x (n + lo) ws := by
  induction ws generalizing lo with
  | nil => rfl
  | cons w ws ih => rw [readFields, readFields, bitsOf_div, ih, Nat.add_assoc]

/-- The fields above the first. -/
theorem packFields_div (w v : Nat) (l : List (Nat × Nat)) : packFields ((w, v) :: l) / 2 ^ w = packFields l := by
  rw [packFields, Nat.add_mul_div_left _ _ (Nat.two_pow_pos w), Nat.div_eq_of_lt (Nat.mod_lt _ (Nat.two_pow_pos w)), Nat.zero_add]

/-- Packed fields are read back, each cut to its width. -/
theorem readFields_packFields (l : List (Nat × Nat)) :
    readFields (packFields l) 0 (l.map (·.1)) = l.map (fun f => f.2 % 2 ^ f.1) := by
  induction l with
  | nil => rfl
  | cons f l ih =>
    obtain ⟨w, v⟩ := f
    have hfirst : bitsOf (packFields ((w, v) :: l)) 0 w = v % 2 ^ w := by simp [bitsOf, packFields]
    have hrest : readFields (packFields ((w, v) :: l)) (0 + w) (l.map (·.1)) = l.map (fun f => f.2 % 2 ^ f.1) := by
      have hdiv := readFields_div (packFields ((w, v) :: l)) w 0 (l.map (·.1))
      rw [packFields_div, ih] at hdiv
      rw [Nat.zero_add]
      exact hdiv.symm
    rw [List.map_cons, readFields, hfirst, hrest, List.map_cons]

/-- Packed fields that fit their widths are read back whole. -/
theorem readFields_packFields_of_fits (l : List (Nat × Nat)) (h : ∀ f ∈ l, f.2 < 2 ^ f.1) :
    readFields (packFields l) 0 (l.map (·.1)) = l.map (·.2) := by
  rw [readFields_packFields]
  exact List.map_congr_left fun f hf => Nat.mod_eq_of_lt (h f hf)

/-- Packed fields take no more bits than their widths together. -/
theorem packFields_lt (l : List (Nat × Nat)) : packFields l < 2 ^ (l.map (·.1)).sum := by
  induction l with
  | nil => simp [packFields]
  | cons f l ih =>
    obtain ⟨w, v⟩ := f
    rw [packFields, List.map_cons, List.sum_cons, Nat.pow_add]
    calc v % 2 ^ w + 2 ^ w * packFields l
        < 2 ^ w + 2 ^ w * packFields l := Nat.add_lt_add_right (Nat.mod_lt _ (Nat.two_pow_pos w)) _
      _ = 2 ^ w * (packFields l + 1) := by ring
      _ ≤ 2 ^ w * 2 ^ (l.map (·.1)).sum := Nat.mul_le_mul_left _ ih

theorem packFields_lt_of_le {l : List (Nat × Nat)} {n : Nat} (h : (l.map (·.1)).sum ≤ n) : packFields l < 2 ^ n :=
  (packFields_lt l).trans_le (Nat.pow_le_pow_right Nat.two_pos h)

theorem bitsOf_low (x y n : Nat) (h : x < 2 ^ n) : bitsOf (x + 2 ^ n * y) 0 n = x := by
  rw [bitsOf, Nat.pow_zero, Nat.div_one, Nat.add_mul_mod_self_left, Nat.mod_eq_of_lt h]

theorem bitsOf_high (x y n w : Nat) (h : x < 2 ^ n) (hy : y < 2 ^ w) : bitsOf (x + 2 ^ n * y) n w = y := by
  rw [bitsOf, Nat.add_mul_div_left _ _ (Nat.two_pow_pos n), Nat.div_eq_of_lt h, Nat.zero_add, Nat.mod_eq_of_lt hy]

/-- Byte `j` of a little-endian value. -/
theorem bitsOf_leNat (l : List Byte) (j : Nat) (v : Byte) (h : l[j]? = some v) : bitsOf (leNat l) (8 * j) 8 = v.toNat := by
  induction l generalizing j with
  | nil => simp at h
  | cons b l ih =>
    have hb : b.toNat < 2 ^ 8 := b.isLt
    cases j with
    | zero =>
      obtain rfl : b = v := by simpa using h
      rw [leNat, bitsOf]
      omega
    | succ j =>
      have hshift : leNat (b :: l) / 2 ^ 8 = leNat l := by rw [leNat]; omega
      rw [show 8 * (j + 1) = 8 + 8 * j by ring, ← bitsOf_div, hshift, ih j (by simpa using h)]

/-- The little-endian bytes of a value are its bytes, with zeros above them. -/
theorem leBytes_leNat (l : List Byte) (n : Nat) (h : l.length ≤ n) :
    leBytes (leNat l) n = l ++ List.replicate (n - l.length) 0 := by
  induction l generalizing n with
  | nil =>
    clear h
    induction n with
    | zero => rfl
    | succ n ih => simpa [leBytes, leNat, List.replicate_succ] using ih
  | cons b l ih =>
    cases n with
    | zero => simp at h
    | succ n =>
      have hb : b.toNat < 256 := b.isLt
      have hlow : leNat (b :: l) % 256 = b.toNat := by rw [leNat]; omega
      have hhigh : leNat (b :: l) / 256 = leNat l := by rw [leNat]; omega
      rw [leBytes, hlow, hhigh, ih n (by simpa using h)]
      simp

/-- The value of the little-endian bytes of a number is its low bits. -/
theorem leNat_leBytes (x n : Nat) : leNat (leBytes x n) = x % 2 ^ (8 * n) := by
  induction n generalizing x with
  | zero => simp [leBytes, leNat, Nat.mod_one]
  | succ n ih =>
    rw [leBytes, leNat, ih, show 8 * (n + 1) = 8 + 8 * n by ring, Nat.pow_add, Nat.mod_mul]
    simp

theorem leNat_leBytes_of_lt (x n : Nat) (h : x < 2 ^ (8 * n)) : leNat (leBytes x n) = x := by
  rw [leNat_leBytes, Nat.mod_eq_of_lt h]

theorem getElem?_upFrom (a n i : Nat) (h : i < n) : (upFrom a n)[i]? = some (a + i) := by
  induction n generalizing a i with
  | zero => omega
  | succ n ih =>
    cases i with
    | zero => rfl
    | succ i => rw [upFrom, List.getElem?_cons_succ, ih _ _ (by omega), Nat.add_assoc, Nat.add_comm 1]

/-- A quotient rounded up: the last part may be short. -/
theorem le_mul_ceilDiv (a b : Nat) (hb : 0 < b) : a ≤ b * ceilDiv a b := by
  have h := Nat.div_add_mod (a + b - 1) b
  have hlt := Nat.mod_lt (a + b - 1) hb
  rw [ceilDiv]
  omega

end Sys2Proof.Machine
end

/-! ### The header unit and the peer extension -/

section
namespace Sys2Proof.Machine

theorem Hdr.fits_iff (h : Hdr) : h.fits = true ↔ ∀ f ∈ h.fields, f.2 < 2 ^ f.1 := by
  simp [Hdr.fits]

/-- The header unit takes 236 of its 256 bits. -/
theorem Hdr.toBits_lt (h : Hdr) : h.toBits < 2 ^ 256 :=
  packFields_lt_of_le (by simp [Hdr.fields])

/-- Every field of a header unit is read back. -/
theorem Hdr.ofBits_toBits (h : Hdr) (hf : h.fits = true) : Hdr.ofBits h.toBits = h := by
  have hread := readFields_packFields_of_fits h.fields (h.fits_iff.1 hf)
  rw [← Hdr.toBits] at hread
  simp only [Hdr.fields, List.map_cons, List.map_nil, readFields, List.cons.injEq, Nat.reduceAdd, and_true] at hread
  simp only [Hdr.ofBits, hread]

/-- The fields of a peer extension that is there (R77). -/
def Ext.fields (e : Ext) : List (Nat × Nat) :=
  [(1, e.xv), (1, e.ford), (2, e.seg), (3, e.hcnt), (7, e.port), (42, e.hops), (24, e.dest), (24, e.src), (24, e.psn),
    (16, e.mepoch), (14, e.slen)]

theorem Ext.toBits_of_xv (e : Ext) (h : e.xv = 1) : e.toBits = packFields e.fields := by
  simp [Ext.toBits, Ext.fields, h]

/-- An extension that fits either is none or has XV 1 and fields within their widths. -/
theorem extFits_cases (e : Ext) (h : Safety.extFits e = true) : e = Ext.none ∨ (e.xv = 1 ∧ ∀ f ∈ e.fields, f.2 < 2 ^ f.1) := by
  rw [Safety.extFits] at h
  split at h
  · exact .inl (by simpa using h)
  · simp only [Bool.and_eq_true, beq_iff_eq, decide_eq_true_eq, and_assoc] at h
    obtain ⟨hxv, hrest⟩ := h
    exact .inr (by simpa [Ext.fields, hxv] using hrest)

theorem Ext.toBits_lt (e : Ext) : e.toBits < 2 ^ 256 := by
  rw [Ext.toBits]
  split
  · exact Nat.two_pow_pos 256
  · exact packFields_lt_of_le (by simp)

/-- Every field of a peer extension is read back. -/
theorem Ext.ofBits_toBits (e : Ext) (he : Safety.extFits e = true) : Ext.ofBits e.toBits = e := by
  obtain rfl | ⟨hxv, hf⟩ := extFits_cases e he
  · rfl
  · have hread := readFields_packFields_of_fits e.fields hf
    rw [← e.toBits_of_xv hxv] at hread
    simp only [Ext.fields, List.map_cons, List.map_nil, readFields, List.cons.injEq, Nat.reduceAdd, and_true] at hread
    simp only [Ext.ofBits, hread, hxv]
    exact congrArg (fun x => { e with xv := x }) hxv.symm

/-- Settles O11: the fields packed one above the other are read back one after the other. -/
theorem headerUnitReadsBack : Obligations.HeaderUnitReadsBack :=
  ⟨fun h hf => ⟨h.toBits_lt, h.ofBits_toBits hf⟩, fun e he => ⟨e.toBits_lt, e.ofBits_toBits he⟩⟩

end Sys2Proof.Machine
end

/-! ### Packets in the flits of their plane -/

section
namespace Sys2Proof.Machine

/-- The header unit and the extension above it: flit 0 of QB and PB, flits 0 to 7 of a narrow plane. -/
def Pkt.headBits (p : Pkt) : Nat := p.hdr.toBits + 2 ^ 256 * p.ext.toBits

theorem Pkt.headBits_mod (p : Pkt) : p.headBits % 2 ^ 256 = p.hdr.toBits := by
  rw [headBits, Nat.add_mul_mod_self_left, Nat.mod_eq_of_lt p.hdr.toBits_lt]

theorem Pkt.headBits_div (p : Pkt) : p.headBits / 2 ^ 256 = p.ext.toBits := by
  rw [headBits, Nat.add_mul_div_left _ _ (Nat.two_pow_pos 256), Nat.div_eq_of_lt p.hdr.toBits_lt, Nat.zero_add]

theorem Pkt.headBits_lt (p : Pkt) : p.headBits < 2 ^ 512 := by
  have hh := p.hdr.toBits_lt
  have he := p.ext.toBits_lt
  rw [headBits]
  omega

/-- A header unit is read from the low half of any number that holds it. -/
theorem Hdr.ofBits_mod (x : Nat) : Hdr.ofBits (x % 2 ^ 256) = Hdr.ofBits x := by
  simp only [Hdr.ofBits, bitsOf_mod, Nat.reduceAdd, Nat.reduceLeDiff]

theorem Pkt.ofBits_headBits (p : Pkt) (h : p.hdr.fits = true) : Hdr.ofBits p.headBits = p.hdr := by
  rw [← Hdr.ofBits_mod, p.headBits_mod, p.hdr.ofBits_toBits h]

section Wide

variable (p : Pkt) {plane : Nat} (hp : plane ≤ 1)
include hp

theorem Pkt.flitData_wide_head : p.flitData plane 0 = p.headBits := by simp [flitData, hp, headBits]

theorem Pkt.flitData_wide_unit (i : Nat) : p.flitData plane (1 + i) = leNat ((p.pay.drop (64 * i)).take 64) := by
  simp [flitData, hp]

theorem Pkt.flitBad_wide_head : p.flitBad plane 0 = false := by simp [flitBad, hp]

theorem Pkt.flitBad_wide_unit (i : Nat) : p.flitBad plane (1 + i) = p.bad.contains i := by simp [flitBad, hp]

theorem flitsOf_wide (len : Nat) : flitsOf plane len = 1 + ceilDiv len 64 := if_pos hp

end Wide

/-- Settles O10: byte `i` of the payload is byte `i mod 64` of its unit of 64 bytes. -/
theorem payloadLiesInFlitsFromOne : Obligations.PayloadLiesInFlitsFromOne := by
  intro p plane hp _
  refine ⟨?_, ?_, fun i v hv => ?_, ?_⟩
  · rw [p.flitData_wide_head hp, bitsOf, Nat.pow_zero, Nat.div_one, p.headBits_mod]
  · rw [p.flitData_wide_head hp, p.headBits_div]
  · rw [p.flitData_wide_unit hp]
    refine bitsOf_leNat _ _ _ ?_
    rw [List.getElem?_take_of_lt (Nat.mod_lt _ (by decide)), List.getElem?_drop, Nat.div_add_mod, hv]
  · rw [flitsOf_wide hp, ceilDiv, Nat.add_sub_assoc (by decide)]

/-- The bytes of a unit of a payload, without the zeros that fill it up. -/
theorem leBytes_unit (l : List Byte) (n : Nat) : (leBytes (leNat (l.take n)) n).take l.length = l.take n := by
  rw [leBytes_leNat _ _ (List.length_take_le n l)]
  by_cases h : n ≤ l.length
  · rw [List.length_take_of_le h, Nat.sub_self, List.replicate_zero, List.append_nil,
      List.take_of_length_le ((List.length_take_le n l).trans h)]
  · rw [List.take_of_length_le (Nat.le_of_not_le h), List.take_left' rfl]

/-- Units of 64 bytes from unit `k` on, put one after the other, are the bytes from there on. -/
theorem flatten_units (pay : List Byte) (n k : Nat) (h : pay.length ≤ 64 * (k + n)) :
    (((upFrom k n).map fun i => leBytes (leNat ((pay.drop (64 * i)).take 64)) 64).flatten).take (pay.length - 64 * k) =
      pay.drop (64 * k) := by
  induction n generalizing k with
  | zero => simp [upFrom, List.drop_eq_nil_of_le (show pay.length ≤ 64 * k by omega)]
  | succ n ih =>
    have hunit := leBytes_unit (pay.drop (64 * k)) 64
    rw [List.length_drop] at hunit
    rw [upFrom, List.map_cons, List.flatten_cons, List.take_append, length_leBytes, hunit, Nat.sub_sub,
      show 64 * k + 64 = 64 * (k + 1) by omega, ih (k + 1) (by omega), Nat.mul_succ, ← List.drop_drop, List.take_append_drop]

/-- Places of a list of flits that are poisoned. -/
theorem filter_flitBad (fl : List (Nat × Bool)) (g : Nat → Bool)
    (h : ∀ i, i < fl.length → ((fl[i]?).map (·.2)).getD false = g i) :
    (upFrom 0 fl.length).filter (fun i => ((fl[i]?).map (·.2)).getD false) = (upFrom 0 fl.length).filter g :=
  List.filter_congr fun i hi => h i (by simpa using ((mem_upFrom _ _ _).1 hi).2)

/-- The flits of a packet from number `a` on, each with its poison. -/
def Pkt.flits (p : Pkt) (plane a n : Nat) : List (Nat × Bool) := (upFrom a n).map fun i => (p.flitData plane i, p.flitBad plane i)

@[simp] theorem Pkt.length_flits (p : Pkt) (plane a n : Nat) : (p.flits plane a n).length = n := by simp [flits]

theorem Pkt.getElem?_flits (p : Pkt) (plane a n i : Nat) (h : i < n) :
    (p.flits plane a n)[i]? = some (p.flitData plane (a + i), p.flitBad plane (a + i)) := by
  simp [flits, getElem?_upFrom a n i h]

theorem Pkt.flits_succ (p : Pkt) (plane n : Nat) :
    p.flits plane 0 (1 + n) = (p.flitData plane 0, p.flitBad plane 0) :: p.flits plane 1 n := by
  rw [Nat.add_comm]
  rfl

theorem map_upFrom_succ {α : Type} (f : Nat → α) (a n : Nat) : (upFrom (a + 1) n).map f = (upFrom a n).map fun i => f (1 + i) := by
  induction n generalizing a with
  | zero => rfl
  | succ n ih => rw [upFrom, upFrom, List.map_cons, List.map_cons, ih, Nat.add_comm a 1]

/-- On QB and PB the units after flit 0 give the payload back. -/
theorem Pkt.ofFlits_wide (p : Pkt) (plane : Nat) (hp : plane ≤ 1) (hh : p.hdr.fits = true) (he : Safety.extFits p.ext = true)
    (hlen : p.pay.length = p.hdr.len)
    (hbad : p.bad = (upFrom 0 (ceilDiv p.hdr.len 64)).filter (fun i => p.bad.contains i)) :
    Pkt.ofFlits plane (p.flits plane 0 (flitsOf plane p.hdr.len)) = p := by
  have hpay : (((p.flits plane 1 (ceilDiv p.hdr.len 64)).map fun f => leBytes f.1 64).flatten).take p.hdr.len = p.pay := by
    have hunits := flatten_units p.pay (ceilDiv p.hdr.len 64) 0 (by
      rw [hlen, Nat.zero_add]; exact le_mul_ceilDiv p.hdr.len 64 (by decide))
    simpa [flits, map_upFrom_succ _ 0, Function.comp_def, p.flitData_wide_unit hp, hlen] using hunits
  have hpoison := filter_flitBad (p.flits plane 1 (ceilDiv p.hdr.len 64)) p.bad.contains fun i hi => by
    rw [p.getElem?_flits plane 1 _ i (by simpa using hi)]
    exact p.flitBad_wide_unit hp i
  rw [length_flits, ← hbad] at hpoison
  have hext : Ext.ofBits (p.headBits / 2 ^ 256) = p.ext := by rw [p.headBits_div, p.ext.ofBits_toBits he]
  rw [ofFlits, if_pos hp, flitsOf_wide hp, flits_succ]
  simp [-Nat.reducePow, p.flitData_wide_head hp, p.flitBad_wide_head hp, p.ofBits_headBits hh, hext, hpay, hpoison]

section Narrow

variable (p : Pkt) {plane : Nat} (hp : 2 ≤ plane)
include hp

theorem Pkt.flitData_narrow (i : Nat) : p.flitData plane i = bitsOf p.headBits (64 * i) 64 := by
  rw [flitData, if_neg (by omega), headBits]

theorem Pkt.flitBad_narrow (i : Nat) : p.flitBad plane i = p.bad.contains i := if_neg (by omega)

theorem flitsOf_narrow (len : Nat) : flitsOf plane len = if len = 0 then 4 else 8 := by
  simp [flitsOf, show ¬ plane ≤ 1 by omega]

end Narrow

theorem upFrom_snoc (a n : Nat) : upFrom a (n + 1) = upFrom a n ++ [a + n] := by
  induction n generalizing a with
  | zero => rfl
  | succ n ih =>
    rw [upFrom, ih, upFrom, List.cons_append, Nat.add_right_comm]
    rfl

/-- Parts of 64 bits put one above the other are the number's low bits. -/
theorem foldl_parts (x n : Nat) (part : Nat → Nat) (h : ∀ i, i < n → part i = bitsOf x (64 * i) 64) :
    (upFrom 0 n).foldl (fun acc i => acc + 2 ^ (64 * i) * part i) 0 = x % 2 ^ (64 * n) := by
  induction n with
  | zero => simp [upFrom, Nat.mod_one]
  | succ n ih =>
    rw [upFrom_snoc, Nat.zero_add, List.foldl_append, ih fun i hi => h i (by omega), List.foldl_cons, List.foldl_nil, h n (by omega), bitsOf,
      Nat.mul_succ, Nat.pow_add, Nat.mod_mul]

/-- On a narrow plane the flits of a packet give its header unit and its extension back. -/
theorem Pkt.ofFlits_narrow (p : Pkt) (plane : Nat) (hp : 2 ≤ plane) (hh : p.hdr.fits = true) (he : Safety.extFits p.ext = true)
    (hpay : p.pay = []) (hnone : p.hdr.len = 0 → p.ext = Ext.none)
    (hbad : p.bad = (upFrom 0 (flitsOf plane p.hdr.len)).filter (fun i => p.bad.contains i)) :
    Pkt.ofFlits plane (p.flits plane 0 (flitsOf plane p.hdr.len)) = p := by
  have hpoison := filter_flitBad (p.flits plane 0 (flitsOf plane p.hdr.len)) p.bad.contains fun i hi => by
    rw [p.getElem?_flits plane 0 _ i (by simpa using hi), Nat.zero_add]
    exact p.flitBad_narrow hp i
  rw [length_flits, ← hbad] at hpoison
  have hbits := foldl_parts p.headBits (flitsOf plane p.hdr.len)
    (fun i => (((p.flits plane 0 (flitsOf plane p.hdr.len))[i]?).map (·.1)).getD 0) fun i hi => by
      rw [p.getElem?_flits plane 0 _ i hi, Nat.zero_add]
      exact p.flitData_narrow hp i
  have hhead : Hdr.ofBits (p.headBits % 2 ^ (64 * flitsOf plane p.hdr.len) % 2 ^ 256) = p.hdr := by
    have hdvd : 2 ^ 256 ∣ 2 ^ (64 * flitsOf plane p.hdr.len) := Nat.pow_dvd_pow 2 (by rw [flitsOf_narrow hp]; split <;> decide)
    rw [Nat.mod_mod_of_dvd _ hdvd, p.headBits_mod, p.hdr.ofBits_toBits hh]
  have hext : (if flitsOf plane p.hdr.len ≤ 4 then Ext.none
      else Ext.ofBits (p.headBits % 2 ^ (64 * flitsOf plane p.hdr.len) / 2 ^ 256)) = p.ext := by
    rw [flitsOf_narrow hp]
    by_cases hz : p.hdr.len = 0
    · rw [if_pos hz, if_pos (by decide), hnone hz]
    · rw [if_neg hz, if_neg (by decide), Nat.mod_eq_of_lt p.headBits_lt, p.headBits_div, p.ext.ofBits_toBits he]
  rw [ofFlits, if_neg (by omega), length_flits]
  simp only [hbits, hhead, hext, hpoison, ← hpay]

/-- Settles O12: the flits of the plane hold the header unit, the extension and the payload, which are read back. -/
theorem packetSurvivesItsFlits : Obligations.PacketSurvivesItsFlits :=
  ⟨fun p plane hp hh he hlen hbad => p.ofFlits_wide plane hp hh he hlen hbad,
    fun p plane hp hh he hpay hnone hbad => p.ofFlits_narrow plane hp hh he hpay hnone hbad⟩

end Sys2Proof.Machine
end

/-! ### The scale-out header -/

section
namespace Sys2Proof.Machine

/-- The fields of the scale-out header, bit 0 first (R79). -/
def Pkt.scaleOutFields (p : Pkt) (enc : Bool) : List (Nat × Nat) :=
  [(4, p.hdr.ptype), (2, if p.hdr.ptype == tSYNC_OP || p.hdr.ptype == tSYNC_NTF then 3 else classOf p.hdr.vcn), (1, bit enc),
    (1, 0), (3, p.ext.hcnt), (42, p.ext.hops), (24, p.ext.dest), (24, p.ext.src), (14, p.ext.slen), (10, p.hdr.job),
    (4, p.hdr.ctx), (10, p.hdr.chan), (16, p.hdr.seq), (8, p.hdr.flg), (7, p.hdr.span), (1, p.ext.ford), (8, p.hdr.opc),
    (24, p.hdr.tag), (48, p.hdr.addr), (32, p.hdr.aux), (16, p.hdr.ts), (16, p.ext.mepoch), (24, p.ext.psn)]

/-- The value of the 48 bytes is the fields packed. -/
theorem leNat_scaleOutHeader (p : Pkt) (enc : Bool) : leNat (scaleOutHeader p enc) = packFields (p.scaleOutFields enc) := by
  exact leNat_leBytes_of_lt _ _ (packFields_lt_of_le (l := p.scaleOutFields enc) (by simp [Pkt.scaleOutFields]))

/-- Every field of the scale-out header of a packet within its widths fits. -/
theorem Pkt.scaleOutFields_fit (p : Pkt) (enc : Bool) (hh : p.hdr.fits = true) (he : ∀ f ∈ p.ext.fields, f.2 < 2 ^ f.1) :
    ∀ f ∈ p.scaleOutFields enc, f.2 < 2 ^ f.1 := by
  have hf := p.hdr.fits_iff.1 hh
  have hclass : (if p.hdr.ptype == tSYNC_OP || p.hdr.ptype == tSYNC_NTF then 3 else classOf p.hdr.vcn) < 2 ^ 2 := by
    have hvcn : p.hdr.vcn < 2 ^ 3 := hf (3, p.hdr.vcn) (by simp [Hdr.fields])
    split
    · decide
    · rw [classOf]
      omega
  have hbit : bit enc < 2 ^ 1 := by cases enc <;> decide
  simp only [Hdr.fields, Ext.fields, List.forall_mem_cons, scaleOutFields] at hf he ⊢
  simp only [hf, he, hclass, hbit, List.not_mem_nil, false_imp_iff, implies_true, and_true]
  decide

/-- Settles O13: the header's fields, packed into 48 bytes, are read back one after the other. -/
theorem scaleOutHeaderReadsBack : Obligations.ScaleOutHeaderReadsBack := by
  intro p enc hh hx hxv
  obtain hnone | ⟨-, he⟩ := extFits_cases p.ext hx
  · rw [hnone] at hxv
    exact absurd hxv (by decide)
  have hread := readFields_packFields_of_fits _ (p.scaleOutFields_fit enc hh he)
  rw [← leNat_scaleOutHeader] at hread
  simp only [Pkt.scaleOutFields, List.map_cons, List.map_nil, readFields, List.cons.injEq, Nat.reduceAdd, and_true] at hread
  have hlen : (scaleOutHeader p enc).length = 48 := length_leBytes _ _
  have henc : (bit enc == 1) = enc := by cases enc <;> rfl
  have hford : p.ext.ford < 2 := he (1, p.ext.ford) (by simp [Ext.fields])
  have hclass : classOf (2 * classOf p.hdr.vcn + p.ext.ford) = classOf p.hdr.vcn := by
    rw [classOf, classOf]
    omega
  simp only [ofScaleOut, hread, hlen, henc]
  simp +contextual [hclass]

end Sys2Proof.Machine
end

/-! ### The code of the narrow planes: syndrome and parity are linear -/

section
namespace Sys2Proof.Machine

theorem bitAt_eq_testBit (x i : Nat) : bitAt x i = x.testBit i := by
  rw [bitAt, Nat.testBit_eq_decide_div_mod_eq]
  exact Bool.beq_eq_decide_eq _ _

theorem bitAt_xor (x y i : Nat) : bitAt (x ^^^ y) i = (bitAt x i).xor (bitAt y i) := by
  simp only [bitAt_eq_testBit, Nat.testBit_xor]

theorem parity_xor (x y n : Nat) : parity (x ^^^ y) n = (parity x n).xor (parity y n) := by
  induction n with
  | zero => rfl
  | succ n ih => simp only [parity, bitAt_xor, ih, Bool.xor_assoc, Bool.xor_left_comm]

/-- The parity of a number of which one bit alone is set. -/
theorem parity_two_pow (i n : Nat) : parity (2 ^ i) n = decide (i < n) := by
  induction n with
  | zero => rfl
  | succ n ih =>
    rw [parity, ih, bitAt_eq_testBit, Nat.testBit_two_pow]
    by_cases h : i = n
    · simp [h]
    · rw [decide_eq_false h, Bool.false_xor]
      exact decide_eq_decide.2 (by omega)

/-- Parity is that of the bits it covers. -/
theorem parity_congr (x y n : Nat) (h : ∀ i, i < n → bitAt x i = bitAt y i) : parity x n = parity y n := by
  induction n with
  | zero => rfl
  | succ n ih => rw [parity, parity, h n (by omega), ih fun i hi => h i (by omega)]

/-- The parity of the low bits and of those above them. -/
theorem parity_add (x m n : Nat) : parity x (m + n) = (parity (bitsOf x 0 m) m).xor (parity (bitsOf x m n) n) := by
  have hlow : parity (bitsOf x 0 m) m = parity x m := parity_congr _ _ _ fun i hi => by
    simp only [bitAt_eq_testBit, testBit_bitsOf, hi, decide_true, Bool.true_and, Nat.zero_add]
  have hhigh : ∀ k, k ≤ n → parity x (m + k) = (parity x m).xor (parity (bitsOf x m n) k) := fun k hk => by
    induction k with
    | zero => simp [parity]
    | succ k ih =>
      have hbit : bitAt (bitsOf x m n) k = bitAt x (m + k) := by
        simp only [bitAt_eq_testBit, testBit_bitsOf, show k < n from hk, decide_true, Bool.true_and]
      rw [← Nat.add_assoc, parity, parity, hbit, ih (by omega), Bool.xor_left_comm]
  rw [hlow, hhigh n (Nat.le_refl n)]

/-- Adds the positions of the set bits of `x` to `acc`, which is how the syndrome is found. -/
def posXor (x acc : Nat) (l : List (Nat × Nat)) : Nat :=
  l.foldl (fun acc ip => if bitAt x ip.1 then Nat.xor acc ip.2 else acc) acc

theorem posXor_cons (x acc : Nat) (ip : Nat × Nat) (l : List (Nat × Nat)) :
    posXor x acc (ip :: l) = posXor x (acc ^^^ if bitAt x ip.1 then ip.2 else 0) l := by
  rw [posXor, List.foldl_cons]
  split
  · rfl
  · rw [Nat.xor_zero]
    rfl

/-- The positions of the bits in which two numbers differ. -/
theorem posXor_xor (x y a b : Nat) (l : List (Nat × Nat)) : posXor (x ^^^ y) (a ^^^ b) l = posXor x a l ^^^ posXor y b l := by
  induction l generalizing a b with
  | nil => rfl
  | cons ip l ih =>
    have hstep : (a ^^^ b ^^^ if bitAt (x ^^^ y) ip.1 then ip.2 else 0) =
        (a ^^^ if bitAt x ip.1 then ip.2 else 0) ^^^ (b ^^^ if bitAt y ip.1 then ip.2 else 0) := by
      rw [bitAt_xor]
      cases bitAt x ip.1 <;> cases bitAt y ip.1 <;> simp [Nat.xor_comm, Nat.xor_left_comm]
    rw [posXor_cons, posXor_cons, posXor_cons, hstep, ih]

theorem hammingSyn_xor (x y : Nat) : hammingSyn (x ^^^ y) = hammingSyn x ^^^ hammingSyn y := posXor_xor x y 0 0 _

/-- A bit of the syndrome counts the set data bits whose position has it. -/
theorem bitAt_posXor (x acc i : Nat) (l : List (Nat × Nat)) : bitAt (posXor x acc l) i =
    (bitAt acc i).xor ((l.filter fun ip => bitAt x ip.1 && bitAt ip.2 i).length.bodd) := by
  induction l generalizing acc with
  | nil => simp [posXor]
  | cons ip l ih =>
    rw [posXor_cons, ih, bitAt_xor, List.filter_cons]
    cases hx : bitAt x ip.1
    · simp [bitAt_eq_testBit]
    · cases hi : bitAt ip.2 i <;> simp [hi]

/-- The syndrome of 72 wire bits: the positions of the set data bits and the check bits 0 to 6 (R60). -/
def wireSyn (x : Nat) : Nat := hammingSyn (bitsOf x 0 64) ^^^ bitsOf x 64 7

theorem bitsOf_xor (x y lo w : Nat) : bitsOf (x ^^^ y) lo w = bitsOf x lo w ^^^ bitsOf y lo w := by
  refine Nat.eq_of_testBit_eq fun i => ?_
  simp only [testBit_bitsOf, Nat.testBit_xor]
  cases decide (i < w) <;> simp

theorem wireSyn_xor (x y : Nat) : wireSyn (x ^^^ y) = wireSyn x ^^^ wireSyn y := by
  simp only [wireSyn, bitsOf_xor, hammingSyn_xor]
  simp only [Nat.xor_assoc, Nat.xor_left_comm]

/-- The position of each wire bit: of the data bits those that are no power of two, of the check bits the powers of two, and none of
the parity bit. -/
theorem wireSyn_two_pow_table : (upFrom 0 72).map (fun i => wireSyn (2 ^ i)) = dataPos ++ [1, 2, 4, 8, 16, 32, 64, 0] := by
  decide +kernel

/-- The data bits to invert for a syndrome of an odd word; none where no wire bit has that position. -/
def errMask (syn : Nat) : Option Nat :=
  if syn == 0 then some 0
  else match ((upFrom 0 64).zip dataPos).find? (fun ip => ip.2 == syn) with
    | some ip => some (2 ^ ip.1)
    | none => if syn == 1 || syn == 2 || syn == 4 || syn == 8 || syn == 16 || syn == 32 || syn == 64 then some 0 else none

/-- A wire bit's position tells the data bit that it is. -/
theorem errMask_two_pow : ∀ i, i < 72 → errMask (wireSyn (2 ^ i)) = some (bitsOf (2 ^ i) 0 64) := by decide +kernel

theorem wireSyn_two_pow_le : ∀ i, i < 72 → wireSyn (2 ^ i) ≤ 71 := by decide +kernel

/-- No two wire bits share a position. -/
theorem wireSyn_two_pow_inj (i j : Nat) (hi : i < 72) (hj : j < 72) (h : wireSyn (2 ^ i) = wireSyn (2 ^ j)) : i = j := by
  have hnodup : ((upFrom 0 72).map (fun i => wireSyn (2 ^ i))).Nodup := by
    rw [wireSyn_two_pow_table]
    decide +kernel
  exact List.inj_on_of_nodup_map hnodup ((mem_upFrom 0 72 i).2 (by omega)) ((mem_upFrom 0 72 j).2 (by omega)) h

/-- What a decoder makes of 72 wire bits, by their syndrome and their parity. -/
theorem decodeNarrow_eq (x : Nat) : decodeNarrow x =
    if bitsOf x 64 8 = 255 - check72 (bitsOf x 0 64) then .poison (bitsOf x 0 64)
    else if parity x 72 = true then
      match errMask (wireSyn x) with
      | some m => .fixed (bitsOf x 0 64 ^^^ m)
      | none => .bad
    else if wireSyn x = 0 then .clean (bitsOf x 0 64) else .bad := by
  have hseven : bitsOf x 64 8 % 128 = bitsOf x 64 7 := by
    rw [bitsOf, bitsOf]
    omega
  have hpar : (parity (bitsOf x 0 64) 64).xor (parity (bitsOf x 64 8) 8) = parity x 72 := (parity_add x 64 8).symm
  have hsyn : Nat.xor (hammingSyn (bitsOf x 0 64)) (bitsOf x 64 7) = wireSyn x := rfl
  simp only [decodeNarrow, hseven, hpar, hsyn, errMask, beq_iff_eq]
  by_cases hpoison : bitsOf x 64 8 = 255 - check72 (bitsOf x 0 64)
  · rw [if_pos hpoison, if_pos hpoison]
  rw [if_neg hpoison, if_neg hpoison]
  by_cases hzero : wireSyn x = 0
  · cases parity x 72 <;> simp [hzero]
  cases hodd : parity x 72
  · simp [hzero]
  cases hfind : ((upFrom 0 64).zip dataPos).find? (fun ip => ip.2 == wireSyn x) with
  | some ip =>
    simp [hzero]
  | none =>
    simp only [hzero, Bool.not_true, Bool.and_false, if_false, if_true, Bool.false_eq_true]
    split <;> simp

/-! What is sent. -/

theorem posXor_lt (x acc : Nat) (l : List (Nat × Nat)) (hacc : acc < 2 ^ 7) (hl : ∀ ip ∈ l, ip.2 < 2 ^ 7) : posXor x acc l < 2 ^ 7 := by
  induction l generalizing acc with
  | nil => exact hacc
  | cons ip l ih =>
    rw [posXor_cons]
    refine ih _ (Nat.xor_lt_two_pow hacc ?_) fun jp hj => hl jp (List.mem_cons_of_mem _ hj)
    split
    · exact hl ip List.mem_cons_self
    · decide

theorem hammingSyn_lt (d : Nat) : hammingSyn d < 128 := posXor_lt d 0 _ (by decide) (by decide +kernel)

theorem check72_lt (d : Nat) : check72 d < 256 := by
  have hsyn := hammingSyn_lt d
  rw [check72]
  cases (parity d 64).xor (parity (hammingSyn d) 7) <;> simp only [bit, if_true, if_false, Bool.false_eq_true] <;> omega

theorem check72_low (d : Nat) : bitsOf (check72 d) 0 7 = hammingSyn d := by
  have hsyn := hammingSyn_lt d
  rw [check72, bitsOf]
  omega

/-- The parity bit makes the parity of data and check bits even. -/
theorem parity_check72 (d : Nat) : parity (check72 d) 8 = parity d 64 := by
  have hsyn := hammingSyn_lt d
  have htop : parity (bitsOf (check72 d) 7 1) 1 = (parity d 64).xor (parity (hammingSyn d) 7) := by
    have hbit : bitsOf (check72 d) 7 1 = bit ((parity d 64).xor (parity (hammingSyn d) 7)) := by
      rw [check72, bitsOf]
      cases (parity d 64).xor (parity (hammingSyn d) 7) <;> simp only [bit, if_true, if_false, Bool.false_eq_true] <;> omega
    rw [hbit]
    cases (parity d 64).xor (parity (hammingSyn d) 7) <;> rfl
  rw [show (8 : Nat) = 7 + 1 from rfl, parity_add, check72_low, htop]
  cases parity d 64 <;> cases parity (hammingSyn d) 7 <;> rfl

section Sent

variable {d : Nat} (hd : d < 2 ^ 64)
include hd

theorem bitsOf_data_encodeNarrow (bad : Bool) : bitsOf (encodeNarrow d bad) 0 64 = d :=
  bitsOf_low _ _ _ hd

theorem bitsOf_check_encodeNarrow (bad : Bool) :
    bitsOf (encodeNarrow d bad) 64 8 = if bad then 255 - check72 d else check72 d := by
  have hcheck := check72_lt d
  exact bitsOf_high _ _ 64 8 hd (by split <;> omega)

theorem encodeNarrow_lt : encodeNarrow d false < 2 ^ 72 := by
  have hcheck := check72_lt d
  simp only [encodeNarrow, Bool.false_eq_true, if_false]
  omega

theorem parity_encodeNarrow : parity (encodeNarrow d false) 72 = false := by
  rw [show (72 : Nat) = 64 + 8 from rfl, parity_add, bitsOf_data_encodeNarrow hd, bitsOf_check_encodeNarrow hd,
    if_neg Bool.false_ne_true, parity_check72, Bool.xor_self]

theorem wireSyn_encodeNarrow : wireSyn (encodeNarrow d false) = 0 := by
  have hseven : bitsOf (encodeNarrow d false) 64 7 = bitsOf (bitsOf (encodeNarrow d false) 64 8) 0 7 := by
    rw [bitsOf, bitsOf, bitsOf]
    omega
  rw [wireSyn, hseven, bitsOf_data_encodeNarrow hd, bitsOf_check_encodeNarrow hd, if_neg Bool.false_ne_true, check72_low,
    Nat.xor_self]

end Sent

/-- Only the syndrome 127, which is no wire bit's position, is read as poison. -/
theorem wireSyn_of_poison (x : Nat) (h : bitsOf x 64 8 = 255 - check72 (bitsOf x 0 64)) : wireSyn x = 127 := by
  have hseven : bitsOf x 64 7 = 127 - hammingSyn (bitsOf x 0 64) := by
    have hlow := check72_low (bitsOf x 0 64)
    have hcheck := check72_lt (bitsOf x 0 64)
    rw [bitsOf] at hlow h ⊢
    omega
  have hcomp : ∀ c, c < 128 → c ^^^ (127 - c) = 127 := by decide
  rw [wireSyn, hseven, hcomp _ (hammingSyn_lt _)]

/-- The data bits with their positions. -/
theorem zip_dataPos : (upFrom 0 64).zip dataPos = (upFrom 0 64).map fun j => (j, (dataPos[j]?).getD 0) := by decide +kernel

/-- Check bit `i` is the parity of the data bits whose position has bit `i` (R60). -/
theorem bitAt_check_encodeNarrow {d : Nat} (hd : d < 2 ^ 64) (i : Nat) (hi : i < 7) : bitAt (encodeNarrow d false) (64 + i) =
    ((upFrom 0 64).filter (fun j => bitAt d j && bitAt ((dataPos[j]?).getD 0) i)).length.bodd := by
  have hwire : bitAt (encodeNarrow d false) (64 + i) = bitAt (bitsOf (encodeNarrow d false) 64 8) i := by
    simp only [bitAt_eq_testBit, testBit_bitsOf, show i < 8 by omega, decide_true, Bool.true_and]
  have hlow : bitAt (check72 d) i = bitAt (hammingSyn d) i := by
    rw [← check72_low]
    simp only [bitAt_eq_testBit, testBit_bitsOf, hi, decide_true, Bool.true_and, Nat.zero_add]
  rw [hwire, bitsOf_check_encodeNarrow hd, if_neg Bool.false_ne_true, hlow, hammingSyn, ← posXor, bitAt_posXor, zip_dataPos,
    List.filter_map, List.length_map, bitAt_eq_testBit 0, Nat.zero_testBit, Bool.false_xor]
  rfl

section Received

variable {d : Nat} (hd : d < 2 ^ 64)
include hd

theorem wireSyn_received (e : Nat) : wireSyn (encodeNarrow d false ^^^ e) = wireSyn e := by
  rw [wireSyn_xor, wireSyn_encodeNarrow hd, Nat.zero_xor]

theorem parity_received (e : Nat) : parity (encodeNarrow d false ^^^ e) 72 = parity e 72 := by
  rw [parity_xor, parity_encodeNarrow hd, Bool.false_xor]

theorem not_poison_of_received (e : Nat) (h : wireSyn e ≠ 127) : ¬ bitsOf (encodeNarrow d false ^^^ e) 64 8 =
    255 - check72 (bitsOf (encodeNarrow d false ^^^ e) 0 64) := fun hp =>
  h ((wireSyn_received hd e).symm.trans (wireSyn_of_poison _ hp))

/-- A word that arrives as it was sent is clean. -/
theorem decodeNarrow_sent : decodeNarrow (encodeNarrow d false) = .clean d := by
  have hsyn := wireSyn_encodeNarrow hd
  have hpoison : ¬ bitsOf (encodeNarrow d false) 64 8 = 255 - check72 (bitsOf (encodeNarrow d false) 0 64) := fun hp =>
    absurd ((wireSyn_of_poison _ hp).symm.trans hsyn) (by decide)
  rw [decodeNarrow_eq, if_neg hpoison, parity_encodeNarrow hd, if_neg Bool.false_ne_true, if_pos hsyn,
    bitsOf_data_encodeNarrow hd]

/-- A single-bit error is corrected. -/
theorem decodeNarrow_one_error (i : Nat) (hi : i < 72) : decodeNarrow (encodeNarrow d false ^^^ 2 ^ i) = .fixed d := by
  have hpoison := not_poison_of_received hd (2 ^ i) (by have := wireSyn_two_pow_le i hi; omega)
  have hodd : parity (2 ^ i) 72 = true := by rw [parity_two_pow, decide_eq_true hi]
  rw [decodeNarrow_eq, if_neg hpoison, parity_received hd, if_pos hodd, wireSyn_received hd, errMask_two_pow i hi, bitsOf_xor,
    bitsOf_data_encodeNarrow hd]
  simp

/-- A double-bit error gives no good data: its syndrome is not zero, so it is not clean, and its parity is even, so it is not taken
for a single one. -/
theorem decodeNarrow_two_errors (i j : Nat) (hi : i < 72) (hj : j < 72) (hij : i ≠ j) :
    decodeNarrow (encodeNarrow d false ^^^ (2 ^ i ^^^ 2 ^ j)) = .bad ∨
      ∃ y, decodeNarrow (encodeNarrow d false ^^^ (2 ^ i ^^^ 2 ^ j)) = .poison y := by
  have heven : parity (2 ^ i ^^^ 2 ^ j) 72 = false := by
    rw [parity_xor, parity_two_pow, parity_two_pow, decide_eq_true hi, decide_eq_true hj, Bool.xor_self]
  have hsyn : wireSyn (2 ^ i ^^^ 2 ^ j) ≠ 0 := fun h =>
    hij (wireSyn_two_pow_inj i j hi hj (Nat.xor_eq_zero_iff.1 (wireSyn_xor _ _ ▸ h)))
  rw [decodeNarrow_eq, parity_received hd, heven, if_neg Bool.false_ne_true, wireSyn_received hd, if_neg hsyn]
  split
  · exact .inr ⟨_, rfl⟩
  · exact .inl rfl

end Received

/-- Settles O14: syndrome and parity of what arrives are those of the error alone, which one bit's position names and two bits' do not
cancel. -/
theorem narrowFlitCode : Obligations.NarrowFlitCode := by
  intro d hd
  refine ⟨encodeNarrow_lt hd, bitsOf_data_encodeNarrow hd false, bitAt_check_encodeNarrow hd, parity_encodeNarrow hd,
    by decide +kernel, decodeNarrow_sent hd, decodeNarrow_one_error hd, fun i j x hi hj hij => ?_⟩
  have htwo : Nat.xor (Nat.xor (encodeNarrow d false) (2 ^ i)) (2 ^ j) = encodeNarrow d false ^^^ (2 ^ i ^^^ 2 ^ j) :=
    Nat.xor_assoc _ _ _
  rw [htwo]
  obtain h | ⟨y, h⟩ := decodeNarrow_two_errors hd i j hi hj hij
  · exact ⟨by simp [h], by simp [h]⟩
  · exact ⟨by simp [h], by simp [h]⟩

end Sys2Proof.Machine
end

/-! ### Poison on the wires -/

section
namespace Sys2Proof.Machine

theorem length_rsShift (w poly : Nat) (g rem : List Nat) (d : Nat) (h : rem.length = g.length) (hg : g ≠ []) :
    (rsShift w poly g rem d).length = g.length := by
  have hpos := List.length_pos_iff.2 hg
  simp [rsShift, h]
  omega

/-- There are as many check symbols as the generator has coefficients below its first. -/
theorem length_rsCheck (w poly : Nat) (g data : List Nat) (hg : g ≠ []) : (rsCheck w poly g data).length = g.length := by
  suffices h : ∀ rem : List Nat, rem.length = g.length → (data.foldl (fun rem d => rsShift w poly g rem d) rem).length = g.length from
    h _ List.length_replicate
  intro rem hrem
  induction data generalizing rem with
  | nil => exact hrem
  | cons d l ih => exact ih _ (length_rsShift w poly g rem d hrem hg)

theorem length_gen68 : gen68.length = 4 := by decide +kernel

theorem check68_lt (d : Nat) : check68 d < 2 ^ 32 := by
  have hlen : (rsCheck 8 poly8 gen68 (bytes64 d)).length = 4 := by
    rw [length_rsCheck _ _ _ _ (List.ne_nil_of_length_pos (by rw [length_gen68]; decide)), length_gen68]
  refine packFields_lt_of_le ?_
  simp [Function.comp_def, hlen]

/-- The decoder of R58 alone knows no poison, which is tested first. -/
theorem decode68_ne_poison (cs : List Nat) (x : Nat) : decode68 cs ≠ .poison x := by
  simp only [decode68]
  split
  · nofun
  · split
    · nofun
    · split
      · nofun
      · split <;> nofun

section Wide

variable {d : Nat} (hd : d < 2 ^ 512)
include hd

theorem bitsOf_data_encodeWide (bad : Bool) : bitsOf (encodeWide d bad) 0 512 = d :=
  bitsOf_low _ _ _ hd

theorem bitsOf_check_encodeWide (bad : Bool) :
    bitsOf (encodeWide d bad) 512 32 = if bad then 2 ^ 32 - 1 - check68 d else check68 d := by
  have hcheck := check68_lt d
  exact bitsOf_high _ _ 512 32 hd (by split <;> omega)

theorem decodeWide_poisoned : decodeWide (encodeWide d true) = .poison d := by
  simp only [decodeWide, bitsOf_data_encodeWide hd, bitsOf_check_encodeWide hd, if_true, beq_self_eq_true]

/-- No check word is its own inverse, so a clean flit is not taken for a poisoned one. -/
theorem decodeWide_clean (x : Nat) : decodeWide (encodeWide d false) ≠ .poison x := by
  have hcheck := check68_lt d
  have hclean : (check68 d == 2 ^ 32 - 1 - check68 d) = false := beq_false_of_ne (by omega)
  simp only [decodeWide, bitsOf_data_encodeWide hd, bitsOf_check_encodeWide hd, Bool.false_eq_true, if_false, hclean]
  exact decode68_ne_poison _ x

end Wide

theorem decodeNarrow_poisoned {d : Nat} (hd : d < 2 ^ 64) : decodeNarrow (encodeNarrow d true) = .poison d := by
  rw [decodeNarrow_eq, bitsOf_check_encodeNarrow hd, bitsOf_data_encodeNarrow hd, if_pos (if_pos rfl)]

/-- Settles O15: inverted check bits are recognised, and the check bits themselves are never taken for them. -/
theorem poisonSurvivesTheWires : Obligations.PoisonSurvivesTheWires :=
  ⟨fun _ hd => ⟨decodeWide_poisoned hd, decodeWide_clean hd⟩,
    fun _ hd => ⟨decodeNarrow_poisoned hd, fun x => by simp [decodeNarrow_sent hd]⟩⟩

end Sys2Proof.Machine
end

/-! ### Register accesses at node and port blocks: made, answered, timed out -/

section
namespace Sys2Proof.Machine

theorem delFirst_sublist {α : Type} (p : α → Bool) (l : List α) : (delFirst p l).Sublist l := by
  induction l with
  | nil => exact .slnil
  | cons a l ih =>
    rw [delFirst]
    split
    · exact List.sublist_cons_self a l
    · exact ih.cons_cons a

namespace State

/-- Where the East units owe no snapshot copy, cycles that pass move the clocks and the token buckets alone. -/
theorem passCyc_of_no_snap (s : State) (c : Nat) (h : s.snapDue = none) : ∃ m n b p,
    s.passCyc c = { s with cyc := max s.cyc c, tmo := m, sub := n, buckets := b, spn := { s.spn with phase := p } } := by
  have hcyc : s.cyc + (c - s.cyc) = max s.cyc c := by omega
  have hsnap : s.snapEast c = s := by simp [snapEast, h]
  rw [passCyc, hsnap, ← hcyc]
  dsimp only
  split <;> split <;> exact ⟨_, _, _, _, rfl⟩

/-- What a node or port block makes of an access that has arrived there (R68). -/
theorem cfgRow_of_taken (s s1 : State) (e : Nat) (wr : Bool) (a : Arrival)
    (h : s.takeArrival e (fun x => x.plane == pCQ && x.pkt.hdr.ptype == (if wr then tCFG_WR else tCFG_RD)) = some (a, s1)) :
    ∃ (by' : AccBy) (back : Hdr),
      s.cfgRow e wr = (s1.access by' wr a.pkt.hdr.addr a.pkt.hdr.aux).2.2.inject (epLink (a.link / 30) pCP (a.link % 6))
        (Pkt.bare back Ext.none) ∧
      back.ptype = tCFG_RSP ∧ back.opc = (s1.access by' wr a.pkt.hdr.addr a.pkt.hdr.aux).1 ∧
      back.aux = (s1.access by' wr a.pkt.hdr.addr a.pkt.hdr.aux).2.1.toNat ∧ back.tag = a.pkt.hdr.tag ∧
      back.dcol = a.pkt.hdr.scol ∧ back.drow = a.pkt.hdr.srow ∧ back.exitp = 126 := by
  rw [cfgRow, h]
  exact ⟨_, _, rfl, rfl, rfl, rfl, rfl, rfl, rfl, rfl⟩

/-- The response to an access of the CFG host completes it (R454). -/
theorem cfgRspRow_of_cfg (s s1 : State) (a : Arrival) (x : CfgAcc)
    (h : s.takeArrival 0xF7E (fun y => y.pkt.hdr.ptype == tCFG_RSP) = some (a, s1)) (hx : s1.accOf a.pkt.hdr.tag = some x)
    (hcfg : x.asker = .cfg) :
    s.cfgRspRow = State.drive { s1 with
        accs := delFirst (fun y => y.id == x.id) s1.accs
        cfgAck := some (BitVec.ofNat 32 a.pkt.hdr.aux, a.pkt.hdr.opc % 16) }
      (.cfgAck (BitVec.ofNat 32 a.pkt.hdr.aux) (a.pkt.hdr.opc % 16)) := by
  rw [cfgRspRow, h]
  simp only [hx, closeAcc, accEnd, hcfg]

/-- An access of the CFG host that has waited too long ends TIMEOUT, and only the clocks move besides (R454). -/
theorem cfgTimeout_of_cfg (s : State) (k : Nat) (x : CfgAcc) (h : s.accs[k]? = some x) (hcfg : x.asker = .cfg)
    (hsnap : s.snapDue = none) : ∃ m n b p, s.cfgTimeout k = { s with
      cyc := max s.cyc (x.at' + 65536), tmo := m, sub := n, buckets := b, spn := { s.spn with phase := p }
      accs := delFirst (fun y => y.id == x.id) s.accs, cfgAck := some (0, stTIMEOUT), out := s.out ++ [.cfgAck 0 stTIMEOUT] } := by
  obtain ⟨m, n, b, p, hpass⟩ := passCyc_of_no_snap s (x.at' + 65536) hsnap
  refine ⟨m, n, b, p, ?_⟩
  simp only [cfgTimeout, h, hpass, closeAcc, accEnd, hcfg, drive]

end State
end Sys2Proof.Machine

namespace Sys2Proof.Safety
open Sys2Proof.Machine

/-- A part that runs has the effect. -/
theorem act_of_on {s : State} {on : Bool} {f : State → State} (hon : on = true) : act on s f = .next (s.within (f s)) := by
  rw [hon, act_on]

theorem atHds_of_running {s : State} {f : State → State} (h : s.stopped = false) : atHds s f = .next (s.within (f s).settle) :=
  act_of_on (by rw [h]; rfl)

theorem partOn_of_acts {c : Instr} {s : State} (h : acts c s = true) : partOn s c = true := (Bool.and_eq_true_iff.1 h).2

/-- A row of a register block that runs is the access, and what follows from it. -/
theorem exec_cfgRow (s : State) (isPort wr : Bool) (k : Nat)
    (h : acts (if wr then .cfgWr isPort k else .cfgRd isPort k) s = true) :
    exec (if wr then .cfgWr isPort k else .cfgRd isPort k) s =
      .next (s.within (s.cfgRow (if isPort then 0xF00 + k else blockEp k) wr).settle) := by
  cases wr <;> cases isPort <;> exact act_of_on (f := fun s => (s.cfgRow _ _).settle) (partOn_of_acts h)

/-- A quiet state stays so while time passes and accesses of the CFG host end. -/
theorem quiet_cfgTimeout (s : State) (k : Nat) (x : CfgAcc) (h : s.accs[k]? = some x) (hcfg : x.asker = .cfg) (hq : Quiet s) :
    Quiet (s.cfgTimeout k) := by
  obtain ⟨m, n, b, p, heq⟩ := s.cfgTimeout_of_cfg k x h hcfg hq.snap
  rw [heq]
  have hdown : List.Sublist _ s.accsDown := (delFirst_sublist (fun y => y.id == x.id) s.accs).filter _
  rw [hq.down] at hdown
  exact { hq with down := List.sublist_nil.1 hdown }

/-- Settles O28: each row is one access, made or ended, and a timeout leaves nothing behind that would go on. -/
theorem blockAccessIsMadeAndAnswered : Obligations.BlockAccessIsMadeAndAnswered := by
  refine ⟨fun s s1 c isPort wr k a hacts hc ha => ?_, fun s s1 a x hs ha hx hcfg => ?_, fun s k x hs hq hx hcfg => ?_⟩
  · subst hc
    obtain ⟨by', back, hrow, hback⟩ := s.cfgRow_of_taken s1 _ wr a ha
    exact ⟨by', back, by rw [exec_cfgRow s isPort wr k hacts, hrow], hback⟩
  · rw [← s.cfgRspRow_of_cfg s1 a x ha hx hcfg]
    exact atHds_of_running hs
  · have hquiet := quiet_cfgTimeout s k x hx hcfg hq
    obtain ⟨m, n, b, p, heq⟩ := s.cfgTimeout_of_cfg k x hx hcfg hq.snap
    have hexec : exec (.cfgTimeout k) s = .next (s.within (s.cfgTimeout k).settle) := 
      atHds_of_running (f := fun s => s.cfgTimeout k) hs
    rw [settle_of_quiet _ hquiet, heq] at hexec
    exact ⟨_, hexec, rfl, rfl, rfl, rfl, rfl⟩

end Sys2Proof.Safety
end

/-! ### Scale-out: exit, entry, filter, acknowledgement, retransmission, abandonment -/

section
namespace Sys2Proof.Machine.State

section Exit

variable {s s1 : State} {p : Nat} {a : Arrival}

/-- The first segment of a packet opens its assembly, and a packet of one segment is whole at once (R82). -/
theorem scaleoutExit_of_first (h : s.takeArrival (0xF00 + p) (s.exitTakes p) = some (a, s1)) (hchip : s1.chip ≠ 0xFFF)
    (hnew : (s1.asms.any fun x => x.port == p && x.src == a.pkt.ext.src && x.psn == a.pkt.ext.psn) = false) :
    let r := s1.allocIn (0xF00 + p) 2
    let rest := r.2.asms.filter fun x => !(x.port == p && x.src == a.pkt.ext.src && x.psn == a.pkt.ext.psn)
    s.scaleoutExit p = if 2048 < a.pkt.ext.slen then { r.2 with asms := rest ++ [⟨p, a.pkt.ext.src, a.pkt.ext.psn, [a.pkt], r.1⟩] }
      else { r.2 with asms := rest }.exitWhole p (joinSegs [a.pkt]) r.1 := by
  have hfind : s1.asms.find? (fun x => x.port == p && x.src == a.pkt.ext.src && x.psn == a.pkt.ext.psn) = none :=
    List.find?_eq_none.2 fun x hx => by simpa using List.any_eq_false.1 hnew x hx
  have hmore : (1 < max 1 (ceilDiv a.pkt.ext.slen 2048)) = (2048 < a.pkt.ext.slen) := by
    rw [ceilDiv, eq_iff_iff]
    omega
  simp only [scaleoutExit, h, beq_false_of_ne hchip, Bool.false_eq_true, if_false, hfind, List.filter_nil, List.nil_append,
    List.length_singleton, hmore]

/-- Without a chip ID nothing leaves the die. -/
theorem scaleoutExit_of_no_chip (h : s.takeArrival (0xF00 + p) (s.exitTakes p) = some (a, s1)) (hchip : s1.chip = 0xFFF) :
    s.scaleoutExit p = s1.bump (portBase p) F.NKL_DISC_CNT_COUNT 1 := by
  simp only [scaleoutExit, h, hchip, beq_self_eq_true, if_true]

/-- An acknowledgement frees the entry that it names (R364). -/
theorem e2eAck_of_entry {e : RtxEnt}
    (h : s.takeArrival (0xF00 + p) (fun a => isE2eAck a.pkt.hdr && !a.lt && !s.leaving a.pkt) = some (a, s1))
    (he : s1.rtx.find? (fun e => e.port == p && e.psn == a.pkt.hdr.tag && e.src == a.pkt.hdr.aux % 2 ^ 24) = some e) :
    s.e2eAck p = s1.dropRtx e := by
  simp only [e2eAck, h, he]

/-- An acknowledgement that names no entry sets UNACK (R364). -/
theorem e2eAck_of_none
    (h : s.takeArrival (0xF00 + p) (fun a => isE2eAck a.pkt.hdr && !a.lt && !s.leaving a.pkt) = some (a, s1))
    (he : s1.rtx.find? (fun e => e.port == p && e.psn == a.pkt.hdr.tag && e.src == a.pkt.hdr.aux % 2 ^ 24) = none) :
    s.e2eAck p = s1.nklErr p F.NKL_ERR_UNACK (openSt 22) := by
  simp only [e2eAck, h, he]

end Exit

section Entry

variable {s : State} {p : Nat} {x : RxPkt} {r : List RxPkt} (hw : (s.link p).whole = x :: r)
include hw

/-- A packet that does not open is a tag failure, and its buffer is granted again (R345, R355). -/
theorem scaleoutEntry_of_tagFail (h : (s.updLink p (fun l => { l with whole := r })).openPkt p x = none) :
    s.scaleoutEntry p = (((s.updLink p (fun l => { l with whole := r })).tagFail p).freePb p x.buf).grant' p := by
  simp only [scaleoutEntry, hw, h]

/-- A packet that opens enters the die, and its buffer stays until it has been injected whole (R84, R345). -/
theorem scaleoutEntry_of_opened {pk : Pkt} {s2 : State} (hchip : s.chip ≠ 0xFFF)
    (hkph : s.get (portBase p) F.NKL_STAT_KPH_RX = bit x.kph) (hclass : classOf pk.hdr.vcn ≠ 3)
    (h : (s.updLink p (fun l => { l with whole := r })).openPkt p x = some (pk, s2)) :
    let v := ((s.updLink p (fun l => { l with whole := r })).updLink p (fun l => { l with tags := 0 })).enterPkt p pk
    s.scaleoutEntry p = match v.1 with
      | some ack => injAll { v.2 with injecting := v.2.injecting ++ [⟨p, x.glint, pk.ext.src, pk.ext.psn, x.buf, ack⟩] }
      | none => (v.2.freePb p x.buf).grant' p := by
  have hk : (((s.updLink p (fun l => { l with whole := r })).updLink p (fun l => { l with tags := 0 })).get (portBase p)
      F.NKL_STAT_KPH_RX == bit x.kph) = true := beq_iff_eq.2 hkph
  have hc : (((s.updLink p (fun l => { l with whole := r })).updLink p (fun l => { l with tags := 0 })).chip == 0xFFF) = false :=
    beq_false_of_ne hchip
  simp only [scaleoutEntry, hw, h, hk, hc, beq_false_of_ne hclass, if_true, Bool.false_and, Bool.false_eq_true, if_false]
  cases (((s.updLink p (fun l => { l with whole := r })).updLink p (fun l => { l with tags := 0 })).enterPkt p pk).1 <;> rfl

end Entry

/-- The next copy of a packet is wanted when its time has come, before the age limit (R366). -/
theorem e2eRetransmit_of_due {s : State} {p k : Nat} {e e' : RtxEnt} (h : s.rtxAt p k = some e) (hwant : e.want = false)
    (hage : s.get (portBase p) F.NKL_RTX_CTL_RTO * (2 ^ e.k - 1) < s.get 0 F.NKL_E2E_CTL_KEEP - 1024)
    (h' : ((s.passTo (e.first + s.get (portBase p) F.NKL_RTX_CTL_RTO * (2 ^ e.k - 1) + 1)).updRtx e
      (fun x => { x with want := true, k := x.k + 1 })).rtxAt p k = some e') :
    s.e2eRetransmit p k = ((s.passTo (e.first + s.get (portBase p) F.NKL_RTX_CTL_RTO * (2 ^ e.k - 1) + 1)).updRtx e
      (fun x => { x with want := true, k := x.k + 1 })).rtxTry e' := by
  have hlate : ¬ s.get 0 F.NKL_E2E_CTL_KEEP - 1024 ≤ s.get (portBase p) F.NKL_RTX_CTL_RTO * (2 ^ e.k - 1) := by omega
  simp only [e2eRetransmit, h, hwant, hlate, decide_false, Bool.or_self, Bool.false_eq_true, if_false, h']

/-- A packet whose age limit is reached is given up (R366). -/
theorem e2eAbandon_of_entry {s : State} {p k : Nat} {e : RtxEnt} (h : s.rtxAt p k = some e) :
    s.e2eAbandon p k = (s.passTo (e.first + (s.get 0 F.NKL_E2E_CTL_KEEP - 1024) + 1)).abandon e stTIMEOUT := by
  simp only [e2eAbandon, h]

/-- An entry of the filter leaves it when its time is over (R365). -/
theorem filterExpire_of_entry {s : State} {k : Nat} {f : FiltEnt} (h : s.filt[k]? = some f) :
    s.filterExpire k = ({ s.passTo (f.at' + s.get 0 F.NKL_E2E_CTL_KEEP + 1) with
      filt := (s.passTo (f.at' + s.get 0 F.NKL_E2E_CTL_KEEP + 1)).filt.eraseIdx k }).noteFilt := by
  simp only [filterExpire, h]

end Sys2Proof.Machine.State

namespace Sys2Proof.Safety
open Sys2Proof.Machine

/-- A row at the port-block side of a link that runs is its effect, and what follows from it. -/
theorem atExit_of_acts {c : Instr} {s t : State} {p : Nat} {f : State → State} (h : acts c s = true)
    (ha : acts c s = (s.build.isLink p && (s.portOn p && !s.stopped))) (hrow : f s = t) :
    atExit p s f = .next (s.within t.settle) := by
  rw [← hrow]
  exact act_of_on (by rw [Bool.and_assoc, ← ha, h])

theorem passTo_step (s : State) (d : Nat) : SpindleStep [] s (s.passTo d) := by
  obtain ⟨_, _, _, _, _, _, _, _, h⟩ := State.passTo_eq s d
  rw [h]
  exact ⟨rfl, fun _ _ => rfl, id⟩

/-- An expired filter entry moves the clocks and the count of entries in use, and leaves the filter itself. -/
theorem filterExpire_step {s : State} {k : Nat} {f : FiltEnt} (h : s.filt[k]? = some f) : ∃ w : State,
    SpindleStep [F.NKL_FILT_STAT_USED] s w ∧ s.filterExpire k = { w with filt := s.filt.eraseIdx k } ∧
    w.tmo = max s.tmo (f.at' + s.get 0 F.NKL_E2E_CTL_KEEP + 1) ∧ w.get 0 F.NKL_FILT_STAT_USED = (s.filt.length - 1) % 2 ^ 17 := by
  have hfilt : (s.passTo (f.at' + s.get 0 F.NKL_E2E_CTL_KEEP + 1)).filt = s.filt := State.passTo_filt ..
  have hlen : (s.filt.eraseIdx k).length = s.filt.length - 1 :=
    List.length_eraseIdx_of_lt (List.getElem?_eq_some_iff.1 h).1
  refine ⟨(s.passTo (f.at' + s.get 0 F.NKL_E2E_CTL_KEEP + 1)).set 0 F.NKL_FILT_STAT_USED (s.filt.eraseIdx k).length,
    ((passTo_step s _).mono (by simp)).set List.mem_cons_self _, ?_, State.passTo_tmo .., ?_⟩
  · rw [s.filterExpire_of_entry h, hfilt]
    rfl
  · rw [State.get_set_same _ _ _ _ (by decide), hlen]
    rfl

/-- FILTER_EXPIRE in a quiet state (R365). -/
theorem exec_filterExpire {s : State} {k : Nat} {f : FiltEnt} (hs : s.stopped = false) (hq : Quiet s) (h : s.filt[k]? = some f) :
    ∃ t, exec (.filterExpire k) s = .next t ∧ t.filt = s.filt.eraseIdx k ∧
      t.tmo = max s.tmo (f.at' + s.get 0 F.NKL_E2E_CTL_KEEP + 1) ∧ t.get 0 F.NKL_FILT_STAT_USED = (s.filt.length - 1) % 2 ^ 17 := by
  obtain ⟨w, hstep, hrow, htmo, hused⟩ := filterExpire_step h
  have hw := (Still.of_quiet hq).of_step hstep (by decide)
  have hstill : Still (s.filterExpire k) := by
    rw [hrow]
    exact { hw with }
  have hstop : (s.filterExpire k).stopped = false := by
    rw [hrow]
    exact (congrArg State.stopped hstep.back :).trans hs
  have hended := closeDown_ended _ hstill.rings
  have hexec : exec (.filterExpire k) s = .next (s.within (s.filterExpire k).settle) :=
    act_of_on (f := fun s => (s.filterExpire k).settle) (by rw [hs]; rfl)
  rw [hstill.settle hstop] at hexec
  refine ⟨_, hexec, ?_, ?_, ?_⟩
  · exact (congrArg State.filt hended.back :).trans (by rw [hrow])
  · exact (congrArg State.tmo hended.back :).trans (by rw [hrow]; exact htmo)
  · exact (hended.get F.NKL_FILT_STAT_USED (by decide)).trans (by rw [hrow]; exact hused)

/-- Settles O43: each row finds what it is about and does what the rule says with it. -/
theorem scaleOutRows : Obligations.ScaleOutRows := by
  refine ⟨fun s s1 p a hon ha hchip hnew => ?_, fun s s1 p a hon ha hchip => ?_, fun s p x r hon hw hopen => ?_,
    fun s p x r pk s2 hon hchip hw hkph hclass hopen => ?_, fun s k f hs hq hf => ?_, fun s s1 p a hon ha => ⟨fun e he => ?_, fun he => ?_⟩,
    fun s p k e e' hon he hwant hage => ?_, fun s p k e hon he => ?_⟩
  · exact atExit_of_acts (f := fun s => s.scaleoutExit p) hon rfl (State.scaleoutExit_of_first ha hchip hnew)
  · exact atExit_of_acts (f := fun s => s.scaleoutExit p) hon rfl (State.scaleoutExit_of_no_chip ha hchip)
  · exact atExit_of_acts (f := fun s => s.scaleoutEntry p) hon rfl (State.scaleoutEntry_of_tagFail hw hopen)
  · exact atExit_of_acts (f := fun s => s.scaleoutEntry p) hon rfl (State.scaleoutEntry_of_opened hw hchip hkph hclass hopen)
  · exact exec_filterExpire hs hq hf
  · exact atExit_of_acts (f := fun s => s.e2eAck p) hon rfl (State.e2eAck_of_entry ha he)
  · exact atExit_of_acts (f := fun s => s.e2eAck p) hon rfl (State.e2eAck_of_none ha he)
  · exact fun he' => atExit_of_acts (f := fun s => s.e2eRetransmit p k) hon rfl (State.e2eRetransmit_of_due he hwant hage he')
  · exact atExit_of_acts (f := fun s => s.e2eAbandon p k) hon rfl (State.e2eAbandon_of_entry he)

end Sys2Proof.Safety
end

/-! ### Credits on their way and STALL counters in a build within the ranges of R460 -/

section
namespace Sys2Proof.Machine

/-- Within the ranges of R460 no link of a router has the name of an injection link. -/
theorem outKey_lt_of_inRange {b : Build} {n pl port : Nat} (hb : b.inRange = true) (hn : n < b.nodes)
    (hp : State.portOf pl port = true) : outKey n pl port < 0x100000 := by
  simp only [Build.inRange, Bool.and_eq_true, decide_eq_true_eq] at hb
  have hnodes : b.nodes ≤ 96 * 64 := Nat.mul_le_mul (by omega) (by omega)
  simp only [State.portOf, Bool.and_eq_true, Bool.or_eq_true, decide_eq_true_eq, beq_iff_eq] at hp
  rw [outKey]
  omega

/-- Two bits of the CR value for each VC: the credits on their way back, at most as many as a cycle carries (R72, R73). -/
theorem bitsOf_crValue (s : State) (link vc : Nat) (hvc : vc < 8) :
    bitsOf (s.crValue link) (2 * vc) 2 = min (nget s.crw 0 (link * 8 + vc)) (perCycle s.build link) := by
  have hle : perCycle s.build link ≤ 2 := by
    rw [perCycle]
    split <;> omega
  have hfour : ∀ v, min (nget s.crw 0 (link * 8 + v)) (perCycle s.build link) < 2 ^ 2 := fun v => by omega
  have hpack : s.crValue link = packFields ((upFrom 0 8).map fun v => (2, min (nget s.crw 0 (link * 8 + v)) (perCycle s.build link))) := by
    simp only [State.crValue, upFrom, List.foldl_cons, List.foldl_nil, List.map_cons, List.map_nil, packFields,
      Nat.mod_eq_of_lt (hfour _)]
    ring
  have hread := readFields_packFields_of_fits ((upFrom 0 8).map fun v => (2, min (nget s.crw 0 (link * 8 + v)) (perCycle s.build link)))
    (by simpa using fun v _ => hfour v)
  rw [← hpack] at hread
  simp only [upFrom, List.map_cons, List.map_nil, readFields, List.cons.injEq, Nat.reduceAdd, and_true] at hread
  interval_cases vc <;> simp only [hread, Nat.reduceMul]

/-- The plane of a link of a router within the ranges of R460. -/
theorem perCycle_outKey {b : Build} {n pl port : Nat} (hlink : outKey n pl port < 0x100000) (hp : State.portOf pl port = true) :
    perCycle b (outKey n pl port) = if b.isS = true ∧ pl ≤ 1 then 2 else 1 := by
  have hplane : linkPlane (outKey n pl port) = pl := by
    simp only [State.portOf, Bool.and_eq_true, Bool.or_eq_true, decide_eq_true_eq, beq_iff_eq] at hp
    rw [linkPlane, if_neg (by omega), outKey]
    omega
  rw [perCycle, hplane]
  simp only [Bool.and_eq_true, decide_eq_true_eq]

/-- The credits that a cycle brings back, in every build within the ranges of R460. -/
theorem bitsOf_crValue_of_inRange {s : State} {n pl port vc : Nat} (hb : s.build.inRange = true) (hn : n < s.build.nodes)
    (hp : State.portOf pl port = true) (hvc : vc < 8) :
    bitsOf (s.crValue (outKey n pl port)) (2 * vc) 2 =
      min (nget s.crw 0 (outKey n pl port * 8 + vc)) (if s.build.isS = true ∧ pl ≤ 1 then 2 else 1) := by
  rw [bitsOf_crValue s _ vc hvc, perCycle_outKey (outKey_lt_of_inRange hb hn hp) hp]

namespace State

theorem tlmOf_tlmBump (s : State) (a b : Nat) :
    (s.tlmBump a).tlmOf b = if b = a then
      (if (s.tlmOf a).cnt + 1 == 2 ^ 48 then ⟨0, true⟩ else ⟨(s.tlmOf a).cnt + 1, (s.tlmOf a).ovf⟩) else s.tlmOf b :=
  mapGet_mapSet s.tlm ⟨0, false⟩ _ a b

theorem nodup_eraseDups (l : List Nat) : l.eraseDups.Nodup := by
  match l with
  | [] => simp
  | a :: l =>
    rw [List.eraseDups_cons, List.nodup_cons]
    exact ⟨by simp [List.mem_eraseDups], nodup_eraseDups _⟩
termination_by l.length
decreasing_by exact Nat.lt_succ_of_le (List.length_filter_le _ _)

/-- RTR_TLM_STALL of an output and VC (R422). -/
def stallAddr (n pl port vc : Nat) : Nat :=
  if pl ≤ 1 then nodeBase n + 0xA00 + 8 * (8 * (5 * pl + port) + vc) else nodeBase n + 0xC80 + 8 * (5 * pl + port - 10)

theorem stallBump_eq (n pl port : Nat) (h : port < 5) : stallBump n pl port = fun s vc => s.tlmBump (stallAddr n pl port vc) := by
  funext s vc
  rw [stallBump, if_neg (by omega), stallAddr]
  split <;> rfl

/-- Counters that are not among those raised stay. -/
theorem tlmOf_foldl_apart (addr : Nat → Nat) (l : List Nat) (s : State) (a : Nat) (h : ∀ v ∈ l, addr v ≠ a) :
    (l.foldl (fun s v => s.tlmBump (addr v)) s).tlmOf a = s.tlmOf a := by
  induction l generalizing s with
  | nil => rfl
  | cons v l ih =>
    rw [List.foldl_cons, ih _ fun w hw => h w (List.mem_cons_of_mem _ hw), tlmOf_tlmBump, if_neg (h v List.mem_cons_self).symm]

/-- Of counters at different places each is raised once. -/
theorem tlmOf_foldl_mem (addr : Nat → Nat) (l : List Nat) (s : State) (vc : Nat) (hl : l.Nodup) (hmem : vc ∈ l)
    (hinj : ∀ v ∈ l, addr v = addr vc → v = vc) :
    (l.foldl (fun s v => s.tlmBump (addr v)) s).tlmOf (addr vc) = (s.tlmBump (addr vc)).tlmOf (addr vc) := by
  induction l generalizing s with
  | nil => simp at hmem
  | cons v l ih =>
    obtain ⟨hv, hl⟩ := List.nodup_cons.1 hl
    rw [List.foldl_cons]
    by_cases heq : v = vc
    · subst heq
      refine tlmOf_foldl_apart addr l _ _ fun w hw hw' => hv ?_
      rwa [← hinj w (List.mem_cons_of_mem _ hw) hw']
    · have hne : addr vc ≠ addr v := fun h => heq (hinj v List.mem_cons_self h.symm)
      have hrest : vc ∈ l := (List.mem_cons.1 hmem).resolve_left (Ne.symm heq)
      have hkeep : (s.tlmBump (addr v)).tlmOf (addr vc) = s.tlmOf (addr vc) := by rw [tlmOf_tlmBump, if_neg hne]
      rw [ih _ hl hrest fun w hw => hinj w (List.mem_cons_of_mem _ hw), tlmOf_tlmBump (s.tlmBump (addr v)), tlmOf_tlmBump s (addr vc),
        hkeep]

/-- The narrow planes have one VC. -/
theorem vc_of_requests_narrow {s : State} {n pl port : Nat} {c : Cand} (h : c ∈ s.requests n pl port) (hpl : 2 ≤ pl) : c.vc = 0 := by
  have hqb : (pl == pQB) = false := beq_false_of_ne (by rw [pQB]; omega)
  have hpb : (pl == pPB) = false := beq_false_of_ne (by rw [pPB]; omega)
  simp only [requests, hqb, hpb, vcsOf, show ¬ pl ≤ 1 by omega, Bool.false_eq_true, if_false, List.append_nil, List.mem_flatten,
    List.mem_map] at h
  obtain ⟨l, ⟨i, -, rfl⟩, hc⟩ := h
  obtain ⟨vc, hvc, hc⟩ := List.mem_filterMap.1 hc
  have hzero : vc = 0 := by have := (mem_upFrom 0 1 vc).1 hvc; omega
  split at hc
  · cases hc
  · split at hc
    · cases hc
    · split at hc
      · cases hc
      · cases hc
        exact hzero

/-- Each VC of an output that waits behind the packet in progress counts one STALL, and no other does, in every build within the ranges
of R460. -/
theorem stallOwned_of_inRange {s : State} {n pl port vc : Nat} (hb : s.build.inRange = true) (hn : n < s.build.nodes)
    (hpl : pl < 5) (hport : port < 5) (hvc : vc < vcsOf pl) :
    ((s.requests n pl port).any (fun c => c.vc == vc) = true →
      (s.stallOwned (outKey n pl port)).tlmOf (stallAddr n pl port vc) = (s.tlmBump (stallAddr n pl port vc)).tlmOf (stallAddr n pl port vc)) ∧
    ((s.requests n pl port).any (fun c => c.vc == vc) = false →
      (s.stallOwned (outKey n pl port)).tlmOf (stallAddr n pl port vc) = s.tlmOf (stallAddr n pl port vc)) := by
  have hlink : outKey n pl port < 0x100000 := outKey_lt_of_inRange hb hn (by simp [portOf, hpl, hport])
  have hstall : s.stallOwned (outKey n pl port) = (((s.requests n pl port).map (·.vc)).eraseDups).foldl
      (fun s v => s.tlmBump (stallAddr n pl port v)) s := by
    have hnode : outKey n pl port / 30 = n := by rw [outKey]; omega
    have hplane : outKey n pl port / 6 % 5 = pl := by rw [outKey]; omega
    have hside : outKey n pl port % 6 = port := by rw [outKey]; omega
    simp only [stallOwned, if_neg (Nat.not_le.2 hlink), hnode, hplane, hside, stalled, stallBump_eq _ _ _ hport]
  have hmem : ∀ v, v ∈ ((s.requests n pl port).map (·.vc)).eraseDups ↔ (s.requests n pl port).any (fun c => c.vc == v) = true :=
    fun v => by simp [List.mem_eraseDups]
  have hinj : ∀ v ∈ ((s.requests n pl port).map (·.vc)).eraseDups, stallAddr n pl port v = stallAddr n pl port vc → v = vc := by
    intro v hv haddr
    by_cases hwide : pl ≤ 1
    · rw [stallAddr, stallAddr, if_pos hwide, if_pos hwide] at haddr
      omega
    · obtain ⟨c, hc, rfl⟩ := List.mem_map.1 (List.mem_eraseDups.1 hv)
      rw [vc_of_requests_narrow hc (by omega)]
      rw [vcsOf, if_neg hwide] at hvc
      omega
  rw [hstall]
  refine ⟨fun h => tlmOf_foldl_mem _ _ _ _ (nodup_eraseDups _) ((hmem vc).2 h) hinj, fun h => ?_⟩
  refine tlmOf_foldl_apart _ _ _ _ fun v hv haddr => ?_
  have hany := (hmem v).1 hv
  rw [hinj v hv haddr, h] at hany
  exact Bool.false_ne_true hany

end State
end Sys2Proof.Machine
end

/-! ### A cycle of credit return -/

section
namespace Sys2Proof.Machine.State

/-! What an error bit of a router leaves in the router's registers. -/

/-- A report changes no register of a node block. -/
theorem word_report_node (s : State) (c src st d a : Nat) (h : 0x1000 ≤ a) : (s.report c src st d).word a = s.word a :=
  (Safety.report_step s c src st d).word a fun f hf => by
    have hlow : ∀ f ∈ Safety.reportFlds, f.off < 0x1000 := by decide
    have := hlow f hf
    omega

theorem get_rtrErr (s : State) (n pl port : Nat) (f g : Fld) (c st : Nat) :
    (s.rtrErr n pl port f c st).get (nodeBase n) g = (s.set (nodeBase n) f 1).get (nodeBase n) g := by
  have hnode : 0x1000 ≤ nodeBase n + g.off := by rw [nodeBase]; omega
  rw [get, get, rtrErr, errBit, word_report_node _ _ _ _ _ _ hnode]

/-- The error bit is set. -/
theorem flag_rtrErr (s : State) (n pl port : Nat) (f : Fld) (c st : Nat) (h : f.w = 1) (hlo : f.lo < 32) :
    (s.rtrErr n pl port f c st).flag (nodeBase n) f = true := by
  rw [flag, get_rtrErr, get_set_same _ _ _ _ (by omega), h]
  rfl

theorem rtrErr_eq (s : State) (n pl port : Nat) (f : Fld) (c st : Nat) : ∃ r l,
    s.rtrErr n pl port f c st = { s with regs := r, reports := l } := errBit_eq ..

/-- A failed output or input that its error bit reports is failed (R106, R107). -/
theorem failed_markFailed (s : State) (out : Bool) (n pl port c st : Nat) (f : Fld) (hp : portOf pl port = true)
    (hf : f.off = 0x14) (hunit : port < 5 ∨ (s.build.unitAt n).isSome = true) :
    ((s.markFailed out n pl port).rtrErr n pl port f c st).failed out n pl port = true := by
  simp only [portOf, Bool.and_eq_true, Bool.or_eq_true, decide_eq_true_eq, beq_iff_eq] at hp
  by_cases hfive : port = 5
  · obtain ⟨u, hu⟩ := Option.isSome_iff_exists.1 (hunit.resolve_left (by omega))
    have hmark : s.markFailed out n pl port = { s with injSt := mapSet s.injSt 0 (unitFail u out) 1 } := by
      simp [markFailed, hfive, hu]
    obtain ⟨r, l, herr⟩ := rtrErr_eq (s.markFailed out n pl port) n pl port f c st
    rw [herr, hmark]
    simp [failed, hfive, hu, nget_mapSet]
  · have hmark : s.markFailed out n pl port =
        s.set (nodeBase n) (if out then F.RTR_FAIL_OUT_FAIL else F.RTR_FAIL_IN_FAIL)
          (putBits (s.get (nodeBase n) (if out then F.RTR_FAIL_OUT_FAIL else F.RTR_FAIL_IN_FAIL)) (5 * pl + port) 1 1) := by
      simp [markFailed, hfive]
    have hapart : f.apart (if out then F.RTR_FAIL_OUT_FAIL else F.RTR_FAIL_IN_FAIL) = true := by
      cases out <;> simp [Fld.apart, hf, F.RTR_FAIL_OUT_FAIL, F.RTR_FAIL_IN_FAIL]
    have hfail : ∀ t : State, t.failed out n pl port =
        bitAt (t.get (nodeBase n) (if out then F.RTR_FAIL_OUT_FAIL else F.RTR_FAIL_IN_FAIL)) (5 * pl + port) := fun t => by
      simp [failed, hfive]
    have hw : (if out then F.RTR_FAIL_OUT_FAIL else F.RTR_FAIL_IN_FAIL).w = 25 ∧
        (if out then F.RTR_FAIL_OUT_FAIL else F.RTR_FAIL_IN_FAIL).lo = 0 := by
      cases out <;> exact ⟨rfl, rfl⟩
    rw [hfail, get_rtrErr, get_set_apart _ _ _ _ _ hapart, hmark, get_set_same _ _ _ _ (by omega), hw.1, bitAt_eq_testBit,
      Nat.testBit_mod_two_pow, testBit_putBits, if_pos (by omega), Nat.sub_self, decide_eq_true (by omega)]
    rfl

theorem markFailed_eq (s : State) (out : Bool) (n pl port : Nat) : ∃ r i, s.markFailed out n pl port = { s with regs := r, injSt := i } := by
  rw [markFailed]
  split
  · split <;> exact ⟨_, _, rfl⟩
  · exact ⟨_, _, rfl⟩

/-! Credits that arrive at the sender of a link. -/

/-- The state `t` is `s` after the credits of some VCs have arrived, as the value `cr` tells them: each counter of flits owed falls by
the credits of its VC, and the excess of one, if there is one, has set CRED_OVF (R74). -/
structure Credited (n pl port cr : Nat) (vcs : List Nat) (s t : State) : Prop where
  owed : ∀ q, nget t.owed 0 q = nget s.owed 0 q -
    if q / 8 = outKey n pl port ∧ q % 8 ∈ vcs then bitsOf cr (2 * (q % 8)) 2 else 0
  excess : (∃ vc ∈ vcs, nget s.owed 0 (outKey n pl port * 8 + vc) < bitsOf cr (2 * vc) 2) →
    t.flag (nodeBase n) F.RTR_ERR_CRED_OVF = true
  kept : s.flag (nodeBase n) F.RTR_ERR_CRED_OVF = true → t.flag (nodeBase n) F.RTR_ERR_CRED_OVF = true
  quiet : (∀ vc ∈ vcs, bitsOf cr (2 * vc) 2 ≤ nget s.owed 0 (outKey n pl port * 8 + vc)) → t.regs = s.regs ∧ t.reports = s.reports
  frame : { t with owed := s.owed, regs := s.regs, reports := s.reports } = s

/-- A counter's name tells its link and its VC. -/
theorem owedKey_iff {link vc q : Nat} (hvc : vc < 8) : (q / 8 = link ∧ q % 8 = vc) ↔ q = link * 8 + vc := by omega

/-- The counter of flits owed under a name falls by a number of credits. -/
def repay (s : State) (k v : Nat) : State := { s with owed := mapSet s.owed 0 k (nget s.owed 0 k - v) }

theorem nget_repay (s : State) (k v q : Nat) :
    nget (s.repay k v).owed 0 q = if q = k then nget s.owed 0 k - v else nget s.owed 0 q := nget_mapSet ..

/-- What the credits of one VC do: nothing where there are none, and an excess is an error (R74). -/
theorem creditVc_eq (n pl port cr vc : Nat) (s : State) : creditVc n pl port cr s vc =
    if bitsOf cr (2 * vc) 2 = 0 then s
    else if nget s.owed 0 (outKey n pl port * 8 + vc) < bitsOf cr (2 * vc) 2 then
      (s.repay (outKey n pl port * 8 + vc) (bitsOf cr (2 * vc) 2)).rtrErr n pl port F.RTR_ERR_CRED_OVF 3 stINTERNAL
    else s.repay (outKey n pl port * 8 + vc) (bitsOf cr (2 * vc) 2) := by
  simp only [creditVc, beq_iff_eq, repay]

theorem credited_creditVc (n pl port cr vc : Nat) (s : State) (hvc : vc < 8) :
    Credited n pl port cr [vc] s (creditVc n pl port cr s vc) := by
  have howed : ∀ q, nget (s.repay (outKey n pl port * 8 + vc) (bitsOf cr (2 * vc) 2)).owed 0 q =
      nget s.owed 0 q - if q / 8 = outKey n pl port ∧ q % 8 ∈ [vc] then bitsOf cr (2 * (q % 8)) 2 else 0 := fun q => by
    simp only [nget_repay, List.mem_singleton]
    by_cases hq : q = outKey n pl port * 8 + vc
    · obtain ⟨hlink, hmod⟩ := (owedKey_iff hvc).2 hq
      rw [if_pos hq, if_pos ⟨hlink, hmod⟩, hmod, ← hq]
    · rw [if_neg hq, if_neg (mt (owedKey_iff hvc).1 hq), Nat.sub_zero]
  rw [creditVc_eq]
  by_cases hzero : bitsOf cr (2 * vc) 2 = 0
  · rw [if_pos hzero]
    refine ⟨fun q => ?_, fun ⟨w, hw, hlt⟩ => ?_, id, fun _ => ⟨rfl, rfl⟩, rfl⟩
    · rw [← howed q, nget_repay, hzero, Nat.sub_zero]
      split
      · rw [‹q = _›]
      · rfl
    · rw [List.mem_singleton.1 hw, hzero] at hlt
      exact absurd hlt (Nat.not_lt_zero _)
  rw [if_neg hzero]
  by_cases hmiss : nget s.owed 0 (outKey n pl port * 8 + vc) < bitsOf cr (2 * vc) 2
  · rw [if_pos hmiss]
    have hflag := (s.repay (outKey n pl port * 8 + vc) (bitsOf cr (2 * vc) 2)).flag_rtrErr n pl port F.RTR_ERR_CRED_OVF 3 stINTERNAL
      rfl (by decide)
    obtain ⟨r, l, herr⟩ := (s.repay (outKey n pl port * 8 + vc) (bitsOf cr (2 * vc) 2)).rtrErr_eq n pl port F.RTR_ERR_CRED_OVF 3 stINTERNAL
    refine ⟨?_, fun _ => hflag, fun _ => hflag, fun h => absurd hmiss (Nat.not_lt.2 (h vc List.mem_cons_self)), ?_⟩
    · rw [herr]
      exact howed
    · rw [herr]
      rfl
  · rw [if_neg hmiss]
    refine ⟨howed, fun ⟨w, hw, hlt⟩ => ?_, id, fun _ => ⟨rfl, rfl⟩, rfl⟩
    rw [List.mem_singleton.1 hw] at hlt
    exact absurd hlt hmiss

theorem Credited.cons {n pl port cr vc : Nat} {vcs : List Nat} {s t u : State} (hvc : ∀ w ∈ vc :: vcs, w < 8) (hnew : vc ∉ vcs)
    (h : Credited n pl port cr [vc] s t) (h' : Credited n pl port cr vcs t u) : Credited n pl port cr (vc :: vcs) s u := by
  have hother : ∀ w ∈ vcs, nget t.owed 0 (outKey n pl port * 8 + w) = nget s.owed 0 (outKey n pl port * 8 + w) := fun w hw => by
    have hne : w ≠ vc := fun heq => hnew (heq ▸ hw)
    have hw8 := hvc w (List.mem_cons_of_mem _ hw)
    rw [h.owed, if_neg, Nat.sub_zero]
    rw [List.mem_singleton]
    omega
  refine ⟨fun q => ?_, ?_, fun hs => h'.kept (h.kept hs), fun hle => ?_, ?_⟩
  · rw [h'.owed, h.owed]
    simp only [List.mem_cons, List.not_mem_nil, or_false]
    by_cases hlink : q / 8 = outKey n pl port
    · by_cases hq : q % 8 = vc
      · simp [hlink, hq, hnew]
      · simp [hlink, hq]
    · simp [hlink]
  · rintro ⟨w, hw, hlt⟩
    obtain rfl | hw := List.mem_cons.1 hw
    · exact h'.kept (h.excess ⟨w, List.mem_cons_self, hlt⟩)
    · exact h'.excess ⟨w, hw, hother w hw ▸ hlt⟩
  · obtain ⟨hr, hl⟩ := h.quiet fun w hw => by
      rw [List.mem_singleton.1 hw]
      exact hle vc List.mem_cons_self
    obtain ⟨hr', hl'⟩ := h'.quiet fun w hw => hother w hw ▸ hle w (List.mem_cons_of_mem _ hw)
    exact ⟨hr'.trans hr, hl'.trans hl⟩
  · exact (congrArg (fun r : State => { r with owed := s.owed, regs := s.regs, reports := s.reports }) h'.frame :).trans h.frame

/-- The credits of several VCs arrive one VC after the other. -/
theorem credited_foldl (n pl port cr : Nat) (vcs : List Nat) (s : State) (hl : vcs.Nodup) (hvcs : ∀ vc ∈ vcs, vc < 8) :
    Credited n pl port cr vcs s (vcs.foldl (creditVc n pl port cr) s) := by
  induction vcs generalizing s with
  | nil => exact ⟨fun q => by simp, fun ⟨_, h, _⟩ => absurd h (by simp), id, fun _ => ⟨rfl, rfl⟩, rfl⟩
  | cons vc vcs ih =>
    obtain ⟨hnew, hl⟩ := List.nodup_cons.1 hl
    exact (credited_creditVc n pl port cr vc s (hvcs vc List.mem_cons_self)).cons hvcs hnew
      (ih _ hl fun w hw => hvcs w (List.mem_cons_of_mem _ hw))

/-! The wires of credit return. -/

/-- The credits of a VC that a CR value carries are on their way no more. -/
def takeCrw (link cr : Nat) (s : State) (vc : Nat) : State :=
  { s with crw := mapSet s.crw 0 (link * 8 + vc) (nget s.crw 0 (link * 8 + vc) - bitsOf cr (2 * vc) 2) }

theorem takeCrw_foldl_frame (link cr : Nat) (vcs : List Nat) (s : State) : { vcs.foldl (takeCrw link cr) s with crw := s.crw } = s := by
  induction vcs generalizing s with
  | nil => rfl
  | cons vc vcs ih => exact (congrArg (fun r : State => { r with crw := s.crw }) (ih (takeCrw link cr s vc)) :)

theorem nget_takeCrw_foldl (link cr : Nat) (vcs : List Nat) (s : State) (q : Nat) (hl : vcs.Nodup) (hvcs : ∀ vc ∈ vcs, vc < 8) :
    nget (vcs.foldl (takeCrw link cr) s).crw 0 q =
      nget s.crw 0 q - if q / 8 = link ∧ q % 8 ∈ vcs then bitsOf cr (2 * (q % 8)) 2 else 0 := by
  induction vcs generalizing s with
  | nil => simp
  | cons vc vcs ih =>
    obtain ⟨hnew, hl⟩ := List.nodup_cons.1 hl
    have hkey := owedKey_iff (link := link) (q := q) (hvcs vc List.mem_cons_self)
    rw [List.foldl_cons, ih _ hl fun w hw => hvcs w (List.mem_cons_of_mem _ hw), takeCrw, nget_mapSet]
    by_cases hq : q = link * 8 + vc
    · obtain ⟨hlink, hmod⟩ := hkey.2 hq
      simp [← hq, hlink, hmod, hnew]
    · rw [if_neg hq]
      by_cases hlink : q / 8 = link
      · have hmod : q % 8 ≠ vc := fun h => hq (hkey.1 ⟨hlink, h⟩)
        simp [hlink, hmod]
      · simp [hlink]

/-- The credits for a VC that the wires of a link bring: on QB and PB two bits for each, to a sync unit one for each of the five lanes,
and on another narrow plane one (R72, R282). -/
def creditsGot (pl port x vc : Nat) : Nat :=
  if pl ≤ 1 then bitsOf x (2 * vc) 2 else if port = 5 then (if vc < 5 then bitsOf x (2 * vc) 1 else 0)
  else if vc = 0 then x % 2 else 0

/-- The wire of a lane into a sync unit is the lower of the two bits of its VC. -/
theorem bitsOf_laneWires (x vc : Nat) (hvc : vc < 5) : bitsOf (Nat.land x 0x155) (2 * vc) 2 = bitsOf x (2 * vc) 1 := by
  refine Nat.eq_of_testBit_eq fun i => ?_
  have hland : Nat.land x 0x155 = x &&& 0x155 := rfl
  rw [hland, testBit_bitsOf, testBit_bitsOf, Nat.testBit_and]
  match i with
  | 0 =>
    have hset : (0x155 : Nat).testBit (2 * vc) = true := by interval_cases vc <;> rfl
    simp [hset]
  | 1 =>
    have hclear : (0x155 : Nat).testBit (2 * vc + 1) = false := by interval_cases vc <;> rfl
    simp [hclear]
  | i + 2 => simp

/-- A cycle of credit return without a parity error gives each VC the credits that its wires bring. -/
theorem receiveCredit_eq (s : State) (n pl port : Nat) (upset : BitVec 16) : ∃ (cr : Nat) (vcs : List Nat), vcs.Nodup ∧ (∀ vc ∈ vcs, vc < 8) ∧
    s.receiveCredit n pl port upset false = vcs.foldl (creditVc n pl port cr)
      ((upFrom 0 8).foldl (takeCrw (outKey n pl port) (s.crValue (outKey n pl port))) s) ∧
    ∀ vc, vc < 8 → creditsGot pl port (Nat.xor (s.crValue (outKey n pl port)) upset.toNat) vc = if vc ∈ vcs then bitsOf cr (2 * vc) 2 else 0 := by
  by_cases hwide : pl ≤ 1
  · refine ⟨Nat.xor (s.crValue (outKey n pl port)) upset.toNat, upFrom 0 8, by decide, by decide, ?_, fun vc hvc => ?_⟩
    · simp only [receiveCredit, Bool.false_eq_true, if_false, if_pos hwide]
      rfl
    · rw [creditsGot, if_pos hwide, if_pos ((mem_upFrom 0 8 vc).2 (by omega))]
  by_cases hunit : port = 5
  · refine ⟨Nat.land (Nat.xor (s.crValue (outKey n pl port)) upset.toNat) 0x155, upFrom 0 5, by decide, by decide, ?_, fun vc hvc => ?_⟩
    · simp only [receiveCredit, Bool.false_eq_true, if_false, if_neg hwide, hunit, beq_self_eq_true, if_true]
      rfl
    · rw [creditsGot, if_neg hwide, if_pos hunit]
      by_cases hlane : vc < 5
      · rw [if_pos hlane, if_pos ((mem_upFrom 0 5 vc).2 (by omega)), bitsOf_laneWires _ _ hlane]
      · rw [if_neg hlane, if_neg (mt (mem_upFrom 0 5 vc).1 (by omega))]
  · refine ⟨Nat.xor (s.crValue (outKey n pl port)) upset.toNat % 2, [0], by decide, by decide, ?_, fun vc hvc => ?_⟩
    · simp only [receiveCredit, Bool.false_eq_true, if_false, if_neg hwide, beq_false_of_ne hunit]
      rfl
    · rw [creditsGot, if_neg hwide, if_neg hunit]
      by_cases hzero : vc = 0
      · rw [if_pos hzero, if_pos (List.mem_singleton.2 hzero), hzero, bitsOf]
        omega
      · rw [if_neg hzero, if_neg (mt List.mem_singleton.1 hzero)]

end Sys2Proof.Machine.State

namespace Sys2Proof.Safety
open Sys2Proof.Machine

theorem atNode_of_on {s : State} {n : Nat} {f : State → State} (h : s.nodeOn n = true) : atNode n s f = .next (s.within (f s)) :=
  act_of_on h

/-- A cycle of credit return without a parity error. -/
theorem exec_creditReceive {s : State} {n pl port : Nat} (upset : BitVec 16) (hon : s.nodeOn n = true) (hp : State.portOf pl port = true) :
    let link := outKey n pl port
    let got := State.creditsGot pl port (Nat.xor (s.crValue link) upset.toNat)
    ∃ t, exec (.creditReceive n pl port upset false) s = .next t ∧
      (∀ vc, vc < 8 → nget t.owed 0 (link * 8 + vc) = nget s.owed 0 (link * 8 + vc) - got vc ∧
        nget t.crw 0 (link * 8 + vc) = nget s.crw 0 (link * 8 + vc) - bitsOf (s.crValue link) (2 * vc) 2) ∧
      (∀ q, q / 8 ≠ link → nget t.owed 0 q = nget s.owed 0 q ∧ nget t.crw 0 q = nget s.crw 0 q) ∧
      ((∃ vc, vc < 8 ∧ nget s.owed 0 (link * 8 + vc) < got vc) → t.flag (nodeBase n) F.RTR_ERR_CRED_OVF = true) ∧
      ((∀ vc, vc < 8 → got vc ≤ nget s.owed 0 (link * 8 + vc)) → t.regs = s.regs ∧ t.reports = s.reports) ∧
      { t with owed := s.owed, crw := s.crw, regs := s.regs, reports := s.reports } = s := by
  intro link got
  obtain ⟨cr, vcs, hl, hvcs, hrow, hgot⟩ := s.receiveCredit_eq n pl port upset
  have hexec : exec (.creditReceive n pl port upset false) s = .next (s.within (s.receiveCredit n pl port upset false)) := by
    have h := atNode_of_on (f := fun s => if State.portOf pl port then s.receiveCredit n pl port upset false else s) hon
    rw [if_pos hp] at h
    exact h
  have hcred := State.credited_foldl n pl port cr vcs ((upFrom 0 8).foldl (State.takeCrw link (s.crValue link)) s) hl hvcs
  have hback := State.takeCrw_foldl_frame link (s.crValue link) (upFrom 0 8) s
  have hcrw := fun q => State.nget_takeCrw_foldl link (s.crValue link) (upFrom 0 8) s q (by decide) (by decide)
  rw [← hrow] at hcred
  generalize (upFrom 0 8).foldl (State.takeCrw link (s.crValue link)) s = v at hcred hback hcrw
  generalize s.receiveCredit n pl port upset false = u at hexec hcred
  have howed : v.owed = s.owed := (congrArg State.owed hback :)
  have hucrw : u.crw = v.crw := (congrArg State.crw hcred.frame :)
  have hkey : ∀ vc, vc < 8 → (link * 8 + vc) / 8 = link ∧ (link * 8 + vc) % 8 = vc := fun vc hvc => by omega
  have hself : s.within u = u := within_self s u ((congrArg State.pending hcred.frame :).trans (congrArg State.pending hback :))
    ((congrArg State.build hcred.frame :).trans (congrArg State.build hback :))
  rw [hself] at hexec
  refine ⟨u, hexec, fun vc hvc => ⟨?_, ?_⟩, fun q hq => ⟨?_, ?_⟩, fun ⟨vc, hvc, hlt⟩ => ?_, fun hle => ?_, ?_⟩
  · obtain ⟨hlink, hmod⟩ := hkey vc hvc
    rw [hcred.owed, howed, hlink, hmod]
    simp only [got, hgot vc hvc, link, true_and]
  · obtain ⟨hlink, hmod⟩ := hkey vc hvc
    rw [hucrw, hcrw, hlink, hmod, if_pos ⟨rfl, (mem_upFrom 0 8 vc).2 (by omega)⟩]
  · rw [hcred.owed, if_neg (fun h => hq h.1), howed, Nat.sub_zero]
  · rw [hucrw, hcrw, if_neg (fun h => hq h.1), Nat.sub_zero]
  · simp only [got, link, hgot vc hvc] at hlt
    split at hlt
    next hmem => exact hcred.excess ⟨vc, hmem, by rwa [howed]⟩
    next => exact absurd hlt (Nat.not_lt_zero _)
  · obtain ⟨hregs, hreports⟩ := hcred.quiet fun vc hmem => by
      have hgv := hgot vc (hvcs vc hmem)
      rw [if_pos hmem] at hgv
      rw [howed, ← hgv]
      exact hle vc (hvcs vc hmem)
    exact ⟨hregs.trans (congrArg State.regs hback :), hreports.trans (congrArg State.reports hback :)⟩
  · have hu : { u with owed := s.owed, crw := s.crw, regs := s.regs, reports := s.reports } =
        ({ v with owed := s.owed, crw := s.crw, regs := s.regs, reports := s.reports } : State) :=
      (congrArg (fun r : State => { r with owed := s.owed, crw := s.crw, regs := s.regs, reports := s.reports }) hcred.frame :)
    exact hu.trans (congrArg (fun r : State => { r with owed := s.owed, regs := s.regs, reports := s.reports }) hback :)

/-- A cycle of credit return with a parity error (R107). -/
theorem exec_creditReceive_crp {s : State} {n pl port : Nat} (upset : BitVec 16) (hon : s.nodeOn n = true)
    (hp : State.portOf pl port = true) :
    ∃ t, exec (.creditReceive n pl port upset true) s = .next t ∧ t.owed = s.owed ∧ t.flag (nodeBase n) F.RTR_ERR_CRP = true ∧
      (port < 5 ∨ (s.build.unitAt n).isSome = true → t.failed true n pl port = true) ∧
      { t with crw := s.crw, regs := s.regs, reports := s.reports, injSt := s.injSt } = s := by
  have hback := State.takeCrw_foldl_frame (outKey n pl port) (s.crValue (outKey n pl port)) (upFrom 0 8) s
  have hexec := atNode_of_on (f := fun s => if State.portOf pl port then s.receiveCredit n pl port upset true else s) hon
  rw [if_pos hp] at hexec
  have hrow : s.receiveCredit n pl port upset true =
      (((upFrom 0 8).foldl (State.takeCrw (outKey n pl port) (s.crValue (outKey n pl port))) s).markFailed true n pl port).rtrErr
        n pl port F.RTR_ERR_CRP 3 stINTERNAL := rfl
  rw [hrow] at hexec
  generalize (upFrom 0 8).foldl (State.takeCrw (outKey n pl port) (s.crValue (outKey n pl port))) s = v at hback hexec
  obtain ⟨r, i, hmark⟩ := v.markFailed_eq true n pl port
  obtain ⟨r', l, herr⟩ := (v.markFailed true n pl port).rtrErr_eq n pl port F.RTR_ERR_CRP 3 stINTERNAL
  have hbuild : v.build = s.build := (congrArg State.build hback :)
  have hself : s.within ((v.markFailed true n pl port).rtrErr n pl port F.RTR_ERR_CRP 3 stINTERNAL) =
      (v.markFailed true n pl port).rtrErr n pl port F.RTR_ERR_CRP 3 stINTERNAL :=
    within_self s _ (by rw [herr, hmark]; exact (congrArg State.pending hback :)) (by rw [herr, hmark]; exact hbuild)
  rw [hself] at hexec
  refine ⟨_, hexec, ?_, State.flag_rtrErr _ _ _ _ _ _ _ rfl (by decide), fun hunit => ?_, ?_⟩
  · rw [herr, hmark]
    exact (congrArg State.owed hback :)
  · exact State.failed_markFailed v true n pl port 3 stINTERNAL _ hp rfl (by rwa [hbuild])
  · rw [herr, hmark]
    exact (congrArg (fun r : State => { r with regs := s.regs, reports := s.reports, injSt := s.injSt }) hback :)

end Sys2Proof.Safety
end

/-! ### Links of a build beyond the ranges of R460 -/

section
namespace Sys2Proof.Safety
open Sys2Proof.Machine

/-- A build of one row and one domain, longer than R460 allows: the links of its last nodes have the names of injection links. -/
def longBuild (isS : Bool) : Build :=
  { referenceA false with isS := isS, cols := 34954, rows := 1, halves := false, domw := 34954, domh := 1, stations := [] }

/-- The block of such a build with its one domain Lit. -/
def longLit (isS : Bool) : State := ({ State.reset with build := longBuild isS } : State).setDom 0 3

theorem longLit_runs (isS : Bool) : 34953 < (longLit isS).build.nodes ∧ (longLit isS).nodeOn 34953 = true := by
  cases isS <;> decide +kernel

/-- Two credits of VC 0 on their way back to the Local output of QB at the last node of a long build of Configuration S. -/
def longCredits : State := { longLit true with crw := [(outKey 34953 pQB 0 * 8, 2)] }

/-- Refutes O44: its builds are not held to the ranges of R460. Where a link's name is one of an injection link, the model takes
another plane for its own, so that in Configuration S one credit of VC 0 comes back in a cycle and not two. What remains true is stated by
`bitsOf_crValue_of_inRange`, `exec_creditReceive` and `exec_creditReceive_crp`. -/
theorem not_creditsReturn : ¬ Obligations.CreditsReturn := by
  intro h
  have hruns := longLit_runs true
  obtain ⟨hvalue, -⟩ := h longCredits 34953 pQB 0 0 hruns.1 hruns.2 rfl
  have hone : bitsOf (longCredits.crValue (outKey 34953 pQB 0)) 0 2 = 1 := by decide +kernel
  have htwo : bitsOf (longCredits.crValue (outKey 34953 pQB 0)) 0 2 = 2 := hvalue 0 (by decide)
  exact absurd (hone.symm.trans htwo) (by decide)

/-- A packet of one flit at the head of an input, where another packet owns the output that it asks for, at the last node of a long
build. -/
def longWaiting : State :=
  { longLit false with
    buf := [(inKey 34953 pQB 1 0, [⟨⟨0, false, true, true, 0, false, 0, false, true⟩, [2], false, false⟩])]
    own := [(outKey 34953 pQB 2, ⟨true, 3, 0, 1, [], none, none⟩)] }

/-- Refutes O45: its builds are not held to the ranges of R460. Where an output's name is one of an injection link, the model counts
no STALL for the packet that waits. Within those ranges the clause holds: `stallOwned_of_inRange`. -/
theorem not_routerRows : ¬ Obligations.RouterRows := by
  intro h
  have hruns := longLit_runs false
  obtain ⟨-, -, -, hstall, -⟩ := h longWaiting 34953 pQB 2 hruns.1 rfl
  have hasks : (longWaiting.requests 34953 pQB 2).any (fun c => c.vc == 0) = true := by decide +kernel
  have hcounts := (hstall ⟨true, 3, 0, 1, [], none, none⟩ 0 (by decide +kernel) (by decide) (by decide)).1 hasks
  exact absurd hcounts (by decide +kernel)

end Sys2Proof.Safety
end

/-! ### Register writes: what each field holds after one -/

section
namespace Sys2Proof.Machine

/-- A field holds the low bits of what has been put there. -/
theorem bitsOf_putBits_same (x lo w v : Nat) : bitsOf (putBits x lo w v) lo w = v % 2 ^ w := by
  refine Nat.eq_of_testBit_eq fun i => ?_
  rw [testBit_bitsOf, testBit_putBits, Nat.testBit_mod_two_pow, Nat.add_sub_cancel_left]
  by_cases hi : i < w
  · rw [if_pos (by omega)]
  · simp [hi]

/-- A field apart from the one put there stays. -/
theorem bitsOf_putBits_apart (x lo w v lo' w' : Nat) (h : lo' + w' ≤ lo ∨ lo + w ≤ lo') :
    bitsOf (putBits x lo w v) lo' w' = bitsOf x lo' w' := by
  refine Nat.eq_of_testBit_eq fun i => ?_
  rw [testBit_bitsOf, testBit_bitsOf, testBit_putBits]
  by_cases hi : i < w'
  · rw [if_neg (by omega)]
  · simp [hi]

/-- Where a field holds zero, adding a value at its place puts that value there. -/
theorem add_at_eq_putBits (x lo w v : Nat) (hx : bitsOf x lo w = 0) (hv : v < 2 ^ w) : x + v * 2 ^ lo = putBits x lo w v := by
  rw [putBits, hx, Nat.zero_mul, Nat.sub_zero, Nat.mod_eq_of_lt hv]

/-- Two fields of a register word share no bit. -/
def RegFld.apart (f g : RegFld) : Prop := g.lo + g.w ≤ f.lo ∨ f.lo + f.w ≤ g.lo

/-- A word to which each of some fields adds its value at its own place. -/
def placed (v : RegFld → Nat) (acc : Nat) (flds : List RegFld) : Nat := flds.foldl (fun x g => x + v g * 2 ^ g.lo) acc

section Placed
variable {v : RegFld → Nat}

theorem placed_cons {acc : Nat} {g : RegFld} (flds : List RegFld) (hfree : bitsOf acc g.lo g.w = 0) (hv : v g < 2 ^ g.w) :
    placed v acc (g :: flds) = placed v (putBits acc g.lo g.w (v g)) flds := by
  rw [← add_at_eq_putBits _ _ _ _ hfree hv]
  rfl

/-- Fields apart from one that is put keep their zeros. -/
theorem free_putBits {flds : List RegFld} {acc x : Nat} {g : RegFld} (hfree : ∀ g' ∈ flds, bitsOf acc g'.lo g'.w = 0)
    (hg : ∀ g' ∈ flds, g.apart g') : ∀ g' ∈ flds, bitsOf (putBits acc g.lo g.w x) g'.lo g'.w = 0 := fun g' hg' => by
  rw [bitsOf_putBits_apart _ _ _ _ _ _ (hg g' hg'), hfree g' hg']

/-- A field apart from those placed stays. -/
theorem bitsOf_placed_apart {flds : List RegFld} {acc : Nat} {f : RegFld} (hv : ∀ g ∈ flds, v g < 2 ^ g.w)
    (hfree : ∀ g ∈ flds, bitsOf acc g.lo g.w = 0) (hflds : flds.Pairwise RegFld.apart) (hf : ∀ g ∈ flds, g.apart f) :
    bitsOf (placed v acc flds) f.lo f.w = bitsOf acc f.lo f.w := by
  induction flds generalizing acc with
  | nil => rfl
  | cons g flds ih =>
    simp only [List.forall_mem_cons, List.pairwise_cons] at hv hfree hflds hf
    rw [placed_cons flds hfree.1 hv.1, ih hv.2 (free_putBits hfree.2 hflds.1) hflds.2 hf.2,
      bitsOf_putBits_apart _ _ _ _ _ _ hf.1]

/-- A placed field holds its value. -/
theorem bitsOf_placed_mem {flds : List RegFld} {acc : Nat} {f : RegFld} (hv : ∀ g ∈ flds, v g < 2 ^ g.w)
    (hfree : ∀ g ∈ flds, bitsOf acc g.lo g.w = 0) (hflds : flds.Pairwise RegFld.apart) (hf : f ∈ flds) :
    bitsOf (placed v acc flds) f.lo f.w = v f := by
  induction flds generalizing acc with
  | nil => simp at hf
  | cons g flds ih =>
    simp only [List.forall_mem_cons, List.pairwise_cons] at hv hfree hflds
    rw [placed_cons flds hfree.1 hv.1]
    obtain rfl | hf := List.mem_cons.1 hf
    · rw [bitsOf_placed_apart hv.2 (free_putBits hfree.2 hflds.1) hflds.2 fun g' hg' => Or.symm (hflds.1 g' hg'),
        bitsOf_putBits_same, Nat.mod_eq_of_lt hv.1]
    · exact ih hv.2 (free_putBits hfree.2 hflds.1) hflds.2 hf

end Placed

/-- What a write leaves in a field fits in it. -/
theorem fieldWrite_lt {old new n : Nat} (locked : Bool) (data : Nat) (ty : RTy) (hold : old < n) (hnew : new < n) :
    fieldWrite locked old new data ty < n := by
  cases ty with
  | RW | RWS => exact hnew
  | RO | TLM => exact hold
  | WO => exact Nat.zero_lt_of_lt hold
  | W1C => exact (Nat.sub_le _ _).trans_lt hold
  | RWL => cases locked <;> assumption
  | CLR =>
    rw [fieldWrite]
    split
    · exact Nat.zero_lt_of_lt hold
    · exact hold

/-- The fields of a register of the map share no bit. -/
theorem flds_apart {r : RegRow} (hr : r ∈ regTable) : r.flds.Pairwise RegFld.apart := by
  have hall : ∀ r ∈ regTable, r.flds.Pairwise fun f g => g.lo + g.w ≤ f.lo ∨ f.lo + f.w ≤ g.lo := by decide +kernel
  exact hall r hr

/-- Each field of a register of the map holds after a write what its own type says. -/
theorem bitsOf_wordWrite {r : RegRow} {f : RegFld} (hr : r ∈ regTable) (hf : f ∈ r.flds) (locked : Bool) (old data : Nat) :
    bitsOf (wordWrite locked r.flds old data) f.lo f.w =
      fieldWrite locked (bitsOf old f.lo f.w) (bitsOf data f.lo f.w) data f.ty :=
  bitsOf_placed_mem (v := fun g => fieldWrite locked (bitsOf old g.lo g.w) (bitsOf data g.lo g.w) data g.ty)
    (fun _ _ => fieldWrite_lt locked data _ (Nat.mod_lt _ (Nat.two_pow_pos _)) (Nat.mod_lt _ (Nat.two_pow_pos _)))
    (fun _ _ => by rw [bitsOf, Nat.zero_div, Nat.zero_mod]) (flds_apart hr) hf

end Sys2Proof.Machine

namespace Sys2Proof.Safety
open Sys2Proof.Machine

/-- Settles O19: the fields of a register share no bit, so that each holds what its own type says. -/
theorem writtenFieldsFollowTheirTypes : Obligations.WrittenFieldsFollowTheirTypes := by
  unfold Obligations.WrittenFieldsFollowTheirTypes
  intro r hr f hf locked old data _ _
  rw [bitsOf_wordWrite hr hf]
  cases f.ty with
  | CLR => simp only [fieldWrite, beq_iff_eq]
  | RW | RWS | RO | WO | W1C | RWL | TLM => rfl

end Sys2Proof.Safety
end

/-! ### The reflector of a router -/

section
namespace Sys2Proof.Machine.State

/-! Counters. -/

theorem get_le (s : State) (b : Nat) (f : Fld) : s.get b f ≤ 2 ^ f.w - 1 :=
  Nat.le_sub_one_of_lt (Nat.mod_lt _ (Nat.two_pow_pos _))

/-- A counter rises and stays at its greatest value. -/
theorem get_bump_same (s : State) (b n : Nat) (f : Fld) (h : f.lo + f.w ≤ 32) :
    (s.bump b f n).get b f = min (s.get b f + n) (2 ^ f.w - 1) := by
  have hpos := Nat.two_pow_pos f.w
  rw [bump, get_set_same _ _ _ _ h, Nat.mod_eq_of_lt (by omega)]

theorem get_bump_apart (s : State) (b n : Nat) (f g : Fld) (h : f.apart g = true) : (s.bump b f n).get b g = s.get b g :=
  get_set_apart s b _ f g h

/-! The states of outputs. -/

/-- The state of an output rests on the build, the state of Local outputs toward sync units and three register words. -/
theorem outState_congr {s t : State} {n : Nat} (hb : t.build = s.build) (hi : t.injSt = s.injSt)
    (hout : t.word (nodeBase n + 8) = s.word (nodeBase n + 8)) (hfail : t.word (nodeBase n + 0x1C) = s.word (nodeBase n + 0x1C))
    (hpwr : t.word 0xA08 = s.word 0xA08) (pl port : Nat) : t.outState n pl port = s.outState n pl port := by
  have hhalf : ∀ east, t.halfReset east = s.halfReset east := by
    rintro (_ | _) <;> exact congrArg (fun w : Word => wordField w _ 1 == 1) hpwr
  have hfailed : t.failed true n pl port = s.failed true n pl port := by
    simp only [failed, get, hb, hi, if_true, show F.RTR_FAIL_OUT_FAIL.off = 0x1C from rfl, hfail]
  have hseam : t.seamFenced n port = s.seamFenced n port := by
    rw [seamFenced, seamFenced, hb]
    split
    · rw [hhalf]
    · rfl
  rw [outState, outState, hfailed, hseam, rtrOut, rtrOut, hout, hb, hi]

/-! The queue of NACKs (R111). -/

/-- The NACKs that a reflector holds, oldest first. -/
def reflQueue (s : State) (n : Nat) : List Pkt := (mapGet s.refl n).getD []

/-- The route of a NACK leads into an output that is not OPEN. -/
def isShut (s : State) (n : Nat) (pk : Pkt) : Bool := s.outState n pPB (unicastOut s.build n pPB pk.hdr) != 0

/-- The state with a reflector's queue replaced. -/
def setReflQueue (s : State) (n : Nat) (l : List Pkt) : State := { s with refl := mapSet s.refl [] n l }

theorem reflQueue_setReflQueue (s : State) (n : Nat) (l : List Pkt) : (s.setReflQueue n l).reflQueue n = l :=
  (mapGet_mapSet s.refl [] l n n).trans (if_pos rfl)

@[simp] theorem get_setReflQueue (s : State) (n b : Nat) (l : List Pkt) (f : Fld) : (s.setReflQueue n l).get b f = s.get b f := rfl
@[simp] theorem reflQueue_bump (s : State) (b n k : Nat) (f : Fld) : (s.bump b f k).reflQueue n = s.reflQueue n := rfl

theorem bump_setReflQueue_frame (s : State) (n b k : Nat) (l : List Pkt) (f : Fld) :
    { (s.setReflQueue n l).bump b f k with refl := s.refl, regs := s.regs } = s := rfl

/-- The state `t` is `s` after the NACKs at the head of a queue that cannot leave were discarded and counted. -/
structure ReflDropped (n : Nat) (s t : State) : Prop where
  queue : t.reflQueue n = (s.reflQueue n).dropWhile (s.isShut n)
  count : t.get (nodeBase n) F.RTR_DISC_CNT_COUNT =
    min (s.get (nodeBase n) F.RTR_DISC_CNT_COUNT + ((s.reflQueue n).length - ((s.reflQueue n).dropWhile (s.isShut n)).length)) (2 ^ 32 - 1)
  others : ∀ g : Fld, F.RTR_DISC_CNT_COUNT.apart g = true → t.get (nodeBase n) g = s.get (nodeBase n) g
  frame : { t with refl := s.refl, regs := s.regs } = s

theorem dropRefl_dropped (s : State) (n : Nat) : ReflDropped n s (s.dropRefl n) := by
  have hdrop : s.dropRefl n = if ((s.reflQueue n).dropWhile (s.isShut n)).length = (s.reflQueue n).length then s
      else (s.setReflQueue n ((s.reflQueue n).dropWhile (s.isShut n))).bump (nodeBase n) F.RTR_DISC_CNT_COUNT
        ((s.reflQueue n).length - ((s.reflQueue n).dropWhile (s.isShut n)).length) := by
    simp only [dropRefl, beq_iff_eq]
    rfl
  rw [hdrop]
  split
  next hall =>
    have hle : s.get (nodeBase n) F.RTR_DISC_CNT_COUNT ≤ 2 ^ 32 - 1 := s.get_le _ _
    refine ⟨((List.dropWhile_sublist _).eq_of_length hall).symm, ?_, fun _ _ => rfl, rfl⟩
    rw [hall, Nat.sub_self, Nat.add_zero, Nat.min_eq_left hle]
  next =>
    refine ⟨?_, ?_, fun g hg => ?_, bump_setReflQueue_frame s n _ _ _ _⟩
    · rw [reflQueue_bump, reflQueue_setReflQueue]
    · rw [get_bump_same _ _ _ _ (by decide), get_setReflQueue]
      rfl
    · rw [get_bump_apart _ _ _ _ g hg, get_setReflQueue]

/-- The state `t` is `s` after the reflector of a node has answered a request with a NACK (R110, R111). -/
structure Reflected (n : Nat) (nk : Pkt) (s t : State) : Prop where
  queue : t.reflQueue n = (s.reflQueue n ++ [nk]).dropWhile (s.isShut n)
  discarded : t.get (nodeBase n) F.RTR_DISC_CNT_COUNT = min (s.get (nodeBase n) F.RTR_DISC_CNT_COUNT +
    ((s.reflQueue n).length + 1 - ((s.reflQueue n ++ [nk]).dropWhile (s.isShut n)).length)) (2 ^ 32 - 1)
  count : t.get (nodeBase n) F.RTR_REFL_CNT_COUNT = min (s.get (nodeBase n) F.RTR_REFL_CNT_COUNT + 1) (2 ^ 32 - 1)
  frame : { t with refl := s.refl, regs := s.regs } = s

/-- A NACK joins the queue of a reflector and is counted. -/
def addNack (s : State) (n : Nat) (nk : Pkt) : State :=
  (s.setReflQueue n (s.reflQueue n ++ [nk])).bump (nodeBase n) F.RTR_REFL_CNT_COUNT 1

theorem reflQueue_addNack (s : State) (n : Nat) (nk : Pkt) : (s.addNack n nk).reflQueue n = s.reflQueue n ++ [nk] :=
  reflQueue_setReflQueue s n _

theorem word_addNack (s : State) (n a : Nat) (nk : Pkt) (h : a ≠ nodeBase n + 0x2C) : (s.addNack n nk).word a = s.word a :=
  word_set _ _ _ _ F.RTR_REFL_CNT_COUNT h

theorem isShut_addNack (s : State) (n : Nat) (nk : Pkt) : (s.addNack n nk).isShut n = s.isShut n := by
  have hpwr : 0xA08 ≠ nodeBase n + 0x2C := by
    rw [nodeBase]
    omega
  have hbuild : (s.addNack n nk).build = s.build := set_build ..
  have hinj : (s.addNack n nk).injSt = s.injSt := set_injSt ..
  funext x
  rw [isShut, isShut, hbuild, outState_congr hbuild hinj (word_addNack s n _ nk (by omega)) (word_addNack s n _ nk (by omega))
    (word_addNack s n _ nk hpwr)]

theorem reflect_reflected (s : State) (n st : Nat) (pk : Pkt) : Reflected n (s.nackFor pk st n) s (s.reflect n pk st) := by
  have hreflect : s.reflect n pk st = (s.addNack n (s.nackFor pk st n)).dropRefl n := rfl
  obtain ⟨queue, count, others, frame⟩ := (s.addNack n (s.nackFor pk st n)).dropRefl_dropped n
  rw [reflQueue_addNack, isShut_addNack] at queue count
  rw [List.length_append, addNack, get_bump_apart _ _ _ _ _ (by decide), get_setReflQueue] at count
  rw [hreflect]
  refine ⟨queue, count, ?_, (congrArg (fun r : State => { r with refl := s.refl, regs := s.regs }) frame :)⟩
  rw [others _ (by decide), addNack, get_bump_same _ _ _ _ (by decide), get_setReflQueue]
  rfl

/-! The head packet of an input VC (R109, R110). -/

/-- Flits that leave the front of a buffer change only it and the credits. -/
theorem drainFront_frame (s : State) (k : Nat) : { s.drainFront k with buf := s.buf, owed := s.owed, crw := s.crw } = s := by
  unfold drainFront
  dsimp only
  split
  · rfl
  · exact (congrArg (fun r : State => { r with buf := s.buf }) (giveCredit_frame (s.setBuf k _) ..) :)

/-- The first `len` flits of a buffer need output `o` no more. -/
def passHead (s : State) (k len o : Nat) : State :=
  (s.setBuf k (((s.bufOf k).take len).map (fun g => { g with todo := g.todo.filter (· != o) }) ++ (s.bufOf k).drop len)).drainFront k

theorem passHead_eq (s : State) (k len o : Nat) : ∃ b w c, s.passHead k len o = { s with buf := b, owed := w, crw := c } := by
  have hframe : { s.passHead k len o with buf := s.buf, owed := s.owed, crw := s.crw } = s :=
    (congrArg (fun r : State => { r with buf := s.buf }) (drainFront_frame (s.setBuf k _) k) :)
  generalize s.passHead k len o = t at hframe
  exact ⟨t.buf, t.owed, t.crw, (congrArg (fun r : State => { r with buf := t.buf, owed := t.owed, crw := t.crw }) hframe :)⟩

/-- What becomes of a whole head packet that is routed into a closed output and that no multicast block cuts. -/
theorem reflectHead_of_closed {s : State} {n pl port vc o st : Nat} {f : BFlit} {r : List BFlit}
    (hhead : s.headFlits (inKey n pl port vc) = f :: r) (hclosed : s.closedBranch n pl f = some (o, st))
    (hwhole : (f :: r).any (fun g => g.flit.tl) = true)
    (hcut : s.mcastBlocked n o = false ∨ branching pl (flitsPkt pl (f :: r)).hdr = false) :
    s.reflectHead n pl port vc =
      if reflectable pl (flitsPkt pl (f :: r)).hdr = true then
        if 4 ≤ (s.reflQueue n).length then s
        else (s.passHead (inKey n pl port vc) (f :: r).length o).reflect n (flitsPkt pl (f :: r))
          (if st = 3 then stDOMAIN_OFF else stROUTE)
      else (s.passHead (inKey n pl port vc) (f :: r).length o).discarded n 1 := by
  have hcut' : (s.mcastBlocked n o && branching pl (flitsPkt pl (f :: r)).hdr) = false := Bool.and_eq_false_iff.2 hcut
  simp only [reflectHead, hhead, hclosed, hwhole, hcut', Bool.not_true, Bool.false_eq_true, if_false, beq_iff_eq]
  rfl

end Sys2Proof.Machine.State

namespace Sys2Proof.Safety
open Sys2Proof.Machine

theorem exec_reflect {s : State} {n pl port vc : Nat} (hon : s.nodeOn n = true) (hp : State.portOf pl port = true) (hvc : vc < 8) :
    exec (.reflect n pl port vc) s = .next (s.within (s.reflectHead n pl port vc)) := by
  have h := atNode_of_on (f := fun s => if State.portOf pl port && vc < 8 then s.reflectHead n pl port vc else s) hon
  rw [if_pos (by simp [hp, hvc])] at h
  exact h

/-- Settles O46: by what becomes of the head packet, and what the reflector does with a request. -/
theorem closedOutputsReflect : Obligations.ClosedOutputsReflect := by
  unfold Obligations.ClosedOutputsReflect
  intro s n pl port vc o st f r _ hon hp hvc hhead hclosed hwhole pk q hcut
  have hexec := exec_reflect hon hp hvc
  rw [State.reflectHead_of_closed hhead hclosed hwhole hcut] at hexec
  obtain ⟨b, w, c, hpass⟩ := s.passHead_eq (inKey n pl port vc) (f :: r).length o
  rw [hpass] at hexec
  refine ⟨fun hreq hroom => ?_, fun hreq hfull => ?_, fun hother => ?_⟩
  · rw [if_pos hreq, if_neg (show ¬ 4 ≤ (s.reflQueue n).length from Nat.not_le.2 hroom)] at hexec
    obtain ⟨queue, discarded, count, frame⟩ := State.reflect_reflected { s with buf := b, owed := w, crw := c } n
      (if st = 3 then stDOMAIN_OFF else stROUTE) pk
    generalize State.reflect _ n pk _ = u at hexec queue discarded count frame
    have hbuild : u.build = s.build := (congrArg State.build frame :)
    rw [within_self s u (congrArg State.pending frame :) hbuild] at hexec
    exact ⟨u, _, hexec, queue, discarded, rfl, rfl, rfl, rfl, rfl, rfl, rfl, rfl, rfl, rfl, rfl, rfl, count,
      (congrArg State.arrivals frame :), (congrArg State.ram frame :)⟩
  · rw [if_pos hreq, if_pos (show 4 ≤ (s.reflQueue n).length from hfull), within_self s s rfl rfl] at hexec
    exact hexec
  · rw [if_neg (by rw [hother]; exact Bool.false_ne_true)] at hexec
    exact ⟨_, hexec, rfl, State.get_bump_same s _ _ _ (by decide), rfl, rfl⟩

end Sys2Proof.Safety
end

/-! ### Reserved flits in a router -/

section
namespace Sys2Proof.Machine.State

/-- A field of a node block stays when a global register changes (R8). -/
theorem get_set_glob (s : State) (n v : Nat) (f g : Fld) (hf : f.off < 0x2000000) :
    (s.set 0 f v).get (nodeBase n) g = s.get (nodeBase n) g := by
  rw [get, word_set _ _ _ _ _ (by rw [nodeBase]; omega), get]

/-- A report changes no field of a node block. -/
theorem get_report_node (s : State) (c src st d n : Nat) (g : Fld) : (s.report c src st d).get (nodeBase n) g = s.get (nodeBase n) g := by
  rw [get, word_report_node _ _ _ _ _ _ (by rw [nodeBase]; omega), get]

/-- The plan's status is no field of a node block. -/
theorem get_planSt_node (s : State) (st n : Nat) (g : Fld) : (s.planSt st).get (nodeBase n) g = s.get (nodeBase n) g := by
  rw [planSt]
  split
  · exact get_set_glob s n st F.LTH_STAT_PSTAT g (by decide)
  · rfl

/-- A reserved flit that is discarded is counted at its node (R159). -/
theorem get_lateDrop (s : State) (n port st : Nat) :
    (s.lateDrop n port st).get (nodeBase n) F.LTH_NDISC_COUNT = min (s.get (nodeBase n) F.LTH_NDISC_COUNT + 1) (2 ^ 32 - 1) := by
  rw [lateDrop, get_planSt_node, get_report_node, bump, get_set_glob _ _ _ _ _ (by decide), get_bump_same _ _ _ _ (by decide)]
  rfl

/-- The state without the front flit of a link, of whose flits `r` are left. -/
def tookWire (s : State) (link : Nat) (r : List Flit) : State := { s with wires := mapSet s.wires [] link r }

/-- The outputs whose open window of the plan names this input at a launch cycle (R157). -/
def namedOuts (s : State) (n port l : Nat) : List Nat :=
  (upFrom 0 5).filter (fun o => (s.windows n o).any (fun w => w.2 == port && w.1 ≤ l && l < w.1 + 128))

section Switched
variable {s : State} {n port : Nat} {f : Flit} {r : List Flit}

/-- A failed input discards a reserved flit (R106). -/
theorem switchFlit_of_failed (hwire : (mapGet s.wires (feed s.build n pQB port)).getD [] = f :: r) (hlt : f.lt = true)
    (hfail : s.failed false n pQB port = true) (upset : BitVec 544) :
    s.switchFlit n port upset = (s.tookWire (feed s.build n pQB port) r).bump 0 F.LTH_DISC_CNT_COUNT 1 := by
  simp only [switchFlit, hwire, hlt, hfail, Bool.not_true, Bool.false_eq_true, if_false, if_true, tookWire]

/-- What becomes of a reserved flit that arrives as it was sent. -/
theorem switchFlit_of_clean {d : Nat} (hwire : (mapGet s.wires (feed s.build n pQB port)).getD [] = f :: r) (hlt : f.lt = true)
    (hfail : s.failed false n pQB port = false) (hclean : decodeWide (encodeWide f.data f.bad) = .clean d) :
    let l := s.lathHop n port f.lat
    let u := (s.tookWire (feed s.build n pQB port) r).noteRun (2 * feed s.build n pQB port) l (l + 1)
    let outs := if s.lathe.active && !s.lathe.past then u.namedOuts n port l else []
    s.switchFlit n port 0 = if outs.isEmpty || (s.latheHeld && s.lathe.susp + 512 < s.cyc) then u.lateDrop n port stINTERNAL
      else outs.foldl (lathCopy n port { f with data := d, bad := false, lat := l }) u := by
  have hsent : Nat.xor (encodeWide f.data f.bad) (0 : BitVec 544).toNat = encodeWide f.data f.bad := by
    rw [show (0 : BitVec 544).toNat = 0 from BitVec.toNat_zero]
    exact Nat.xor_zero _
  simp only [switchFlit, hwire, hlt, hfail, hsent, hclean, Bool.not_true, Bool.false_eq_true, if_false]
  rfl

end Switched

end Sys2Proof.Machine.State

namespace Sys2Proof.Safety
open Sys2Proof.Machine

theorem exec_latheFlitSwitch {s : State} {n port : Nat} (upset : BitVec 544) (hon : s.nodeOn n = true) (hp : port < 5) :
    exec (.latheFlitSwitch n port upset) s = .next (s.within (s.switchFlit n port upset)) := by
  have h := atNode_of_on (f := fun s => if port < 5 then s.switchFlit n port upset else s) hon
  rw [if_pos hp] at h
  exact h

/-- Settles O48: by what becomes of a reserved flit that arrives as it was sent, and of one at a failed input. -/
theorem latheFlitsFollowThePlan : Obligations.LatheFlitsFollowThePlan := by
  unfold Obligations.LatheFlitsFollowThePlan
  intro s n port f r d _ hon hp hwire hlt hclean k l v u outs
  have hexec := exec_latheFlitSwitch 0 hon hp
  refine ⟨fun hfail hactive hpast hheld houts => ?_, fun hfail hnone => ?_, fun upset hfail => ?_⟩
  · rw [State.switchFlit_of_clean hwire hlt hfail hclean, hactive, hpast] at hexec
    have hgo : ¬ (outs.isEmpty || (s.latheHeld && s.lathe.susp + 512 < s.cyc)) = true := by
      simp only [Bool.or_eq_true, Bool.and_eq_true, decide_eq_true_eq, List.isEmpty_iff, not_or, not_and, Nat.not_lt]
      exact ⟨houts, fun h => hheld.resolve_left (by rw [h]; decide)⟩
    exact hexec.trans (congrArg (fun t => Host.Outcome.next (s.within t)) (if_neg hgo))
  · rw [State.switchFlit_of_clean hwire hlt hfail hclean] at hexec
    have hstop : ((if s.lathe.active && !s.lathe.past then outs else []).isEmpty ||
        (s.latheHeld && s.lathe.susp + 512 < s.cyc)) = true := by
      obtain hidle | hpast | hempty | ⟨hheld, hlate⟩ := hnone
      · simp [hidle]
      · simp [hpast]
      · simp [hempty]
      · simp [hheld, hlate]
    exact ⟨hexec.trans (congrArg (fun t => Host.Outcome.next (s.within t)) (if_pos hstop)), State.get_lateDrop u n port stINTERNAL⟩
  · rw [exec_latheFlitSwitch upset hon hp, State.switchFlit_of_failed hwire hlt hfail upset]
    rfl

end Sys2Proof.Safety
end

/-! ### The throttle levels of an NI and the governor's window -/

section
namespace Sys2Proof.Machine.State

/-! Levels and buckets of an NI. -/

theorem bucket_setBucket (s : State) (ep c c' : Nat) (b : Bucket) :
    (s.setBucket ep c b).bucket ep c' = if c' = c then b else s.bucket ep c' := by
  refine (mapGet_mapSet s.buckets ⟨0, 0⟩ b (4 * ep + c) (4 * ep + c')).trans ?_
  by_cases hc : c' = c
  · simp [hc]
  · rw [if_neg (by omega), if_neg hc]
    rfl

theorem thrLevel_setThrLevel_same (s : State) (ep c v : Nat) (h : c < 4) : (s.setThrLevel ep c v).thrLevel ep c = v % 2 ^ 3 := by
  rw [thrLevel, setThrLevel, word_setWord, if_pos rfl, wordField_setWordField_same _ _ _ _ (by omega)]

theorem thrLevel_setThrLevel_apart (s : State) (ep c c' v : Nat) (h : c' ≠ c) :
    (s.setThrLevel ep c v).thrLevel ep c' = s.thrLevel ep c' := by
  rw [thrLevel, setThrLevel, word_setWord, if_pos rfl, wordField_setWordField_apart _ _ _ _ _ _ (by omega), thrLevel]

/-- A level has three bits. -/
theorem thrLevel_lt (s : State) (ep c : Nat) : s.thrLevel ep c < 8 := Nat.mod_lt _ (by decide)

@[simp] theorem thrLevel_setBucket (s : State) (ep c ep' c' : Nat) (b : Bucket) :
    (s.setBucket ep c b).thrLevel ep' c' = s.thrLevel ep' c' := rfl

/-- `t` is `s` but for levels and buckets of classes of one NI that `p` names. -/
structure Throttled (ep : Nat) (p : Nat → Prop) (s t : State) : Prop where
  frame : { t with regs := s.regs, buckets := s.buckets } = s
  word : ∀ a, a ≠ niBase ep + 0x1010 → t.word a = s.word a
  level : ∀ c, ¬ p c → t.thrLevel ep c = s.thrLevel ep c
  bucket : ∀ c, ¬ p c → t.bucket ep c = s.bucket ep c

namespace Throttled
variable {ep : Nat} {p q : Nat → Prop} {s t u : State}

theorem refl (s : State) : Throttled ep p s s := ⟨rfl, fun _ _ => rfl, fun _ _ => rfl, fun _ _ => rfl⟩

theorem trans (h : Throttled ep p s t) (h' : Throttled ep p t u) : Throttled ep p s u where
  frame := (congrArg (fun r : State => { r with regs := s.regs, buckets := s.buckets }) h'.frame :).trans h.frame
  word a ha := (h'.word a ha).trans (h.word a ha)
  level c hp := (h'.level c hp).trans (h.level c hp)
  bucket c hp := (h'.bucket c hp).trans (h.bucket c hp)

theorem mono (h : Throttled ep p s t) (hpq : ∀ c, p c → q c) : Throttled ep q s t :=
  ⟨h.frame, h.word, fun c hq => h.level c fun hp => hq (hpq c hp), fun c hq => h.bucket c fun hp => hq (hpq c hp)⟩

theorem get (h : Throttled ep p s t) (f : Fld) (hf : f.off ≠ 0x1010) : t.get (niBase ep) f = s.get (niBase ep) f := by
  rw [State.get, h.word _ (by omega), State.get]

/-- What waits to be sent does not rest on levels or buckets. -/
theorem backlog (h : Throttled ep p s t) (c : Nat) : t.backlog ep c = s.backlog ep c := by
  have hreqs : t.reqs = s.reqs := (congrArg State.reqs h.frame :)
  have hrelayq : t.relayq = s.relayq := (congrArg State.relayq h.frame :)
  rw [State.backlog, State.backlog, hreqs, hrelayq]

end Throttled

theorem setThrLevel_eq (s : State) (ep c v : Nat) : ∃ r, s.setThrLevel ep c v = { s with regs := r } := by
  unfold setThrLevel setWord
  exact ⟨_, rfl⟩

theorem setThrLevel_throttled (s : State) (ep c v : Nat) : Throttled ep (· = c) s (s.setThrLevel ep c v) := by
  obtain ⟨r, h⟩ := setThrLevel_eq s ep c v
  refine ⟨by rw [h], fun a ha => ?_, fun c' hp => thrLevel_setThrLevel_apart s ep c c' v hp, fun c' _ => ?_⟩
  · rw [setThrLevel, word_setWord, if_neg ha]
  · rw [h]
    rfl

theorem setBucket_throttled (s : State) (ep c : Nat) (b : Bucket) : Throttled ep (· = c) s (s.setBucket ep c b) :=
  ⟨rfl, fun _ _ => rfl, fun _ _ => rfl, fun c' hp => (bucket_setBucket s ep c c' b).trans (if_neg hp)⟩

/-- The level of a class after a notch edge (R148, R149). -/
def nextThrLevel (s : State) (ep cls : Nat) : Nat :=
  let b := s.backlog ep cls
  let l := s.thrLevel ep cls
  if cls = 3 ∧ s.flag (niBase ep) F.NI_THR_GLINT_EN = false then 0
  else if s.get (niBase ep) F.NI_THR_HIGH * 8 < b then (if l < 6 then l + 1 else l)
  else if b ≤ s.get (niBase ep) F.NI_THR_LOW * 8 ∧ 0 < l ∧ s.get (niBase ep) F.NI_THR_RECOVER ≤ (s.bucket ep cls).run + 1 then l - 1
  else l

/-- The update of other classes leaves what the next level of a class rests on. -/
theorem Throttled.nextThrLevel {ep cls : Nat} {p : Nat → Prop} {s t : State} (h : Throttled ep p s t) (hp : ¬ p cls) :
    t.nextThrLevel ep cls = s.nextThrLevel ep cls := by
  have hglint : t.flag (niBase ep) F.NI_THR_GLINT_EN = s.flag (niBase ep) F.NI_THR_GLINT_EN := by
    rw [State.flag, h.get F.NI_THR_GLINT_EN (by decide), State.flag]
  unfold State.nextThrLevel
  rw [hglint, h.backlog, h.level cls hp, h.bucket cls hp, h.get F.NI_THR_HIGH (by decide), h.get F.NI_THR_LOW (by decide),
    h.get F.NI_THR_RECOVER (by decide)]

/-- The update of a class at a notch edge gives it a level and a bucket. -/
theorem throttleCls_throttled (s : State) (ep cls : Nat) : Throttled ep (· = cls) s (throttleCls ep s cls) := by
  have hboth : ∀ (v : Nat) (b : Bucket), Throttled ep (· = cls) s ((s.setThrLevel ep cls v).setBucket ep cls b) := fun v b =>
    (setThrLevel_throttled s ep cls v).trans (setBucket_throttled _ ep cls b)
  have hbucket : ∀ b, Throttled ep (· = cls) s (s.setBucket ep cls b) := fun b => setBucket_throttled s ep cls b
  unfold throttleCls
  split
  next hglint =>
    obtain rfl : cls = 3 := by simp at hglint; exact hglint.1
    exact hboth 0 ⟨0, 0⟩
  next =>
    dsimp only
    split
    · split
      · exact hboth _ _
      · exact hbucket _
    · split
      · exact hbucket _
      · split
        · exact hboth _ _
        · split
          · exact hbucket _
          · exact hbucket _

/-- The level that it gives (R148, R149). -/
theorem thrLevel_throttleCls (s : State) (ep cls : Nat) (h : cls < 4) (hep : ep ≠ 0xF7E) :
    (throttleCls ep s cls).thrLevel ep cls = s.nextThrLevel ep cls := by
  have hl := thrLevel_lt s ep cls
  have hset : ∀ (v : Nat) (b : Bucket), v < 8 → ((s.setThrLevel ep cls v).setBucket ep cls b).thrLevel ep cls = v := fun v b hv => 
    (thrLevel_setBucket ..).trans ((thrLevel_setThrLevel_same s ep cls v h).trans (Nat.mod_eq_of_lt hv))
  have hglint : (cls == 3 && !s.throttled ep 3) = true ↔ cls = 3 ∧ s.flag (niBase ep) F.NI_THR_GLINT_EN = false := by
    simp [throttled, hep]
  unfold throttleCls nextThrLevel
  by_cases hg : cls = 3 ∧ s.flag (niBase ep) F.NI_THR_GLINT_EN = false
  · rw [if_pos (hglint.2 hg), if_pos hg]
    obtain ⟨rfl, -⟩ := hg
    exact hset 0 _ (by decide)
  · rw [if_neg (mt hglint.1 hg), if_neg hg]
    dsimp only
    by_cases hhigh : s.get (niBase ep) F.NI_THR_HIGH * 8 < s.backlog ep cls
    · rw [if_pos hhigh, if_pos hhigh]
      split
      · exact hset _ _ (by omega)
      · rfl
    · rw [if_neg hhigh, if_neg hhigh]
      by_cases hlow : s.backlog ep cls ≤ s.get (niBase ep) F.NI_THR_LOW * 8
      · simp only [hlow, decide_true, Bool.not_true, Bool.false_eq_true, if_false, true_and, Bool.and_eq_true, decide_eq_true_eq]
        split
        · exact hset _ _ (by omega)
        · split <;> rfl
      · simp [hlow]

/-- The update of several classes, one after another. -/
theorem throttle_foldl (s : State) (ep : Nat) (l : List Nat) :
    Throttled ep (· ∈ l) s (l.foldl (throttleCls ep) s) := by
  induction l generalizing s with
  | nil => exact .refl s
  | cons c l ih =>
    have hhead := (throttleCls_throttled s ep c).mono (q := (· ∈ c :: l)) fun x hx => hx ▸ List.mem_cons_self
    exact hhead.trans ((ih _).mono fun x hx => List.mem_cons_of_mem c hx)

theorem thrLevel_throttle_foldl (s : State) (ep cls : Nat) (hep : ep ≠ 0xF7E) (l : List Nat) (hl : ∀ c ∈ l, c < 4) (hnd : l.Nodup)
    (hmem : cls ∈ l) : (l.foldl (throttleCls ep) s).thrLevel ep cls = s.nextThrLevel ep cls := by
  induction l generalizing s with
  | nil => exact absurd hmem (by simp)
  | cons c l ih =>
    have hc : c < 4 := hl c List.mem_cons_self
    have hrest : ∀ x ∈ l, x < 4 := fun x hx => hl x (List.mem_cons_of_mem c hx)
    obtain ⟨hnot, hnd⟩ := List.nodup_cons.1 hnd
    obtain rfl | hin := List.mem_cons.1 hmem
    · exact ((throttle_foldl _ ep l).level cls hnot).trans (thrLevel_throttleCls s ep cls hc hep)
    · have hne : cls ≠ c := fun h => hnot (h ▸ hin)
      exact (ih _ hrest hnd hin).trans ((throttleCls_throttled s ep c).nextThrLevel hne)

/-! The governor's window. -/

/-- Where the East units owe no snapshot copy, or the Spindle paces the clock, notches that pass move the clocks and the token
buckets alone. -/
theorem passTo_of_no_snap (s : State) (d : Nat) (h : s.running = true ∨ s.snapDue = none) : ∃ y n b p,
    s.passTo d = { s with cyc := y, tmo := max s.tmo d, sub := n, buckets := b, spn := { s.spn with phase := p } } := by
  unfold passTo
  split
  · exact ⟨_, _, _, _, rfl⟩
  next hrun =>
    split
    next hd => exact ⟨s.cyc, s.sub, s.buckets, s.spn.phase, by rw [max_eq_left hd]⟩
    next hd =>
      obtain ⟨_, _, _, _, hpass⟩ := s.passCyc_of_no_snap (s.cyc + (8 * (d - s.tmo) - s.sub)) (h.resolve_left hrun)
      exact ⟨_, _, _, _, by rw [hpass, max_eq_right (Nat.le_of_not_le hd)]⟩

/-- A budget of seven bits stays one (R151). -/
theorem govBudget_lt (b p ceil : Nat) (h : b < 128) : govBudget b p ceil < 128 := by
  unfold govBudget
  split
  next hover =>
    have hle : 16 * b * ceil / p ≤ b := Nat.div_le_of_le_mul (by nlinarith)
    omega
  next => split <;> omega

end Sys2Proof.Machine.State

namespace Sys2Proof.Safety
open Sys2Proof.Machine

/-- The budget of the window that begins (R151). -/
def nextBudget (s : State) : Nat :=
  if s.flag 0 F.GOV_CTL_EN then State.govBudget (s.get 0 F.GOV_STAT_B) (s.govEstimate s.gov.wide s.gov.narrow s.gov.win)
    (s.get 0 F.GOV_CEIL_CEIL) else 64

theorem nextBudget_lt (s : State) : nextBudget s < 128 := by
  unfold nextBudget
  split
  · exact State.govBudget_lt _ _ _ (Nat.mod_lt _ (by decide))
  · decide

/-- The state in which a window's end has shown the estimate and the budget, and the next window has begun (R150-R152). -/
def govShown (s : State) : State :=
  (State.set { s.passTo (s.gov.at' + s.gov.win) with gov := ⟨0, 0, s.gov.at' + s.gov.win, s.get 0 F.GOV_CTL_WIN⟩ } 0 F.GOV_STAT_PEST
    (min (s.govEstimate s.gov.wide s.gov.narrow s.gov.win) 65535)).set 0 F.GOV_STAT_B (nextBudget s)

/-- The ceiling is passed although the budget is at its least (R151). -/
def govOver (s : State) : Bool :=
  s.flag 0 F.GOV_CTL_EN && 16 * s.get 0 F.GOV_CEIL_CEIL < s.govEstimate s.gov.wide s.gov.narrow s.gov.win && s.get 0 F.GOV_STAT_B == 1

/-- An event of the governor, where it occurs. -/
def govEvtIf (c : Bool) (s : State) (f : Fld) : State := if c then s.govEvt f else s

/-- The end of a window shows estimate and budget, and then reports what has been passed. -/
theorem govWindowEnd_eq (s : State) : s.govWindowEnd =
    govEvtIf (s.get 0 F.GOV_STAT_B == 64 && nextBudget s < 64) (govEvtIf (govOver s) (govShown s) F.GOV_EVT_OVER) F.GOV_EVT_LIMITING := by
  have hget : ∀ f, (s.passTo (s.gov.at' + s.gov.win)).get 0 f = s.get 0 f := fun f => (passTo_step s _).get f (by simp)
  unfold State.govWindowEnd State.govEstimate State.flag
  simp only [hget]
  rfl

theorem govEvtIf_step (c : Bool) (s : State) (f : Fld) : SpindleStep (f :: reportFlds) s (govEvtIf c s f) := by
  unfold govEvtIf
  split
  · exact errBit_step ..
  · exact .refl s

theorem govEvtIf_eq (c : Bool) (s : State) (f : Fld) : ∃ r l, govEvtIf c s f = { s with regs := r, reports := l } := by
  unfold govEvtIf
  split
  · exact State.errBit_eq ..
  · exact ⟨s.regs, s.reports, rfl⟩

/-- The bit of an event of the governor that occurs is set. -/
theorem flag_govEvtIf {c : Bool} (s : State) {f : Fld} (hc : c = true) (hf : f.lo + f.w ≤ 32) (hw : f.w = 1)
    (hrep : ∀ g ∈ reportFlds, g.apart f = true) : (govEvtIf c s f).flag 0 f = true := by
  subst hc
  have hset : (s.set 0 f 1).get 0 f = 1 := by rw [State.get_set_same _ _ _ _ hf, hw]; rfl
  have hkeep : (s.govEvt f).get 0 f = (s.set 0 f 1).get 0 f := (report_step ..).get f hrep
  rw [State.flag, govEvtIf, if_pos rfl, hkeep, hset]
  rfl

/-- GOV_WINDOW_END where passing time takes no snapshot copies of the East units (R150-R152). -/
theorem exec_govWindowEnd {s : State} (hs : s.stopped = false) (hsnap : s.running = true ∨ s.snapDue = none) :
    let p := s.govEstimate s.gov.wide s.gov.narrow s.gov.win
    ∃ t, exec .govWindowEnd s = .next t ∧ t.get 0 F.GOV_STAT_PEST = min p 65535 ∧ t.get 0 F.GOV_STAT_B = nextBudget s ∧
      t.gov = ⟨0, 0, s.gov.at' + s.gov.win, s.get 0 F.GOV_CTL_WIN⟩ ∧ t.tmo = max s.tmo (s.gov.at' + s.gov.win) ∧
      (govOver s = true → t.flag 0 F.GOV_EVT_OVER = true) ∧
      (s.get 0 F.GOV_STAT_B = 64 → nextBudget s < 64 → t.flag 0 F.GOV_EVT_LIMITING = true) ∧
      { clocksOf t s with gov := s.gov, regs := s.regs, reports := s.reports } = s := by
  intro p
  have heq := govWindowEnd_eq s
  have hover := govEvtIf_step (govOver s) (govShown s) F.GOV_EVT_OVER
  have hlim := govEvtIf_step (s.get 0 F.GOV_STAT_B == 64 && nextBudget s < 64) (govEvtIf (govOver s) (govShown s) F.GOV_EVT_OVER)
    F.GOV_EVT_LIMITING
  obtain ⟨r₁, l₁, hframe₁⟩ := govEvtIf_eq (govOver s) (govShown s) F.GOV_EVT_OVER
  obtain ⟨r₂, l₂, hframe₂⟩ := govEvtIf_eq (s.get 0 F.GOV_STAT_B == 64 && nextBudget s < 64)
    (govEvtIf (govOver s) (govShown s) F.GOV_EVT_OVER) F.GOV_EVT_LIMITING
  obtain ⟨y, n, b, q, hpass⟩ := State.passTo_of_no_snap s (s.gov.at' + s.gov.win) hsnap
  have hshown : s.govWindowEnd = { s with
      cyc := y, tmo := max s.tmo (s.gov.at' + s.gov.win), sub := n, buckets := b, spn := { s.spn with phase := q }
      gov := ⟨0, 0, s.gov.at' + s.gov.win, s.get 0 F.GOV_CTL_WIN⟩, regs := r₂, reports := l₂ } := by
    rw [heq, hframe₂, hframe₁, govShown, hpass]
    rfl
  have hexec : exec .govWindowEnd s = .next (s.within s.govWindowEnd) := act_of_on (f := State.govWindowEnd) (by rw [hs]; rfl)
  rw [within_self s s.govWindowEnd (by rw [hshown]) (by rw [hshown])] at hexec
  refine ⟨_, hexec, ?_, ?_, by rw [hshown], by rw [hshown], fun h => ?_, fun hb hlt => ?_, by rw [hshown]; rfl⟩
  · rw [heq, hlim.get _ (by decide), hover.get _ (by decide), govShown, State.get_set_apart _ _ _ _ _ (by decide),
      State.get_set_same _ _ _ _ (by decide)]
    exact Nat.mod_eq_of_lt (show min p 65535 < 65536 by omega)
  · rw [heq, hlim.get _ (by decide), hover.get _ (by decide), govShown, State.get_set_same _ _ _ _ (by decide)]
    exact Nat.mod_eq_of_lt (nextBudget_lt s)
  · rw [heq, hlim.flag _ (by decide)]
    exact flag_govEvtIf _ h (by decide) rfl (by decide)
  · rw [heq]
    exact flag_govEvtIf _ (by simp [hb, hlt]) (by decide) rfl (by decide)

/-- An effect at a built NI that runs, and what follows from it. -/
theorem atNi_of_on {s : State} {ep : Nat} {f : State → State} (hb : s.build.epBuilt ep = true) (hon : s.epOn ep = true)
    (hs : s.stopped = false) : atNi ep s f = .next (s.within (f s).settle) :=
  act_of_on (by rw [hb, hon, hs]; rfl)

/-- The same at the NI of a node or port block. -/
theorem atBlockNi_of_on {s : State} {ep : Nat} {f : State → State} (hep : niEp s.build ep = true) (hon : s.epOn ep = true)
    (hs : s.stopped = false) : atBlockNi ep s f = .next (s.within (f s).settle) := by
  obtain ⟨hne, hb⟩ := Bool.and_eq_true_iff.1 hep
  rw [atBlockNi, if_neg (by simpa using hne), atNi_of_on hb hon hs]

/-- THROTTLE_UPDATE gives each class its next level, and changes nothing else but NI_THR_STAT of that NI and the buckets (R148, R149). -/
theorem exec_throttleUpdate {s : State} {ep cls : Nat} (hep : niEp s.build ep = true) (hon : s.epOn ep = true)
    (hs : s.stopped = false) (hc : cls < 4) :
    ∃ u : State, exec (.throttleUpdate ep) s = .next (s.within u.settle) ∧ u.thrLevel ep cls = s.nextThrLevel ep cls ∧
      (∀ a, a ≠ niBase ep + 0x1010 → u.word a = s.word a) ∧ { u with regs := s.regs, buckets := s.buckets } = s := by
  have hne : ep ≠ 0xF7E := by simpa using (Bool.and_eq_true_iff.1 hep).1
  have hall : ∀ c ∈ upFrom 0 4, c < 4 := by decide
  have hthr := State.throttle_foldl s ep (upFrom 0 4)
  exact ⟨_, atBlockNi_of_on hep hon hs, State.thrLevel_throttle_foldl s ep cls hne _ hall (by decide) ((mem_upFrom ..).2 (by omega)),
    hthr.word, hthr.frame⟩

/-- A block out of RUN just after a snapshot: the East units owe their copies, which they take in the next cycle (R40, R424). -/
def snapshotOwed : State := State.snapshot { State.reset with boot := 0 }

/-- The snapshot copy that the East units owe in the state of an outcome. -/
def dueOf : Host.Outcome State Fault Refusal → Option Nat
  | .next t => t.snapDue
  | _ => none

/-- The window's end comes after that cycle, so that the copies have been taken. -/
theorem snapshotOwed_taken : snapshotOwed.snapDue = some 1 ∧ dueOf (exec .govWindowEnd snapshotOwed) = none := by decide +kernel

/-- Refutes O49: its states may owe a snapshot copy of the East units (R40, R424), which is taken while the clock runs on to the window's
end, so that more changes than the statement lists. What remains true is stated by `exec_throttleUpdate` and `exec_govWindowEnd`. -/
theorem not_throttleAndGovernor : ¬ Obligations.ThrottleAndGovernor := by
  unfold Obligations.ThrottleAndGovernor
  rintro ⟨-, hgov⟩
  obtain ⟨t, ht, -, -, -, -, -, -, -, -, -, hframe⟩ := hgov snapshotOwed rfl
  obtain ⟨howed, htaken⟩ := snapshotOwed_taken
  have hnone : t.snapDue = none := by simpa [dueOf, ht] using htaken
  have hstays : t.snapDue = snapshotOwed.snapDue := (congrArg State.snapDue hframe :)
  exact absurd (hnone.symm.trans (hstays.trans howed)) (by decide)

end Sys2Proof.Safety
end

/-! ### The sending side of a network interface -/

section
namespace Sys2Proof.Machine.State

variable {s s1 : State} {ep : Nat} {a : Arrival}

/-! Launching (R82, R148). -/

/-- A packet that has begun to launch goes on before any other does (R82, R148). -/
theorem niLaunch_of_segment {q : Req} {pk : Pkt} (h : s.reqs.findSome?
      (fun q => if q.ep == ep && 0 < q.left then (s.nextSeg q).map (fun pk => (q, pk)) else none) = some (q, pk)) :
    s.niLaunch ep = s.launchSeg q pk := by
  rw [niLaunch, h]

/-- With no packet halfway the first formed one that may launch does (R148). -/
theorem niLaunch_of_formed {q : Req} (hleft : ∀ x ∈ s.reqs, x.ep = ep → x.left = 0)
    (h : s.reqs.find? (fun q => q.ep == ep && s.mayLaunch q) = some q) : s.niLaunch ep = s.launch q := by
  have hnone : s.reqs.findSome? (fun q => if q.ep == ep && 0 < q.left then (s.nextSeg q).map (fun pk => (q, pk)) else none) = none := by
    refine List.findSome?_eq_none_iff.2 fun x hx => if_neg fun hc => ?_
    simp only [Bool.and_eq_true, beq_iff_eq, decide_eq_true_eq] at hc
    exact absurd (hleft x hx hc.1) (by omega)
  rw [niLaunch, hnone, h]

/-! Replies (R145, R146, R226, R329). -/

/-- A reply that names an outstanding packet is its answer (R145). -/
theorem replyTaken_of_match {q : Req} {pk : Pkt} (h : s.matchReply ep pk.hdr.tag = some q) : s.replyTaken ep pk = s.takeReply q pk := by
  rw [replyTaken, h]

/-- A reply that names none is late, and counted (R145). -/
theorem replyTaken_of_late {pk : Pkt} (h : s.matchReply ep pk.hdr.tag = none) (hep : ep ≠ 0xF7E) :
    s.replyTaken ep pk = (s.bump (niBase ep) F.NI_LATE_CNT_COUNT 1).niErr ep F.NI_ERR_LATE stTIMEOUT 0 := by
  rw [replyTaken, h]
  exact if_neg (by simpa using hep)

theorem replyRow_of_taken {ty : Nat} {p : Arrival → Bool} (h : s.takeArrival ep (fun x => s.replyHere ep ty x && p x) = some (a, s1)) :
    s.replyRow ep ty p = s1.replyTaken ep a.pkt := by
  rw [replyRow, h]

/-- A NACK on a reduce VC is counted (R226). -/
theorem nackRow_of_reduce (h : s.takeArrival ep (fun x => s.replyHere ep tNACK x && classOf x.pkt.hdr.vcn != 1) = some (a, s1))
    (hep : ep ≠ 0xF7E) (hred : classOf a.pkt.hdr.vcn = 2) : s.nackRow ep = s1.reduceNack ep a.pkt := by
  simp only [nackRow, h, beq_false_of_ne hep, hred, Bool.false_eq_true, if_false, beq_self_eq_true, if_true]

/-- Any other NACK fails the packet that it names, for now or finally (R146, R147). -/
theorem nackRow_of_match {q : Req} (h : s.takeArrival ep (fun x => s.replyHere ep tNACK x && classOf x.pkt.hdr.vcn != 1) = some (a, s1))
    (hep : ep ≠ 0xF7E) (hred : classOf a.pkt.hdr.vcn ≠ 2) (hq : s1.matchReply ep a.pkt.hdr.tag = some q) :
    s.nackRow ep = s1.retryOrFail q false (a.pkt.hdr.opc % 16) := by
  have htype : (a.pkt.hdr.ptype == tNACK) = true := by
    obtain ⟨-, hp, -⟩ := takeArrival_spec s s1 ep _ a h
    simp only [replyHere, Bool.and_eq_true] at hp
    obtain ⟨⟨⟨⟨hty, -⟩, -⟩, -⟩, -⟩ := hp
    exact hty
  simp only [nackRow, h, beq_false_of_ne hep, beq_false_of_ne hred, Bool.false_eq_true, if_false, replyTaken_of_match hq, takeReply, htype,
    if_true]

/-- A CREDIT that is an update brings its send queue a HEAD (R329). -/
theorem takeCredit'_of_update {w : Nat} {pk : Pkt} (hupd : bitAt pk.hdr.addr 33 = true)
    (hw : s.sqOf ep pk.hdr.ctx pk.hdr.chan = some w) : s.takeCredit' ep pk = s.takeCreditHead ep w pk := by
  simp only [takeCredit', hupd, if_true, hw]

/-- Any other CREDIT answers the packet that it names (R328, R329). -/
theorem takeCredit'_of_answer {q : Req} {pk : Pkt} (hupd : bitAt pk.hdr.addr 33 = false)
    (hw : s.sqOf ep pk.hdr.ctx pk.hdr.chan = none) (hq : s.matchReply ep pk.hdr.tag = some q) :
    s.takeCredit' ep pk = s.takeReply q pk := by
  simp only [takeCredit', hupd, Bool.false_eq_true, if_false, hw, hq]

/-! Timeouts and retries (R146, R147). -/

theorem reqTimeout_of_flying {i at' : Nat} {q : Req} (h : s.outAt ep i = some q) (hst : q.stage = .flying at') :
    s.reqTimeout ep i = (s.passTo (at' + s.ctxTmo ep q.ctx + 1)).retryOrFail q true stTIMEOUT := by
  simp only [reqTimeout, h, hst]

theorem reqRetry_of_backoff {i at' : Nat} {q : Req} (h : s.outAt ep i = some q) (hst : q.stage = .backoff at') :
    s.reqRetry ep i = (s.passTo (at' + 64 * 2 ^ (q.tries - 1) + 1)).resend q := by
  simp only [reqRetry, h, hst, retryDue]

/-! Staging a launch (R167). -/

/-- What a launch that can be staged reads: its stream is valid, and the bytes follow those sent and those staged. -/
theorem stageable_spec {k b i start n : Nat} (h : s.stageable ep k b = some (i, start, n)) :
    i = (s.launchEnt ep b k).2.2.2.1 ∧ start = s.sentAhead ep b i + s.stagedBytes ep b i ∧
    n = (s.launchPlan ep b k start).foldl (· + ·) 0 ∧ s.streamV ep b i = true ∧ 0 < n := by
  unfold stageable at h
  extract_lets i' start' n' at h
  split at h
  next hc =>
    simp only [Bool.and_eq_true, bne_iff_ne] at hc
    obtain ⟨⟨⟨-, hv⟩, hn⟩, -⟩ := hc
    simp only [Option.some.injEq, Prod.mk.injEq] at h
    obtain ⟨rfl, rfl, rfl⟩ := h
    exact ⟨rfl, rfl, rfl, hv, Nat.pos_of_ne_zero hn⟩
  next => cases h

/-- An NI that has room for one more staged launch reads its bytes ahead. -/
theorem stageLaunch_of_room {k b i start n : Nat} (hk : k < 96) (hb : s.stageBank ep k = some b)
    (h : s.stageable ep k b = some (i, start, n))
    (hroom : (s.lathe.staged.filter (fun x => x.ep == ep)).length < if ep < 0xF00 then 2 else 8) :
    s.stageLaunch ep k = State.readMem
      { s with lathe := { s.lathe with staged := s.lathe.staged ++ [⟨ep, k, b, i, start, n, none⟩] } }
      (niMem s.build ep (s.streamFld ep b i 48 48 + start)).1 (niMem s.build ep (s.streamFld ep b i 48 48 + start)).2 n
      (.stage ep k b) := by
  simp only [stageLaunch, if_neg (Nat.not_le.2 hk), hb, if_neg (Nat.not_le.2 hroom), h]
  rfl

/-! Making a launch (R166, R167). -/

/-- The bank of the active plan. -/
def activeBank (s : State) : Nat := s.get 0 F.LTH_STAT_BANK

/-- The window of a launch of the active plan has come, and the launch has not been made in this turn. -/
structure LaunchDue (s : State) (ep k : Nat) : Prop where
  lt : k < 96
  active : s.lathe.active = true
  past : s.lathe.past = false
  valid : (s.launchEnt ep s.activeBank k).2.2.1 = true
  now : s.launchNow ep s.activeBank k = true
  fresh : s.lathe.fired.contains (128 * ep + k + 2 ^ 20 * (s.lathNotch / 2048)) = false

/-- The state in which a launch has been noted as made in this turn. -/
def launchNoted (s : State) (ep k : Nat) : State :=
  { s with lathe := { s.lathe with fired := s.lathe.fired ++ [128 * ep + k + 2 ^ 20 * (s.lathNotch / 2048)] } }

/-- The stream that a launch of the active plan takes its bytes from. -/
def launchStream (s : State) (ep k : Nat) : Nat := (s.launchEnt ep s.activeBank k).2.2.2.1

/-- The bytes of that stream that have gone out, or go out in the window in progress. -/
def launchSent (s : State) (ep k : Nat) : Nat := s.sentAhead ep s.activeBank (s.launchStream ep k)

/-- What has been staged for a launch of the active plan. -/
def ofLaunch (s : State) (ep k : Nat) (x : Staged) : Bool := x.ep == ep && x.k == k && x.bank == s.activeBank

/-- That stream is not valid, or all of it has gone out. -/
def streamOver (s : State) (ep k : Nat) : Bool :=
  !s.streamV ep s.activeBank (s.launchStream ep k) || s.streamLen ep s.activeBank (s.launchStream ep k) ≤ s.launchSent ep k

/-- That stream's context is enabled. -/
def launchCtxOn (s : State) (ep k : Nat) : Bool := s.ctxOn ep (s.streamFld ep s.activeBank (s.launchStream ep k) 1 4)

theorem LaunchDue.go {k : Nat} (h : LaunchDue s ep k) :
    ¬ (96 ≤ k || !s.lathe.active || s.lathe.past || !(s.launchEnt ep s.activeBank k).2.2.1 ||
      !s.launchNow ep s.activeBank k ||
      s.lathe.fired.contains (128 * ep + k + 2 ^ 20 * (s.lathNotch / 2048))) = true := by
  simp only [h.active, h.past, h.valid, h.now, h.fresh, decide_eq_false (Nat.not_le.2 h.lt), Bool.not_true, Bool.or_self,
    Bool.false_eq_true, not_false_iff]

section Launch
variable {k : Nat} (hdue : LaunchDue s ep k)
include hdue

/-- A stream that is not valid or complete gives a launch nothing to send. -/
theorem makeLaunch_of_over (hover : s.streamOver ep k = true) :
    s.makeLaunch ep k = s.launchNoted ep k :=
  (if_neg hdue.go).trans (if_pos hover)

variable (hover : s.streamOver ep k = false)
include hover

/-- A launch in a held plane is void (R173). -/
theorem makeLaunch_of_held (hheld : s.latheHeld = true) :
    s.makeLaunch ep k = (s.launchNoted ep k).voidLaunch ep s.activeBank (s.launchStream ep k) :=
  (if_neg hdue.go).trans ((if_neg (Bool.eq_false_iff.1 hover)).trans (if_pos hheld))

variable (hheld : s.latheHeld = false)
include hheld

/-- A launch of a context that is off is void, with plan status DENIED (R167). -/
theorem makeLaunch_of_ctxOff
    (hctx : s.launchCtxOn ep k = false) :
    s.makeLaunch ep k =
      ((s.launchNoted ep k).voidLaunch ep s.activeBank (s.launchStream ep k)).planSt stDENIED :=
  (if_neg hdue.go).trans ((if_neg (Bool.eq_false_iff.1 hover)).trans ((if_neg (Bool.eq_false_iff.1 hheld)).trans
    (if_pos (congrArg Bool.not hctx))))

variable (hctx : s.launchCtxOn ep k = true)
include hctx

/-- A launch whose bytes are not staged is void (R167). -/
theorem makeLaunch_of_unstaged (hnone : (s.lathe.staged.find? fun x => s.ofLaunch ep k x && x.start == s.launchSent ep k) = none) :
    s.makeLaunch ep k = (s.launchNoted ep k).voidLaunch ep s.activeBank (s.launchStream ep k) := by
  refine (if_neg hdue.go).trans ((if_neg (Bool.eq_false_iff.1 hover)).trans ((if_neg (Bool.eq_false_iff.1 hheld)).trans
    ((if_neg (Bool.eq_false_iff.1 (congrArg Bool.not hctx))).trans ?_)))
  dsimp only
  split
  next hsome => exact absurd (hnone.symm.trans hsome) (by simp)
  next => rfl

/-- A launch whose bytes are staged sends them as the packets of its plan (R166). -/
theorem makeLaunch_of_staged {x : Staged} {bytes : List Byte} {bad : List Nat}
    (hsome : (s.lathe.staged.find? fun x => s.ofLaunch ep k x && x.start == s.launchSent ep k) = some x) (hgot : x.got = some (bytes, bad)) :
    s.makeLaunch ep k = State.launchPkts { s.launchNoted ep k with lathe := { (s.launchNoted ep k).lathe with
        staged := delFirst (s.ofLaunch ep k) s.lathe.staged } }
      ep s.activeBank (s.launchStream ep k) (s.launchSent ep k)
      (128 * (s.launchEnt ep s.activeBank k).1 + (s.launchEnt ep s.activeBank k).2.1) bytes bad
      (s.launchPlan ep s.activeBank k (s.launchSent ep k)) := by
  obtain ⟨_, _, _, _, _, _, _⟩ := x
  obtain rfl := hgot
  refine (if_neg hdue.go).trans ((if_neg (Bool.eq_false_iff.1 hover)).trans ((if_neg (Bool.eq_false_iff.1 hheld)).trans
    ((if_neg (Bool.eq_false_iff.1 (congrArg Bool.not hctx))).trans ?_)))
  dsimp only
  split
  next h =>
    have heq := Option.some.inj (h.symm.trans hsome)
    simp only [Staged.mk.injEq, Option.some.injEq, Prod.mk.injEq] at heq
    obtain ⟨-, -, -, -, -, -, rfl, rfl⟩ := heq
    rfl
  next h => exact absurd hsome (h _ _ _ _ _ _ _ _)

end Launch

/-- Where no access is under way, a void launch drops what was staged for its stream, and is counted (R167). -/
theorem voidLaunch_of_no_txns {b i : Nat} (h : s.txns = []) : s.voidLaunch ep b i = State.bump { s with lathe := { s.lathe with
    staged := s.lathe.staged.filter fun x => !(x.ep == ep && x.bank == b && x.stream == i) } } 0 F.LTH_VOID_CNT_COUNT 1 := by
  rw [voidLaunch, dropStaged]
  congr 1
  by_cases hgone : (s.lathe.staged.filter (fun x => x.ep == ep && x.bank == b && x.stream == i)) = []
  · have hkeep : (s.lathe.staged.filter fun x => !(x.ep == ep && x.bank == b && x.stream == i)) = s.lathe.staged :=
      
      List.filter_eq_self.2 fun x hx => congrArg Bool.not (Bool.eq_false_iff.2 (List.filter_eq_nil_iff.1 hgone x hx))
    rw [hgone, hkeep]
    rfl
  · simp only [List.isEmpty_iff, hgone, if_false, h, List.map_nil]

end Sys2Proof.Machine.State

namespace Sys2Proof.Safety
open Sys2Proof.Machine

/-- A row at an NI that runs is its effect, and what follows from it. -/
theorem atNi_of_row {s t : State} {ep : Nat} {f : State → State} (hb : s.build.epBuilt ep = true) (hon : s.epOn ep = true)
    (hs : s.stopped = false) (hrow : f s = t) : atNi ep s f = .next (s.within t.settle) := by
  rw [atNi_of_on hb hon hs, hrow]

/-- A row at an NI of the Lathe plane that runs is its effect, and what follows from it. -/
theorem atLathe_of_row {s t : State} {ep : Nat} {f : State → State} (hl : latheEp s.build ep = true) (hon : s.epOn ep = true)
    (hs : s.stopped = false) (hrow : f s = t) : atLathe ep s f = .next (s.within t.settle) := by
  rw [← hrow]
  exact act_of_on (by rw [show s.lathNi ep = latheEp s.build ep from rfl, hl, hon, hs]; rfl)

section Reply
variable {s s1 : State} {ep : Nat} {a : Arrival} (hb : s.build.epBuilt ep = true) (hon : s.epOn ep = true) (hs : s.stopped = false)
include hb hon hs

/-- RDATA, and WACK at a node NI: the reply that has arrived is taken (R145, R146). -/
theorem exec_reply {c : Instr} {ty : Nat} (hc : (c = .rdata ep ∧ ty = tRDATA) ∨ (c = .wack ep ∧ ty = tWACK ∧ ep < 0xF00))
    (ha : s.takeArrival ep (fun x => s.replyHere ep ty x && true) = some (a, s1)) :
    exec c s = .next (s.within (s1.replyTaken ep a.pkt).settle) := by
  obtain ⟨rfl, rfl⟩ | ⟨rfl, rfl, hnode⟩ := hc
  · exact atNi_of_row (f := fun s => s.replyRow ep tRDATA fun _ => true) hb hon hs (State.replyRow_of_taken ha)
  · have hacks : ∀ x : Arrival, (!(decide (0xF00 ≤ ep) && isE2eAck x.pkt.hdr)) = true := fun x => by
      simp [show ¬ 0xF00 ≤ ep by omega]
    exact atNi_of_row (f := fun s => s.replyRow ep tWACK fun a => !(0xF00 ≤ ep && isE2eAck a.pkt.hdr)) hb hon hs
      (State.replyRow_of_taken (by simpa only [hacks] using ha))

/-- CREDIT: the one that has arrived is taken (R329). -/
theorem exec_credit (ha : s.takeArrival ep (s.replyHere ep tCREDIT) = some (a, s1)) :
    exec (.credit ep) s = .next (s.within (s1.takeCredit' ep a.pkt).settle) := by
  show execCredit ep s = _
  rw [execCredit, atNi_of_on hb hon hs]
  simp only [ha]

end Reply

/-- Which accesses under way cannot be answered rests on the half resets and on the domains of nodes and port blocks (R416). -/
theorem accsDown_congr {s t : State} (hb : t.build = s.build) (haccs : t.accs = s.accs)
    (hnode : ∀ n < s.build.nodes, t.dom (s.build.nodeDom n) = s.dom (s.build.nodeDom n))
    (hport : ∀ p, t.dom (s.build.portDom p) = s.dom (s.build.portDom p)) (hhalf : ∀ e, t.halfReset e = s.halfReset e) :
    t.accsDown = s.accsDown := by
  have haddr : ∀ a, t.addrDom a = s.addrDom a := fun a => by
    unfold State.addrDom State.bankDom
    rw [hb]
  have hpath : ∀ a d, t.pathDown a d = s.pathDown a d := fun a d => by
    unfold State.pathDown
    dsimp only
    rw [hb, haddr, hport, hhalf, hhalf]
    congr 2
    refine Bool.eq_iff_iff.2 ?_
    simp only [List.any_eq_true]
    refine exists_congr fun n => and_congr_right fun hn => ?_
    rw [hnode n (by have := (mem_upFrom ..).1 hn; omega)]
  simp only [State.accsDown, funext₂ hpath, hb, haccs]

/-- The half resets rest on one register word (R420). -/
theorem halfReset_congr {s t : State} (h : t.word 0xA08 = s.word 0xA08) (e : Bool) : t.halfReset e = s.halfReset e := by
  have hword : t.word (0 + 0xA08) = s.word (0 + 0xA08) := h
  cases e <;> exact congrArg (fun w : Word => wordField w _ 1 == 1) hword

/-- A register word below those of the power domains leaves every access under way as it was. -/
theorem accsDown_setWord (s : State) (a : Nat) (w : Word) (h : a < 0xA08) : (s.setWord a w).accsDown = s.accsDown := by
  have hdom : ∀ d, (s.setWord a w).dom d = s.dom d := fun d => by
    rw [State.dom, State.word_setWord, if_neg (by omega), State.dom]
  exact accsDown_congr rfl rfl (fun n _ => hdom _) (fun p => hdom _)
    (halfReset_congr ((State.word_setWord ..).trans (if_neg (by omega))))

/-- A counter that rises below the words of the power domains leaves a quiet state quiet. -/
theorem quiet_bump {s : State} (hq : Quiet s) (f : Fld) (n : Nat) (hf : f.off < 0xA08) : Quiet (s.bump 0 f n) := by
  have hstream : (s.bump 0 f n).get 0 F.MIR_CTL_TRMODE = s.get 0 F.MIR_CTL_TRMODE := by
    refine State.get_bump_apart _ _ _ _ _ ?_
    have hoff : F.MIR_CTL_TRMODE.off = 0xC00 := rfl
    simp only [Fld.apart, hoff, bne_iff_ne, Bool.or_eq_true, ne_eq]
    exact .inl (.inl (by omega))
  exact { hq with
    stream := by rw [hstream]; exact hq.stream
    down := (accsDown_setWord s _ _ (by omega)).trans hq.down }

theorem quiet_lathe {s : State} (hq : Quiet s) (l : Lathe) (h : l.going = s.lathe.going) : Quiet { s with lathe := l } :=
  { hq with going := h.trans hq.going }

section Launch
variable {s : State} {ep k : Nat} (hl : latheEp s.build ep = true) (hon : s.epOn ep = true) (hs : s.stopped = false)
include hl hon hs

/-- A launch after which nothing goes on by itself. -/
theorem exec_latheLaunch_of_quiet {t : State} (hrow : s.makeLaunch ep k = t) (hq : Quiet t) (hp : t.pending = s.pending)
    (hb : t.build = s.build) : exec (.latheLaunch ep k) s = .next t := by
  have hexec : exec (.latheLaunch ep k) s = _ := atLathe_of_row (f := fun s => s.makeLaunch ep k) hl hon hs hrow
  rw [hexec, settle_of_quiet _ hq, within_self s t hp hb]

/-- LATHE_LAUNCH of a void launch in a quiet state: what was staged for its stream is dropped, and LTH_VOID_CNT rises (R167). -/
theorem exec_latheLaunch_void (hq : Quiet s)
    (hrow : s.makeLaunch ep k = (s.launchNoted ep k).voidLaunch ep s.activeBank (s.launchStream ep k)) :
    ∃ t, exec (.latheLaunch ep k) s = .next t ∧
      t.lathe = { (s.launchNoted ep k).lathe with
        staged := s.lathe.staged.filter fun x => !(x.ep == ep && x.bank == s.activeBank && x.stream == s.launchStream ep k) } ∧
      t.get 0 F.LTH_VOID_CNT_COUNT = min (s.get 0 F.LTH_VOID_CNT_COUNT + 1) (2 ^ 32 - 1) ∧
      (∀ a, a ≠ 0x410 → t.word a = s.word a) ∧ { t with lathe := s.lathe, regs := s.regs } = s := by
  rw [State.voidLaunch_of_no_txns (s := s.launchNoted ep k) hq.txns] at hrow
  have hquiet := quiet_bump (quiet_lathe (quiet_lathe hq (s.launchNoted ep k).lathe rfl) { (s.launchNoted ep k).lathe with
    staged := s.lathe.staged.filter fun x => !(x.ep == ep && x.bank == s.activeBank && x.stream == s.launchStream ep k) } rfl)
    F.LTH_VOID_CNT_COUNT 1 (by decide)
  exact ⟨_, exec_latheLaunch_of_quiet hl hon hs hrow hquiet rfl rfl, rfl, State.get_bump_same _ _ _ _ (by decide), fun a ha => State.word_set _ _ _ _ _ ha, rfl⟩

end Launch

/-- Settles O50: each row finds what it is about, and a launch that is void or over leaves a quiet state quiet. -/
theorem niSendingRows : Obligations.NiSendingRows := by
  unfold Obligations.NiSendingRows
  intro s s1 ep a hb hon hs
  refine ⟨fun q pk h => ?_, fun q hleft h => ?_, fun c ty hc ha => ⟨fun q hq => ?_, fun hq hep => ?_⟩,
    fun ha hep => ⟨fun hred => ?_, fun q hred hq => ?_⟩, fun ha => ⟨fun w hupd hw => ?_, fun q hupd hw hq => ?_⟩,
    fun i q at' h hst => ?_, fun i q at' h hst => ?_, fun k b i start n hk hl hbank h hroom => ?_, fun k hk hl hact hpast => ?_⟩
  · exact atNi_of_row (f := fun s => s.niLaunch ep) hb hon hs (State.niLaunch_of_segment h)
  · exact atNi_of_row (f := fun s => s.niLaunch ep) hb hon hs (State.niLaunch_of_formed hleft h)
  · rw [exec_reply hb hon hs hc ha, State.replyTaken_of_match hq]
  · rw [exec_reply hb hon hs hc ha, State.replyTaken_of_late hq hep]
  · exact atNi_of_row (f := fun s => s.nackRow ep) hb hon hs (State.nackRow_of_reduce ha hep hred)
  · exact atNi_of_row (f := fun s => s.nackRow ep) hb hon hs (State.nackRow_of_match ha hep hred hq)
  · rw [exec_credit hb hon hs ha, State.takeCredit'_of_update hupd hw]
  · rw [exec_credit hb hon hs ha, State.takeCredit'_of_answer hupd hw hq]
  · exact atNi_of_row (f := fun s => s.reqTimeout ep i) hb hon hs (State.reqTimeout_of_flying h hst)
  · exact atNi_of_row (f := fun s => s.reqRetry ep i) hb hon hs (State.reqRetry_of_backoff h hst)
  · obtain ⟨hi, hstart, hn, hv, hpos⟩ := State.stageable_spec h
    exact ⟨hi, hstart, hn, hv, hpos,
      atLathe_of_row (f := fun s => s.stageLaunch ep k) hl hon hs (State.stageLaunch_of_room hk hbank h hroom)⟩
  · intro b e i sent mine ended hv hnow hfresh u
    have hdue : State.LaunchDue s ep k := ⟨hk, hact, hpast, hv, hnow, hfresh⟩
    have hover : s.streamOver ep k = true ↔ ended := by
      simp only [State.streamOver, Bool.or_eq_true, Bool.not_eq_true', decide_eq_true_eq]
      rfl
    have hgoes : ¬ ended → s.streamOver ep k = false := fun h => Bool.eq_false_iff.2 (mt hover.1 h)
    refine ⟨fun x bytes bad hheld hend hctx hx hgot => ?_, fun hend hvoid hq => ?_, fun hend hheld hctx => ?_, fun hend hq => ?_⟩
    · exact atLathe_of_row (f := fun s => s.makeLaunch ep k) hl hon hs
        (State.makeLaunch_of_staged hdue (hgoes hend) hheld hctx hx hgot)
    · refine exec_latheLaunch_void hl hon hs hq ?_
      cases hheld : s.latheHeld with
      | true => exact State.makeLaunch_of_held hdue (hgoes hend) hheld
      | false =>
        obtain ⟨hctx, hnone⟩ := hvoid.resolve_left (by rw [hheld]; decide)
        exact State.makeLaunch_of_unstaged hdue (hgoes hend) hheld hctx hnone
    · exact atLathe_of_row (f := fun s => s.makeLaunch ep k) hl hon hs (State.makeLaunch_of_ctxOff hdue (hgoes hend) hheld hctx)
    · exact ⟨_, exec_latheLaunch_of_quiet hl hon hs (State.makeLaunch_of_over hdue (hover.2 hend)) (quiet_lathe hq _ rfl) rfl rfl, rfl, rfl⟩

end Sys2Proof.Safety
end

/-! ### The receiving side of a network interface -/

section
namespace Sys2Proof.Machine.State

variable {s s1 : State} {ep : Nat} {a : Arrival} {pk : Pkt}

/-! Requests (R123, R128, R134-R136). -/

/-- A request that asks for no more than a reply of its class carries (R64). -/
def asksInRange (pk : Pkt) : Prop := pk.hdr.ptype ≠ tREAD ∨ pk.hdr.aux % 4096 ≤ classMax (classOf pk.hdr.vcn)

theorem asksInRange.eq_false (h : asksInRange pk) :
    (pk.hdr.ptype == tREAD && decide (classMax (classOf pk.hdr.vcn) < pk.hdr.aux % 4096)) = false := by
  rw [Bool.and_eq_false_iff, beq_eq_false_iff_ne, decide_eq_false_iff_not, Nat.not_lt]
  exact h

/-- A request for a core that is not good is refused before anything else is looked at (R123). -/
theorem takeReq_of_notGood (hlen : asksInRange pk) (hgood : s.goodFor ep pk = false) :
    s.takeReq ep pk = (s.niErr ep F.NI_ERR_NOTGOOD stDENIED 0).nackReq ep pk stDENIED := by
  simp only [takeReq, hlen.eq_false, hgood, Bool.false_eq_true, if_false, Bool.not_false, if_true]

/-- A request of another epoch is refused before its receive slot is looked at (R128). -/
theorem takeReq_of_otherEpoch (hlen : asksInRange pk) (hgood : s.goodFor ep pk = true) (hepoch : s.epochFor ep pk = false) :
    s.takeReq ep pk = (s.niErr ep F.NI_ERR_EPOCH_REJ stEPOCH 0).nackReq ep pk stEPOCH := by
  simp only [takeReq, hlen.eq_false, hgood, hepoch, Bool.false_eq_true, if_false, Bool.not_false, Bool.not_true, if_true]

section Checked
variable (hlen : asksInRange pk) (hgood : s.goodFor ep pk = true) (hepoch : s.epochFor ep pk = true)
include hlen hgood hepoch

/-- A request without an ordered slot is performed at once (R134). -/
theorem takeReq_of_noSlot (hslot : s.rslot ep (s.srcOf pk) pk.hdr.ctx pk.hdr.chan = none) : s.takeReq ep pk = s.performReq ep pk := by
  simp only [takeReq, hlen.eq_false, hgood, hepoch, Bool.false_eq_true, if_false, Bool.not_true, hslot]

/-- A request at an ordered slot is the slot's (R134, R135). -/
theorem takeReq_of_slot {x : RecvSlot} (hslot : s.rslot ep (s.srcOf pk) pk.hdr.ctx pk.hdr.chan = some x) :
    s.takeReq ep pk = s.slotReq x pk := by
  simp only [takeReq, hlen.eq_false, hgood, hepoch, Bool.false_eq_true, if_false, Bool.not_true, hslot]

end Checked

/-- A broken slot answers EPOCH (R136). -/
theorem slotReq_of_broken {x : RecvSlot} (h : x.broken = true) : s.slotReq x pk = s.nackReq x.ep pk stEPOCH := by
  simp only [slotReq, h, if_true]

theorem reqRow_of_taken {ty : Nat} (h : s.takeArrival ep (s.unicastArrival ep ty) = some (a, s1)) :
    s.reqRow ep ty = s1.takeReq ep a.pkt := by
  rw [reqRow, h]

/-- An arrival that a row of requests takes is of its type. -/
theorem ptype_of_unicastArrival {ty : Nat} (h : s.takeArrival ep (s.unicastArrival ep ty) = some (a, s1)) : a.pkt.hdr.ptype = ty := by
  obtain ⟨-, hp, -⟩ := takeArrival_spec s s1 ep _ a h
  simp only [unicastArrival, plainReq, Bool.and_eq_true, beq_iff_eq] at hp
  obtain ⟨⟨⟨⟨⟨⟨hty, -⟩, -⟩, -⟩, -⟩, -⟩, -⟩ := hp
  exact hty

/-- A hole that runs out breaks its slot (R136). -/
theorem holeExpire_of_hole {src ctx chan : Nat} {x : RecvSlot} {h : Held} {r : List Held} (hx : s.rslot ep src ctx chan = some x)
    (hheld : x.held = h :: r) (hbroken : x.broken = false) (hhole : (x.held.any fun y => y.seq == x.next && y.seg == x.seg) = false) :
    s.holeExpire ep src ctx chan = ((s.passTo (r.foldl (fun m y => min m y.born) h.born + s.get (niBase ep) F.NI_RO_CTL_HOLE +
      1)).niErr ep F.NI_ERR_HOLE stTIMEOUT 0).breakRslot ep src ctx chan stTIMEOUT := by
  rw [hheld] at hhole
  simp only [holeExpire, hx, hheld, hbroken, hhole, Bool.or_self, Bool.false_eq_true, if_false]

/-- A request at the station that is no READ is answered by ROUTE (R469). -/
theorem stationReceive_of_request (h : s.takeArrival 0xF7E (fun a => !s.stationReply a) = some (a, s1))
    (hreq : isRequest a.pkt.hdr.ptype = true) (hread : a.pkt.hdr.ptype ≠ tREAD) :
    s.stationReceive = s1.nackReq 0xF7E a.pkt stROUTE := by
  simp only [stationReceive, h, beq_false_of_ne hread, hreq, Bool.false_eq_true, if_false, if_true]

theorem takeDeposit_of_taken (h : s.takeArrival ep (fun a => a.lt) = some (a, s1)) : s.takeDeposit ep = s1.lathDeposit ep a.pkt := by
  rw [takeDeposit, h]

/-! The Blank pools (R141-R144). -/

@[simp] theorem blankUsed_setBlank (s : State) (ep n : Nat) (l : List Nat) : (s.setBlank ep n l).blankUsed ep n = l :=
  (mapGet_mapSet s.blank [] l (4 * ep + n) (4 * ep + n)).trans (if_pos rfl)

@[simp] theorem word_setBlank (s : State) (ep n a : Nat) (l : List Nat) : (s.setBlank ep n l).word a = s.word a := rfl

/-- A handle of a buffer in use is freed (R143). -/
theorem blkFreeWrite_of_used {n i : Nat} (hn : n < 4) (hi : i < 4096) (hon : s.poolOn ep n = true) (hcount : i < s.poolCount ep n)
    (hused : (s.blankUsed ep n).contains i = true) :
    s.blkFreeWrite ep (n * 2 ^ 14 + i) = (stOK, s.setBlank ep n ((s.blankUsed ep n).filter fun j => j != i)) := by
  have hpool : (n * 2 ^ 14 + i) / 2 ^ 14 = n := by omega
  have hbuf : (n * 2 ^ 14 + i) % 4096 = i := by omega
  have hcount' : ¬ s.poolCount ep n ≤ i := Nat.not_le.2 hcount
  simp only [blkFreeWrite, freeBuf, hpool, hbuf, Nat.mod_eq_of_lt hn, hon, hcount', hused, Bool.not_true, decide_false, Bool.or_self,
    Bool.false_eq_true, if_false]

/-- A pool enabled with `k` buffers, all of them free (R144). -/
def poolEnabled (s : State) (ep n k : Nat) : State :=
  (((s.setBlank ep n []).set (niBase ep + 8 * n) F.BLK_POOLn_CFG_COUNT k).set (niBase ep + 8 * n) F.BLK_POOLn_CFG_CORE 0).set
    (niBase ep + 8 * n) F.BLK_POOLn_CFG_EN 1

/-- A pool that is off is enabled by a write of BLK_POOLn_CFG with EN 1 and CORE 0 (R144). -/
theorem poolCfgWrite_of_off {n k : Nat} (hk : k ≤ 4096) (hoff : s.poolOn ep n = false) :
    s.poolCfgWrite ep n (k + 2 ^ 15) = (stOK, s.poolEnabled ep n k) := by
  have hcount : bitsOf (k + 2 ^ 15) 0 13 = k := by rw [bitsOf]; omega
  have hcore : (if ep < 0xF00 then bitsOf (k + 2 ^ 15) 13 2 else 0) = 0 := by
    split
    · rw [bitsOf]; omega
    · rfl
  have hen : bitAt (k + 2 ^ 15) 15 = true := by rw [bitAt, beq_iff_eq]; omega
  simp only [poolCfgWrite, hcount, hcore, hen, hoff, if_neg (Nat.not_lt.2 hk), Bool.false_and, Bool.false_eq_true, if_false,
    Bool.not_false, Bool.and_self, if_true]
  rfl

theorem set_eq (s : State) (b v : Nat) (f : Fld) : ∃ r, s.set b f v = { s with regs := r } := ⟨_, rfl⟩

/-- Enabling a pool changes its buffers in use and registers, and nothing else. -/
theorem poolEnabled_eq (s : State) (ep n k : Nat) : ∃ r, s.poolEnabled ep n k = { s.setBlank ep n [] with regs := r } := by
  obtain ⟨_, h₁⟩ := set_eq (s.setBlank ep n []) (niBase ep + 8 * n) k F.BLK_POOLn_CFG_COUNT
  obtain ⟨_, h₂⟩ := set_eq ((s.setBlank ep n []).set (niBase ep + 8 * n) F.BLK_POOLn_CFG_COUNT k) (niBase ep + 8 * n) 0
    F.BLK_POOLn_CFG_CORE
  obtain ⟨r, h₃⟩ := set_eq (((s.setBlank ep n []).set (niBase ep + 8 * n) F.BLK_POOLn_CFG_COUNT k).set (niBase ep + 8 * n)
    F.BLK_POOLn_CFG_CORE 0) (niBase ep + 8 * n) 1 F.BLK_POOLn_CFG_EN
  exact ⟨r, by rw [poolEnabled, h₃, h₂, h₁]⟩

theorem poolOn_poolEnabled (s : State) (ep n k : Nat) : (s.poolEnabled ep n k).poolOn ep n = true := by
  rw [poolOn, flag, poolEnabled, get_set_same _ _ _ _ (by decide)]
  rfl

theorem poolCount_poolEnabled (s : State) (ep n k : Nat) (hk : k ≤ 4096) : (s.poolEnabled ep n k).poolCount ep n = k := by
  rw [poolCount, poolEnabled, get_set_apart _ _ _ _ _ (by decide), get_set_apart _ _ _ _ _ (by decide),
    get_set_same _ _ _ _ (by decide)]
  exact Nat.mod_eq_of_lt (by rw [show F.BLK_POOLn_CFG_COUNT.w = 13 from rfl]; omega)

theorem blankUsed_poolEnabled (s : State) (ep n k : Nat) : (s.poolEnabled ep n k).blankUsed ep n = [] := by
  obtain ⟨r, h⟩ := poolEnabled_eq s ep n k
  rw [h]
  exact blankUsed_setBlank s ep n []

/-- Of the registers it changes the word of BLK_POOLn_CFG alone. -/
theorem word_poolEnabled (s : State) (ep n k a : Nat) (h : a ≠ niBase ep + 8 * n + 0x1204) :
    (s.poolEnabled ep n k).word a = s.word a := by
  rw [poolEnabled, word_set _ _ _ _ _ h, word_set _ _ _ _ _ h, word_set _ _ _ _ _ h, word_setBlank]

end Sys2Proof.Machine.State

namespace Sys2Proof.Machine

/-! Registers of the NI of a node. -/

/-- An offset of a node block lies in the block (R8). -/
theorem locate_niNode {b : Build} {ep off : Nat} (hn : ep < 0xF00) (hb : ep < b.nodes) (ho : off < 0x4000) :
    locate b (niBase ep + off) = .node ep off := by
  have hbase : niBase ep = 0x2000000 + ep * 0x4000 := if_pos hn
  have hnode : (niBase ep + off - 0x2000000) / 0x4000 = ep := by omega
  have hoff : (niBase ep + off - 0x2000000) % 0x4000 = off := by omega
  simp only [locate, hnode, hoff, hb, if_true]
  rw [if_neg (by omega), if_neg (by omega), if_neg (by omega), if_neg (by omega), if_pos (by omega)]

/-- Outside Configuration S no register of a node block reads as zero (R3, R467). -/
theorem rowAt_niNode {b : Build} {ep off : Nat} (hs : b.isS = false) (hn : ep < 0xF00) (hb : ep < b.nodes) (ho : off < 0x4000)
    (r : RegRow) : rowAt b (niBase ep + off) ≠ some (r, true) := by
  simp [rowAt, locate_niNode hn hb ho, hs]

namespace State
variable {s : State} {ep off d : Nat}

/-- A write of a register of the NI of a node (R119-R149). -/
theorem writeReg_niNode (by' : AccBy) (hs : s.build.isS = false) (hn : ep < 0xF00) (hb : ep < s.build.nodes) (hlo : 0x1000 ≤ off)
    (hhi : off < 0x2000) : s.writeReg by' (niBase ep + off) d = s.writeNi ep off d := by
  have hloc := locate_niNode hn hb (off := off) (by omega)
  have htlm : s.isTlm (nodeBase ep + off) = false := by
    rw [show nodeBase ep = niBase ep from (if_pos hn).symm, isTlm, hloc]
    simp only [Bool.or_eq_false_iff, Bool.and_eq_false_iff, decide_eq_false_iff_not]
    omega
  unfold writeReg
  split
  next r hr => exact absurd hr (rowAt_niNode hs hn hb (by omega) r)
  next =>
    rw [hloc]
    simp only [writeNode, htlm, Bool.false_eq_true, if_false, beq_false_of_ne (show off ≠ 0x40 by omega), hlo, hhi, hn, decide_true,
      Bool.and_self, if_true, show ¬ 0x2000 ≤ off by omega, decide_false, Bool.false_and]

theorem writeNi_blkFree : s.writeNi ep 0x1220 d = s.blkFreeWrite ep d := by simp [writeNi]

theorem writeNi_poolCfg {n : Nat} (hn : n < 4) : s.writeNi ep (0x1204 + 8 * n) d = s.poolCfgWrite ep n d := by
  interval_cases n <;> simp [writeNi]

/-- A write that its checks allow and that ends OK has its effect alone (R9, R428). -/
theorem access_of_ok {u : State} {by' : AccBy} {a : Nat} (hok : s.accCheck a = stOK) (hw : s.writeReg by' a d = (stOK, u)) :
    (s.access by' true a d).2.2 = u := by
  simp [access, hok, hw]

end State
end Sys2Proof.Machine

namespace Sys2Proof.Safety
open Sys2Proof.Machine

/-! The rows. -/

/-- A write of a register of a node's NI that ends OK. -/
theorem niWrite_of_ok {s u : State} {ep off : Nat} {d : Word} (hep : ep < 0xF00) (hs : s.stopped = false)
    (hok : s.accCheck (niBase ep + off) = stOK) (hw : s.writeReg .cfg (niBase ep + off) d.toNat = (stOK, u)) :
    niWrite ep off d s = .next (s.within u.settle) := by
  have hon : (decide (ep < 0xF7E) && !s.stopped) = true := by rw [hs, decide_eq_true (by omega)]; rfl
  rw [niWrite, niAccess, act_of_on hon, State.access_of_ok hok hw]

/-- A row at the NI of a node or port block that acts is its effect, and what follows from it. -/
theorem atBlockNi_of_acts {c : Instr} {s t : State} {ep : Nat} {f : State → State} (h : acts c s = true)
    (ha : acts c s = (niEp s.build ep && (s.epOn ep && !s.stopped))) (hrow : f s = t) :
    atBlockNi ep s f = .next (s.within t.settle) := by
  rw [ha, Bool.and_eq_true, Bool.and_eq_true, Bool.not_eq_true'] at h
  obtain ⟨hep, hon, hs⟩ := h
  rw [atBlockNi_of_on hep hon hs, hrow]

/-- WRITE, READ and SEND take the request that has arrived (R135, R327). -/
theorem exec_request {s s1 : State} {ep ty : Nat} {c : Instr} {a : Arrival} (h : acts c s = true)
    (hc : (c = .write ep ∧ ty = tWRITE) ∨ (c = .read ep ∧ ty = tREAD) ∨ (c = .send ep ∧ ty = tSEND))
    (ha : s.takeArrival ep (s.unicastArrival ep ty) = some (a, s1)) :
    exec c s = .next (s.within (s1.takeReq ep a.pkt).settle) := by
  have hrow := State.reqRow_of_taken ha
  obtain ⟨rfl, rfl⟩ | ⟨rfl, rfl⟩ | ⟨rfl, rfl⟩ := hc
  · exact atBlockNi_of_acts (f := fun s => s.reqRow ep tWRITE) h rfl hrow
  · exact atBlockNi_of_acts (f := fun s => s.reqRow ep tREAD) h rfl hrow
  · exact atBlockNi_of_acts (f := fun s => s.reqRow ep tSEND) h rfl hrow

/-- The checks come first, and then the ordered slot, if the request has one (R123, R128, R134-R136). -/
theorem exec_request_checked {s s1 : State} {ep ty : Nat} {c : Instr} {a : Arrival} (h : acts c s = true)
    (hc : (c = .write ep ∧ ty = tWRITE) ∨ (c = .read ep ∧ ty = tREAD) ∨ (c = .send ep ∧ ty = tSEND))
    (ha : s.takeArrival ep (s.unicastArrival ep ty) = some (a, s1))
    (hlen : ty ≠ tREAD ∨ a.pkt.hdr.aux % 4096 ≤ classMax (classOf a.pkt.hdr.vcn)) :
    (s1.goodFor ep a.pkt = false →
      exec c s = .next (s.within ((s1.niErr ep F.NI_ERR_NOTGOOD stDENIED 0).nackReq ep a.pkt stDENIED).settle)) ∧
    (s1.goodFor ep a.pkt = true → s1.epochFor ep a.pkt = false →
      exec c s = .next (s.within ((s1.niErr ep F.NI_ERR_EPOCH_REJ stEPOCH 0).nackReq ep a.pkt stEPOCH).settle)) ∧
    (s1.goodFor ep a.pkt = true → s1.epochFor ep a.pkt = true →
      (s1.rslot ep (s1.srcOf a.pkt) a.pkt.hdr.ctx a.pkt.hdr.chan = none →
        exec c s = .next (s.within (s1.performReq ep a.pkt).settle)) ∧
      (∀ x, s1.rslot ep (s1.srcOf a.pkt) a.pkt.hdr.ctx a.pkt.hdr.chan = some x →
        exec c s = .next (s.within (s1.slotReq x a.pkt).settle) ∧
        (x.broken = true → exec c s = .next (s.within (s1.nackReq x.ep a.pkt stEPOCH).settle)))) := by
  have hrange : State.asksInRange a.pkt := hlen.imp_left fun hty => (State.ptype_of_unicastArrival ha).trans_ne hty
  rw [exec_request h hc ha]
  refine ⟨fun hgood => ?_, fun hgood hepoch => ?_, fun hgood hepoch => ⟨fun hslot => ?_, fun x hslot => ⟨?_, fun hbroken => ?_⟩⟩⟩
  · rw [State.takeReq_of_notGood hrange hgood]
  · rw [State.takeReq_of_otherEpoch hrange hgood hepoch]
  · rw [State.takeReq_of_noSlot hrange hgood hepoch hslot]
  · rw [State.takeReq_of_slot hrange hgood hepoch hslot]
  · rw [State.takeReq_of_slot hrange hgood hepoch hslot, State.slotReq_of_broken hbroken]

theorem lt_of_nodeEp {b : Build} {ep : Nat} (h : nodeEp b ep = true) : ep < 0xF00 ∧ ep < b.nodes := by
  simp only [nodeEp, Build.epBuilt, Bool.and_eq_true, decide_eq_true_eq] at h
  obtain ⟨hn, hb⟩ := h
  rw [if_pos hn] at hb
  simp only [Bool.and_eq_true, decide_eq_true_eq] at hb
  exact ⟨hn, hb.2⟩

section Pool
variable {s : State} {ep n : Nat} {d : Word} (hep : nodeEp s.build ep = true) (hS : s.build.isS = false) (hs : s.stopped = false)
  (hn : n < 4)
include hep hS hs hn

/-- BLK_FREE of a buffer in use (R143). -/
theorem exec_blkFree {i : Nat} (hq : Quiet s) (hi : i < 4096) (hok : s.accCheck (niBase ep + 0x1220) = stOK)
    (hon : s.poolOn ep n = true) (hcount : i < s.poolCount ep n) (hd : d.toNat = n * 2 ^ 14 + i)
    (hused : (s.blankUsed ep n).contains i = true) :
    exec (.blkFree ep d) s = .next (s.setBlank ep n ((s.blankUsed ep n).filter fun j => j != i)) := by
  obtain ⟨hnode, hbuilt⟩ := lt_of_nodeEp hep
  have hw : s.writeReg .cfg (niBase ep + 0x1220) d.toNat = _ :=
    (State.writeReg_niNode .cfg hS hnode hbuilt (by decide) (by decide)).trans
      (State.writeNi_blkFree.trans (hd ▸ State.blkFreeWrite_of_used hn hi hon hcount hused))
  have hexec : exec (.blkFree ep d) s = _ := niWrite_of_ok hnode hs hok hw
  have hquiet : Quiet (s.setBlank ep n ((s.blankUsed ep n).filter fun j => j != i)) := { hq with }
  rw [hexec, settle_of_quiet _ hquiet]
  exact congrArg Host.Outcome.next (within_self s _ rfl rfl)

/-- BLK_POOL_ENABLE of a pool that is off (R144). -/
theorem exec_blkPoolEnable {k : Nat} (hk : k ≤ 4096) (hok : s.accCheck (niBase ep + 0x1204 + 8 * n) = stOK)
    (hoff : s.poolOn ep n = false) (hd : d.toNat = k + 2 ^ 15) :
    exec (.blkPoolEnable ep n d) s = .next (s.within (s.poolEnabled ep n k).settle) := by
  obtain ⟨hnode, hbuilt⟩ := lt_of_nodeEp hep
  rw [Nat.add_assoc] at hok
  have hw : s.writeReg .cfg (niBase ep + (0x1204 + 8 * n)) d.toNat = (stOK, s.poolEnabled ep n k) := by
    rw [State.writeReg_niNode .cfg hS hnode hbuilt (by omega) (by omega), State.writeNi_poolCfg hn, hd,
      State.poolCfgWrite_of_off hk hoff]
  show niWrite ep (0x1204 + 8 * (n % 4)) d s = _
  rw [Nat.mod_eq_of_lt hn, niWrite_of_ok hnode hs hok hw]

end Pool

theorem still_poolEnabled {s : State} (h : Still s) (ep n k : Nat) (hne : 0xC00 ≠ niBase ep + 8 * n + 0x1204) :
    Still (s.poolEnabled ep n k) := by
  have hmode : (s.poolEnabled ep n k).get 0 F.MIR_CTL_TRMODE = s.get 0 F.MIR_CTL_TRMODE := by
    rw [State.get, s.word_poolEnabled ep n k (0 + F.MIR_CTL_TRMODE.off) hne, State.get]
  obtain ⟨r, hpool⟩ := s.poolEnabled_eq ep n k
  rw [hpool] at hmode ⊢
  exact { h with stream := by rw [hmode]; exact h.stream }

/-- Within the ranges of R460 there are few domains. -/
theorem nodeDom_lt_of_inRange {b : Build} {n : Nat} (hb : b.inRange = true) (hn : n < b.nodes) : b.nodeDom n < 2 ^ 20 := by
  simp only [Build.inRange, Bool.and_eq_true, decide_eq_true_eq] at hb
  have hcols : b.cols / b.domw ≤ 96 := (Nat.div_le_self ..).trans (by omega)
  have hrow : n / b.cols / b.domh ≤ 64 := (Nat.div_le_self ..).trans ((Nat.div_lt_of_lt_mul hn).le.trans (by omega))
  have hcol : n % b.cols / b.domw ≤ 96 := (Nat.div_le_self ..).trans ((Nat.mod_lt _ (by omega)).le.trans (by omega))
  have hmul : n / b.cols / b.domh * (b.cols / b.domw) ≤ 64 * 96 := Nat.mul_le_mul hrow hcols
  rw [Build.nodeDom, Build.meshDom, Build.domCols, Build.row, Build.col]
  omega

theorem portDom_lt_of_inRange {b : Build} (hS : b.isS = false) (hb : b.inRange = true) (p : Nat) : b.portDom p < 2 ^ 20 := by
  simp only [Build.inRange, Bool.and_eq_true, decide_eq_true_eq, hS, Bool.false_eq_true, if_false] at hb
  have hmesh : b.nmesh ≤ 96 * 64 :=
    Nat.mul_le_mul ((Nat.div_le_self ..).trans (by omega)) ((Nat.div_le_self ..).trans (by omega))
  have hquad : ∀ c r, b.quadrant c r ≤ 3 := fun c r => by
    unfold Build.quadrant
    split <;> split <;> omega
  rw [Build.portDom]
  split
  · have := hquad ‹Station›.col ‹Station›.row
    rw [Build.quadDom]
    omega
  · simp only [Build.cfgDom, Build.ndom, Build.nlg, Build.nklGroups, hS, Bool.false_eq_true, if_false, ceilDiv]
    split <;> omega

/-- Within the ranges of R460 no register of a node block is one of those of the power domains. -/
theorem accsDown_poolEnabled_of_inRange {s : State} {ep n k : Nat} (hS : s.build.isS = false) (hb : s.build.inRange = true)
    (hep : ep < 0xF00) : (s.poolEnabled ep n k).accsDown = s.accsDown := by
  have hbase : niBase ep = 0x2000000 + ep * 0x4000 := if_pos hep
  have hword : ∀ a, a < 0x200000 → (s.poolEnabled ep n k).word a = s.word a := fun a ha => s.word_poolEnabled ep n k a (by omega)
  have hdom : ∀ d, d < 2 ^ 20 → (s.poolEnabled ep n k).dom d = s.dom d := fun d hd => by
    rw [State.dom, hword _ (by omega), State.dom]
  obtain ⟨_, hpool⟩ := s.poolEnabled_eq ep n k
  refine accsDown_congr (by rw [hpool]; rfl) (by rw [hpool]; rfl) (fun m hm => hdom _ (nodeDom_lt_of_inRange hb hm))
    (fun p => hdom _ (portDom_lt_of_inRange hS hb p)) (halfReset_congr (hword _ (by decide)))

/-- BLK_POOL_ENABLE in a quiet state of a build within the ranges of R460: the pool is on, and all of its buffers are free (R144). -/
theorem exec_blkPoolEnable_of_inRange {s : State} {ep n k : Nat} {d : Word} (hb : s.build.inRange = true)
    (hep : nodeEp s.build ep = true) (hS : s.build.isS = false) (hs : s.stopped = false) (hq : Quiet s) (hn : n < 4) (hk : k ≤ 4096)
    (hok : s.accCheck (niBase ep + 0x1204 + 8 * n) = stOK) (hoff : s.poolOn ep n = false) (hd : d.toNat = k + 2 ^ 15) :
    ∃ t, exec (.blkPoolEnable ep n d) s = .next t ∧ t.poolOn ep n = true ∧ t.poolCount ep n = k ∧ t.blankUsed ep n = [] ∧
      { t with blank := s.blank, regs := s.regs } = s := by
  have hnode : ep < 0xF00 := (lt_of_nodeEp hep).1
  have hbase : niBase ep = 0x2000000 + ep * 0x4000 := if_pos hnode
  have hstill := still_poolEnabled (.of_quiet hq) ep n k (by omega)
  obtain ⟨r, hpool⟩ := s.poolEnabled_eq ep n k
  have hstop : (s.poolEnabled ep n k).stopped = false := by
    rw [hpool]
    exact hs
  have hclose : (s.poolEnabled ep n k).closeDown = s.poolEnabled ep n k := by
    rw [State.closeDown, accsDown_poolEnabled_of_inRange hS hb hnode, hq.down]
    rfl
  refine ⟨s.poolEnabled ep n k, ?_, s.poolOn_poolEnabled ep n k, s.poolCount_poolEnabled ep n k hk, s.blankUsed_poolEnabled ep n k, ?_⟩
  · rw [exec_blkPoolEnable hep hS hs hn hk hok hoff hd, hstill.settle hstop, hclose,
      within_self s _ (by rw [hpool]; rfl) (by rw [hpool]; rfl)]
  · rw [hpool]
    rfl

/-- RSLOT_HOLE_TIMEOUT (R136). -/
theorem exec_rslotHoleTimeout {s : State} {ep src ctx chan : Nat} {x : RecvSlot} {h : Held} {r : List Held}
    (hacts : acts (.rslotHoleTimeout ep src ctx chan) s = true) (hx : s.rslot ep src ctx chan = some x) (hheld : x.held = h :: r)
    (hbroken : x.broken = false) (hhole : (x.held.any fun y => y.seq == x.next && y.seg == x.seg) = false) :
    exec (.rslotHoleTimeout ep src ctx chan) s = .next (s.within (((s.passTo ((r.foldl (fun m y => min m y.born) h.born) +
      s.get (niBase ep) F.NI_RO_CTL_HOLE + 1)).niErr ep F.NI_ERR_HOLE stTIMEOUT 0).breakRslot ep src ctx chan stTIMEOUT).settle) :=
  atBlockNi_of_acts (f := fun s => s.holeExpire ep src ctx chan) hacts rfl (State.holeExpire_of_hole hx hheld hbroken hhole)

/-- LATHE_DEPOSIT takes the reserved-flit packet that has arrived (R168). -/
theorem exec_latheDeposit {s s1 : State} {ep : Nat} {a : Arrival} (hacts : acts (.latheDeposit ep) s = true)
    (ha : s.takeArrival ep (fun a => a.lt) = some (a, s1)) :
    exec (.latheDeposit ep) s = .next (s.within (s1.lathDeposit ep a.pkt).settle) := by
  obtain ⟨hl, hrun⟩ := Bool.and_eq_true_iff.1 hacts
  obtain ⟨hon, hs⟩ := Bool.and_eq_true_iff.1 hrun
  exact atLathe_of_row (f := fun s => s.takeDeposit ep) hl hon (Bool.not_eq_true' _ ▸ hs) (State.takeDeposit_of_taken ha)

/-- HEADSTOCK_STATION_RECEIVE of a request that is no READ (R469). -/
theorem exec_headstockStationReceive {s s1 : State} {a : Arrival} (hs : s.stopped = false)
    (ha : s.takeArrival 0xF7E (fun a => !s.stationReply a) = some (a, s1)) (hreq : isRequest a.pkt.hdr.ptype = true)
    (hread : a.pkt.hdr.ptype ≠ tREAD) :
    exec .headstockStationReceive s = .next (s.within (s1.nackReq 0xF7E a.pkt stROUTE).settle) := by
  rw [← State.stationReceive_of_request ha hreq hread]
  exact atHds_of_running (f := fun s => s.stationReceive) hs

end Sys2Proof.Safety
end

/-! ### Blank pools of a build beyond the ranges of R460 -/

section
namespace Sys2Proof.Machine.State

variable {s : State} {x : CfgAcc} {d : Nat × Nat × Nat}

/-- An access under way to a register block is one whose way is closed, or not. -/
theorem accsDown_of_one (haccs : s.accs = [x]) (hdest : cfgDest s.build x.addr = some d) :
    s.accsDown = if s.pathDown x.addr d then [x] else [] := by
  rw [accsDown, haccs, List.filter_cons, hdest]
  rfl

/-- The way of an access is open where the nodes on its route are Lit, and so is the port block. -/
theorem pathDown_of_lit {a : Nat} (hnode : ∀ n, onRoute false (0, 0) (d.1, d.2.1) (s.build.col n, s.build.row n) = true ∨
      onRoute false (d.1, d.2.1) (0, 0) (s.build.col n, s.build.row n) = true → s.dom (s.build.nodeDom n) = 3)
    (hport : s.dom (s.build.portDom d.2.2) = 3) : s.pathDown a d = false := by
  have hroute : ∀ n ∈ upFrom 0 s.build.nodes, ¬ ((s.build.nodeDom n != s.addrDom a && s.dom (s.build.nodeDom n) != 3) &&
      (onRoute false (0, 0) (d.1, d.2.1) (s.build.col n, s.build.row n) ||
        onRoute false (d.1, d.2.1) (0, 0) (s.build.col n, s.build.row n))) = true := by
    intro n _ h
    simp only [Bool.and_eq_true, Bool.or_eq_true, bne_iff_ne] at h
    exact h.1.2 (hnode n h.2)
  simp only [pathDown, List.any_eq_false.2 hroute, hport, bne_self_eq_false, Bool.and_false, Bool.or_self]

/-- While a half is in reset it is closed where the port block is not Lit. -/
theorem pathDown_of_dark_port {a : Nat} (hhalf : s.halfReset false = true) (hp : d.2.2 ≠ 127)
    (hfar : s.build.portDom d.2.2 ≠ s.addrDom a) (hdark : s.dom (s.build.portDom d.2.2) ≠ 3) : s.pathDown a d = true := by
  simp only [pathDown, hhalf, bne_iff_ne.2 hp, bne_iff_ne.2 hfar, bne_iff_ne.2 hdark, Bool.or_true, Bool.and_self]

/-- An access of the CFG host whose way is closed ends (R11, R416). -/
theorem accs_closeDown_of_one (hx : x.asker = .cfg) (haccs : s.accs = [x]) (hdown : s.accsDown = [x]) : s.closeDown.accs = [] := by
  obtain ⟨_, _, hrep⟩ := report_eq s 0 x.asker.by'.src stDOMAIN_OFF
    (packFields [(28, x.addr), (1, bit x.write), (1, bit (x.asker.by' == .dbg)), (2, 0), (32, if x.write then x.data else 0)])
  rw [closeDown, hdown, List.foldl_cons, List.foldl_nil, recordAcc_of_ne _ _ _ _ _ _ (by decide), hrep]
  simp only [closeAcc, accEnd, hx, drive, haccs, delFirst, beq_self_eq_true, if_true]

/-- So does one to a port block that is not Lit, while a half is in reset. -/
theorem accs_closeDown_of_dark_port (hx : x.asker = .cfg) (haccs : s.accs = [x]) (hdest : cfgDest s.build x.addr = some d)
    (hhalf : s.halfReset false = true) (hp : d.2.2 ≠ 127) (hfar : s.build.portDom d.2.2 ≠ s.addrDom x.addr)
    (hdark : s.dom (s.build.portDom d.2.2) ≠ 3) : s.closeDown.accs = [] :=
  accs_closeDown_of_one hx haccs ((accsDown_of_one haccs hdest).trans (if_pos (pathDown_of_dark_port hhalf hp hfar hdark)))

end Sys2Proof.Machine.State

namespace Sys2Proof.Safety
open Sys2Proof.Machine

/-- A build of one row, longer than R460 allows: the state of the domain of its one port block, a Nuoka Link, has the address of
BLK_POOLn_CFG of pool 0 of node 0. -/
def strandedBuild : Build :=
  { referenceA false with
    cols := 134225869, rows := 1, halves := false, domw := 1, domh := 1, nmap := 0, nnkl := 1, nd2d := 0
    stations := [⟨0, 2, 0, 3, 0, 0, false⟩] }

/-- An access of the CFG host to a register of that link. -/
def strandedAccess : CfgAcc := ⟨0, .cfg, false, 0x1006000, 0, 0⟩

/-- That access under way in such a block, a half of which is in reset; the domains of node 0 and of the port block are Lit, and pool 0
of node 0 is off. -/
def stranded : State :=
  { State.reset with
    build := strandedBuild, boot := 0, regs := [(0xA08, 512), (0xA10, 3), (0x2001204, 3)], accs := [strandedAccess] }

theorem stranded_pool : nodeEp stranded.build 0 = true ∧ stranded.accCheck (niBase 0 + 0x1204 + 8 * 0) = stOK ∧
    stranded.poolOn 0 0 = false := by decide +kernel

theorem stranded_dest : cfgDest stranded.build strandedAccess.addr = some (0, 0, 0) := by decide +kernel

/-- The only route between the station and the first node is that node. -/
theorem origin_of_onRoute {c r : Nat} (h : State.onRoute false (0, 0) (0, 0) (c, r) = true) : c = 0 ∧ r = 0 := by
  simpa [State.onRoute, State.between, and_comm] using h

/-- While the domain of the port block is Lit, the access can be answered. -/
theorem stranded_open : stranded.accsDown = [] := by
  have hlit : stranded.dom (stranded.build.meshDom 0 0) = 3 ∧ stranded.dom (stranded.build.portDom 0) = 3 := by decide +kernel
  have hpath : stranded.pathDown strandedAccess.addr (0, 0, 0) = false := by
    refine State.pathDown_of_lit (s := stranded) (d := (0, 0, 0)) (fun n hroute => ?_) hlit.2
    obtain ⟨hcol, hrow⟩ := hroute.elim origin_of_onRoute origin_of_onRoute
    rw [Build.nodeDom, hcol, hrow, hlit.1]
  rw [State.accsDown_of_one rfl stranded_dest, hpath]
  rfl

theorem quiet_stranded : Quiet stranded :=
  ⟨rfl, rfl, rfl, rfl, rfl, rfl, rfl, rfl, rfl, rfl, rfl, rfl, .inl rfl, rfl, rfl, rfl, rfl, stranded_open, rfl⟩

/-- Once pool 0 is enabled, without a buffer, the domain of the port block reads as Dark. -/
theorem stranded_dark : (stranded.poolEnabled 0 0 0).halfReset false = true ∧
    (stranded.poolEnabled 0 0 0).build.portDom 0 ≠ (stranded.poolEnabled 0 0 0).addrDom strandedAccess.addr ∧
    (stranded.poolEnabled 0 0 0).dom ((stranded.poolEnabled 0 0 0).build.portDom 0) ≠ 3 := by decide +kernel

/-- Then the access cannot be answered, and it ends. -/
theorem stranded_ends : (stranded.poolEnabled 0 0 0).closeDown.accs = [] := by
  obtain ⟨hhalf, hfar, hdark⟩ := stranded_dark
  obtain ⟨r, hpool⟩ := stranded.poolEnabled_eq 0 0 0
  have haccs : (stranded.poolEnabled 0 0 0).accs = [strandedAccess] := by
    rw [hpool]
    rfl
  have hdest : cfgDest (stranded.poolEnabled 0 0 0).build strandedAccess.addr = some (0, 0, 0) := by
    rw [hpool]
    exact stranded_dest
  exact State.accs_closeDown_of_dark_port (d := (0, 0, 0)) rfl haccs hdest hhalf (by decide) hfar hdark

/-- A state that differs in buffers in use and registers alone has the same accesses under way. -/
theorem accs_of_frame {s t u : State} (h : { s.within t with blank := u.blank, regs := u.regs } = u) : t.accs = u.accs :=
  (congrArg State.accs h :)

/-- Refutes O51: its builds are not held to the ranges of R460. Where BLK_POOLn_CFG of a pool has the address at which the model keeps
the state of a power domain, enabling the pool ends an access under way to that domain. What remains true is stated by
`exec_request_checked`, `exec_rslotHoleTimeout`, `exec_blkFree`, `exec_blkPoolEnable` and `exec_blkPoolEnable_of_inRange`,
`exec_latheDeposit` and `exec_headstockStationReceive`. -/
theorem not_niReceivingRows : ¬ Obligations.NiReceivingRows := by
  unfold Obligations.NiReceivingRows
  rintro ⟨-, -, -, hpool, -⟩
  obtain ⟨hep, hok, hoff⟩ := stranded_pool
  obtain ⟨t, ht, -, -, -, hframe⟩ :=
    hpool stranded 0 0 0 (2 ^ 15) hep rfl rfl quiet_stranded (by decide) (by decide) hok hoff rfl
  have hstill := still_poolEnabled (.of_quiet quiet_stranded) 0 0 0 (by decide)
  have hstop : (stranded.poolEnabled 0 0 0).stopped = false := by
    obtain ⟨r, hpool⟩ := stranded.poolEnabled_eq 0 0 0
    rw [hpool]
    rfl
  rw [exec_blkPoolEnable hep rfl rfl (by decide) (by decide) hok hoff rfl, hstill.settle hstop] at ht
  obtain rfl := Host.Outcome.next.inj ht
  have hstays : [] = [strandedAccess] := stranded_ends.symm.trans (accs_of_frame hframe)
  exact absurd hstays (by simp)

end Sys2Proof.Safety
end

/-! ### Multicast at its targets and its source, and the accumulate windows -/

section
namespace Sys2Proof.Machine.State

variable {s s1 : State} {ep : Nat} {a : Arrival} {pk : Pkt}

/-! A target and its relay (R184, R195, R196). -/

theorem mcRow_of_taken (h : s.takeArrival ep (s.mcArrival ep) = some (a, s1)) : s.mcRow ep = s1.mcTarget ep a.pkt := by
  rw [mcRow, h]

/-- A packet that asks for no relay just lands (R184). -/
theorem mcTarget_of_not_relays (h : relays pk = false) : s.mcTarget ep pk = s.mcLand ep pk := by
  simp only [mcTarget, h, Bool.not_false, if_true]

/-- One that asks for a relay lands, and is queued for it if it stays on the die (R195). -/
theorem mcTarget_of_relays (h : relays pk = true) (hxv : pk.ext.xv = 0) :
    s.mcTarget ep pk = { s.mcLand ep pk with relayq := (s.mcLand ep pk).relayq ++ [(ep, (s.mcLand ep pk).relayed ep pk)] } := by
  have hdie : (pk.ext.xv == 1) = false := beq_false_of_ne (by omega)
  simp only [mcTarget, h, hdie, Bool.not_true, Bool.false_eq_true, if_false]

/-- Multicast is throttled at every NI but the station (R149). -/
theorem throttled_multicast (s : State) (hep : ep ≠ 0xF7E) : s.throttled ep 1 = true := by
  simp [throttled, hep]

/-- The bucket of the multicast class has room for some flits (R148). -/
theorem bucketHolds_of_room {cls n : Nat} (h : (s.bucket ep cls).spent + n * 4096 ≤ 33 * 4096) : s.bucketHolds ep cls n = true := by
  rw [bucketHolds, decide_eq_true h, Bool.or_true]

/-- A launch of multicast takes its flits from the bucket of its class (R148). -/
theorem spend_multicast (s : State) (n : Nat) (hep : ep ≠ 0xF7E) :
    s.spend ep 1 n = s.setBucket ep 1 { s.bucket ep 1 with spent := (s.bucket ep 1).spent + n * 4096 } :=
  if_pos (s.throttled_multicast hep)

/-- An injection link takes a packet of some flits on VC 3 of plane QB at once: it is open and free, no packet of VC 3 waits on it,
and VC 3 and the Lathe plane have room (R71, R114, R161, R196). -/
structure TakesRelay (s : State) (ep n : Nat) : Prop where
  opened : nget s.injSt 0 (s.epInject ep pQB) = 0
  free : mapGet s.own (s.epInject ep pQB) = none
  first : (((mapGet s.sendq (s.epInject ep pQB)).getD []).any fun pk => pk.hdr.vcn == 3) = false
  credits : n ≤ s.credits (s.epInject ep pQB) pQB 3
  lathe : s.latheAllowsNi ep (s.epInject ep pQB) n = true

/-- The next relay goes out in front of what waits on the injection link, when the bucket and the link have room (R195, R196). -/
theorem relayLaunch_of_room {r : Nat × Pkt} (hr : s.relayq.find? (fun r => r.1 == ep) = some r) (hep : ep ≠ 0xF7E)
    (hbucket : (s.bucket ep 1).spent + (1 + ceilDiv r.2.hdr.len 64) * 4096 ≤ 33 * 4096)
    (htakes : s.TakesRelay ep (1 + ceilDiv r.2.hdr.len 64)) :
    s.relayLaunch ep = State.startInjection (State.setBucket { s with
      relayq := delFirst (fun x => x.1 == ep) s.relayq
      sendq := mapSet s.sendq [] (s.epInject ep pQB)
        ({ r.2 with hdr := { r.2.hdr with ts := s.ts } } :: (mapGet s.sendq (s.epInject ep pQB)).getD []) } ep 1
      { s.bucket ep 1 with spent := (s.bucket ep 1).spent + (1 + ceilDiv r.2.hdr.len 64) * 4096 }) (s.epInject ep pQB) := by
  obtain ⟨hopen, hfree, hfirst, hcredits, hlathe⟩ := htakes
  have hgoes : (!s.bucketHolds ep 1 (1 + ceilDiv r.2.hdr.len 64) || nget s.injSt 0 (s.epInject ep pQB) == 1 ||
      (nget s.injSt 0 (s.epInject ep pQB) == 0 && ((mapGet s.own (s.epInject ep pQB)).isSome ||
        ((mapGet s.sendq (s.epInject ep pQB)).getD []).any (fun pk => pk.hdr.vcn == 3) ||
        s.credits (s.epInject ep pQB) pQB 3 < 1 + ceilDiv r.2.hdr.len 64 ||
        !s.latheAllowsNi ep (s.epInject ep pQB) (1 + ceilDiv r.2.hdr.len 64)))) = false := by
    rw [bucketHolds_of_room hbucket, hopen, hfree, hfirst, decide_eq_false (Nat.not_lt.2 hcredits), hlathe]
    rfl
  simp only [relayLaunch, hr, hgoes, Bool.false_eq_true, if_false, spend_multicast _ _ hep]
  rfl

/-! Per-target NACKs at the source (R190, R192). -/

theorem mcNackRow_of_taken
    (h : s.takeArrival ep (fun x => s.replyHere ep tNACK x && classOf x.pkt.hdr.vcn == 1) = some (a, s1)) :
    s.mcNackRow ep = s1.targetNack ep a.pkt := by
  rw [mcNackRow, h]

/-- The node that sent a per-target NACK. -/
def nackTarget (s : State) (pk : Pkt) : Nat := s.build.node pk.hdr.scol pk.hdr.srow

/-- The status that a NACK names. -/
def nackStatus (pk : Pkt) : Nat := pk.hdr.opc % 16

/-- A NACK with no hold left to retry from: HOLD_LATE is set, and the target is reported as failed (R192). -/
def holdLate (s : State) (ep : Nat) (pk : Pkt) (tries : Nat) : State :=
  (s.errBit (niBase ep) F.NI_MC_ERR_HOLD_LATE 5 (srcEp ep) stTIMEOUT 0).postFail ep stTIMEOUT (s.nackTarget pk) tries pk.hdr

/-- A NACK that no hold answers to is late (R192). -/
theorem targetNack_of_noHold (hnone : s.holdOf ep pk.hdr = none) (hst : nackStatus pk ≠ stEPOCH) :
    s.targetNack ep pk = s.holdLate ep pk 0 := by
  have hst : (pk.hdr.opc % 16 == stEPOCH) = false := beq_false_of_ne hst
  simp only [targetNack, hnone, hst, Bool.false_eq_true, if_false]
  rfl

/-- One of status EPOCH that no hold answers to reports EPOCH alone (log 14). -/
theorem targetNack_of_noHold_epoch (hnone : s.holdOf ep pk.hdr = none) (hst : nackStatus pk = stEPOCH) :
    s.targetNack ep pk = s.postFail ep stEPOCH (s.nackTarget pk) 0 pk.hdr := by
  have hst : pk.hdr.opc % 16 = stEPOCH := hst
  simp only [targetNack, hnone, hst, beq_self_eq_true, if_true]
  rfl

/-- A NACK that comes after its hold has ended is late (R192). -/
theorem targetNack_of_past {x : Hold} (hx : s.holdOf ep pk.hdr = some x) (hpast : x.past = true) :
    s.targetNack ep pk = s.holdLate ep pk (nget x.made 0 (s.nackTarget pk)) := by
  simp only [targetNack, hx, hpast, if_true]
  rfl

/-- A hold with one more retry toward a target scheduled at a notch (R192). -/
def scheduleRetry (target tries now : Nat) (y : Hold) : Hold :=
  { y with due := y.due ++ [(target, tries, now)], made := mapPut y.made target tries }

/-- A NACK of a retryable status schedules a retry while the hold has any left for its target (R192). -/
theorem targetNack_of_retryable {x : Hold} (hx : s.holdOf ep pk.hdr = some x) (hpast : x.past = false)
    (hst : nackStatus pk = stNOPOOL ∨ nackStatus pk = stPOISON)
    (hleft : nget x.made 0 (s.nackTarget pk) < s.get (niBase ep) F.NI_MC_CTL_RETRY) :
    s.targetNack ep pk =
      s.updHold x.id (scheduleRetry (s.nackTarget pk) (nget x.made 0 (s.nackTarget pk) + 1) s.tmo) := by
  have hretry : ((pk.hdr.opc % 16 == stNOPOOL || pk.hdr.opc % 16 == stPOISON) &&
      decide (nget x.made 0 (s.build.node pk.hdr.scol pk.hdr.srow) < s.get (niBase ep) F.NI_MC_CTL_RETRY)) = true := by
    rw [Bool.and_eq_true, Bool.or_eq_true, beq_iff_eq, beq_iff_eq, decide_eq_true_eq]
    exact ⟨hst, hleft⟩
  simp only [targetNack, hx, hpast, hretry, Bool.false_eq_true, if_false, if_true]
  rfl

/-! Retries and the end of a hold (R191, R192). -/

/-- The retries that the holds of an NI have scheduled. -/
def retriesDue (s : State) (ep : Nat) : List (Hold × Nat × Nat × Nat) :=
  (s.holds.filter (fun x => x.ep == ep)).flatMap (fun x => x.due.map (fun d => (x, d)))

/-- A hold one of whose retries is launching: the retry's number becomes 0. -/
def markLaunching (d : Nat × Nat × Nat) (y : Hold) : Hold :=
  { y with due := updFirst (fun e => e == d) (fun e => (e.1, 0, e.2.2)) y.due }

/-- Once its backoff has passed, a retry that is not launching yet reads its hold buffer (R192). -/
theorem mcRetry_of_due {k : Nat} {x : Hold} {d : Nat × Nat × Nat} {u : State} (hd : (s.retriesDue ep)[k]? = some (x, d))
    (hn : d.2.1 ≠ 0) (hu : s.passTo (d.2.2 + 64 * 2 ^ (d.2.1 - 1) + 1) = u) :
    s.mcRetry ep k = (u.updHold x.id (markLaunching d)).readMem (u.bufAt ep x.buf).1 (u.bufAt ep x.buf).2 x.pkt.hdr.len
      (.mcRetry x.id d.1) := by
  obtain rfl := hu
  have hd : ((s.holds.filter (fun x => x.ep == ep)).flatMap (fun x => x.due.map (fun d => (x, d))))[k]? = some (x, d) := hd
  simp only [mcRetry, hd, beq_false_of_ne hn, Bool.false_eq_true, if_false]
  rfl

/-- A hold that has ended: its buffer is free, and only what it was is kept for late NACKs (R191, R192). -/
def endHold (s : State) (ep : Nat) (x : Hold) : State :=
  ((s.freeBuf ep x.buf).updHold x.id (fun y => { y with past := true })).checkOp' x.op

/-- A hold without a scheduled retry ends HOLD after its last launch (R191). -/
theorem holdExpire_of_noRetry {k : Nat} {x : Hold} (hx : (s.holds.filter (fun x => x.ep == ep && !x.past))[k]? = some x)
    (hdue : x.due = []) :
    s.holdExpire ep k = (s.passTo (x.launched.getD 0 + s.get (niBase ep) F.NI_MC_CTL_HOLD + 1)).endHold ep x := by
  simp only [holdExpire, hx, hdue, List.isEmpty_nil, Bool.not_true, Bool.false_eq_true, if_false]
  rfl

/-! The accumulate windows (R233). -/

/-- A REDUCE packet of KIND ACC is looked up in the windows of its NI. -/
theorem accRow_of_acc (h : s.takeArrival ep (s.accArrival ep) = some (a, s1)) (hkind : bitAt a.pkt.hdr.opc 4 = false) :
    s.accRow ep = s1.takeAcc ep a.pkt := by
  simp only [accRow, h, hkind, Bool.false_eq_true, if_false]

theorem takeAcc_of_match {w : Nat} (h : s.matchAwin ep pk.hdr = some w) : s.takeAcc ep pk = s.accWindow ep w pk := by
  simp only [takeAcc, h]

/-- At a node one that matches no window is discarded with NOWIN, and counted (R233). -/
theorem takeAcc_of_noWindow (h : s.matchAwin ep pk.hdr = none) (hnode : ep < 0xF00) :
    s.takeAcc ep pk = (s.redDisc ep).errBit (niBase ep) F.NI_RED_ERR_NOWIN 8 (srcEp ep) stBADCMD (pk.hdr.tag % 4096) := by
  simp only [takeAcc, h, hnode, decide_true, Bool.true_or, if_true]

end Sys2Proof.Machine.State

namespace Sys2Proof.Safety
open Sys2Proof.Machine

section Multicast
variable {s s1 : State} {ep : Nat} {a : Arrival} (hep : niEp s.build ep = true) (hon : s.epOn ep = true) (hs : s.stopped = false)
include hep hon hs

/-- A row at the NI of a node or port block that runs is its effect, and what follows from it. -/
theorem atBlockNi_of_row {t : State} {f : State → State} (hrow : f s = t) : atBlockNi ep s f = .next (s.within t.settle) := by
  rw [atBlockNi_of_on hep hon hs, hrow]

/-- MC_TARGET_RECEIVE takes the multicast packet that has arrived (R184). -/
theorem exec_mcTargetReceive (ha : s.takeArrival ep (s.mcArrival ep) = some (a, s1)) :
    exec (.mcTargetReceive ep) s = .next (s.within (s1.mcTarget ep a.pkt).settle) :=
  atBlockNi_of_row hep hon hs (f := fun s => s.mcRow ep) (State.mcRow_of_taken ha)

/-- MC_RELAY (R195). -/
theorem exec_mcRelay : exec (.mcRelay ep) s = .next (s.within (s.relayLaunch ep).settle) :=
  atBlockNi_of_row hep hon hs (f := fun s => s.relayLaunch ep) rfl

/-- PER_TARGET_NACK takes the NACK that has arrived (R192). -/
theorem exec_perTargetNack (ha : s.takeArrival ep (fun x => s.replyHere ep tNACK x && classOf x.pkt.hdr.vcn == 1) = some (a, s1)) :
    exec (.perTargetNack ep) s = .next (s.within (s1.targetNack ep a.pkt).settle) :=
  atBlockNi_of_row hep hon hs (f := fun s => s.mcNackRow ep) (State.mcNackRow_of_taken ha)

/-- MC_UNICAST_RETRY (R192). -/
theorem exec_mcUnicastRetry (k : Nat) : exec (.mcUnicastRetry ep k) s = .next (s.within (s.mcRetry ep k).settle) :=
  atBlockNi_of_row hep hon hs (f := fun s => s.mcRetry ep k) rfl

/-- MC_HOLD_EXPIRY (R191). -/
theorem exec_mcHoldExpiry (k : Nat) : exec (.mcHoldExpiry ep k) s = .next (s.within (s.holdExpire ep k).settle) :=
  atBlockNi_of_row hep hon hs (f := fun s => s.holdExpire ep k) rfl

/-- REDUCE_ACC takes the packet of KIND ACC that has arrived (R233, R234). -/
theorem exec_reduceAcc (ha : s.takeArrival ep (s.accArrival ep) = some (a, s1)) (hkind : bitAt a.pkt.hdr.opc 4 = false) :
    exec (.reduceAcc ep) s = .next (s.within (s1.takeAcc ep a.pkt).settle) :=
  atBlockNi_of_row hep hon hs (f := fun s => s.accRow ep) (State.accRow_of_acc ha hkind)

end Multicast

/-- Settles O52: each row is its effect on the arrival, relay or hold that it names, and what follows from it. -/
theorem multicastAndReduceRows : Obligations.MulticastAndReduceRows := by
  unfold Obligations.MulticastAndReduceRows
  intro s s1 ep a hep hon hs
  have hne : ep ≠ 0xF7E := by simpa using (Bool.and_eq_true_iff.1 hep).1
  refine ⟨fun ha => ?target, fun r hr => ?relay, fun ha => ?nack, fun k x d hd hn => ?retry, fun k x hx hdue => ?expiry,
    fun ha hkind => ?acc⟩
  case target =>
    rw [exec_mcTargetReceive hep hon hs ha]
    exact ⟨fun h => by rw [State.mcTarget_of_not_relays h], fun h hxv => by rw [State.mcTarget_of_relays h hxv]⟩
  case relay =>
    intro n link q hbucket hopen hfree hfirst hcredits hlathe
    rw [exec_mcRelay hep hon hs, State.relayLaunch_of_room hr hne hbucket ⟨hopen, hfree, hfirst, hcredits, hlathe⟩]
  case nack =>
    intro st target
    rw [exec_perTargetNack hep hon hs ha]
    refine ⟨fun hnone hst => ?_, fun hnone hst => ?_, fun x hx hpast => ?_, fun x hx hpast hst hleft => ?_⟩
    · rw [State.targetNack_of_noHold hnone hst]
      rfl
    · rw [State.targetNack_of_noHold_epoch hnone hst]
      rfl
    · rw [State.targetNack_of_past hx hpast]
      rfl
    · rw [State.targetNack_of_retryable hx hpast hst hleft]
      rfl
  case retry =>
    rw [exec_mcUnicastRetry hep hon hs, State.mcRetry_of_due hd hn rfl]
    rfl
  case expiry =>
    rw [exec_mcHoldExpiry hep hon hs, State.holdExpire_of_noRetry hx hdue]
    rfl
  case acc =>
    rw [exec_reduceAcc hep hon hs ha hkind]
    exact ⟨fun w hw => by rw [State.takeAcc_of_match hw], fun hnone hnode => by rw [State.takeAcc_of_noWindow hnone hnode]; rfl⟩

end Sys2Proof.Safety
end

/-! ### The fit of a magnitude -/

section
namespace Sys2Proof.Machine

/-- The number of bits is the least exponent of a power of two above the number. -/
theorem bitLen_le_iff (n l : Nat) : bitLen n ≤ l ↔ n < 2 ^ l := by
  by_cases hn : n = 0
  · simp [bitLen, hn]
  · rw [bitLen, if_neg (by simpa using hn), Nat.succ_le_iff, Nat.log2_lt hn]

/-- A floored quotient of at least one has at most `m` bits exactly where the exact quotient lies below 2^m, for a negative `m` too. -/
theorem bitLen_div_le_iff {a t : Nat} (ht : 0 < t) (hta : t ≤ a) (m : ℤ) :
    (bitLen (a / t) : ℤ) ≤ m ↔ (a : ℚ) / t < 2 ^ m := by
  have htq : (0 : ℚ) < t := by exact_mod_cast ht
  obtain hm | hm := le_or_gt 0 m
  · lift m to ℕ using hm
    rw [Nat.cast_le, bitLen_le_iff, Nat.div_lt_iff_lt_mul ht, div_lt_iff₀ htq, zpow_natCast]
    exact_mod_cast Iff.rfl
  · have hone : (1 : ℚ) ≤ a / t := (one_le_div htq).2 (by exact_mod_cast hta)
    have hsmall : (2 : ℚ) ^ m < 1 := zpow_lt_one_of_neg₀ one_lt_two hm
    exact iff_of_false (by omega) (hsmall.trans_le hone).not_gt

/-- The thresholds are at most 64 quarters, so that 64 units always make a quotient of at least one. -/
theorem thresh4_bounds (fmt : Nat) : 0 < thresh4 fmt ∧ thresh4 fmt ≤ 64 := by
  rw [thresh4]
  split_ifs <;> decide

/-- A scale is at least the fit of a magnitude exactly where the scaled magnitude lies below the saturation threshold (R212). -/
theorem fit_le_iff (fmt : Nat) {n : Nat} (hn : 0 < n) (k : ℤ) :
    fit fmt n ≤ k ↔ (n : ℚ) * 2 ^ (-149 : ℤ) / 2 ^ k < (thresh4 fmt : ℚ) / 4 := by
  obtain ⟨hpos, hle⟩ := thresh4_bounds fmt
  have htq : (0 : ℚ) < thresh4 fmt := by exact_mod_cast hpos
  have hk : (0 : ℚ) < 2 ^ k := zpow_pos two_pos k
  have hscale : (2 : ℚ) ^ (k + 153) = 16 * 2 ^ k / 2 ^ (-149 : ℤ) := by
    rw [zpow_add₀ two_ne_zero]
    norm_num
    ring
  rw [fit, sub_le_iff_le_add, bitLen_div_le_iff hpos (by omega), hscale, div_lt_div_iff₀ htq (by positivity),
    div_lt_div_iff₀ hk four_pos]
  push_cast
  constructor <;> intro h <;> linarith

end Sys2Proof.Machine

namespace Sys2Proof.Safety
open Sys2Proof.Machine

/-- Settles O17: by `fit_le_iff`, at the fit itself and at any scale that brings the magnitude below the threshold. -/
theorem fitIsTheSmallestScale : Obligations.FitIsTheSmallestScale := by
  unfold Obligations.FitIsTheSmallestScale
  intro fmt n T hT hn
  have hthresh : T = (thresh4 fmt : ℚ) / 4 := by
    obtain ⟨rfl, rfl⟩ | ⟨rfl, rfl⟩ | ⟨rfl, rfl⟩ := hT <;> norm_num [thresh4]
  rw [hthresh]
  exact ⟨(fit_le_iff fmt hn _).1 le_rfl, fun k => (fit_le_iff fmt hn k).2⟩

end Sys2Proof.Safety
end

/-! ### The Burl combiner -/

section
namespace Sys2Proof.Machine.State

variable {s : State} {n port vc k : Nat} {pk : Pkt} {e : BurlEnt}

/-! The head packet of a VC buffer. -/

theorem bufOf_setBuf (s : State) (k : Nat) (l : List BFlit) : (s.setBuf k l).bufOf k = l :=
  (mapGet_mapSet s.buf [] l k k).trans (if_pos rfl)

/-- The flits of the head packet are the first of its buffer. -/
theorem headFlits_prefix (s : State) (k : Nat) : s.headFlits k <+: s.bufOf k := by
  unfold headFlits
  split
  next => exact List.nil_prefix
  next f r hbuf =>
    rw [hbuf]
    split
    next => exact (List.prefix_cons_inj f).2 (List.takeWhile_prefix _)
    next => exact List.nil_prefix

/-- A packet that the combiner takes leaves its buffer and gives its credits back. -/
theorem absorbHead_frame (s : State) (k len : Nat) : { s.absorbHead k len with buf := s.buf, owed := s.owed, crw := s.crw } = s :=
  (congrArg (fun r : State => { r with buf := s.buf }) (giveCredit_frame (s.setBuf k _) ..) :)

theorem absorbHead_eq (s : State) (k len : Nat) : ∃ b w c, s.absorbHead k len = { s with buf := b, owed := w, crw := c } := by
  have hframe := s.absorbHead_frame k len
  generalize s.absorbHead k len = t at hframe
  exact ⟨t.buf, t.owed, t.crw, (congrArg (fun r : State => { r with buf := t.buf, owed := t.owed, crw := t.crw }) hframe :)⟩

/-- What is left of the buffer stood behind the packet. -/
theorem bufOf_absorbHead (s : State) (k : Nat) :
    s.bufOf k = s.headFlits k ++ (s.absorbHead k (s.headFlits k).length).bufOf k := by
  have hbuf : (s.absorbHead k (s.headFlits k).length).buf = (s.setBuf k ((s.bufOf k).drop (s.headFlits k).length)).buf :=
    (congrArg State.buf (giveCredit_frame ..) :)
  have hrest : (s.absorbHead k (s.headFlits k).length).bufOf k = (s.bufOf k).drop (s.headFlits k).length := by
    rw [bufOf, hbuf]
    exact bufOf_setBuf ..
  rw [hrest]
  exact (List.prefix_iff_eq_append.1 (s.headFlits_prefix k)).symm

/-! Entries of the combiner. -/

/-- The number of a new entry is above that of every other. -/
theorem id_lt_burlId (h : e ∈ s.burl) : e.id < s.burlId := by
  have hfold : ∀ (l : List BurlEnt) (m : Nat), m ≤ l.foldl (fun m e => max m (e.id + 1)) m ∧
      ∀ x ∈ l, x.id < l.foldl (fun m e => max m (e.id + 1)) m := by
    intro l
    induction l with
    | nil => simp
    | cons a l ih =>
      intro m
      obtain ⟨hle, hmem⟩ := ih (max m (a.id + 1))
      refine ⟨(le_max_left ..).trans hle, fun x hx => ?_⟩
      obtain rfl | hx := List.mem_cons.1 hx
      · exact (le_max_right m (x.id + 1)).trans hle
      · exact hmem x hx
  exact (hfold s.burl 0).2 e h

/-- A held entry of a router is a partner of a packet (R228). -/
def holdsPartner (n : Nat) (pk : Pkt) (e : BurlEnt) : Bool := e.node == n && !e.released && partners e.pkt pk

/-- The header of a held packet with another merged into it: the weights and escalation counts add up, the saturation count stays at
its greatest value, and a group that could not be decoded poisons the packet (R209, R224, R230). -/
def mergedHdr (a b : Hdr) (sat : Nat) (bad : Bool) : Hdr :=
  let h := { a with aux := packFields [(12, wtOf a + wtOf b), (12, min 4095 (satcOf a + satcOf b + sat)), (8, esccOf a + esccOf b)] }
  if bad then h.setFlag fPOISON true else h

theorem aux_mergedHdr (a b : Hdr) (sat : Nat) (bad : Bool) : (mergedHdr a b sat bad).aux =
    packFields [(12, wtOf a + wtOf b), (12, min 4095 (satcOf a + satcOf b + sat)), (8, esccOf a + esccOf b)] := by
  cases bad <;> rfl

/-- Weight and escalation count of a merged packet are the sums where these fit their fields (R224). -/
theorem counts_mergedHdr (a b : Hdr) (sat : Nat) (bad : Bool) (hw : wtOf a + wtOf b ≤ 4095) (hesc : esccOf a + esccOf b ≤ 255) :
    wtOf (mergedHdr a b sat bad) = wtOf a + wtOf b ∧ esccOf (mergedHdr a b sat bad) = esccOf a + esccOf b := by
  have hread := readFields_packFields_of_fits
    [(12, wtOf a + wtOf b), (12, min 4095 (satcOf a + satcOf b + sat)), (8, esccOf a + esccOf b)] (by simp; omega)
  rw [← aux_mergedHdr a b sat bad] at hread
  simp only [List.map_cons, List.map_nil, readFields, List.cons.injEq] at hread
  exact ⟨hread.1, hread.2.2.1⟩

/-- An entry with a packet merged into it. -/
def mergedEnt (s : State) (n : Nat) (e : BurlEnt) (pk : Pkt) : BurlEnt :=
  let m := mergePay (pk.hdr.opc % 16) e.pkt.pay pk.pay
  let bad := m.2.2.2 != 0
  { e with
    pkt := { e.pkt with hdr := mergedHdr e.pkt.hdr pk.hdr m.2.1 bad, pay := m.1 }
    merged := e.merged + 1, released := bad || s.fanInMet n (e.merged + 1) }

/-- Weights and escalation counts of an entry and of the packet merged into it add up, and the fan-in condition releases it (R230, R231). -/
theorem mergedEnt_counts (s : State) (n : Nat) (hw : wtOf e.pkt.hdr + wtOf pk.hdr ≤ 4095) (hesc : esccOf e.pkt.hdr + esccOf pk.hdr ≤ 255) :
    wtOf (s.mergedEnt n e pk).pkt.hdr = wtOf e.pkt.hdr + wtOf pk.hdr ∧
    esccOf (s.mergedEnt n e pk).pkt.hdr = esccOf e.pkt.hdr + esccOf pk.hdr ∧
    (s.fanInMet n (e.merged + 1) = true → (s.mergedEnt n e pk).released = true) := by
  unfold mergedEnt
  obtain ⟨hwt, hescc⟩ := counts_mergedHdr e.pkt.hdr pk.hdr _ _ hw hesc
  exact ⟨hwt, hescc, fun hmet => Bool.or_eq_true_iff.2 (.inr hmet)⟩

/-- The counters of narrow arithmetic change registers and pending reports alone (R223). -/
theorem kerfCount_frame (s : State) (sat nans bad : Nat) :
    { s.kerfCount sat nans bad with regs := s.regs, reports := s.reports } = s := by
  unfold kerfCount
  extract_lets t u v
  have ht : { t with regs := s.regs, reports := s.reports } = s := by
    dsimp only [t]
    split <;> rfl
  have hu : { u with regs := s.regs, reports := s.reports } = s := by
    dsimp only [u]
    split <;> exact ht
  dsimp only [v]
  split
  · exact hu
  · refine List.foldlRecOn (motive := fun v : State => { v with regs := s.regs, reports := s.reports } = s) _ _ hu fun v hv _ _ => ?_
    obtain ⟨_, _, hreport⟩ := report_eq v 7 (srcGlob 7) stPOISON 0xFF
    rw [hreport]
    exact hv

/-- The state in which a held entry has taken the packet at the head of an input in, and what the sum saturates is counted (R223, R230). -/
def mergeHead (s : State) (n k : Nat) (e : BurlEnt) (pk : Pkt) : State :=
  let m := mergePay (pk.hdr.opc % 16) e.pkt.pay pk.pay
  (State.kerfCount { s.absorbHead k (s.headFlits k).length with
    burl := updFirst (fun x => x.id == e.id) (fun _ => s.mergedEnt n e pk) s.burl } m.2.1 m.2.2.1 m.2.2.2).bump (nodeBase n)
      F.BRL_COMB_CNT_COUNT 1

/-- The state in which that packet has become an entry of its own (R229, R231). -/
def holdHead (s : State) (n k : Nat) (pk : Pkt) : State :=
  { s.absorbHead k (s.headFlits k).length with burl := s.burl ++ [⟨s.burlId, n, pk, 1, s.tmo, s.fanInMet n 1⟩] }

/-- The state in which that packet goes on uncombined, and is counted (R229). -/
def passHeadCounted (s : State) (n k : Nat) : State := (s.markPass k).bump (nodeBase n) F.BRL_PASS_CNT_COUNT 1

theorem get_passHeadCounted (s : State) (n k : Nat) : (s.passHeadCounted n k).get (nodeBase n) F.BRL_PASS_CNT_COUNT =
    min (s.get (nodeBase n) F.BRL_PASS_CNT_COUNT + 1) (2 ^ 32 - 1) :=
  get_bump_same _ _ _ _ (by decide)

theorem mergeHead_frame (s : State) (n k : Nat) (e : BurlEnt) (pk : Pkt) :
    { s.mergeHead n k e pk with
      buf := s.buf, owed := s.owed, crw := s.crw, burl := s.burl, regs := s.regs, reports := s.reports } = s := by
  have hcounted : { s.mergeHead n k e pk with
        buf := s.buf, owed := s.owed, crw := s.crw, burl := s.burl, regs := s.regs, reports := s.reports } =
      { s.absorbHead k (s.headFlits k).length with
        buf := s.buf, owed := s.owed, crw := s.crw, burl := s.burl, regs := s.regs, reports := s.reports } :=
    (congrArg (fun r : State => { r with
      buf := s.buf, owed := s.owed, crw := s.crw, burl := s.burl, regs := s.regs, reports := s.reports }) (kerfCount_frame ..) :)
  exact hcounted.trans (congrArg (fun r : State => { r with burl := s.burl, regs := s.regs, reports := s.reports })
    (absorbHead_frame s k (s.headFlits k).length) :)

theorem burl_mergeHead (s : State) (n k : Nat) (e : BurlEnt) (pk : Pkt) :
    (s.mergeHead n k e pk).burl = updFirst (fun x => x.id == e.id) (fun _ => s.mergedEnt n e pk) s.burl :=
  (congrArg State.burl (kerfCount_frame ..) :)

theorem holdHead_frame (s : State) (n k : Nat) (pk : Pkt) :
    { s.holdHead n k pk with buf := s.buf, owed := s.owed, crw := s.crw, burl := s.burl } = s :=
  (congrArg (fun r : State => { r with burl := s.burl }) (absorbHead_frame s k (s.headFlits k).length) :)

/-! What the combiner does with the packet at the head of an input (R229, R230). -/

/-- A whole packet waits at the head of an input's VC that the combiner is to see and has not let pass yet (R227, R229). -/
structure Combinable (s : State) (n port vc : Nat) (pk : Pkt) : Prop where
  packet : flitsPkt pQB (s.headFlits (inKey n pQB port vc)) = pk
  whole : (s.headFlits (inKey n pQB port vc)).any (fun g => g.flit.tl) = true
  eligible : s.burlEligible n pQB pk = true
  unmarked : (s.headFlits (inKey n pQB port vc)).any (fun g => g.pass) = false

/-- A packet with a poisoned flit is never combined (R209). -/
theorem burlAbsorb_of_poisoned (h : s.Combinable n port vc pk) (hbad : pk.bad ≠ []) :
    s.burlAbsorb n port vc = s.markPass (inKey n pQB port vc) := by
  obtain ⟨rfl, hwhole, helig, hnew⟩ := h
  simp only [burlAbsorb, hwhole, helig, hnew, List.isEmpty_eq_false_iff.2 hbad, Bool.not_true, Bool.not_false, Bool.or_self,
    Bool.false_eq_true, if_false, if_true]

/-- One that partners a held entry merges into it, where neither weight nor escalation count would pass its field (R230). -/
theorem burlAbsorb_of_partner (h : s.Combinable n port vc pk) (hclean : pk.bad = [])
    (he : s.burl.find? (holdsPartner n pk) = some e) : s.burlAbsorb n port vc =
      if 4095 < wtOf e.pkt.hdr + wtOf pk.hdr then s.passHeadCounted n (inKey n pQB port vc)
      else if 255 < esccOf e.pkt.hdr + esccOf pk.hdr then s.markPass (inKey n pQB port vc)
      else s.mergeHead n (inKey n pQB port vc) e pk := by
  obtain ⟨rfl, hwhole, helig, hnew⟩ := h
  have he : s.burl.find? (fun e => e.node == n && !e.released &&
    partners e.pkt (flitsPkt pQB (s.headFlits (inKey n pQB port vc)))) = some e := he
  obtain ⟨_, _, _, htaken⟩ := s.absorbHead_eq (inKey n pQB port vc) (s.headFlits (inKey n pQB port vc)).length
  simp only [burlAbsorb, mergeHead, htaken, hwhole, helig, hnew, hclean, he, List.isEmpty_nil, Bool.not_true, Bool.or_self,
    Bool.false_eq_true, if_false]
  rfl

/-- One without a partner takes a free entry, of which a router has 32 (R229). -/
theorem burlAbsorb_of_noPartner (h : s.Combinable n port vc pk) (hclean : pk.bad = [])
    (hnone : s.burl.find? (holdsPartner n pk) = none) : s.burlAbsorb n port vc =
      if (s.burl.filter (fun e => e.node == n)).length < 32 then s.holdHead n (inKey n pQB port vc) pk
      else s.passHeadCounted n (inKey n pQB port vc) := by
  obtain ⟨rfl, hwhole, helig, hnew⟩ := h
  have hnone : s.burl.find? (fun e => e.node == n && !e.released &&
    partners e.pkt (flitsPkt pQB (s.headFlits (inKey n pQB port vc)))) = none := hnone
  obtain ⟨_, _, _, htaken⟩ := s.absorbHead_eq (inKey n pQB port vc) (s.headFlits (inKey n pQB port vc)).length
  simp only [burlAbsorb, holdHead, htaken, hwhole, helig, hnew, hclean, hnone, List.isEmpty_nil, Bool.not_true, Bool.or_self,
    Bool.false_eq_true, if_false]
  rfl

/-- A held entry whose hold runs out is released (R231). -/
theorem burlExpire_of_held (he : (s.burl.filter (fun e => e.node == n && !e.released))[k]? = some e) :
    s.burlExpire n k = { s.passTo (if s.get (nodeBase n) F.BRL_CTL_HOLD = 0 then e.born
        else e.born + s.get (nodeBase n) F.BRL_CTL_HOLD + 1) with
      burl := updFirst (fun x => x.id == e.id) (fun x => { x with released := true }) s.burl } := by
  simp only [burlExpire, he, passTo_burl, beq_iff_eq]

end Sys2Proof.Machine.State
end

section
namespace Sys2Proof.Safety
open Sys2Proof.Machine

section Absorb
variable {s : State} {n port vc : Nat} {pk : Pkt} (hon : s.nodeOn n = true) (hp : port < 5) (hvc : vc < 8)
include hon hp hvc

/-- BURL_ABSORB is its effect, where that keeps the queue and the build. -/
theorem exec_burlAbsorb {t : State} (ht : s.burlAbsorb n port vc = t) (hq : t.pending = s.pending) (hb : t.build = s.build) :
    exec (.burlAbsorb n port vc) s = .next t := by
  have h := atNode_of_on (f := fun s => if port < 5 && vc < 8 then s.burlAbsorb n port vc else s) hon
  rw [if_pos (by simp [hp, hvc]), ht, within_self s t hq hb] at h
  exact h

/-- A packet with a poisoned flit is marked to pass, and nothing else changes (R209). -/
theorem exec_burlAbsorb_of_poisoned (h : s.Combinable n port vc pk) (hbad : pk.bad ≠ []) :
    exec (.burlAbsorb n port vc) s = .next (s.markPass (inKey n pQB port vc)) :=
  exec_burlAbsorb hon hp hvc (State.burlAbsorb_of_poisoned h hbad) rfl rfl

/-- One without a partner takes a free entry and leaves its input (R229). -/
theorem exec_burlAbsorb_of_free (h : s.Combinable n port vc pk) (hclean : pk.bad = [])
    (hnone : s.burl.find? (State.holdsPartner n pk) = none) (hfree : (s.burl.filter (fun e => e.node == n)).length < 32) :
    ∃ t, exec (.burlAbsorb n port vc) s = .next t ∧ t.burl = s.burl ++ [⟨s.burlId, n, pk, 1, s.tmo, s.fanInMet n 1⟩] ∧
      (∀ e ∈ s.burl, e.id ≠ s.burlId) ∧
      s.bufOf (inKey n pQB port vc) = s.headFlits (inKey n pQB port vc) ++ t.bufOf (inKey n pQB port vc) ∧ t.regs = s.regs := by
  have hframe := s.holdHead_frame n (inKey n pQB port vc) pk
  exact ⟨_, exec_burlAbsorb hon hp hvc ((State.burlAbsorb_of_noPartner h hclean hnone).trans (if_pos hfree))
    (congrArg State.pending hframe :) (congrArg State.build hframe :), rfl, fun e he => (State.id_lt_burlId he).ne,
    s.bufOf_absorbHead _, (congrArg State.regs hframe :)⟩

/-- Where all 32 entries are taken it passes, and is counted (R229). -/
theorem exec_burlAbsorb_of_full (h : s.Combinable n port vc pk) (hclean : pk.bad = [])
    (hnone : s.burl.find? (State.holdsPartner n pk) = none) (hfull : 32 ≤ (s.burl.filter (fun e => e.node == n)).length) :
    ∃ t, exec (.burlAbsorb n port vc) s = .next t ∧ t.burl = s.burl ∧
      t.get (nodeBase n) F.BRL_PASS_CNT_COUNT = min (s.get (nodeBase n) F.BRL_PASS_CNT_COUNT + 1) (2 ^ 32 - 1) :=
  ⟨_, exec_burlAbsorb hon hp hvc ((State.burlAbsorb_of_noPartner h hclean hnone).trans (if_neg (Nat.not_lt.2 hfull))) rfl rfl, rfl,
    s.get_passHeadCounted ..⟩

/-- One that partners a held entry merges into it, and weights and escalation counts add up (R230, R231). -/
theorem exec_burlAbsorb_of_partner {e : BurlEnt} (h : s.Combinable n port vc pk) (hclean : pk.bad = [])
    (he : s.burl.find? (State.holdsPartner n pk) = some e) (hw : State.wtOf e.pkt.hdr + State.wtOf pk.hdr ≤ 4095)
    (hesc : State.esccOf e.pkt.hdr + State.esccOf pk.hdr ≤ 255) :
    ∃ t e', exec (.burlAbsorb n port vc) s = .next t ∧ t.burl = updFirst (fun x => x.id == e.id) (fun _ => e') s.burl ∧
      State.wtOf e'.pkt.hdr = State.wtOf e.pkt.hdr + State.wtOf pk.hdr ∧
      State.esccOf e'.pkt.hdr = State.esccOf e.pkt.hdr + State.esccOf pk.hdr ∧ e'.merged = e.merged + 1 ∧
      e'.pkt.pay = (State.mergePay (pk.hdr.opc % 16) e.pkt.pay pk.pay).1 ∧
      (s.fanInMet n (e.merged + 1) = true → e'.released = true) := by
  have hrow : s.burlAbsorb n port vc = s.mergeHead n (inKey n pQB port vc) e pk := by
    rw [State.burlAbsorb_of_partner h hclean he, if_neg (Nat.not_lt.2 hw), if_neg (Nat.not_lt.2 hesc)]
  have hframe := s.mergeHead_frame n (inKey n pQB port vc) e pk
  have hexec := exec_burlAbsorb hon hp hvc hrow (congrArg State.pending hframe :) (congrArg State.build hframe :)
  obtain ⟨hwt, hescc, hmet⟩ := s.mergedEnt_counts n hw hesc
  exact ⟨_, s.mergedEnt n e pk, hexec, s.burl_mergeHead .., hwt, hescc, rfl, rfl, hmet⟩

/-- Where the weight would pass 4,095 it passes, and is counted (R230). -/
theorem exec_burlAbsorb_of_overweight {e : BurlEnt} (h : s.Combinable n port vc pk) (hclean : pk.bad = [])
    (he : s.burl.find? (State.holdsPartner n pk) = some e) (hw : 4095 < State.wtOf e.pkt.hdr + State.wtOf pk.hdr) :
    ∃ t, exec (.burlAbsorb n port vc) s = .next t ∧ t.burl = s.burl ∧
      t.get (nodeBase n) F.BRL_PASS_CNT_COUNT = min (s.get (nodeBase n) F.BRL_PASS_CNT_COUNT + 1) (2 ^ 32 - 1) :=
  ⟨_, exec_burlAbsorb hon hp hvc ((State.burlAbsorb_of_partner h hclean he).trans (if_pos hw)) rfl rfl, rfl, s.get_passHeadCounted ..⟩

/-- Where the escalation count alone would pass 255 it is marked to pass, and nothing else changes (R230, log 38). -/
theorem exec_burlAbsorb_of_overescalated {e : BurlEnt} (h : s.Combinable n port vc pk) (hclean : pk.bad = [])
    (he : s.burl.find? (State.holdsPartner n pk) = some e) (hw : State.wtOf e.pkt.hdr + State.wtOf pk.hdr ≤ 4095)
    (hesc : 255 < State.esccOf e.pkt.hdr + State.esccOf pk.hdr) :
    exec (.burlAbsorb n port vc) s = .next (s.markPass (inKey n pQB port vc)) :=
  exec_burlAbsorb hon hp hvc
    (by rw [State.burlAbsorb_of_partner h hclean he, if_neg (Nat.not_lt.2 hw), if_pos hesc]) rfl rfl

end Absorb

/-- The notch at which the hold of an entry has run out; a HOLD of 0 holds nothing (R231). -/
def holdEnd (s : State) (n : Nat) (e : BurlEnt) : Nat :=
  if s.get (nodeBase n) F.BRL_CTL_HOLD = 0 then e.born else e.born + s.get (nodeBase n) F.BRL_CTL_HOLD + 1

/-- BURL_HOLD_EXPIRY where passing time takes no snapshot copies of the East units (R231). -/
theorem exec_burlHoldExpiry {s : State} {n k : Nat} {e : BurlEnt} (hon : s.nodeOn n = true)
    (he : (s.burl.filter (fun e => e.node == n && !e.released))[k]? = some e) (hsnap : s.running = true ∨ s.snapDue = none) :
    ∃ t, exec (.burlHoldExpiry n k) s = .next t ∧
      t.burl = updFirst (fun x => x.id == e.id) (fun x => { x with released := true }) s.burl ∧
      t.tmo = max s.tmo (holdEnd s n e) ∧ { clocksOf t s with burl := s.burl } = s := by
  have hexec : exec (.burlHoldExpiry n k) s = .next (s.within (s.burlExpire n k)) :=
    atNode_of_on (f := fun s => s.burlExpire n k) hon
  obtain ⟨y, m, b, p, hpass⟩ := s.passTo_of_no_snap (holdEnd s n e) hsnap
  have hrow : s.burlExpire n k = { s with
      cyc := y, tmo := max s.tmo (holdEnd s n e), sub := m, buckets := b, spn := { s.spn with phase := p }
      burl := updFirst (fun x => x.id == e.id) (fun x => { x with released := true }) s.burl } := by
    rw [State.burlExpire_of_held he, ← holdEnd, hpass]
  rw [hrow] at hexec
  exact ⟨_, hexec, rfl, rfl, rfl⟩

/-- An entry of router 0 that has been held since notch 8. -/
def heldEntry : BurlEnt := ⟨0, 0, Pkt.bare Hdr.zero Ext.none, 1, 8, false⟩

/-- A block out of RUN that owes the East units their snapshot copies, with the domain of that router Lit and the entry held. -/
def heldOwed : State := { snapshotOwed.setDom 0 3 with burl := [heldEntry] }

/-- The hold runs out after the cycle in which the copies are taken. -/
theorem heldOwed_taken : heldOwed.nodeOn 0 = true ∧ heldOwed.snapDue = some 1 ∧ dueOf (exec (.burlHoldExpiry 0 0) heldOwed) = none := by
  decide +kernel

/-- Refutes O47: its states may owe a snapshot copy of the East units (R40, R424), which is taken while the clock runs on to the end of a
hold, so that more changes than the statement lists. What remains true is stated by `exec_burlHoldExpiry`, and for the packet at the head
of an input by `exec_burlAbsorb_of_poisoned`, `exec_burlAbsorb_of_free`, `exec_burlAbsorb_of_full`, `exec_burlAbsorb_of_partner`,
`exec_burlAbsorb_of_overweight` and `exec_burlAbsorb_of_overescalated`. -/
theorem not_burlCombines : ¬ Obligations.BurlCombines := by
  unfold Obligations.BurlCombines
  rintro ⟨-, hhold⟩
  obtain ⟨hon, howed, htaken⟩ := heldOwed_taken
  obtain ⟨t, ht, -, -, hframe⟩ := hhold heldOwed 0 0 heldEntry (by decide) hon rfl
  have hnone : t.snapDue = none := by simpa [dueOf, ht] using htaken
  have hstays : t.snapDue = heldOwed.snapDue := (congrArg State.snapDue hframe :)
  exact absurd (hnone.symm.trans (hstays.trans howed)) (by decide)

end Sys2Proof.Safety
end

/-! ### The Bowl and the Claim Arbiter -/

section
namespace Sys2Proof.Machine.State

variable {s s1 : State} {p k : Nat} {a : Arrival} {pk : Pkt} {e : BEnt} {x : BSlot}

/-! Packets at a Bowl port block (R239, R240). -/

theorem bowlRow_of_taken {commit : Bool} (h : s.takeArrival (0xF00 + p) (s.bowlArrival p commit) = some (a, s1)) :
    s.bowlRow p commit = s1.bowlCtl p a.pkt := by
  rw [bowlRow, h]

/-- A contribution that the Bowl of a port block takes. -/
def bowlContribution (s : State) (a : Arrival) : Bool := a.pkt.hdr.ptype == tREDUCE && bitAt a.pkt.hdr.opc 4 && !a.lt && !s.leaving a.pkt

theorem bowlDataRow_of_taken (h : s.takeArrival (0xF00 + p) s.bowlContribution = some (a, s1)) :
    s.bowlDataRow p = s1.bowlData a.pkt.hdr.job a.pkt := by
  have h : s.takeArrival (0xF00 + p) (fun a => a.pkt.hdr.ptype == tREDUCE && bitAt a.pkt.hdr.opc 4 && !a.lt && !s.leaving a.pkt) =
    some (a, s1) := h
  rw [bowlDataRow, h]

/-- The directory entry of a contribution's key. -/
def entryFor (s : State) (pk : Pkt) : Option BEnt :=
  s.bentOf pk.hdr.job (pk.hdr.tag % 4096) (pk.hdr.tag / 4096) (redChunk pk.hdr)

/-- A contribution whose key has no entry is discarded, counted and late (R240). -/
theorem bowlData_of_noEntry (h : s.entryFor pk = none) : s.bowlData pk.hdr.job pk =
    (s.bump 0 F.BWL_DISC_CNT_COUNT 1).bwlErr F.BWL_ERR_LATE (openSt 5) (pk.hdr.tag % 4096) := by
  have h : s.bentOf pk.hdr.job (pk.hdr.tag % 4096) (pk.hdr.tag / 4096) (redChunk pk.hdr) = none := h
  simp only [bowlData, h]

/-- The open slot `x` of entry `e` accepts a contribution, whose groups fit it, without being completed by it; `tl` is its tally then
(R240). -/
structure Accepts (s : State) (pk : Pkt) (e : BEnt) (x : BSlot) (tl : Tally) : Prop where
  entry : s.entryFor pk = some e
  granted : e.state = 1
  slot : s.slotOf e.id = some x
  unsent : x.sent = false
  format : pk.hdr.opc % 16 = e.fmt
  fits : redBoff pk.hdr / groupBytes e.fmt + (redValues pk).1.length / 64 ≤ e.ng
  taken : x.tally.take e.w pk.hdr (pk.poisoned || 0 < (redValues pk).2.1) = some (tl, true)
  incomplete : tl.done = false

/-- The sums of a slot with the values of `n` groups added from group `g` on (R240). -/
def sumsWith (x : BSlot) (g n : Nat) (vals : List Nat) : List Nat :=
  x.sums.take (64 * g) ++ List.zipWith f32Add ((x.sums.drop (64 * g)).take (64 * n)) vals ++ x.sums.drop (64 * (g + n))

/-- Such a contribution adds its values at its place, and its groups are counted unless it is poisoned (R240). -/
theorem bowlData_of_accepts {tl : Tally} (h : s.Accepts pk e x tl) : s.bowlData pk.hdr.job pk =
    (if pk.poisoned then s else s.kerfCount 0 (redValues pk).2.2 (redValues pk).2.1).updBslot x.slot (fun _ => { x with
      sums := sumsWith x (redBoff pk.hdr / groupBytes e.fmt) ((redValues pk).1.length / 64) (redValues pk).1, tally := tl }) := by
  obtain ⟨hentry, hgranted, hslot, hunsent, hformat, hfits, htaken, hopen⟩ := h
  have hentry : s.bentOf pk.hdr.job (pk.hdr.tag % 4096) (pk.hdr.tag / 4096) (redChunk pk.hdr) = some e := hentry
  have hgood : (e.fmt != e.fmt || decide (e.ng < redBoff pk.hdr / groupBytes e.fmt + (redValues pk).1.length / 64)) = false := by
    rw [bne_self_eq_false, Bool.false_or, decide_eq_false (Nat.not_lt.2 hfits)]
  simp only [bowlData, hentry, hgranted, hslot, hunsent, hformat, hgood, htaken, hopen, beq_self_eq_true, Bool.false_and,
    Bool.false_eq_true, if_false, if_true, sumsWith]

/-! Slots and entries that end (R239, R241, R242). -/

theorem resultDone_of_answered (hx : s.bslots.find? (fun x => x.slot == k) = some x) (hsent : x.sent = true) (hleft : x.left = 0)
    (he : s.bents.find? (fun e => e.id == x.ent) = some e) :
    s.resultDone k = (State.closeEnt { s with bslots := s.bslots.filter (fun y => y.slot != k) } e 2 stOK
      (if x.tally.poison then stPOISON else stOK)).bump 0 F.BWL_DONE_CNT_COUNT 1 := by
  simp only [resultDone, hx, hsent, hleft, he, Bool.not_true, bne_self_eq_false, Bool.or_self, Bool.false_eq_true, if_false]

theorem slotTimeout_of_unsent (hx : s.bslots.find? (fun x => x.slot == k) = some x) (hsent : x.sent = false) :
    s.slotTimeout k = (s.passTo (x.born + s.get 0 F.BWL_CTL_STMO + 1)).slotFall x := by
  simp only [slotTimeout, hx, hsent, Bool.false_eq_true, if_false]

theorem entExpire_of_closed (he : s.bents[k]? = some e) (hclosed : 2 ≤ e.state) :
    s.entExpire k = { s.passTo (e.since + s.get 0 F.BWL_CTL_MARK + 1) with bents := s.bents.filter (fun x => x.id != e.id) } := by
  simp only [entExpire, he, if_neg (Nat.not_lt.2 hclosed), passTo_bents]

/-! Claims that wait (R243-R245). -/

/-- Time that passes changes neither the banks nor their slots. -/
theorem passTo_banks (s : State) (d bk p : Nat) : (s.passTo d).freeSlot bk = s.freeSlot bk ∧ (s.passTo d).bowlBank p = s.bowlBank p ∧
    (s.passTo d).clmFrozen = s.clmFrozen := by
  obtain ⟨_, _, _, _, _, _, _, _, h⟩ := passTo_eq s d
  rw [h]
  exact ⟨rfl, rfl, rfl⟩

/-- No claim is served before itself (R245). -/
theorem servedBefore_self (s : State) (bk : Nat) (e : BEnt) : s.servedBefore bk e e = false := by simp [servedBefore]

/-- The only claim that waits is granted the free slot of its pool, unless the pool has granted one in this cycle (R243, R244). -/
theorem attemptOf_of_only {i : Nat} (hbents : s.bents = [e]) (hwaits : e.state = 0) (hopen : s.clmFrozen = false)
    (hfree : s.freeSlot (s.bowlBank e.port) = some i) (hnone : (s.passTo e.due).grantedNow (s.bowlBank e.port) = false) :
    s.attemptOf 0 = (s.passTo e.due).grantSlot e i := by
  obtain ⟨hslot, hbank, hfrozen⟩ := passTo_banks s e.due (s.bowlBank e.port) e.port
  have hattempt : (s.passTo e.due).attempt e = (s.passTo e.due).grantSlot e i := by
    simp only [attempt, hbank, hfrozen, hslot, hopen, hfree, hnone, Bool.or_self, Bool.false_eq_true, if_false]
  simp [attemptOf, claimAttempt, hbents, hwaits, servedBefore_self, hattempt]

/-! The registers of the Claim Arbiter (R246, R248). -/

/-- No register between the plan's own and the sync units' reads as zero in some builds. -/
theorem rowAt_mid_glob (b : Build) (a : Nat) (h0 : 0x500 ≤ a) (h1 : a < 0x2000) (r : RegRow) : rowAt b a ≠ some (r, true) := by
  rw [rowAt, locate_glob _ _ (by omega)]
  simp only [ne_eq, Option.bind_eq_some_iff, not_exists, not_and]
  intro x _
  rw [if_neg (by simp; omega), if_neg (by simp; omega)]
  simp

theorem writeGlob_clmCommit (s : State) (by' : AccBy) (d : Nat) :
    s.writeGlob by' 0x734 d = (stOK, { s with clmEff := if bitAt d 0 then [] else s.clmEff }) := by
  have hrule : s.writeGlob by' 0x734 d = (stOK, if bitAt d 0 then s.clmTake else s) := rfl
  rw [hrule]
  split <;> rfl

theorem writeGlob_clmRevoke (s : State) (by' : AccBy) (d : Nat) : s.writeGlob by' 0x73C d = s.revokeWrite by' d := rfl

/-- From elsewhere than the maintenance port a revocation is refused, which is a PRIV violation (R248). -/
theorem revokeWrite_of_other {by' : AccBy} (s : State) (d : Nat) (h : by' ≠ .dbg) : s.revokeWrite by' d = (stDENIED, s.violation 6 0) := by
  simp only [revokeWrite, bne_iff_ne.2 h, if_true]

/-- From there it makes the slot fall back (R248). -/
theorem revokeWrite_of_slot {d : Nat} (hslot : bitAt d 11 = false) (hx : s.bslots.find? (fun x => x.slot == d % 2048) = some x) :
    s.revokeWrite .dbg d = (stOK, s.slotFall x) := by
  simp only [revokeWrite, hslot, hx, bne_self_eq_false, Bool.false_eq_true, if_false]

/-- A write of a global register that its checks allow, with the status that its own rule gives. -/
theorem access_write_glob {u : State} {by' : AccBy} {a d st : Nat} (ha : a < 0x200000) (hok : s.accCheck a = stOK)
    (hz : ∀ r, rowAt s.build a ≠ some (r, true)) (hw : s.writeGlob by' a d = (st, u)) :
    s.access by' true a d = (st, 0, u.recordAcc by' true a d st) := by
  simp [access, hok, writeReg_glob s _ a d ha hz, hw]

/-- `s` once an access of the maintenance port has come over its crossing (R410, R438). -/
def dbgAsked (s : State) (wr : Bool) (a d : Nat) : State := { s with jtag := { s.jtag with ir := 0x3A, access := (wr, a, d) } }

/-- In service, without a lock and with its crossing free, the maintenance port makes its accesses at once (R438, R439). -/
theorem dbgAccess_of_free (wr : Bool) (a d : Nat) (hboot : s.boot = 0) (hheld : s.heldX .dbg = none)
    (hlock : s.get 0 F.KEY_LOCK_LOCK = 0) : s.dbgAccess wr a d =
      ((s.dbgAsked wr a d).access .dbg wr a d).2.2.dbgEnd ((s.dbgAsked wr a d).access .dbg wr a d).2.1
        ((s.dbgAsked wr a d).access .dbg wr a d).1 := by
  have hopen : (s.dbgAsked wr a d).flag 0 F.KEY_LOCK_LOCK = false := by
    rw [flag, show (s.dbgAsked wr a d).get 0 F.KEY_LOCK_LOCK = 0 from hlock]
    rfl
  have hrow : s.dbgAccess wr a d =
      if (s.dbgAsked wr a d).flag 0 F.KEY_LOCK_LOCK && !(s.dbgAsked wr a d).flag 0 F.KEY_CTL_DBG_EN then
        ((s.dbgAsked wr a d).violation 7 0).dbgEnd 0 stDENIED
      else ((s.dbgAsked wr a d).access .dbg wr a d).2.2.dbgEnd ((s.dbgAsked wr a d).access .dbg wr a d).2.1
        ((s.dbgAsked wr a d).access .dbg wr a d).1 := by
    simp only [dbgAccess, dbgAsked, hboot, hheld, crossed_steady, Nat.reduceBEq, Option.isSome_none, Bool.or_self, Bool.false_eq_true,
      if_false]
  rw [hrow, hopen, Bool.false_and, if_neg Bool.false_ne_true]

end Sys2Proof.Machine.State

namespace Sys2Proof.Safety
open Sys2Proof.Machine

section BowlPort
variable {s s1 : State} {p : Nat} {a : Arrival} (hp : s.build.isBowlPort p = true) (hon : s.portOn p = true) (hs : s.stopped = false)
include hp hon hs

/-- A row at a Bowl port block that runs is its effect, and what follows from it. -/
theorem atBowl_of_row {t : State} {f : State → State} (hrow : f s = t) : atBowl p s f = .next (s.within t.settle) := by
  rw [← hrow]
  exact act_of_on (by rw [hp, hon, hs]; rfl)

/-- CLAIM and COMMIT take the control write that has arrived (R239). -/
theorem exec_bowlControl (commit : Bool) (ha : s.takeArrival (0xF00 + p) (s.bowlArrival p commit) = some (a, s1)) :
    exec (if commit then .commit p else .claim p) s = .next (s.within (s1.bowlCtl p a.pkt).settle) := by
  cases commit
  · exact atBowl_of_row hp hon hs (f := fun s => s.bowlRow p false) (State.bowlRow_of_taken ha)
  · exact atBowl_of_row hp hon hs (f := fun s => s.bowlRow p true) (State.bowlRow_of_taken ha)

/-- REDUCE_BOWL takes the contribution that has arrived (R240). -/
theorem exec_reduceBowl (ha : s.takeArrival (0xF00 + p) s.bowlContribution = some (a, s1)) :
    exec (.reduceBowl p) s = .next (s.within (s1.bowlData a.pkt.hdr.job a.pkt).settle) :=
  atBowl_of_row hp hon hs (f := fun s => s.bowlDataRow p) (State.bowlDataRow_of_taken ha)

end BowlPort

/-- A row of the global Bowl and claim units is its effect, and what follows from it. -/
theorem atGlobal_of_row {s t : State} {f : State → State} (hs : s.stopped = false) (hrow : f s = t) :
    atGlobal s f = .next (s.within t.settle) := by
  rw [← hrow]
  exact act_of_on (by rw [hs]; rfl)

/-- In a quiet state an entry that is DONE or FALLBACK leaves after MARK notches, and the clocks move alone besides (R239). -/
theorem exec_bowlEntryExpire {s : State} {k : Nat} {e : BEnt} (hs : s.stopped = false) (hq : Quiet s) (he : s.bents[k]? = some e)
    (hclosed : 2 ≤ e.state) : ∃ t, exec (.bowlEntryExpire k) s = .next t ∧ t.bents = s.bents.filter (fun x => x.id != e.id) ∧
      t.tmo = max s.tmo (e.since + s.get 0 F.BWL_CTL_MARK + 1) ∧ { clocksOf t s with bents := s.bents } = s := by
  obtain ⟨y, n, b, q, hpass⟩ := s.passTo_of_no_snap (e.since + s.get 0 F.BWL_CTL_MARK + 1) (.inr hq.snap)
  have hrow : s.entExpire k = { s with
      cyc := y, tmo := max s.tmo (e.since + s.get 0 F.BWL_CTL_MARK + 1), sub := n, buckets := b, spn := { s.spn with phase := q }
      bents := s.bents.filter (fun x => x.id != e.id) } := by
    rw [State.entExpire_of_closed he hclosed, hpass]
  have hexec : exec (.bowlEntryExpire k) s = .next (s.within (s.entExpire k).settle) :=
    atGlobal_of_row hs (f := fun s => s.entExpire k) rfl
  have hclaims : (s.bents.filter (fun x => x.id != e.id)).filter (fun e => e.state == 0 && e.lost == 0) = [] := by
    rw [List.filter_comm, show s.bents.filter (fun e => e.state == 0 && e.lost == 0) = [] from hq.claims, List.filter_nil]
  have hquiet : Quiet (s.entExpire k) := by
    rw [hrow]
    exact { hq with claims := hclaims }
  rw [settle_of_quiet _ hquiet, hrow] at hexec
  exact ⟨_, hexec, rfl, rfl, rfl⟩

/-- An access of the CFG host where its port can take one is the access made, and what follows from it. -/
theorem atHost_of_free {s u : State} {wr : Bool} {a d : Nat} (hf : CfgFree s) (hu : (hostAsked s wr a d).regAccess .cfg wr a d = u) :
    atHost s wr a d = .next (s.within u.settle) := by
  rw [atHost, act_of_on (by rw [hf.boot]; rfl), cfgAccess_of_free s _ _ _ hf, hu]

/-- `s` once a write of CLM_COMMIT by the CFG host has been made: under GO every shadow priority is the one in effect (R246). -/
def committed (s : State) (d : Nat) : State :=
  State.accEnd { hostAsked s true 0x734 d with clmEff := if bitAt d 0 then [] else s.clmEff } .cfg 0 stOK

theorem committed_frame (s : State) (d : Nat) : { hostOf (committed s d) s with clmEff := s.clmEff } = s := by
  cases s
  rfl

theorem quiet_committed {s : State} (hf : CfgFree s) (hq : Quiet s) (d : Nat) : Quiet (committed s d) := by
  have hdown : (committed s d).accsDown = [] := by rw [State.accsDown, show (committed s d).accs = [] from hf.accs, List.filter_nil]
  exact { hq with down := hdown }

/-- CLM_COMMIT makes every shadow priority effective under GO, and changes nothing else but what the CFG port shows (R246). -/
theorem exec_clmCommit {s : State} (d : Word) (hf : CfgFree s) (hq : Quiet s) (hok : s.accCheck 0x734 = stOK) :
    exec (.clmCommit d) s = .next (committed s d.toNat) := by
  have hexec : exec (.clmCommit d) s = .next (s.within (committed s d.toNat).settle) :=
    atHost_of_free hf (State.regAccess_write_glob (hostAsked s true 0x734 d.toNat) _ .cfg 0x734 d.toNat (by decide) hok
      (State.rowAt_mid_glob _ _ (by decide) (by decide)) (State.writeGlob_clmCommit _ _ _))
  rw [hexec, settle_of_quiet _ (quiet_committed hf hq _), within_self s (committed s d.toNat) rfl rfl]

/-- CLM_REVOKE by the CFG host is refused (R248). -/
theorem exec_clmRevoke_of_host {s : State} (d : Word) (hf : CfgFree s) (hok : s.accCheck 0x73C = stOK) :
    exec (.clmRevoke false d) s = .next (s.within ((((hostAsked s true 0x73C d.toNat).violation 6 0).recordAcc .cfg true 0x73C
      d.toNat stDENIED).accEnd .cfg 0 stDENIED).settle) :=
  atHost_of_free hf (State.regAccess_write_glob_status _ _ .cfg 0x73C d.toNat stDENIED (by decide) hok
    (State.rowAt_mid_glob _ _ (by decide) (by decide))
    ((State.writeGlob_clmRevoke ..).trans (State.revokeWrite_of_other (by' := .cfg) _ _ (by decide))))

/-- CLM_REVOKE from the maintenance port makes the slot fall back (R248). -/
theorem exec_clmRevoke_of_slot {s : State} {x : BSlot} (d : Word) (hf : CfgFree s) (hok : s.accCheck 0x73C = stOK)
    (hlock : s.get 0 F.KEY_LOCK_LOCK = 0) (hslot : bitAt d.toNat 11 = false)
    (hx : s.bslots.find? (fun x => x.slot == d.toNat % 2048) = some x) (hheld : s.heldX .dbg = none) :
    exec (.clmRevoke true d) s = .next (s.within (((s.dbgAsked true 0x73C d.toNat).slotFall x).dbgEnd 0 stOK).settle) := by
  have hacc : (s.dbgAsked true 0x73C d.toNat).access .dbg true 0x73C d.toNat = (stOK, 0, (s.dbgAsked true 0x73C d.toNat).slotFall x) :=
    State.access_write_glob (by decide) hok (State.rowAt_mid_glob _ _ (by decide) (by decide)) (State.revokeWrite_of_slot hslot hx)
  have hexec : exec (.clmRevoke true d) s = .next (s.within (s.dbgAccess true 0x73C d.toNat).settle) := rfl
  rw [State.dbgAccess_of_free true 0x73C d.toNat hf.boot hheld hlock, hacc] at hexec
  exact hexec

/-- Settles O53: each row is its effect on the packet, slot, entry or register that it names, and what follows from it. -/
theorem bowlAndClaimRows : Obligations.BowlAndClaimRows := by
  unfold Obligations.BowlAndClaimRows
  refine ⟨fun s s1 p a hp hon hs => ⟨fun commit => exec_bowlControl hp hon hs commit, fun ha => ?contribution⟩,
    fun s k hs => ⟨fun x e hx hsent hleft he => ?done, fun x hx hsent => ?timeout, fun e hq => exec_bowlEntryExpire hs hq,
      fun e i hbents hwaits hk hopen hfree hnone => ?grant⟩,
    fun s d hf hq hcommit hrevoke _ => ⟨⟨_, exec_clmCommit d hf hq hcommit, rfl, rfl, committed_frame ..⟩, exec_clmRevoke_of_host d hf hrevoke,
      fun x => exec_clmRevoke_of_slot d hf hrevoke⟩⟩
  case contribution =>
    intro h entry
    rw [exec_reduceBowl hp hon hs ha]
    refine ⟨fun hnone => ?_, fun e x tl he hgranted hslot hunsent hformat => ?_⟩
    · rw [State.bowlData_of_noEntry hnone]
    · intro v g n hfits htaken hopen
      rw [State.bowlData_of_accepts ⟨he, hgranted, hslot, hunsent, hformat, hfits, htaken, hopen⟩]
      rfl
  case done => exact atGlobal_of_row hs (f := fun s => s.resultDone k) (State.resultDone_of_answered hx hsent hleft he)
  case timeout => exact atGlobal_of_row hs (f := fun s => s.slotTimeout k) (State.slotTimeout_of_unsent hx hsent)
  case grant =>
    subst hk
    exact atGlobal_of_row hs (f := fun s => s.attemptOf 0) (State.attemptOf_of_only hbents hwaits hopen hfree hnone)

end Sys2Proof.Safety
end

/-! ### Collectives at an engine -/

section
namespace Sys2Proof.Machine.State

variable {s s1 : State} {p g l part chunk : Nat} {a : Arrival} {c : Coll} {r : ColRec}

/-- A READY or GDONE that has arrived is taken (R264, R271). -/
theorem readyRow_of_taken {gdone : Bool} (h : s.takeArrival (0xF00 + p) (s.readyArrival p gdone) = some (a, s1)) :
    s.readyRow p gdone = s1.takeReady p a.pkt := by
  rw [readyRow, h]

/-- A reduce or gather stage that a running collective has reached, and not begun, begins with the places of its members (R257, R263,
R271). -/
theorem stageStart_of_reached (hc : s.colRunning p g = some c) (hr : s.colRec p g = some r) (hstep : c.step = 0)
    (hstage : s.stageNow c = some (.reduce l) ∨ s.stageNow c = some (.gather l)) :
    s.stageStart p g = (s.updColl c (fun y => { y with step := 4 })).loadMembers c r l := by
  have hready : (c.step != 0) = false := by rw [hstep, bne_self_eq_false]
  cases hstage with
  | inl hreduce => simp only [stageStart, hc, hr, hready, hreduce, Bool.false_eq_true, if_false]
  | inr hgather => simp only [stageStart, hc, hr, hready, hgather, Bool.false_eq_true, if_false]

/-- The chunk that comes next in a reduce stage, and is not begun, begins (R265, R266). -/
theorem chunkStep_of_next (hc : s.colRunning p g = some c) (hr : s.colRec p g = some r) (hstep : c.step = 3)
    (hstage : s.stageNow c = some (.reduce l)) (hnew : c.chunks.find? (fun k => k.part == part && k.chunk == chunk) = none)
    (hnext : nextChunk r.bits c.desc l c.pos = some (part, chunk)) :
    s.chunkStep p g part chunk = s.beginChunk c r l part chunk := by
  have hruns : (c.step != 3) = false := by rw [hstep, bne_self_eq_false]
  simp only [chunkStep, hc, hr, hstage, hruns, hnew, hnext, beq_self_eq_true, Bool.false_eq_true, if_false, if_true]

/-- A running collective ends TIMEOUT once PTMO notches have passed since its last progress (R268). -/
theorem colTimeout_of_running (hc : s.colRunning p g = some c) :
    s.colTimeout p g = (s.passTo (c.last + s.get (portBase p) F.COL_CTL_PTMO + 1)).colEnd c stTIMEOUT := by
  rw [colTimeout, hc]

end Sys2Proof.Machine.State

namespace Sys2Proof.Safety
open Sys2Proof.Machine

section Engine
variable {s s1 : State} {p : Nat} {a : Arrival} (hp : s.build.isBowlPort p = true) (hbuild : s.build.isS = false)
  (hon : s.portOn p = true) (hs : s.stopped = false)
include hp hbuild hon hs

/-- A row at a collective engine that runs is its effect, and what follows from it. -/
theorem atEngine_of_row {t : State} {f : State → State} (hrow : f s = t) : atEngine p s f = .next (s.within t.settle) := by
  rw [← hrow]
  exact act_of_on (by rw [hp, hbuild, hon, hs]; rfl)

/-- READY and GDONE take the record that has arrived (R264, R271). -/
theorem exec_readyOrGdone (gdone : Bool) (h : s.takeArrival (0xF00 + p) (s.readyArrival p gdone) = some (a, s1)) :
    exec (if gdone then .gdone p else .ready p) s = .next (s.within (s1.takeReady p a.pkt).settle) := by
  cases gdone
  · exact atEngine_of_row hp hbuild hon hs (f := fun s => s.readyRow p false) (State.readyRow_of_taken h)
  · exact atEngine_of_row hp hbuild hon hs (f := fun s => s.readyRow p true) (State.readyRow_of_taken h)

end Engine

/-- Settles O54: each row finds the arrival, stage, chunk or collective that it is about, and has its effect at an engine that runs. -/
theorem collectiveRows : Obligations.CollectiveRows := by
  unfold Obligations.CollectiveRows
  refine fun s s1 p g a c r hp hbuild hon hs => ⟨fun gdone => exec_readyOrGdone hp hbuild hon hs gdone,
    fun hc hr => ⟨fun l hstep hstage => ?stage, fun l part chunk hstep hstage hnew hnext => ?chunk⟩, fun hc => ?timeout⟩
  case stage => exact atEngine_of_row hp hbuild hon hs (f := fun s => s.stageStart p g) (State.stageStart_of_reached hc hr hstep hstage)
  case chunk =>
    exact atEngine_of_row hp hbuild hon hs (f := fun s => s.chunkStep p g part chunk)
      (State.chunkStep_of_next hc hr hstep hstage hnew hnext)
  case timeout => exact atEngine_of_row hp hbuild hon hs (f := fun s => s.colTimeout p g) (State.colTimeout_of_running hc)

end Sys2Proof.Safety
end

/-! ### Semaphores, watches and realign slots of a sync unit -/

section
namespace Sys2Proof.Machine

theorem updFirst_append_of_none {α : Type} {p : α → Bool} (f : α → α) {l : List α} {a : α} (hl : ∀ x ∈ l, p x = false)
    (ha : p a = true) : updFirst p f (l ++ [a]) = l ++ [f a] := by
  induction l with
  | nil => simp only [List.nil_append, updFirst, ha, if_true]
  | cons x l ih =>
    simp only [List.forall_mem_cons] at hl
    obtain ⟨hx, hl⟩ := hl
    simp only [List.cons_append, updFirst, hx, Bool.false_eq_true, if_false, ih hl]

theorem nodup_upFrom (a n : Nat) : (upFrom a n).Nodup := by
  induction n generalizing a with
  | zero => exact .nil
  | succ n ih =>
    refine List.nodup_cons.2 ⟨fun h => ?_, ih (a + 1)⟩
    have := (mem_upFrom ..).1 h
    omega

namespace State

variable {s s1 : State} {u i n : Nat} {pk : Pkt}

/-! What a semaphore holds after a store (R281). -/

theorem sem_setSem {v j x : Nat} (hi : i < 1024) (hj : j < 1024) :
    (s.setSem u i x).sem v j = if v = u ∧ j = i then x else s.sem v j := by
  have hkey : v * 1024 + j = u * 1024 + i ↔ v = u ∧ j = i := by omega
  rw [sem, setSem, nget_mapSet, sem]
  simp only [hkey]

theorem sem_setSemVal_same (s : State) (u i x : Nat) : (s.setSemVal u i x).sem u i = putBits (s.sem u i) 0 40 x := by
  rw [setSemVal, sem, setSem, nget_mapSet, if_pos rfl]

theorem sem_setSemVal_apart {v j x : Nat} (hi : i < 1024) (hj : j < 1024) (h : v ≠ u ∨ j ≠ i) :
    (s.setSemVal u i x).sem v j = s.sem v j := by
  rw [setSemVal, sem_setSem hi hj, if_neg (by omega)]

@[simp] theorem semVal_setSemVal_same (s : State) (u i x : Nat) : (s.setSemVal u i x).semVal u i = x % 2 ^ 40 := by
  rw [semVal, sem_setSemVal_same, bitsOf_putBits_same]

@[simp] theorem semJob_setSemVal_same (s : State) (u i x : Nat) : (s.setSemVal u i x).semJob u i = s.semJob u i := by
  rw [semJob, sem_setSemVal_same, bitsOf_putBits_apart _ _ _ _ _ _ (by omega), semJob]

@[simp] theorem semOn_setSemVal_same (s : State) (u i x : Nat) : (s.setSemVal u i x).semOn u i = s.semOn u i := by
  rw [semOn, sem_setSemVal_same, bitAt_eq_testBit, testBit_putBits, if_neg (by omega), semOn, bitAt_eq_testBit]

theorem semVal_lt (s : State) (u i : Nat) : s.semVal u i < 2 ^ 40 := Nat.mod_lt _ (Nat.two_pow_pos 40)

theorem semIndex_lt (h : Hdr) : bitsOf h.aux 0 10 < 1024 := Nat.mod_lt _ (Nat.two_pow_pos 10)

/-! The watches of a unit (R291-R294). -/

/-- A number that a list as long as `n` does not hold is found among the first `n + 1`. -/
theorem find_upFrom_spec (used : List Nat) :
    ∃ k, (upFrom 0 (used.length + 1)).find? (fun x => !used.contains x) = some k ∧ k ∉ used := by
  have hfree : ∃ k ∈ upFrom 0 (used.length + 1), !used.contains k := by
    by_contra! hall
    have hsub : upFrom 0 (used.length + 1) ⊆ used := fun k hk => by simpa using hall k hk
    have hlen := ((nodup_upFrom 0 (used.length + 1)).subperm hsub).length_le
    rw [length_upFrom] at hlen
    omega
  obtain ⟨k, hk⟩ := Option.isSome_iff_exists.1 (List.find?_isSome.2 hfree)
  have hnew := List.find?_some (p := fun x => !used.contains x) hk
  exact ⟨k, hk, by simpa using hnew⟩

/-- The entry that a new watch gets is none that the unit's watches have. -/
theorem ent_ne_freeWatch {w : Watch} (hw : w ∈ s.watches) (hu : w.unit = u) : w.ent ≠ s.freeWatch u := by
  obtain ⟨k, hk, hnew⟩ := find_upFrom_spec ((s.watches.filter fun w => w.unit == u).map (·.ent))
  have hfree : s.freeWatch u = k := by rw [freeWatch, hk, Option.getD_some]
  rw [hfree]
  rintro rfl
  exact hnew (List.mem_map_of_mem (List.mem_filter.2 ⟨hw, beq_iff_eq.2 hu⟩))

@[simp] theorem fireNew_ntfq (s : State) (w : Watch) (st x : Nat) : (s.fireNew w st x).ntfq = s.ntfq ++ [(w.unit, w.ent)] := rfl
@[simp] theorem fireNew_sem (s : State) (w : Watch) (st x u i : Nat) : (s.fireNew w st x).sem u i = s.sem u i := rfl

/-- A watch that fires as it is registered has its status and value (R293). -/
theorem watches_fireNew {w : Watch} (hent : w.ent = s.freeWatch w.unit) (st x : Nat) :
    (s.fireNew w st x).watches = s.watches ++ [{ w with fired := true, status := st, value := x }] := by
  refine updFirst_append_of_none _ (fun y hy => ?_) (by simp)
  rw [Bool.and_eq_false_imp, beq_iff_eq, beq_eq_false_iff_ne, hent]
  exact fun hu => ent_ne_freeWatch hy hu

/-- A walk of a semaphore whose WAIT and WAIT_TAKE watches have all fired changes nothing (R292). -/
theorem walk_of_none_live (h : ∀ w ∈ s.watches, w.unit = u → w.index = i → w.kind ≤ 1 → w.fired = true) : s.walk u i = s := by
  have hnone : (s.watches.filter fun w => w.unit == u && w.index == i && !w.fired && decide (w.kind ≤ 1)) = [] := by
    refine List.filter_eq_nil_iff.2 fun w hw hlive => ?_
    simp only [Bool.and_eq_true, beq_iff_eq, Bool.not_eq_true', decide_eq_true_eq, and_assoc] at hlive
    obtain ⟨hu, hi, hlive, hkind⟩ := hlive
    exact Bool.false_ne_true (hlive.symm.trans (h w hw hu hi hkind))
  rw [walk, hnone]
  rfl

theorem walk_of_no_watches (h : (s.watches.any fun w => w.unit == u && w.index == i) = false) : s.walk u i = s := by
  refine walk_of_none_live fun w hw hu hi _ => ?_
  have := List.any_eq_false.1 h w hw
  simp [hu, hi] at this

/-! What an applied operation, a watch and a semaphore leave as they were. -/

theorem bump_eq (s : State) (b n : Nat) (f : Fld) : ∃ r, s.bump b f n = { s with regs := r } := ⟨_, rfl⟩

/-- An operation that is counted changes registers alone (R318). -/
theorem applied_eq (s : State) (u : Nat) : ∃ r, s.applied u = { s with regs := r } := bump_eq ..

@[simp] theorem applied_sems (s : State) (u : Nat) : (s.applied u).sems = s.sems := set_sems ..
@[simp] theorem applied_watches (s : State) (u : Nat) : (s.applied u).watches = s.watches := set_watches ..
@[simp] theorem applied_ntfq (s : State) (u : Nat) : (s.applied u).ntfq = s.ntfq := set_ntfq ..
@[simp] theorem applied_sem (s : State) (u v i : Nat) : (s.applied u).sem v i = s.sem v i := by
  obtain ⟨r, h⟩ := s.applied_eq u
  rw [h]
  rfl
@[simp] theorem applied_semVal (s : State) (u v i : Nat) : (s.applied u).semVal v i = s.semVal v i := by
  rw [semVal, applied_sem, semVal]
@[simp] theorem addWatch_semVal (s : State) (w : Watch) (v i : Nat) : (s.addWatch w).semVal v i = s.semVal v i := rfl
@[simp] theorem setSemVal_watches (s : State) (u i x : Nat) : (s.setSemVal u i x).watches = s.watches := rfl

theorem setWord_addWatch (s : State) (w : Watch) (a : Nat) (x : Word) : (s.addWatch w).setWord a x = (s.setWord a x).addWatch w := rfl
theorem word_addWatch (s : State) (w : Watch) (a : Nat) : (s.addWatch w).word a = s.word a := rfl

theorem applied_addWatch (s : State) (u : Nat) (w : Watch) : (s.addWatch w).applied u = (s.applied u).addWatch w := by
  rw [applied, bump, set, get, word_addWatch, setWord_addWatch]
  rfl

theorem setSemVal_addWatch (s : State) (u i x : Nat) (w : Watch) : (s.addWatch w).setSemVal u i x = (s.setSemVal u i x).addWatch w := rfl

theorem setWord_setSem (s : State) (u i x a : Nat) (w : Word) : (s.setSem u i x).setWord a w = (s.setWord a w).setSem u i x := rfl
theorem word_setSem (s : State) (u i x a : Nat) : (s.setSem u i x).word a = s.word a := rfl

theorem applied_setSemVal (s : State) (u v i x : Nat) : (s.setSemVal v i x).applied u = (s.applied u).setSemVal v i x := by
  rw [setSemVal, setSemVal, applied_sem, applied, bump, set, get, word_setSem, setWord_setSem]
  rfl

/-! Errors of a unit (R318, R428). -/

theorem synErr_eq (s : State) (u c st d : Nat) (f : Fld) : ∃ r l, s.synErr u f c st d = { s with regs := r, reports := l } := by
  obtain ⟨r, l, h⟩ := report_eq (s.set (unitBase u) f 1) c (srcUnit u) st d
  exact ⟨r, l, h⟩

theorem synErr_bump_eq (s : State) (b n : Nat) (g : Fld) (u c st d : Nat) (f : Fld) :
    ∃ r l, (s.bump b g n).synErr u f c st d = { s with regs := r, reports := l } := by
  obtain ⟨_, h⟩ := bump_eq s b n g
  rw [h]
  exact synErr_eq ..

/-- A report that raises no counter of severity leaves the registers as they are (R432). -/
theorem regs_report_of_none {c st d : Nat} (h : severity c st d = 0) (src : Nat) : (s.report c src st d).regs = s.regs := by
  unfold report
  rw [h]
  dsimp only
  split <;> rfl

theorem get_report_of_none {c st d : Nat} (h : severity c st d = 0) (src b : Nat) (f : Fld) :
    (s.report c src st d).get b f = s.get b f := by
  obtain ⟨r, l, heq⟩ := report_eq s c src st d
  have hregs := regs_report_of_none (s := s) h src
  rw [heq] at hregs ⊢
  obtain rfl : r = s.regs := hregs
  rfl

end State
end Sys2Proof.Machine
end

/-! ### The operations of a sync unit -/

section
namespace Sys2Proof.Machine.State

variable {s s1 : State} {u : Nat} {pk : Pkt}

/-- The state with these arrivals, and credits on their way back. -/
def withArrivals (s : State) (l : List (Nat × List Arrival)) (owed crw : NMap) : State :=
  { s with arrivals := l, owed := owed, crw := crw }

/-- An operation that is taken is one that the row accepts, and the unit's arrivals and the credits of their links alone change. -/
theorem takeSyncOp_spec {op : Nat → Bool} (h : s.takeSyncOp u op = some (pk, s1)) :
    op (syncOp pk.hdr) = true ∧ ∃ l o c, s1 = s.withArrivals l o c := by
  obtain ⟨⟨a, t⟩, ha, heq⟩ := Option.map_eq_some_iff.1 h
  obtain ⟨rfl, rfl⟩ := Prod.mk.inj heq
  obtain ⟨-, hp, -, hback⟩ := takeArrival_spec _ _ _ _ _ ha
  simp only [Bool.and_eq_true, and_assoc] at hp
  obtain ⟨-, hop, -⟩ := hp
  exact ⟨hop, t.arrivals, t.owed, t.crw,
    (congrArg (fun x : State => { x with arrivals := t.arrivals, owed := t.owed, crw := t.crw }) hback :)⟩

theorem syncOp_of_taken {op : Nat} (h : s.takeSyncOp u (fun o => o == op) = some (pk, s1)) : syncOp pk.hdr = op :=
  beq_iff_eq.1 (takeSyncOp_spec h).1

theorem dom_of_taken {op : Nat → Bool} (h : s.takeSyncOp u op = some (pk, s1)) (d : Nat) : s1.dom d = s.dom d := by
  obtain ⟨-, l, o, c, rfl⟩ := takeSyncOp_spec h
  rfl

/-! The checks of R288, R289 and R291. -/

/-- The operation passes them: what it does is applied. -/
def Passes (s : State) (u : Nat) (pk : Pkt) : Prop := ∀ ok : State → State, s.checkOp u pk ok = ok s

theorem full_of_room (h : namesSlot pk.hdr = true → s.watchRoom u = true) : (namesSlot pk.hdr && !s.watchRoom u) = false := by
  rwa [Bool.and_eq_false_imp, Bool.not_eq_false']

section Checked
variable {ok : State → State} (hlit : s.dom u ≠ 2) (hroom : namesSlot pk.hdr = true → s.watchRoom u = true)
include hlit hroom

/-- A malformed operation is refused BADCMD (R288). -/
theorem checkOp_of_malformed (hbad : badOp pk.hdr = true) :
    s.checkOp u pk ok = s.refuseOp u pk F.SYN_ERR_BADOP stBADCMD (s.seenValue u pk.hdr) := by
  simp only [checkOp, beq_false_of_ne hlit, full_of_room hroom, hbad, Bool.false_eq_true, if_false, if_true]

variable (hgood : badOp pk.hdr = false)
include hgood

/-- CANCEL has no further check (R296). -/
theorem passes_of_cancel (hop : syncOp pk.hdr = 6) : s.Passes u pk := fun ok => by
  simp only [checkOp, beq_false_of_ne hlit, full_of_room hroom, hgood, hop, beq_self_eq_true, Bool.false_eq_true, if_false, if_true]

/-- An operation on a barrier of its job is applied (R289). -/
theorem passes_of_bar {b : Bar} (hlo : 8 ≤ syncOp pk.hdr) (hhi : syncOp pk.hdr ≤ 11) (hb : s.bar u (bitsOf pk.hdr.aux 0 8) = some b)
    (hjob : b.job = pk.hdr.job) : s.Passes u pk := fun ok => by
  rw [bar] at hb
  simp only [checkOp, beq_false_of_ne hlit, full_of_room hroom, hgood, beq_false_of_ne (show syncOp pk.hdr ≠ 6 by omega), hlo, hhi, hb,
    hjob, decide_true, Bool.and_self, beq_self_eq_true, Bool.false_eq_true, if_false, if_true]

/-- One on a barrier that the unit does not have is refused DENIED (R289). -/
theorem checkOp_of_no_bar (hlo : 8 ≤ syncOp pk.hdr) (hhi : syncOp pk.hdr ≤ 11) (hb : s.bar u (bitsOf pk.hdr.aux 0 8) = none) :
    s.checkOp u pk ok = s.refuseOp u pk F.SYN_ERR_DENIED stDENIED 0 := by
  rw [bar] at hb
  simp only [checkOp, beq_false_of_ne hlit, full_of_room hroom, hgood, beq_false_of_ne (show syncOp pk.hdr ≠ 6 by omega), hlo, hhi, hb,
    decide_true, Bool.and_self, Bool.false_eq_true, if_false, if_true]

/-- An operation on an enabled semaphore of its job, or of the system job, is applied; a SET is one of the system job (R289, R311). -/
theorem passes_of_sem (hop : syncOp pk.hdr ∈ [1, 2, 3, 4, 5, 12]) (hon : s.semOn u (bitsOf pk.hdr.aux 0 10) = true)
    (hjob : s.semJob u (bitsOf pk.hdr.aux 0 10) = pk.hdr.job ∨ pk.hdr.job = 0x3FF) (hset : syncOp pk.hdr = 12 → pk.hdr.job = 0x3FF) :
    s.Passes u pk := fun ok => by
  have hsem : syncOp pk.hdr ≠ 6 ∧ ¬ (8 ≤ syncOp pk.hdr ∧ syncOp pk.hdr ≤ 11) := by
    simp only [List.mem_cons, List.not_mem_nil, or_false] at hop
    omega
  have hmine : (s.semJob u (bitsOf pk.hdr.aux 0 10) != pk.hdr.job && pk.hdr.job != 0x3FF) = false := by
    rw [Bool.and_eq_false_iff, bne_eq_false_iff_eq, bne_eq_false_iff_eq]
    exact hjob
  have hsys : (syncOp pk.hdr == 12 && pk.hdr.job != 0x3FF) = false := by
    rw [Bool.and_eq_false_imp, beq_iff_eq, bne_eq_false_iff_eq]
    exact hset
  simp only [checkOp, beq_false_of_ne hlit, full_of_room hroom, hgood, beq_false_of_ne hsem.1, ← Bool.decide_and,
    decide_eq_false hsem.2, hon, hmine, hsys, Bool.not_true, Bool.or_self, Bool.false_eq_true, if_false]

end Checked

/-! A refusal without a slot (R288, R290). -/

/-- ADD and SUB name a slot where ACK is 1 (R288). -/
theorem namesSlot_addSub {h : Hdr} (hop : syncOp h = 1 ∨ syncOp h = 2) : namesSlot h = bitAt h.opc 4 := by
  obtain hop | hop := hop <;> simp only [namesSlot, hop] <;> rfl

theorem severity_sync {st : Nat} (h : st ≠ stPOISON) (d : Nat) : severity 0xB st d = 0 := by
  simp [severity, h]

/-- A refusal without a slot: it is counted, and its error bit is set and logged. -/
def refusal (s : State) (u : Nat) (pk : Pkt) (f : Fld) (st : Nat) : State :=
  (s.bump (unitBase u) F.SYN_REJ_CNT_COUNT 1).synErr u f 0xB st
    (syncDetail (bitsOf pk.hdr.aux 0 10) (watchKind (syncOp pk.hdr)) pk.hdr.scol pk.hdr.srow pk.hdr.tag (xvSrc pk))

theorem refuseOp_of_no_slot {f : Fld} {st x : Nat} (h : namesSlot pk.hdr = false) : s.refuseOp u pk f st x = s.refusal u pk f st := by
  simp only [refuseOp, h, Bool.false_eq_true, if_false]
  rfl

theorem refusal_eq (s : State) (u : Nat) (pk : Pkt) (f : Fld) (st : Nat) :
    ∃ r l, s.refusal u pk f st = { s with regs := r, reports := l } := synErr_bump_eq ..

theorem flag_refusal {f : Fld} {st : Nat} (hst : st ≠ stPOISON) (hw : f.w = 1) (hlo : f.lo < 32) :
    (s.refusal u pk f st).flag (unitBase u) f = true := by
  rw [refusal, synErr, flag, get_report_of_none (severity_sync hst _), get_set_same _ _ _ _ (by omega), hw]
  rfl

theorem rejected_refusal {f : Fld} {st : Nat} (hst : st ≠ stPOISON) (hf : f.apart F.SYN_REJ_CNT_COUNT = true) :
    (s.refusal u pk f st).get (unitBase u) F.SYN_REJ_CNT_COUNT = min (s.get (unitBase u) F.SYN_REJ_CNT_COUNT + 1) (2 ^ 32 - 1) := by
  rw [refusal, synErr, get_report_of_none (severity_sync hst _), get_set_apart _ _ _ _ _ hf, get_bump_same _ _ _ _ (by decide)]
  rfl

/-! ADD and SUB (R290). -/

/-- VALUE that an ADD or SUB moves to, and what it must be for the operation not to be refused. -/
def movedVal (sub : Bool) (v n : Nat) : Nat := if sub then v - n else v + n
def fits (sub : Bool) (v n : Nat) : Prop := if sub then n ≤ v else v + n ≤ semMax

theorem movedVal_lt_of_fits {sub : Bool} {v n : Nat} (hv : v < 2 ^ 40) (h : fits sub v n) : movedVal sub v n < 2 ^ 40 := by
  cases sub
  · exact Nat.lt_of_le_of_lt h (by decide)
  · exact Nat.lt_of_le_of_lt (Nat.sub_le v n) hv

section AddSub
variable {sub : Bool} {v n : Nat} (hslot : namesSlot pk.hdr = false) (hv : s.semVal u (bitsOf pk.hdr.aux 0 10) = v)
  (hn : bitsOf pk.hdr.addr 0 40 = n)
include hslot hv hn

/-- One beyond the range of VALUE is refused. -/
theorem addSub_of_not_fits (h : ¬ fits sub v n) : s.addSub u pk sub =
    s.refusal u pk (if sub then F.SYN_ERR_UNDERFLOW else F.SYN_ERR_OVERFLOW) (if sub then stUNDERFLOW else stOVERFLOW) := by
  cases sub with
  | false =>
    have hover : semMax < v + n := Nat.not_le.1 h
    simp only [addSub, hv, hn, hover, Bool.false_and, Bool.not_false, decide_true, Bool.and_self, Bool.false_eq_true, if_false, if_true,
      refuseOp_of_no_slot hslot]
  | true =>
    have hunder : v < n := Nat.not_le.1 h
    simp only [addSub, hv, hn, hunder, decide_true, Bool.and_self, if_true, refuseOp_of_no_slot hslot]

/-- One that is not refused moves VALUE; without watches on the semaphore nothing follows. -/
theorem addSub_of_fits (hnone : (s.watches.any fun w => w.unit == u && w.index == bitsOf pk.hdr.aux 0 10) = false) (h : fits sub v n) :
    s.addSub u pk sub = (s.setSemVal u (bitsOf pk.hdr.aux 0 10) (movedVal sub v n)).applied u := by
  have hunder : (sub && decide (v < n)) = false := by
    cases sub
    · rfl
    · exact decide_eq_false (Nat.not_lt.2 h)
  have hover : (!sub && decide (semMax < v + n)) = false := by
    cases sub
    · exact decide_eq_false (Nat.not_lt.2 h)
    · rfl
  have hwalk : ∀ x, ((s.setSemVal u (bitsOf pk.hdr.aux 0 10) x).applied u).walk u (bitsOf pk.hdr.aux 0 10) =
      (s.setSemVal u (bitsOf pk.hdr.aux 0 10) x).applied u := fun x => by
    rw [walk_of_no_watches]
    simpa using hnone
  simp only [addSub, hv, hn, hunder, hover, hslot, hwalk, ← movedVal.eq_def, Bool.false_eq_true, if_false, ite_self]

/-- One that is not refused moves VALUE by its operand. -/
theorem semVal_addSub_of_fits (hnone : (s.watches.any fun w => w.unit == u && w.index == bitsOf pk.hdr.aux 0 10) = false)
    (h : fits sub v n) : (s.addSub u pk sub).semVal u (bitsOf pk.hdr.aux 0 10) = movedVal sub v n := by
  have hlt : v < 2 ^ 40 := hv ▸ semVal_lt ..
  rw [addSub_of_fits hslot hv hn hnone h, applied_semVal, semVal_setSemVal_same, Nat.mod_eq_of_lt (movedVal_lt_of_fits hlt h)]

/-- One that is refused leaves VALUE; its error bit is set, and it is counted. -/
theorem addSub_refused (h : ¬ fits sub v n) : (s.addSub u pk sub).semVal u (bitsOf pk.hdr.aux 0 10) = v ∧
    (s.addSub u pk sub).flag (unitBase u) (if sub then F.SYN_ERR_UNDERFLOW else F.SYN_ERR_OVERFLOW) = true ∧
    (s.addSub u pk sub).get (unitBase u) F.SYN_REJ_CNT_COUNT = min (s.get (unitBase u) F.SYN_REJ_CNT_COUNT + 1) (2 ^ 32 - 1) := by
  rw [addSub_of_not_fits hslot hv hn h]
  refine ⟨?_, ?_, ?_⟩
  · obtain ⟨_, _, hrefusal⟩ := s.refusal_eq u pk (if sub then F.SYN_ERR_UNDERFLOW else F.SYN_ERR_OVERFLOW)
      (if sub then stUNDERFLOW else stOVERFLOW)
    rw [hrefusal]
    exact hv
  · cases sub <;> exact flag_refusal (by decide) rfl (by decide)
  · cases sub <;> exact rejected_refusal (by decide) (by decide)

end AddSub

/-- What an ADD or SUB leaves as it was: every other semaphore, EN and JOB of its own, watches and notifications, barriers, memories,
keys, what the block is built of and the commands that wait. -/
structure KeepsRest (s t : State) (u i : Nat) : Prop where
  others : ∀ v j, j < 1024 → (v ≠ u ∨ j ≠ i) → t.sem v j = s.sem v j
  on : t.semOn u i = s.semOn u i
  job : t.semJob u i = s.semJob u i
  watches : t.watches = s.watches
  ntfq : t.ntfq = s.ntfq
  bars : t.bars = s.bars
  ram : t.ram = s.ram
  keys : t.keys = s.keys
  build : t.build = s.build
  pending : t.pending = s.pending

theorem keepsRest_addSub {sub : Bool} (hslot : namesSlot pk.hdr = false)
    (hnone : (s.watches.any fun w => w.unit == u && w.index == bitsOf pk.hdr.aux 0 10) = false) :
    KeepsRest s (s.addSub u pk sub) u (bitsOf pk.hdr.aux 0 10) := by
  by_cases h : fits sub (s.semVal u (bitsOf pk.hdr.aux 0 10)) (bitsOf pk.hdr.addr 0 40)
  · obtain ⟨_, happlied⟩ := (s.setSemVal u (bitsOf pk.hdr.aux 0 10) (movedVal sub (s.semVal u (bitsOf pk.hdr.aux 0 10))
      (bitsOf pk.hdr.addr 0 40))).applied_eq u
    rw [addSub_of_fits hslot rfl rfl hnone h, happlied]
    exact ⟨fun v j hj hne => sem_setSemVal_apart (s := s) (semIndex_lt _) hj hne, semOn_setSemVal_same .., semJob_setSemVal_same ..,
      rfl, rfl, rfl, rfl, rfl, rfl, rfl⟩
  · obtain ⟨_, _, hrefusal⟩ := s.refusal_eq u pk (if sub then F.SYN_ERR_UNDERFLOW else F.SYN_ERR_OVERFLOW)
      (if sub then stUNDERFLOW else stOVERFLOW)
    rw [addSub_of_not_fits hslot rfl rfl h, hrefusal]
    exact ⟨fun _ _ _ _ => rfl, rfl, rfl, rfl, rfl, rfl, rfl, rfl, rfl, rfl⟩

/-! WAIT and WAIT_TAKE at registration (R292). -/

/-- The watch that a WAIT or WAIT_TAKE registers. -/
def waiting (s : State) (u : Nat) (take : Bool) (pk : Pkt) : Watch := s.watchOf u (if take then 1 else 0) pk (bitsOf pk.hdr.addr 0 40)

theorem waiting_spec (s : State) (u : Nat) (take : Bool) (pk : Pkt) : (s.waiting u take pk).unit = u ∧
    (s.waiting u take pk).ent = s.freeWatch u ∧ (s.waiting u take pk).index = bitsOf pk.hdr.aux 0 10 ∧
    (s.waiting u take pk).n = bitsOf pk.hdr.addr 0 40 ∧ (s.waiting u take pk).tag = pk.hdr.tag ∧ (s.waiting u take pk).job = pk.hdr.job ∧
    (s.waiting u take pk).fired = false := by
  cases take <;> exact ⟨rfl, rfl, rfl, rfl, rfl, rfl, rfl⟩

/-- One whose condition does not hold is kept. -/
theorem waitOp_of_unmet {take : Bool} (h : s.semVal u (bitsOf pk.hdr.aux 0 10) < bitsOf pk.hdr.addr 0 40) :
    s.waitOp u pk take = (s.addWatch (s.waiting u take pk)).applied u := by
  simp only [waitOp, applied_semVal, addWatch_semVal, if_neg (Nat.not_le.2 h)]
  rfl

/-- The semaphores once a WAIT is satisfied, which leaves VALUE, or a WAIT_TAKE, which takes its operand. -/
def satisfied (s : State) (u i : Nat) (take : Bool) (n : Nat) : State := if take then s.setSemVal u i (s.semVal u i - n) else s

theorem watches_satisfied (s : State) (u i : Nat) (take : Bool) (n : Nat) : (s.satisfied u i take n).watches = s.watches := by
  cases take <;> rfl

theorem ntfq_satisfied (s : State) (u i : Nat) (take : Bool) (n : Nat) : (s.satisfied u i take n).ntfq = s.ntfq := by
  cases take <;> rfl

theorem semVal_satisfied (s : State) (u i : Nat) (take : Bool) (n : Nat) :
    (s.satisfied u i take n).semVal u i = if take then s.semVal u i - n else s.semVal u i := by
  cases take
  · rfl
  · exact (semVal_setSemVal_same ..).trans (Nat.mod_eq_of_lt ((Nat.sub_le ..).trans_lt (semVal_lt ..)))

theorem sem_satisfied_apart {i v j : Nat} (take : Bool) (n : Nat) (hi : i < 1024) (hj : j < 1024) (h : v ≠ u ∨ j ≠ i) :
    (s.satisfied u i take n).sem v j = s.sem v j := by
  cases take
  · rfl
  · exact sem_setSemVal_apart hi hj h

section Met
variable (hmet : bitsOf pk.hdr.addr 0 40 ≤ s.semVal u (bitsOf pk.hdr.aux 0 10))
include hmet

/-- A WAIT whose condition holds fires. -/
theorem waitOp_of_met : s.waitOp u pk false = (s.applied u).fireNew (s.waiting u false pk) stOK (s.semVal u (bitsOf pk.hdr.aux 0 10)) := by
  simp only [waitOp, applied_semVal, addWatch_semVal, hmet, Bool.not_false, if_true]
  rw [applied_addWatch]
  rfl

variable (hnone : (s.watches.any fun w => w.unit == u && w.index == bitsOf pk.hdr.aux 0 10) = false)
include hnone

/-- A WAIT_TAKE whose condition holds, the first of its semaphore, fires; no watch is left that could follow. -/
theorem waitOp_take_of_met : s.waitOp u pk true =
    ((s.setSemVal u (bitsOf pk.hdr.aux 0 10) (s.semVal u (bitsOf pk.hdr.aux 0 10) - bitsOf pk.hdr.addr 0 40)).applied u).fireNew
      (s.waiting u true pk) stOK (s.semVal u (bitsOf pk.hdr.aux 0 10) - bitsOf pk.hdr.addr 0 40) := by
  have hfirst : (s.watches.any fun w => w.unit == u && w.index == bitsOf pk.hdr.aux 0 10 && w.kind == 1 && !w.fired) = false := by
    refine List.any_eq_false.2 fun w hw h => List.any_eq_false.1 hnone w hw ?_
    simp only [Bool.and_eq_true] at h ⊢
    exact h.1.1
  have hwalk : ∀ x t, t = ((s.setSemVal u (bitsOf pk.hdr.aux 0 10) x).applied u).fireNew (s.waiting u true pk) stOK x →
      t.walk u (bitsOf pk.hdr.aux 0 10) = t := by
    rintro x t rfl
    refine walk_of_none_live fun w hw hu hi _ => ?_
    rw [watches_fireNew (by rw [freeWatch, applied_watches]; rfl)] at hw
    obtain hw | hw := List.mem_append.1 hw
    · have := List.any_eq_false.1 hnone w (by simpa using hw)
      simp [hu, hi] at this
    · rw [List.mem_singleton.1 hw]
  simp only [waitOp, applied_semVal, addWatch_semVal, hmet, hfirst, Bool.not_true, Bool.false_eq_true, if_false, if_true]
  rw [applied_addWatch, setSemVal_addWatch, ← applied_setSemVal]
  exact hwalk _ _ rfl

/-- One whose condition holds, on a semaphore without other watches. -/
theorem waitOp_of_met_of_none (take : Bool) : s.waitOp u pk take =
    ((s.satisfied u (bitsOf pk.hdr.aux 0 10) take (bitsOf pk.hdr.addr 0 40)).applied u).fireNew (s.waiting u take pk) stOK
      ((s.satisfied u (bitsOf pk.hdr.aux 0 10) take (bitsOf pk.hdr.addr 0 40)).semVal u (bitsOf pk.hdr.aux 0 10)) := by
  rw [semVal_satisfied]
  cases take
  · exact waitOp_of_met hmet
  · exact waitOp_take_of_met hmet hnone

/-- The watch that it leaves has fired with the VALUE that it left. -/
theorem watches_waitOp_of_met (take : Bool) : (s.waitOp u pk take).watches = s.watches ++ [{ s.waiting u take pk with
    fired := true, status := stOK
    value := (s.satisfied u (bitsOf pk.hdr.aux 0 10) take (bitsOf pk.hdr.addr 0 40)).semVal u (bitsOf pk.hdr.aux 0 10) }] := by
  obtain ⟨hunit, hent, -⟩ := s.waiting_spec u take pk
  rw [waitOp_of_met_of_none hmet hnone, watches_fireNew, applied_watches, watches_satisfied]
  rw [hent, hunit, freeWatch, freeWatch, applied_watches, watches_satisfied]

theorem ntfq_waitOp_of_met (take : Bool) : (s.waitOp u pk take).ntfq = s.ntfq ++ [(u, (s.waiting u take pk).ent)] := by
  obtain ⟨hunit, -⟩ := s.waiting_spec u take pk
  rw [waitOp_of_met_of_none hmet hnone, fireNew_ntfq, applied_ntfq, ntfq_satisfied, hunit]

theorem sem_waitOp_of_met (take : Bool) (v j : Nat) :
    (s.waitOp u pk take).sem v j = (s.satisfied u (bitsOf pk.hdr.aux 0 10) take (bitsOf pk.hdr.addr 0 40)).sem v j := by
  rw [waitOp_of_met_of_none hmet hnone, fireNew_sem, applied_sem]

end Met

end Sys2Proof.Machine.State
end


section
namespace Sys2Proof.Safety
open Sys2Proof.Machine

section Unit
variable {s s1 : State} {u op : Nat} {pk : Pkt} {c : Instr} {f : State → Pkt → State} (hu : u < s.build.units) (hlit : s.dom u = 3)
include hu hlit

theorem unitOn_of_lit : s.unitOn u = true := by
  simp [State.unitOn, State.domOn, hu, hlit]

/-- A row of a unit in a Lit domain is its effect. -/
theorem atUnit_of_row {t : State} {f : State → State} (hrow : f s = t) : atUnit u s f = .next (s.within t) := by
  rw [← hrow]
  exact act_of_on (unitOn_of_lit hu hlit)

section Taken
variable (hc : exec c s = atUnit u s fun s => s.syncRow u op f) (h : s.takeSyncOp u (fun o => o == op) = some (pk, s1))
include hc h

/-- An operation that passes its checks is applied. -/
theorem exec_of_passes (hok : s1.Passes u pk) : exec c s = .next (s.within (f s1 pk)) := by
  rw [hc]
  refine atUnit_of_row hu hlit ?_
  rw [State.syncRow, h]
  exact hok fun s => f s pk

variable (hgood : State.badOp pk.hdr = false) (hroom : State.namesSlot pk.hdr = true → s1.watchRoom u = true)
include hgood hroom

/-- Every checked operation on a semaphore is applied (R288-R290, R292, R311). -/
theorem exec_semOp (hop : op ∈ [1, 2, 3, 4, 5, 12]) (hon : s1.semOn u (bitsOf pk.hdr.aux 0 10) = true)
    (hjob : s1.semJob u (bitsOf pk.hdr.aux 0 10) = pk.hdr.job ∨ pk.hdr.job = 0x3FF) (hset : op = 12 → pk.hdr.job = 0x3FF) :
    exec c s = .next (s.within (f s1 pk)) := by
  obtain rfl := State.syncOp_of_taken h
  have hdom : s1.dom u ≠ 2 := by rw [State.dom_of_taken h, hlit]; decide
  exact exec_of_passes hu hlit hc h (State.passes_of_sem hdom hroom hgood hop hon hjob hset)

/-- Every checked operation on a barrier is applied, where the number in its AUX is one of the 256 that a unit has (R301, R303-R307). -/
theorem exec_barOp {b : Bar} (hlo : 8 ≤ op) (hhi : op ≤ 11) (hinst : bitsOf pk.hdr.aux 0 10 < 256)
    (hb : s1.bars.find? (fun b => b.unit == u && b.inst == bitsOf pk.hdr.aux 0 10) = some b) (hjob : b.job = pk.hdr.job) :
    exec c s = .next (s.within (f s1 pk)) := by
  obtain rfl := State.syncOp_of_taken h
  have hdom : s1.dom u ≠ 2 := by rw [State.dom_of_taken h, hlit]; decide
  have hnum : bitsOf pk.hdr.aux 0 8 = bitsOf pk.hdr.aux 0 10 := by
    simp only [bitsOf] at hinst ⊢
    omega
  exact exec_of_passes hu hlit hc h (State.passes_of_bar hdom hroom hgood hlo hhi (by rw [State.bar, hnum]; exact hb) hjob)

end Taken

/-- A checked CANCEL is applied (R296). -/
theorem exec_cancel (h : s.takeSyncOp u (fun o => o == 6) = some (pk, s1)) (hgood : State.badOp pk.hdr = false) :
    exec (.cancel u) s = .next (s.within (s1.cancelOp u pk)) := by
  have hop := State.syncOp_of_taken h
  have hdom : s1.dom u ≠ 2 := by rw [State.dom_of_taken h, hlit]; decide
  have hroom : State.namesSlot pk.hdr = true → s1.watchRoom u = true := by simp [State.namesSlot, hop]
  exact exec_of_passes hu hlit rfl h (f := fun s pk => s.cancelOp u pk) (State.passes_of_cancel hdom hroom hgood hop)

end Unit

/-- Settles O56: an ADD or SUB passes the checks, and moves its semaphore alone or is refused. -/
theorem semaphoresNeverWrap : Obligations.SemaphoresNeverWrap := by
  unfold Obligations.SemaphoresNeverWrap
  intro s s1 u sub pk hu hlit h hgood hack i n hon hjob hnone
  have hop := State.syncOp_of_taken h
  have hslot : State.namesSlot pk.hdr = false := by
    rw [State.namesSlot_addSub (by rw [hop]; cases sub <;> simp), hack]
  have hexec := exec_semOp (c := if sub then .sub u else .add u) (f := fun s pk => s.addSub u pk sub) hu hlit
    (by cases sub <;> rfl) h hgood (by simp [hslot]) (by cases sub <;> decide)
  obtain ⟨-, l, o, c, rfl⟩ := State.takeSyncOp_spec h
  replace hexec := hexec hon (.inl hjob) (by cases sub <;> exact nofun)
  have hkept := State.keepsRest_addSub (s := s.withArrivals l o c) (u := u) (sub := sub) hslot hnone
  rw [within_self s _ hkept.pending hkept.build] at hexec
  refine ⟨_, hexec, hkept.others, hkept.on.trans hon, hkept.job, Nat.le_sub_one_of_lt (State.semVal_lt ..), hkept.watches, hkept.ntfq,
    hkept.bars, hkept.ram, hkept.keys, ?_⟩
  have hmoved := State.semVal_addSub_of_fits (s := s.withArrivals l o c) (u := u) (sub := sub) hslot rfl rfl hnone
  have hrefused := State.addSub_refused (s := s.withArrivals l o c) (u := u) (sub := sub) hslot rfl rfl
  cases sub
  case false =>
    refine (if_neg (by decide)).mpr ?_
    split
    next hfits => exact hmoved hfits
    next hfits => exact hrefused hfits
  case true =>
    refine (if_pos rfl).mpr ?_
    split
    next hfits => exact hmoved hfits
    next hfits => exact hrefused hfits

end Sys2Proof.Safety
end

section
namespace Sys2Proof.Machine.State

variable {s : State} {u k : Nat}

theorem within_sem (s t : State) (u i : Nat) : (s.within t).sem u i = t.sem u i := by rw [sem, within_sems, sem]

theorem within_semVal (s t : State) (u i : Nat) : (s.within t).semVal u i = t.semVal u i := by rw [semVal, within_sem, semVal]

/-! Realign slots (R310). -/

/-- Both semaphores of a slot moved down by what lies above the second one's reference. -/
def realigned (s : State) (x : Realign) : State :=
  (s.setSemVal x.unit x.a (s.semVal x.unit x.a - (s.semVal x.unit x.b - x.rb))).setSemVal x.unit x.b x.rb

variable {x : Realign}

theorem semVal_realigned_low (hlow : x.rb ≤ s.semVal x.unit x.b) : (s.realigned x).semVal x.unit x.b = x.rb := by
  rw [realigned, semVal_setSemVal_same, Nat.mod_eq_of_lt (hlow.trans_lt (semVal_lt ..))]

theorem semVal_realigned_high (hne : x.a ≠ x.b) (ha : x.a < 1024) (hb : x.b < 1024) :
    (s.realigned x).semVal x.unit x.a = s.semVal x.unit x.a - (s.semVal x.unit x.b - x.rb) := by
  rw [realigned, semVal, sem_setSemVal_apart hb ha (.inr hne), ← semVal, semVal_setSemVal_same,
    Nat.mod_eq_of_lt ((Nat.sub_le ..).trans_lt (semVal_lt ..))]

theorem sem_realigned_apart {v j : Nat} (ha : x.a < 1024) (hb : x.b < 1024) (hj : j < 1024)
    (h : v ≠ x.unit ∨ (j ≠ x.a ∧ j ≠ x.b)) : (s.realigned x).sem v j = s.sem v j := by
  rw [realigned, sem_setSemVal_apart hb hj (h.imp_right And.right), sem_setSemVal_apart ha hj (h.imp_right And.left)]

/-- A watch that a slot lowers with its semaphores. -/
def lowers (x : Realign) (w : Watch) : Bool := w.unit == x.unit && w.kind ≤ 1 && !w.fired && (w.index == x.a || w.index == x.b)

/-- Without such a watch nothing follows on either semaphore. -/
theorem walk_realigned (hstill : s.watches.any (lowers x) = false) {i : Nat} (hi : i = x.a ∨ i = x.b) :
    (s.realigned x).walk x.unit i = s.realigned x := by
  refine walk_of_none_live fun w hw hu hwi hkind => ?_
  have hnot := List.any_eq_false.1 hstill w hw
  have hidx : (w.index == x.a || w.index == x.b) = true := by rw [hwi, Bool.or_eq_true, beq_iff_eq, beq_iff_eq]; exact hi
  simpa [lowers, hu, hkind, hidx] using hnot

section Within
variable (hstill : s.watches.any (lowers x) = false) (hlow : x.rb ≤ s.semVal x.unit x.b)
  (hhigh : s.semVal x.unit x.b - x.rb ≤ s.semVal x.unit x.a)
include hstill hlow hhigh

/-- Without live watches on its semaphores a slot moves them, and changes its own record, registers and reports beyond that. -/
theorem realignOne_of_within :
    ∃ r l g, s.realignOne x = { s.realigned x with regs := r, reports := l, realigns := g } := by
  have hin : ((x.rb : Int) ≤ (s.semVal x.unit x.b : Int) &&
      (s.semVal x.unit x.b : Int) - (x.rb : Int) ≤ (s.semVal x.unit x.a : Int)) = true := by
    rw [Bool.and_eq_true, decide_eq_true_eq, decide_eq_true_eq]
    omega
  have hnew : ((s.semVal x.unit x.a : Int) - ((s.semVal x.unit x.b : Int) - (x.rb : Int))).toNat =
    s.semVal x.unit x.a - (s.semVal x.unit x.b - x.rb) := by omega
  obtain ⟨t, ht⟩ : ∃ t, s.realignOne x = t := ⟨_, rfl⟩
  rw [ht]
  unfold realignOne at ht
  extract_lets u a b drift dl ok d moved low lowered core st x' noted at ht
  have hok : ok = true := hin
  have hmoved : moved = s.realigned x := by
    rw [realigned, ← hnew]
  have hkept : s.watches.map low = s.watches :=
    (List.map_congr_left fun w hw => if_neg (Bool.eq_false_iff.1 (Bool.eq_false_of_not_eq_true (List.any_eq_false.1 hstill w hw)))).trans (List.map_id _)
  have hlowered : lowered = moved := congrArg (fun l => ({ moved with watches := l } : State)) hkept
  have hcore : core = s.realigned x := by
    rw [show core = (lowered.walk u x.a).walk u x.b from if_pos hok, hlowered, hmoved, walk_realigned hstill (.inl rfl),
      walk_realigned hstill (.inr rfl)]
  clear_value core
  subst hcore
  split at ht
  · rw [← ht]
    obtain ⟨r, l, h⟩ := synErr_bump_eq noted (unitBase u) 1 F.SYN_RAL_CNT_COUNT u 0xD st _ F.SYN_ERR_DRIFT
    exact ⟨r, l, _, h⟩
  · exact ⟨_, _, _, ht.symm⟩

theorem sem_realignOne (v j : Nat) : (s.realignOne x).sem v j = (s.realigned x).sem v j := by
  obtain ⟨r, l, g, h⟩ := realignOne_of_within hstill hlow hhigh
  rw [h]
  rfl

theorem watches_realignOne : (s.realignOne x).watches = s.watches := by
  obtain ⟨r, l, g, h⟩ := realignOne_of_within hstill hlow hhigh
  rw [h]
  rfl

theorem ram_realignOne : (s.realignOne x).ram = s.ram := by
  obtain ⟨r, l, g, h⟩ := realignOne_of_within hstill hlow hhigh
  rw [h]
  rfl

end Within

end Sys2Proof.Machine.State
end

section
namespace Sys2Proof.Safety
open Sys2Proof.Machine

section Wait
variable {s s1 : State} {u : Nat} {take : Bool} {pk : Pkt} (hu : u < s.build.units) (hlit : s.dom u = 3)
  (h : s.takeSyncOp u (fun o => o == (if take then 4 else 3)) = some (pk, s1)) (hgood : State.badOp pk.hdr = false)
  (hroom : s1.watchRoom u = true)
include hu hlit h hgood hroom

/-- A WAIT or WAIT_TAKE that passes the checks is registered (R292). -/
theorem exec_wait (hon : s1.semOn u (bitsOf pk.hdr.aux 0 10) = true) (hjob : s1.semJob u (bitsOf pk.hdr.aux 0 10) = pk.hdr.job) :
    exec (if take then .waitTake u else .wait u) s = .next (s.within (s1.waitOp u pk take)) :=
  exec_semOp (f := fun s pk => s.waitOp u pk take) hu hlit (by cases take <;> rfl) h hgood (fun _ => hroom)
    (by cases take <;> decide) hon (.inl hjob) (by cases take <;> exact nofun)

end Wait

/-- A realign slot whose turn has come, at a unit that runs (R310, R52). -/
theorem exec_realign {s : State} {u k : Nat} {x : Realign} (hon : s.unitOn u = true) (hrun : s.running = true)
    (hx : s.realigns.find? (fun x => x.unit == u && x.slot == k) = some x) (hen : x.en = true)
    (hcome : liesAfter 40 x.turn s.spn.turn = false) : exec (.realign u k) s = .next (s.within (s.realignOne x)) := by
  show atUnit u s (fun s => s.realignSlot u k) = _
  rw [atUnit, act_of_on hon]
  simp only [State.realignSlot, hx, hen, hrun, hcome, Bool.not_false, Bool.and_self, if_true]

/-- Settles O57: a watch is registered, and fires where its condition holds; a realign slot moves both of its semaphores. -/
theorem watchesAndRealignment : Obligations.WatchesAndRealignment := by
  unfold Obligations.WatchesAndRealignment
  refine ⟨fun s s1 u take pk hu hlit h hgood hroom => ?wait, fun s u k x hu hon hrun hx hen hcome hne ha hb hstill hlow hhigh => ?realign⟩
  case wait =>
    intro i n hon hjob hnone
    obtain ⟨-, l, o, c, rfl⟩ := State.takeSyncOp_spec h
    have hexec := exec_wait hu hlit h hgood hroom hon hjob
    have hi : i < 1024 := State.semIndex_lt _
    obtain ⟨hunit, hent, hindex, hn, htag, hwjob, hfired⟩ := (s.withArrivals l o c).waiting_spec u take pk
    by_cases hmet : n ≤ s.semVal u i
    · have hsem := State.sem_waitOp_of_met (s := s.withArrivals l o c) (u := u) (pk := pk) hmet hnone take
      have hval := State.semVal_satisfied (s.withArrivals l o c) u i take n
      refine ⟨_, _, hexec, State.watches_waitOp_of_met (s := s.withArrivals l o c) hmet hnone take, hunit, hindex, hn, htag, hwjob,
        fun v j hj hne => ?_, fun _ => ⟨rfl, rfl, State.ntfq_waitOp_of_met (s := s.withArrivals l o c) hmet hnone take, ?_, ?_⟩,
        fun hlt => absurd hmet (Nat.not_le.2 hlt)⟩
      · rw [State.within_sem, hsem]
        exact State.sem_satisfied_apart take n hi hj hne
      · rw [State.within_semVal, State.semVal, State.semVal, hsem]
      · rw [State.within_semVal, State.semVal, hsem, ← State.semVal, hval]
        rfl
    · have hlt : s.semVal u i < n := Nat.not_le.1 hmet
      have hwait := State.waitOp_of_unmet (s := s.withArrivals l o c) (u := u) (pk := pk) (take := take) hlt
      rw [hwait] at hexec
      refine ⟨_, (s.withArrivals l o c).waiting u take pk, hexec, ?_, hunit, hindex, hn, htag, hwjob, fun v j hj hne => ?_,
        fun hle => absurd hle hmet, fun _ => ⟨hfired, ?_, ?_⟩⟩
      · rw [State.within_watches, State.applied_watches]
        rfl
      · rw [State.within_sem, State.applied_sem]
        rfl
      · rw [State.within_ntfq, State.applied_ntfq]
        rfl
      · rw [State.within_sems, State.applied_sems]
        rfl
  case realign =>
    obtain rfl : x.unit = u := by
      have := List.find?_some hx
      simp only [Bool.and_eq_true, beq_iff_eq] at this
      exact this.1
    have hexec := exec_realign hon hrun hx hen hcome
    have hsem : ∀ v j, (s.within (s.realignOne x)).sem v j = (s.realigned x).sem v j := fun v j => by
      rw [State.within_sem, State.sem_realignOne hstill hlow hhigh]
    refine ⟨_, hexec, ?_, ?_, fun v j hj hnot => (hsem v j).trans (State.sem_realigned_apart ha hb hj hnot), ?_, ?_⟩
    · rw [State.semVal, hsem, ← State.semVal, State.semVal_realigned_low hlow]
    · rw [State.semVal, hsem, ← State.semVal, State.semVal_realigned_high hne ha hb]
    · rw [State.within_watches, State.watches_realignOne hstill hlow hhigh]
    · rw [State.within_ram, State.ram_realignOne hstill hlow hhigh]

end Sys2Proof.Safety
end

/-! ### Events of a sync unit -/

section
namespace Sys2Proof.Machine.State

variable {s : State} {u k : Nat}

/-- A timed epoch whose turn has come is released (R306). -/
theorem barTimed_of_due {b t e : Nat} {x : Bar} (hx : s.bar u b = some x) (hdue : x.due = some (t, e)) (hrun : s.running = true)
    (hcome : liesAfter 40 t s.spn.turn = false) : s.barTimed u b = s.releaseBar u b e := by
  simp only [barTimed, hx, hdue, hrun, hcome, Bool.not_false, Bool.and_self, if_true]

/-- A watch that has not fired at its deadline ends TIMEOUT (R295). -/
theorem watchTimeoutOp_of_live {w : Watch} (hw : s.watches.find? (fun w => w.unit == u && w.ent == k && !w.fired) = some w) :
    s.watchTimeoutOp u k = (((s.passTo w.due).bump (unitBase u) F.SYN_TMO_CNT_COUNT 1).synErr u F.SYN_ERR_WTMO 0xC stTIMEOUT
      (syncDetail w.index w.kind w.scol w.srow w.tag w.src)).endWatch w stTIMEOUT := by
  simp only [watchTimeoutOp, hw]

/-- What a unit sends waits at its injection link (R280). -/
theorem sendFrom_unit (s : State) (u : Nat) (pk : Pkt) : ∃ q, s.sendFrom (0xF80 + u) pk = { s with sendq := q } := by
  have hunit : (decide (0xF00 ≤ 0xF80 + u) && decide (0xF80 + u < 0xF7E) && pk.hdr.exitp == 0xF80 + u - 0xF00) = false := by
    rw [decide_eq_false (show ¬ 0xF80 + u < 0xF7E by omega), Bool.and_false, Bool.false_and]
  rw [sendFrom]
  split
  · rw [hunit]
    exact ⟨_, rfl⟩
  · exact ⟨_, rfl⟩

/-- Once the first notification of a unit has left: it and its watch are gone, and it is counted (R293). -/
def notified (s : State) (u k : Nat) : State :=
  { s with
    ntfq := delFirst (fun q => q.1 == u) s.ntfq
    watches := delFirst (fun x => x.unit == u && x.ent == k) s.watches }

theorem launchNtf_of_first {w : Watch} (hq : s.ntfq.find? (fun q => q.1 == u) = some (u, k))
    (hw : s.watches.find? (fun w => w.unit == u && w.ent == k) = some w) :
    ∃ q, s.launchNtf u = { (s.notified u k).bump (unitBase u) F.SYN_FIRE_CNT_COUNT 1 with sendq := q } := by
  rw [launchNtf, hq]
  dsimp only
  rw [hw]
  exact sendFrom_unit ((s.notified u k).bump (unitBase u) F.SYN_FIRE_CNT_COUNT 1) u _

end Sys2Proof.Machine.State

namespace Sys2Proof.Safety
open Sys2Proof.Machine

section Unit
variable {s s1 : State} {u k : Nat} {pk : Pkt} (hu : u < s.build.units) (hlit : s.dom u = 3)
include hu hlit

/-- A reserved operation is refused BADCMD (R288). -/
theorem exec_syncOpReserved (h : s.takeSyncOp u (fun o => !(1 ≤ o && o ≤ 12 && o != 7)) = some (pk, s1))
    (hroom : State.namesSlot pk.hdr = true → s1.watchRoom u = true) :
    exec (.syncOpReserved u) s = .next (s.within (s1.refuseOp u pk F.SYN_ERR_BADOP stBADCMD (s1.seenValue u pk.hdr))) := by
  obtain ⟨hres, -⟩ := State.takeSyncOp_spec h
  have hdom : s1.dom u ≠ 2 := by rw [State.dom_of_taken h, hlit]; decide
  have hbad : State.badOp pk.hdr = true := by
    rw [State.badOp, hres, Bool.true_or, Bool.true_or, Bool.true_or]
  show execSyncOpReserved u s = _
  rw [execSyncOpReserved]
  refine atUnit_of_row hu hlit ?_
  rw [h]
  exact State.checkOp_of_malformed hdom hroom hbad

/-- BAR_TIMED_RELEASE (R306). -/
theorem exec_barTimedRelease {b t e : Nat} {x : Bar} (hx : s.bar u b = some x) (hdue : x.due = some (t, e)) (hrun : s.running = true)
    (hcome : liesAfter 40 t s.spn.turn = false) : exec (.barTimedRelease u b) s = .next (s.within (s.releaseBar u b e)) :=
  atUnit_of_row (f := fun s => s.barTimed u b) hu hlit (State.barTimed_of_due hx hdue hrun hcome)

/-- WATCH_TIMEOUT (R295). -/
theorem exec_watchTimeout {w : Watch} (hw : s.watches.find? (fun w => w.unit == u && w.ent == k && !w.fired) = some w) :
    exec (.watchTimeout u k) s = .next (s.within ((((s.passTo w.due).bump (State.unitBase u) F.SYN_TMO_CNT_COUNT 1).synErr u
      F.SYN_ERR_WTMO 0xC stTIMEOUT (State.syncDetail w.index w.kind w.scol w.srow w.tag w.src)).endWatch w stTIMEOUT)) :=
  atUnit_of_row (f := fun s => s.watchTimeoutOp u k) hu hlit (State.watchTimeoutOp_of_live hw)

/-- NOTIFICATION_LAUNCH (R293). -/
theorem exec_notificationLaunch {w : Watch} (hq : s.ntfq.find? (fun q => q.1 == u) = some (u, k))
    (hw : s.watches.find? (fun w => w.unit == u && w.ent == k) = some w) :
    ∃ t, exec (.notificationLaunch u) s = .next t ∧ t.ntfq = delFirst (fun q => q.1 == u) s.ntfq ∧
      t.watches = delFirst (fun x => x.unit == u && x.ent == k) s.watches ∧ t.sems = s.sems ∧
      t.get (State.unitBase u) F.SYN_FIRE_CNT_COUNT = min (s.get (State.unitBase u) F.SYN_FIRE_CNT_COUNT + 1) (2 ^ 32 - 1) := by
  obtain ⟨q, hrow⟩ := State.launchNtf_of_first hq hw
  have hexec : exec (.notificationLaunch u) s = _ := atUnit_of_row (f := fun s => s.launchNtf u) hu hlit hrow
  have hcount := State.get_bump_same (s.notified u k) (State.unitBase u) 1 F.SYN_FIRE_CNT_COUNT (by decide)
  obtain ⟨r, hbump⟩ := (s.notified u k).bump_eq (State.unitBase u) 1 F.SYN_FIRE_CNT_COUNT
  rw [hbump] at hexec hcount
  exact ⟨_, hexec, rfl, rfl, rfl, hcount⟩

end Unit

end Sys2Proof.Safety
end

/-! ### A barrier beyond those that a unit has -/

section
namespace Sys2Proof.Safety
open Sys2Proof.Machine

/-- A BAR_UP whose barrier number is 256 in ten bits, and 0 in the eight bits that name a barrier. -/
def farBarUp : Pkt := Pkt.bare { Hdr.zero with ptype := tSYNC_OP, opc := 10, aux := 256 } Ext.none

/-- A record of a barrier 256, which no unit has. -/
def farBar : Bar := ⟨0, 256, 0, [], [], 0, none, none⟩

/-- A block in service whose sync unit 0 runs, holds that record, and is sent that operation. -/
def farBarrier : State :=
  { State.reset with
    boot := 0, regs := [(0xA10, 3)], arrivals := [(0xF80, [⟨0, pSN, 0, false, farBarUp, 0⟩])], bars := [farBar] }

/-- The operations that unit 0 has refused, in a state and in an outcome. -/
def refusedOf (s : State) : Nat := s.get (State.unitBase 0) F.SYN_REJ_CNT_COUNT
def refusedIn (o : Host.Outcome State Fault Refusal) : Option Nat :=
  match o with
  | .next t => some (refusedOf t)
  | _ => none

theorem farBarrier_lit : 0 < farBarrier.build.units ∧ farBarrier.dom 0 = 3 ∧ State.badOp farBarUp.hdr = false ∧
    State.namesSlot farBarUp.hdr = false := by decide +kernel

/-- The unit takes the operation, and an application of it would refuse nothing. -/
theorem farBarrier_taken : ((farBarrier.takeSyncOp 0 fun o => o == 10).map fun r =>
    (r.1, r.2.bars, refusedOf (farBarrier.within (r.2.barUpOp 0 r.1)))) = some (farBarUp, [farBar], 0) := by decide +kernel

/-- The unit refuses it, for it has no barrier 0. -/
theorem farBarrier_refused : refusedIn (exec (.barUp 0) farBarrier) = some 1 := by decide +kernel

/-- Refutes O55: its states may hold a record of a barrier beyond the 256 that a unit has, which the statement finds by ten bits
of the operation's AUX and the unit, which reads eight, does not (R288, R301). What remains true is stated by `exec_cancel`, `exec_semOp`,
`exec_syncOpReserved`, `exec_barTimedRelease`, `exec_watchTimeout` and `exec_notificationLaunch`, and for the barriers that a unit has by
`exec_barOp`. -/
theorem not_syncOperationsAreApplied : ¬ Obligations.SyncOperationsAreApplied := by
  unfold Obligations.SyncOperationsAreApplied
  intro h
  obtain ⟨hunits, hlit, hgood, hslot⟩ := farBarrier_lit
  obtain ⟨⟨pk, s1⟩, htaken, heq⟩ := Option.map_eq_some_iff.1 farBarrier_taken
  simp only [Prod.mk.injEq] at heq
  obtain ⟨rfl, hbars, hnone⟩ := heq
  obtain ⟨hops, -⟩ := h farBarrier s1 0 10 farBarUp hunits hlit
  obtain ⟨-, -, hbar⟩ := hops htaken hgood fun hnames => absurd (hslot.symm.trans hnames) (by decide)
  obtain ⟨-, -, hup, -⟩ := hbar farBar (by rw [hbars]; rfl) rfl
  have hrefused := farBarrier_refused
  rw [hup rfl, refusedIn, hnone] at hrefused
  exact absurd hrefused (by decide)

end Sys2Proof.Safety
end

/-! ### Watch slots of an NI and core queues -/

section
namespace Sys2Proof.Machine.State

variable {s s1 : State} {ep k q : Nat} {pk : Pkt}

/-! Watch slots (R297, R298). -/

/-- A notification that names no armed slot is counted as stale. -/
theorem takeNtf_of_stale (h : s.wslotState ep (bitsOf pk.hdr.tag 0 6) ≠ 1) :
    s.takeNtf ep pk = s.bump (niBase ep) F.NI_SYN_STALE_CNT_COUNT 1 := by
  simp only [takeNtf, bne_iff_ne.2 h, Bool.or_true, Bool.true_or, if_true]

/-- One that names an armed slot of its generation makes it DONE. -/
theorem takeNtf_of_armed (hstate : s.wslotState ep (bitsOf pk.hdr.tag 0 6) = 1) (hmine : bitsOf pk.hdr.tag 18 2 = 0)
    (hgen : bitsOf pk.hdr.tag 6 12 = s.get (wslotBase ep (bitsOf pk.hdr.tag 0 6)) F.NI_WSLOTs_HI_GEN)
    (harmed : (s.armed.any fun x => x.ep == ep && x.slot == bitsOf pk.hdr.tag 0 6 && !x.desc) = true) :
    s.takeNtf ep pk = s.slotDone ep (bitsOf pk.hdr.tag 0 6) (pk.hdr.opc % 16) (some (bitsOf pk.hdr.addr 0 40)) := by
  have hfound : (s.armed.find? fun x => x.ep == ep && x.slot == bitsOf pk.hdr.tag 0 6 && !x.desc).isNone = false := by
    rw [← Option.not_isSome, Bool.not_eq_false', List.find?_isSome]
    exact List.any_eq_true.1 harmed
  simp only [takeNtf, hmine, hstate, ← hgen, hfound, bne_self_eq_false, Bool.or_self, Bool.false_eq_true, if_false]

/-- A pulse to a core changes what goes out of its TAP alone (R449). -/
theorem tapPulse_eq (s : State) (t l : Nat) : ∃ w n o, s.tapPulse t l = { s with tapw := w, mwNext := n, out := o } := by
  unfold tapPulse
  split
  · exact ⟨_, _, _, rfl⟩
  · split
    · exact ⟨_, _, _, rfl⟩
    · exact ⟨_, _, _, rfl⟩

/-- The registers of a slot that ends without a value. -/
def slotEnded (s : State) (ep k st : Nat) : State :=
  (s.set (wslotBase ep k) F.NI_WSLOTs_HI_STATUS st).set (wslotBase ep k) F.NI_WSLOTs_HI_STATE 2

theorem slotDone_eq {st : Nat} (hst : st ≠ stPOISON) :
    ∃ a w n o, s.slotDone ep k st none = { s.slotEnded ep k st with armed := a, tapw := w, mwNext := n, out := o } := by
  have hnone : s.completion st = s := if_neg (by rwa [beq_iff_eq])
  simp only [slotDone, hnone, ← slotEnded.eq_def]
  generalize s.slotEnded ep k st = t
  obtain ⟨w, n, o, h⟩ := tapPulse_eq { t with armed := t.armed.filter fun a => !(a.ep == ep && a.slot == k) } (4 * ep + k / 16) 0
  exact ⟨_, w, n, o, h⟩

/-- It is DONE, with its status. -/
theorem slotDone_spec {st : Nat} (hst : st ≠ stPOISON) (hw : st < 16) : (s.slotDone ep k st none).wslotState ep k = 2 ∧
    (s.slotDone ep k st none).get (wslotBase ep k) F.NI_WSLOTs_HI_STATUS = st ∧ (s.slotDone ep k st none).tmo = s.tmo := by
  obtain ⟨a, w, n, o, h⟩ := slotDone_eq (s := s) (ep := ep) (k := k) hst
  have hstate : (s.slotEnded ep k st).wslotState ep k = 2 := get_set_same _ _ _ _ (by decide)
  have hstatus : (s.slotEnded ep k st).get (wslotBase ep k) F.NI_WSLOTs_HI_STATUS = st := by
    rw [slotEnded, get_set_apart _ _ _ _ _ (by decide), get_set_same _ _ _ _ (by decide)]
    exact Nat.mod_eq_of_lt hw
  have htmo : (s.slotEnded ep k st).tmo = s.tmo := (set_tmo ..).trans (set_tmo ..)
  rw [h]
  generalize s.slotEnded ep k st = t at hstate hstatus htmo
  exact ⟨hstate, hstatus, htmo⟩

theorem report_tmo (s : State) (c src st d : Nat) : (s.report c src st d).tmo = s.tmo := by
  obtain ⟨_, _, h⟩ := report_eq s c src st d
  rw [h]

/-- The guard of an armed slot runs out: it ends TIMEOUT, once the clock has come to the end of its wait. -/
theorem guardExpire_of_armed {a : Armed} (ha : s.armed.find? (fun a => a.ep == ep && a.slot == k && !a.desc) = some a) :
    ∃ t : State, s.guardExpire ep k = t.slotDone ep k stTIMEOUT none ∧ t.tmo = max s.tmo (a.born + a.wait + 1) := by
  simp only [guardExpire, ha]
  refine ⟨_, rfl, ?_⟩
  rw [report_tmo, bump, set_tmo, passTo_tmo]

end Sys2Proof.Machine.State
end

section
namespace Sys2Proof.Machine.State

variable {s : State} {ep q : Nat} {m : SMsg}

/-! Send queues (R323, R324, R332). -/

/-- A queue whose first message that has not started is its head already is settled. -/
theorem sqSettle_of_head (hm : (s.sqMsgs ep q).find? (fun m => m.op.isNone) = some m) (hhead : m.head.isSome = true) :
    s.sqSettle ep q = s := by
  have hset : m.head.isNone = false := by rw [← Option.not_isSome, hhead]; rfl
  simp only [sqSettle, hm, hset, Bool.and_false, Bool.false_eq_true, if_false]

/-- The operation of a message that starts at the present TAIL without a pad, but for its data (R324, R325). -/
def msgOp (s : State) (ep q : Nat) : Op :=
  { Op.zero with
    ep := ep, kind := .send, ctx := s.sqCtx ep q, chan := s.sqChan ep q, glint := s.flag (sqBase ep q) F.CQU_SQs_CTL_GLINT
    rank := s.get (sqBase ep q) F.CQU_SQs_DEST_RANK, aux := s.get (sqBase ep q) F.CQU_SQs_DEST_QUEUE }

/-- The state in which TAIL has moved by a message's charge (R324). -/
def charged (s : State) (ep q : Nat) (m : SMsg) : State :=
  s.set (sqBase ep q) F.CQU_SQs_TAIL_TAIL ((s.sqTail ep q + s.sqCharge ep q m.len) % 2 ^ 32)

/-- A message starts once its credit covers its charge; where its record fits before the end of the ring it needs no pad (R324, R325). -/
theorem startMsg_of_room (hm : (s.sqMsgs ep q).find? (fun m => m.op.isNone) = some m) (hhead : m.head.isSome = true)
    (hwhole : s.sqBroken ep q = false) (hcred : s.sqCharge ep q m.len ≤ s.sqCred ep q)
    (hfits : s.sqTail ep q % s.sqRing ep q + recLen m.len ≤ s.sqRing ep q) :
    s.startMsg ep q = ((startOp { s.charged ep q m with
      smsgs := updFirst (fun x => x == m) (fun x => { x with op := some s.nextId }) s.smsgs } { s.msgOp ep q with
        who := .msg q m.mtag (s.msgOp ep q).rank, len := 16 + m.len, raddr := s.sqTail ep q % s.sqRing ep q
        laddr := m.core * 2 ^ 46 + m.src, data := recHeader 0 (recLen m.len) (s.endpoint ep) m.core m.mtag m.len }).sqSettle ep q).noteSq ep
          q := by
  have hset : m.head.isNone = false := by rw [← Option.not_isSome, hhead]; rfl
  have hnopad : ¬ s.sqRing ep q - s.sqTail ep q % s.sqRing ep q < recLen m.len := by omega
  simp only [startMsg, sqSettle_of_head hm hhead, hm, hset, hwhole, Nat.not_lt.2 hcred, hnopad, decide_false, Bool.or_self,
    Bool.false_eq_true, if_false, set_nextId, set_smsgs, charged, msgOp]

/-- The queue's head message, whose credit does not cover its charge, leaves TIMEOUT after TMO notches (R332). -/
theorem stallExpire_of_short {t : Nat} (hm : (s.sqMsgs ep q).find? (fun m => m.op.isNone) = some m) (hhead : m.head = some t)
    (hshort : s.sqCred ep q < s.sqCharge ep q m.len) :
    let u := s.passTo (t + s.get (sqBase ep q) F.CQU_SQs_TMO_TMO + 1)
    let v := postQueue { u with smsgs := delFirst (fun x => x == m) s.smsgs } ep q m.mtag stTIMEOUT
    s.stallExpire ep q = (((v.errBit (niBase ep) F.CQU_ERR_STALL 0xE (srcEp ep) stTIMEOUT
      (q + 16 * v.get (sqBase ep q) F.CQU_SQs_DEST_RANK)).bump (niBase ep) F.CQU_STALL_CNT_COUNT 1).sqSettle ep q).noteSq ep q := by
  have hisSome : m.head.isSome = true := by rw [hhead]; rfl
  simp only [stallExpire, sqSettle_of_head hm hisSome, hm, hhead, Nat.not_le.2 hshort, if_false, passTo_smsgs]

/-- A credit update that is owed leaves with the queue's HEAD (R328, R330). -/
theorem sendUpdate_of_owed (h : s.lazies.any (fun l => l.ep == ep && l.q == q) = true) :
    ∃ f : FarReq, (s.sendUpdate ep q).farq = s.farq ++ [f] ∧ f.ep = ep ∧ f.pkt.hdr.ptype = tCREDIT ∧
      f.pkt.hdr.addr = s.rqHead ep q + 2 ^ 32 + 2 ^ 33 := by
  simp only [sendUpdate, h, Bool.not_true, Bool.false_eq_true, if_false]
  exact ⟨_, rfl, rfl, rfl, rfl⟩

/-! Registers of watch slots and core queues (R297, R322, R330, R331). -/

theorem writeNi_wslot {off d : Nat} (hep : ep < 0xF00) (hlo : 0x1600 ≤ off) (hhi : off < 0x1800) (hodd : off % 8 = 4) :
    s.writeNi ep off d = s.wslotWrite ep ((off - 0x1600) / 8) d := by
  simp only [writeNi, beq_iff_eq, Bool.and_eq_true, decide_eq_true_eq]
  rw [if_neg (by omega), if_neg (by omega), if_neg (by omega), if_neg (by omega), if_neg (by omega), if_neg (by omega),
    if_neg (by omega), if_neg (by omega), if_neg (by omega), if_pos (by omega), if_pos hodd]

theorem writeNi_rq {off d : Nat} (hep : ep < 0xF00) (hlo : 0x1800 ≤ off) (hhi : off < 0x1A00) :
    s.writeNi ep off d = s.rqWrite ep ((off - 0x1800) / 32) (off % 32 / 4) d := by
  simp only [writeNi, beq_iff_eq, Bool.and_eq_true, decide_eq_true_eq]
  rw [if_neg (by omega), if_neg (by omega), if_neg (by omega), if_neg (by omega), if_neg (by omega), if_neg (by omega),
    if_neg (by omega), if_neg (by omega), if_neg (by omega), if_neg (by omega), if_pos (by omega)]

theorem writeNi_sq {off d : Nat} (hep : ep < 0xF00) (hlo : 0x1A00 ≤ off) (hhi : off < 0x1C00) :
    s.writeNi ep off d = s.sqWrite ep ((off - 0x1A00) / 32) (off % 32 / 4) d := by
  simp only [writeNi, beq_iff_eq, Bool.and_eq_true, decide_eq_true_eq]
  rw [if_neg (by omega), if_neg (by omega), if_neg (by omega), if_neg (by omega), if_neg (by omega), if_neg (by omega),
    if_neg (by omega), if_neg (by omega), if_neg (by omega), if_neg (by omega), if_neg (by omega), if_pos (by omega)]

/-- A write of CQU_RQq_HEAD. -/
theorem writeNi_rqHead {d : Nat} (hep : ep < 0xF00) (hq : q < 16) : s.writeNi ep (0x1810 + 32 * q) d = s.headWrite ep q d := by
  rw [writeNi_rq hep (by omega) (by omega), show (0x1810 + 32 * q - 0x1800) / 32 = q by omega,
    show (0x1810 + 32 * q) % 32 / 4 = 4 by omega]
  rfl

/-- A write of CQU_RQq_CTL. -/
theorem writeNi_rqCtl {d : Nat} (hep : ep < 0xF00) (hq : q < 16) : s.writeNi ep (0x1804 + 32 * q) d = s.rqCtlWrite ep q d := by
  rw [writeNi_rq hep (by omega) (by omega), show (0x1804 + 32 * q - 0x1800) / 32 = q by omega,
    show (0x1804 + 32 * q) % 32 / 4 = 1 by omega]
  rfl

/-- A write of CQU_SQs_CTL. -/
theorem writeNi_sqCtl {d : Nat} (hep : ep < 0xF00) (hq : q < 16) : s.writeNi ep (0x1A00 + 32 * q) d = s.sqCtlWrite ep q d := by
  rw [writeNi_sq hep (by omega) (by omega), show (0x1A00 + 32 * q - 0x1A00) / 32 = q by omega,
    show (0x1A00 + 32 * q) % 32 / 4 = 0 by omega]
  rfl

/-- A write of NI_WSLOTs_HI with FREE 1 frees a DONE slot. -/
theorem writeNi_wslotFree {k : Nat} (hep : ep < 0xF00) (hk : k < 64) (hdone : s.wslotState ep k = 2) :
    s.writeNi ep (0x1604 + 8 * k) 0x80000000 = (stOK, s.set (wslotBase ep k) F.NI_WSLOTs_HI_STATE 0) := by
  have hfree : bitAt 0x80000000 31 = true := by decide
  rw [writeNi_wslot hep (by omega) (by omega) (by omega), show (0x1604 + 8 * k - 0x1600) / 8 = k by omega]
  simp only [wslotWrite, hfree, hdone, Bool.not_true, Nat.reduceBEq, Bool.false_eq_true, if_false]

/-- A read of CQU_SELk. -/
theorem readReg_sel (hs : s.build.isS = false) (hn : ep < 0xF00) (hb : ep < s.build.nodes) (hq : q < 4) :
    s.readReg (niBase ep + (0x1C10 + 4 * q)) = s.selRead ep q := by
  have hloc := locate_niNode hn hb (off := 0x1C10 + 4 * q) (by omega)
  have htlm : s.isTlm (nodeBase ep + (0x1C10 + 4 * q)) = false := by
    rw [show nodeBase ep = niBase ep from (if_pos hn).symm, isTlm, hloc]
    simp only [Bool.or_eq_false_iff, Bool.and_eq_false_iff, decide_eq_false_iff_not]
    omega
  have hni : s.readNi ep (0x1C10 + 4 * q) = s.selRead ep q := by
    simp only [readNi, beq_iff_eq, Bool.and_eq_true, decide_eq_true_eq]
    rw [if_neg (by omega), if_neg (by omega), if_neg (by omega), if_neg (by omega), if_neg (by omega), if_neg (by omega),
      if_pos (by omega), show (0x1C10 + 4 * q - 0x1C10) / 4 = q by omega]
  unfold readReg
  split
  next r hr => exact absurd hr (rowAt_niNode hs hn hb (by omega) r)
  next =>
    rw [hloc]
    simp only [readNode, htlm, beq_iff_eq, Bool.and_eq_true, decide_eq_true_eq, Bool.false_eq_true]
    rw [if_neg (by omega), if_neg (by omega), if_neg (by decide), if_neg (by omega), if_pos (by omega), hni]

/-! Memory ports (R448, R450). -/

/-- An answer to a unit request that is outstanding reaches the access that asked. -/
theorem unitAnswered_of_live {p tag : Nat} {wr : Bool} {l : Live} (h : s.mapLive p wr tag = some l) (data : Nat) (bad : Bool) (st : Nat) :
    ∃ u, s.unitAnswered true p wr tag data bad st = some u := by
  obtain ⟨t, ht, hl⟩ := List.exists_of_findSome?_eq_some h
  obtain ⟨hmem, hmine⟩ := List.mem_filter.1 ht
  have htag : t.live.any (fun l => l.tag == tag) = true := List.any_eq_true.2 ⟨l, List.mem_of_find?_eq_some hl,
    List.find?_some (p := fun l : Live => l.tag == tag) hl⟩
  have hany : s.txns.any (fun t => t.map == true && t.port == p && t.wr == wr && t.live.any (fun l => l.tag == tag)) = true := by
    refine List.any_eq_true.2 ⟨t, hmem, ?_⟩
    rw [htag, Bool.and_true]
    simpa using hmine
  simp only [unitAnswered, hany, Bool.not_true, Bool.false_eq_true, if_false]
  exact ⟨_, rfl⟩

theorem mapTimeout_of_live {p tag : Nat} {wr : Bool} {l : Live} (h : s.mapLive p wr tag = some l) :
    ∃ u, State.unitAnswered { s.passCyc (l.at' + 65536) with deadTags := s.deadTags ++ [(p, wr, tag)] } true p wr tag 0 false stTIMEOUT =
      some u ∧ s.mapTimeout p wr tag = u := by
  have hlive : State.mapLive { s.passCyc (l.at' + 65536) with deadTags := s.deadTags ++ [(p, wr, tag)] } p wr tag = some l := by
    rw [← h, mapLive, mapLive, passCyc_txns]
  obtain ⟨u, hu⟩ := unitAnswered_of_live hlive 0 false stTIMEOUT
  refine ⟨u, hu, ?_⟩
  simp only [mapTimeout, h, passCyc_deadTags, hu, Option.getD_some]

end Sys2Proof.Machine.State
end

/-! ### Rows of TAPs, watch slots, core queues and memory ports -/

section
namespace Sys2Proof.Machine.State

variable {s : State} {ep k : Nat}

/-- The registers of a slot that has been freed. -/
def slotFreed (s : State) (ep k : Nat) : State := s.set (wslotBase ep k) F.NI_WSLOTs_HI_STATE 0

theorem slotFreed_eq (s : State) (ep k : Nat) : ∃ r, s.slotFreed ep k = { s with regs := r } := ⟨_, rfl⟩

theorem slotFreed_frame (s : State) (ep k : Nat) : { s.slotFreed ep k with regs := s.regs } = s := by
  obtain ⟨r, h⟩ := s.slotFreed_eq ep k
  rw [h]

theorem wslotState_slotFreed (s : State) (ep k : Nat) : (s.slotFreed ep k).wslotState ep k = 0 :=
  get_set_same _ _ _ _ (by decide)

/-- Of the registers it changes one word of the NI of a node alone. -/
theorem word_slotFreed {a : Nat} (h : a ≠ wslotBase ep k + 0x1604) : (s.slotFreed ep k).word a = s.word a :=
  word_set _ _ _ _ _ h

/-- A DONE slot that is freed takes no domain into Lit or out of it, not even in a build so large that the slot's word is also one of
the words of the domains: there DONE reads as Retain and FREE as Dark. -/
theorem dom_slotFreed_lit (hdone : s.wslotState ep k = 2) (d : Nat) : ((s.slotFreed ep k).dom d != 3) = (s.dom d != 3) := by
  by_cases hword : 0xA10 + 4 * (d / 16) = wslotBase ep k + 0x1604
  · by_cases hbits : 2 * (d % 16) = 12
    · have hbefore : s.dom d = 2 := by
        rw [← hdone, dom, hword, hbits]
        rfl
      have hafter : (s.slotFreed ep k).dom d = 0 := by
        rw [← wslotState_slotFreed s ep k, dom, hword, hbits]
        rfl
      rw [hbefore, hafter]
      rfl
    · have hsame : (s.slotFreed ep k).dom d = s.dom d := by
        have hset : (s.slotFreed ep k).word (wslotBase ep k + 0x1604) = setWordField (s.word (wslotBase ep k + 0x1604)) 12 2 0 :=
          (word_setWord ..).trans (if_pos rfl)
        rw [dom, hword, hset, dom, hword]
        exact wordField_setWordField_apart _ 12 2 0 (2 * (d % 16)) 2 (by omega)
      rw [hsame]
  · rw [dom, word_slotFreed hword, dom]

end Sys2Proof.Machine.State

namespace Sys2Proof.Safety
open Sys2Proof.Machine

/-- Which accesses under way cannot be answered rests on the half resets and on which domains are not Lit (R416). -/
theorem accsDown_of_lit {s t : State} (hb : t.build = s.build) (haccs : t.accs = s.accs) (hlit : ∀ d, (t.dom d != 3) = (s.dom d != 3))
    (hhalf : ∀ e, t.halfReset e = s.halfReset e) : t.accsDown = s.accsDown := by
  have haddr : ∀ a, t.addrDom a = s.addrDom a := fun a => by
    unfold State.addrDom State.bankDom
    rw [hb]
  have hpath : ∀ a d, t.pathDown a d = s.pathDown a d := fun a d => by
    simp only [State.pathDown, hb, haddr, hlit, hhalf]
  simp only [State.accsDown, funext₂ hpath, hb, haccs]

theorem still_slotFreed {s : State} {ep k : Nat} (h : Still s) (hnode : ep < 0xF00) : Still (s.slotFreed ep k) := by
  have hbase : State.wslotBase ep k = 0x2000000 + ep * 0x4000 + 8 * k := congrArg (· + 8 * k) (if_pos hnode)
  have hmode : (s.slotFreed ep k).get 0 F.MIR_CTL_TRMODE = s.get 0 F.MIR_CTL_TRMODE := by
    rw [State.get, State.word_slotFreed (by rw [hbase, show 0 + F.MIR_CTL_TRMODE.off = 0xC00 from rfl]; omega), State.get]
  obtain ⟨r, hfreed⟩ := s.slotFreed_eq ep k
  rw [hfreed] at hmode ⊢
  exact { h with stream := by rw [hmode]; exact h.stream }

/-- In a quiet state no access ends because a DONE slot is freed. -/
theorem closeDown_slotFreed {s : State} {ep k : Nat} (hnode : ep < 0xF00) (hdone : s.wslotState ep k = 2) (hdown : s.accsDown = []) :
    (s.slotFreed ep k).closeDown = s.slotFreed ep k := by
  have hbase : State.wslotBase ep k = 0x2000000 + ep * 0x4000 + 8 * k := congrArg (· + 8 * k) (if_pos hnode)
  obtain ⟨r, hfreed⟩ := s.slotFreed_eq ep k
  have haccs : (s.slotFreed ep k).accsDown = [] :=
    (accsDown_of_lit (by rw [hfreed]) (by rw [hfreed]) (State.dom_slotFreed_lit hdone)
      (halfReset_congr (State.word_slotFreed (by omega)))).trans hdown
  rw [State.closeDown, haccs]
  rfl

/-! The rows. -/

/-- A row at the NI of a node that acts is its effect, and what follows from it. -/
theorem atNodeNi_of_acts {c : Instr} {s t : State} {ep : Nat} {f : State → State} (h : acts c s = true)
    (ha : acts c s = (nodeEp s.build ep && (s.epOn ep && !s.stopped))) (hrow : f s = t) :
    atNodeNi ep s f = .next (s.within t.settle) := by
  rw [ha, Bool.and_eq_true] at h
  obtain ⟨hep, hon⟩ := h
  rw [← hrow]
  exact act_of_on (by rw [decide_eq_true (lt_of_nodeEp hep).1, Bool.true_and, hon])

/-- A row at a TAP that acts is its effect, and what follows from it. -/
theorem atTap_of_acts {c : Instr} {s t : State} {tap : Nat} {f : State → State} (h : acts c s = true)
    (ha : acts c s = (tapBuilt s.build tap && (s.nodeOn (tap / 4) && !s.stopped && (s.heldX (.tap tap)).isNone))) (hrow : f s = t) :
    atTap tap s f = .next (s.within t.settle) := by
  rw [ha, Bool.and_eq_true, tapBuilt, Bool.and_eq_true] at h
  obtain ⟨⟨hs, -⟩, hon⟩ := h
  rw [← hrow]
  exact act_of_on (by rw [Bool.and_assoc, Bool.and_assoc, hs, Bool.true_and, ← Bool.and_assoc, hon])

/-- A row at a MAP that acts is its effect, and what follows from it. -/
theorem atMap_of_acts {c : Instr} {s t : State} {m : Nat} {f : State → State} (h : acts c s = true)
    (ha : acts c s = (s.build.portKind m == 1 && (s.portOn m && !s.stopped && (s.heldX (.map m)).isNone))) (hrow : f s = t) :
    atMap m s f = .next (s.within t.settle) := by
  rw [← hrow]
  exact act_of_on (by rw [Bool.and_assoc, Bool.and_assoc, ← Bool.and_assoc (s.portOn m), ← ha, h])

/-- A request of a core is taken behind those before it (R286, R323, R444, R446, R447). -/
theorem tapTake_eq (s : State) (tap op : Nat) (d : BitVec 512) : s.tapTake tap op d =
    State.tapRun { s with tapq := s.tapq ++ [⟨tap, op, d.toNat, s.dom (s.build.nodeDom (tap / 4)) == 2⟩] } tap (s.tapq.length + 1) := by
  rw [State.tapTake]
  exact congrArg (State.tapRun _ tap) List.length_append

theorem exec_tapRequest {s : State} {tap op : Nat} {d : BitVec 512} {c : Instr} (h : acts c s = true)
    (hc : (c = .desc tap d ∧ op = 1) ∨ (c = .sync tap d ∧ op = 2) ∨ (c = .qsubmit tap d ∧ op = 3) ∨ (c = .reg tap d ∧ op = 4) ∨
      (c = .tapReservedOp tap op d ∧ (op = 0 ∨ 4 < op))) : exec c s = .next (s.within (s.tapTake tap op d).settle) := by
  obtain ⟨rfl, rfl⟩ | ⟨rfl, rfl⟩ | ⟨rfl, rfl⟩ | ⟨rfl, rfl⟩ | ⟨rfl, hop⟩ := hc
  · exact atTap_of_acts (f := fun s => s.tapTake tap 1 d) h rfl rfl
  · exact atTap_of_acts (f := fun s => s.tapTake tap 2 d) h rfl rfl
  · exact atTap_of_acts (f := fun s => s.tapTake tap 3 d) h rfl rfl
  · exact atTap_of_acts (f := fun s => s.tapTake tap 4 d) h rfl rfl
  · refine atTap_of_acts (f := fun s => if 1 ≤ op && op ≤ 4 then s else s.tapTake tap op d) h rfl (if_neg ?_)
    simp only [Bool.and_eq_true, decide_eq_true_eq]
    omega

/-- A notification that has arrived is taken (R297). -/
theorem exec_syncNtf {s s1 t : State} {ep : Nat} {a : Arrival} (h : acts (.syncNtf ep) s = true)
    (ha : s.takeArrival ep (fun a => a.pkt.hdr.ptype == tSYNC_NTF && !a.lt) = some (a, s1)) (hrow : s1.takeNtf ep a.pkt = t) :
    exec (.syncNtf ep) s = .next (s.within t.settle) := by
  refine atNodeNi_of_acts (f := fun s => s.ntfRow ep) h rfl ?_
  rw [State.ntfRow, ha]
  exact hrow

/-- The guard of an armed slot runs out (R298). -/
theorem exec_wslotGuardExpiry {s : State} {ep k : Nat} {a : Armed} (h : acts (.wslotGuardExpiry ep k) s = true)
    (ha : s.armed.find? (fun a => a.ep == ep && a.slot == k && !a.desc) = some a) :
    ∃ u : State, exec (.wslotGuardExpiry ep k) s = .next (s.within u.settle) ∧ u.wslotState ep k = 2 ∧
      u.get (State.wslotBase ep k) F.NI_WSLOTs_HI_STATUS = stTIMEOUT ∧ u.tmo = max s.tmo (a.born + a.wait + 1) := by
  obtain ⟨t, hrow, hclock⟩ := State.guardExpire_of_armed ha
  obtain ⟨hstate, hstatus, htmo⟩ := State.slotDone_spec (s := t) (ep := ep) (k := k) (st := stTIMEOUT) (by decide) (by decide)
  exact ⟨_, atNodeNi_of_acts (f := fun s => s.guardExpire ep k) h rfl hrow, hstate, hstatus, htmo.trans hclock⟩

/-- A write of a register of a node's NI that its checks allow has its effect, and a status of it that is not OK is recorded (R9, R428). -/
theorem niWrite_of_mapped {s : State} {ep off : Nat} {d : Word} {w : Nat × State} (hep : ep < 0xF00) (hs : s.stopped = false)
    (hok : s.accCheck (niBase ep + off) = stOK) (hw : s.writeReg .cfg (niBase ep + off) d.toNat = w) :
    niWrite ep off d s = .next (s.within (w.2.recordAcc .cfg true (niBase ep + off) d.toNat w.1).settle) := by
  have hon : (decide (ep < 0xF7E) && !s.stopped) = true := by rw [hs, decide_eq_true (by omega)]; rfl
  rw [niWrite, niAccess, act_of_on hon, State.access, hok, hw]
  rfl

section Register
variable {s : State} {ep q : Nat} {d : Word} (hep : nodeEp s.build ep = true) (hS : s.build.isS = false) (hs : s.stopped = false)
include hep hS hs

/-- A write of a register of the core-queue unit of a node (R322, R330). -/
theorem niWrite_of_writeNi {off : Nat} {w : Nat × State} (hlo : 0x1000 ≤ off) (hhi : off < 0x2000)
    (hok : s.accCheck (niBase ep + off) = stOK) (hw : s.writeNi ep off d.toNat = w) :
    niWrite ep off d s = .next (s.within (w.2.recordAcc .cfg true (niBase ep + off) d.toNat w.1).settle) := by
  obtain ⟨hnode, hbuilt⟩ := lt_of_nodeEp hep
  exact niWrite_of_mapped hnode hs hok ((State.writeReg_niNode .cfg hS hnode hbuilt hlo hhi).trans hw)

/-- A write of CQU_RQq_HEAD (R330). -/
theorem exec_cquHeadWrite (hq : q < 16) (hok : s.accCheck (niBase ep + (0x1810 + 32 * q)) = stOK) :
    exec (.cquHeadWrite ep q d) s = .next (s.within ((s.headWrite ep q d.toNat).2.recordAcc .cfg true (niBase ep + (0x1810 + 32 * q))
      d.toNat (s.headWrite ep q d.toNat).1).settle) := by
  show niWrite ep (0x1810 + 32 * (q % 16)) d s = _
  rw [Nat.mod_eq_of_lt hq]
  exact niWrite_of_writeNi hep hS hs (by omega) (by omega) hok (State.writeNi_rqHead (lt_of_nodeEp hep).1 hq)

/-- A write of CQU_RQq_CTL (R322). -/
theorem exec_cquEnable_receive (hq : q < 16) (hok : s.accCheck (niBase ep + (0x1804 + 32 * q)) = stOK) :
    exec (.cquEnable ep false q d) s = .next (s.within ((s.rqCtlWrite ep q d.toNat).2.recordAcc .cfg true
      (niBase ep + (0x1804 + 32 * q)) d.toNat (s.rqCtlWrite ep q d.toNat).1).settle) := by
  show niWrite ep (0x1804 + 32 * (q % 16)) d s = _
  rw [Nat.mod_eq_of_lt hq]
  exact niWrite_of_writeNi hep hS hs (by omega) (by omega) hok (State.writeNi_rqCtl (lt_of_nodeEp hep).1 hq)

/-- A write of CQU_SQs_CTL (R322). -/
theorem exec_cquEnable_send (hq : q < 16) (hok : s.accCheck (niBase ep + (0x1A00 + 32 * q)) = stOK) :
    exec (.cquEnable ep true q d) s = .next (s.within ((s.sqCtlWrite ep q d.toNat).2.recordAcc .cfg true
      (niBase ep + (0x1A00 + 32 * q)) d.toNat (s.sqCtlWrite ep q d.toNat).1).settle) := by
  show niWrite ep (0x1A00 + 32 * (q % 16)) d s = _
  rw [Nat.mod_eq_of_lt hq]
  exact niWrite_of_writeNi hep hS hs (by omega) (by omega) hok (State.writeNi_sqCtl (lt_of_nodeEp hep).1 hq)

/-- A read of CQU_SELk (R331). -/
theorem exec_cquSelRead (hq : q < 4) (hok : s.accCheck (niBase ep + (0x1C10 + 4 * q)) = stOK) :
    exec (.cquSelRead ep q) s = .next (s.within (s.selRead ep q).2.settle) := by
  obtain ⟨hnode, hbuilt⟩ := lt_of_nodeEp hep
  have hon : (decide (ep < 0xF7E) && !s.stopped) = true := by rw [hs, decide_eq_true (by omega)]; rfl
  show niAccess ep false (0x1C10 + 4 * (q % 4)) 0 s = _
  rw [Nat.mod_eq_of_lt hq, niAccess, act_of_on hon, State.access, hok, State.readReg_sel hS hnode hbuilt hq]
  rfl

/-- A DONE slot is freed in a quiet state, and nothing else happens (R297). -/
theorem exec_wslotFree {k : Nat} (hk : k < 64) (hquiet : Quiet s) (hok : s.accCheck (niBase ep + (0x1604 + 8 * k)) = stOK)
    (hdone : s.wslotState ep k = 2) : exec (.wslotFree ep k) s = .next (s.slotFreed ep k) := by
  obtain ⟨hnode, hbuilt⟩ := lt_of_nodeEp hep
  have hw : s.writeReg .cfg (niBase ep + (0x1604 + 8 * k)) (0x80000000 : Word).toNat = (stOK, s.slotFreed ep k) :=
    (State.writeReg_niNode .cfg hS hnode hbuilt (by omega) (by omega)).trans (State.writeNi_wslotFree hnode hk hdone)
  obtain ⟨r, hfreed⟩ := s.slotFreed_eq ep k
  have hstop : (s.slotFreed ep k).stopped = false := by
    rw [hfreed]
    exact hs
  show niWrite ep (0x1604 + 8 * (k % 64)) 0x80000000 s = _
  rw [Nat.mod_eq_of_lt hk, niWrite_of_ok hnode hs hok hw, (still_slotFreed (.of_quiet hquiet) hnode).settle hstop,
    closeDown_slotFreed hnode hdone hquiet.down]
  exact congrArg Host.Outcome.next (within_self s _ (by rw [hfreed]) (by rw [hfreed]))

end Register

/-- An answer at a memory port (R450). -/
theorem exec_mapAnswer {s : State} {m tag err : Nat} {wr bad : Bool} {d : BitVec 512} {c : Instr} (h : acts c s = true)
    (hc : c = if wr then .mapWriteResponse m tag err else .mapReadData m tag d bad err) :
    exec c s = .next (s.within (s.mapAnswer m wr tag (if wr then 0 else d.toNat) (!wr && bad)
      (if wr = false ∧ err = 0 ∧ bad = true then stPOISON else if err = 0 then stOK else if err = 1 then stDENIED else stINTERNAL)).settle) := by
  subst hc
  cases wr with
  | false =>
    refine atMap_of_acts h rfl (f := fun s => s.mapAnswer m false tag d.toNat bad
      (if err == 0 && bad then stPOISON else State.mapErr err)) ?_
    simp [State.mapErr]
  | true =>
    refine atMap_of_acts h rfl (f := fun s => s.mapAnswer m true tag 0 false (State.mapErr err)) ?_
    simp [State.mapErr]

/-- Settles O60: every row is the state operation that it stands for, and of each operation the laws above say what it does. -/
theorem coreAndMemoryPortRows : Obligations.CoreAndMemoryPortRows := by
  unfold Obligations.CoreAndMemoryPortRows
  refine ⟨?request, ?notification, ?slot, ?message, ?register, ?answer, ?timeout, ?data⟩
  case request =>
    intro s tap d c op h hc
    rw [exec_tapRequest h hc, tapTake_eq]
  case notification =>
    intro s s1 ep a h ha
    exact ⟨fun hstale => exec_syncNtf h ha (State.takeNtf_of_stale hstale),
      fun hstate hmine hgen harmed => exec_syncNtf h ha (State.takeNtf_of_armed hstate hmine hgen harmed)⟩
  case slot =>
    intro s ep k h hk
    refine ⟨fun a ha => exec_wslotGuardExpiry h ha, fun hquiet hS hok hdone => ?_⟩
    obtain ⟨hep, hs⟩ : nodeEp s.build ep = true ∧ s.stopped = false := by
      have hacts : (nodeEp s.build ep && (s.epOn ep && !s.stopped)) = true := h
      rw [Bool.and_eq_true, Bool.and_eq_true, Bool.not_eq_true'] at hacts
      exact hacts.imp_right And.right
    exact ⟨_, exec_wslotFree hep hS hs hk hquiet (Nat.add_assoc .. ▸ hok) hdone, State.wslotState_slotFreed s ep k,
      State.slotFreed_frame s ep k⟩
  case message =>
    intro s ep q h _
    refine ⟨fun m hm hhead hwhole hcred hfits => ?_, fun m t hm hhead hshort => ?_, fun howed => ?_⟩
    · exact atNodeNi_of_acts h rfl (f := fun s => s.startMsg ep q) (State.startMsg_of_room hm hhead hwhole hcred hfits)
    · exact atNodeNi_of_acts (c := .cqStallTimeout ep q) h rfl (f := fun s => s.stallExpire ep q)
        (State.stallExpire_of_short hm hhead hshort)
    · obtain ⟨f, hsent⟩ := State.sendUpdate_of_owed howed
      exact ⟨_, f, atNodeNi_of_acts (c := .creditUpdate ep q) h rfl (f := fun s => s.sendUpdate ep q) rfl, hsent⟩
  case register =>
    intro s ep q d hep hS hs
    exact ⟨exec_cquHeadWrite hep hS hs, exec_cquEnable_receive hep hS hs, exec_cquEnable_send hep hS hs,
      fun hq hok => exec_cquSelRead hep hS hs hq (Nat.add_assoc .. ▸ hok)⟩
  case answer =>
    intro s m tag err wr bad d c h
    refine fun hc => ⟨fun u hu => ?_, fun hnone => ?_⟩
    · rw [exec_mapAnswer h hc, State.mapAnswer, hu]
    · rw [exec_mapAnswer h hc, State.mapAnswer, hnone]
  case timeout =>
    intro s m tag wr l h hlive
    obtain ⟨u, hu, hrow⟩ := State.mapTimeout_of_live hlive
    exact ⟨u, hu, atMap_of_acts h rfl (f := fun s => s.mapTimeout m wr tag) hrow⟩
  case data =>
    intro s u tap tag d poison err h hu
    refine atTap_of_acts h rfl (f := fun s => s.tapData tap tag d.toNat poison err) ?_
    rw [State.tapData, hu, Option.getD_some]

end Sys2Proof.Safety
end

/-! ### The registers and the state of a link's port -/

section
namespace Sys2Proof.Machine.State

/-- A report changes no register of a port block. -/
theorem get_report_port (s : State) (c src st d p : Nat) (g : Fld) :
    (s.report c src st d).get (portBase p) g = s.get (portBase p) g := by
  rw [get, word_report_node _ _ _ _ _ _ (by rw [portBase]; omega), get]

/-- Of the port block's registers an event changes its own bit alone. -/
theorem get_nklEvt (s : State) (p st : Nat) (f g : Fld) :
    (s.nklEvt p f st).get (portBase p) g = (s.set (portBase p) f 1).get (portBase p) g := get_report_port ..

theorem nklEvt_eq (s : State) (p st : Nat) (f : Fld) : ∃ r l, s.nklEvt p f st = { s with regs := r, reports := l } := errBit_eq ..

theorem nklErr_eq (s : State) (p st : Nat) (f : Fld) : ∃ r l, s.nklErr p f st = { s with regs := r, reports := l } := errBit_eq ..

/-- NI_PORT_MASK holds no register of the port block. -/
theorem get_setMask (s : State) (p : Nat) (v : Bool) (g : Fld) : (s.setMask p v).get (portBase p) g = s.get (portBase p) g := by
  rw [get, setMask, word_setWord, if_neg (by rw [portBase]; omega), get]

theorem maskBit_setMask (s : State) (p : Nat) (v : Bool) :
    bitAt ((s.setMask p v).word (0x200 + 4 * (p / 32))).toNat (p % 32) = v := by
  have hbit : wordField ((s.setMask p v).word (0x200 + 4 * (p / 32))) (p % 32) 1 = bit v % 2 ^ 1 := by
    rw [setMask, word_setWord, if_pos rfl, wordField_setWordField_same _ _ _ _ (by omega)]
  have hbitAt : ∀ x i, bitAt x i = (bitsOf x i 1 == 1) := fun _ _ => rfl
  rw [hbitAt, show bitsOf _ (p % 32) 1 = _ from hbit]
  cases v <;> rfl

/-- What a register holds rests on the register words and the build. -/
theorem word_congr {s t : State} (hr : t.regs = s.regs) (hb : t.build = s.build) (a : Nat) : t.word a = s.word a := by
  rw [word, hr, hb, word]

theorem get_congr {s t : State} (hr : t.regs = s.regs) (hb : t.build = s.build) (b : Nat) (g : Fld) : t.get b g = s.get b g := by
  rw [get, word_congr hr hb, get]

theorem link_congr {s t : State} (h : t.links = s.links) (q : Nat) : t.link q = s.link q := by rw [link, h, link]

theorem link_setWord (s : State) (a q : Nat) (w : Word) : (s.setWord a w).link q = s.link q := link_congr (setWord_links ..) q

theorem link_set (s : State) (b v q : Nat) (f : Fld) : (s.set b f v).link q = s.link q := link_congr (set_links ..) q

theorem link_setLink (s : State) (p q : Nat) (l : LinkPort) : (s.setLink p l).link q = if q = p then l else s.link q :=
  mapGet_mapSet ..

theorem link_updLink (s : State) (p q : Nat) (f : LinkPort → LinkPort) :
    (s.updLink p f).link q = if q = p then f (s.link p) else s.link q := link_setLink ..

theorem link_updLink_same (s : State) (p : Nat) (f : LinkPort → LinkPort) : (s.updLink p f).link p = f (s.link p) :=
  (link_updLink ..).trans (if_pos rfl)

theorem link_updLink_other (s : State) {p q : Nat} (f : LinkPort → LinkPort) (h : q ≠ p) : (s.updLink p f).link q = s.link q :=
  (link_updLink ..).trans (if_neg h)

end Sys2Proof.Machine.State

namespace Sys2Proof.Safety
open Sys2Proof.Machine

/-! What a row of a link can change. -/

/-- `t` with all that a row of a link can change put back as in `s`. -/
def linkBack (t s : State) : State :=
  { t with
    cyc := s.cyc, tmo := s.tmo, sub := s.sub, buckets := s.buckets, spn := s.spn, snapTlm := s.snapTlm, snapDepth := s.snapDepth
    snapDue := s.snapDue, regs := s.regs, reports := s.reports, blank := s.blank, links := s.links, free := s.free }

/-- A row of a link leads from `s` to `t`: of the global registers it changes at most NI_PORT_MASK, below 0x210, and those of
reports, from 0xB00 to 0xBFF. -/
structure LinkStep (s t : State) : Prop where
  back : linkBack t s = s
  word : ∀ a, 0x210 ≤ a → a < 0x1000000 → a < 0xB00 ∨ 0xC00 ≤ a → t.word a = s.word a

namespace LinkStep
variable {s t u : State}

theorem refl (s : State) : LinkStep s s := ⟨rfl, fun _ _ _ _ => State.word_congr rfl rfl _⟩

theorem trans (h : LinkStep s t) (h' : LinkStep t u) : LinkStep s u :=
  ⟨(congrArg (linkBack · s) h'.back :).trans h.back, fun a hlo hhi ha => (h'.word a hlo hhi ha).trans (h.word a hlo hhi ha)⟩

theorem setWord (h : LinkStep s t) {a : Nat} (ha : a < 0x210 ∨ 0x1000000 ≤ a) (w : Word) : LinkStep s (t.setWord a w) :=
  h.trans ⟨rfl, fun b hlo hhi _ => (State.word_setWord ..).trans (if_neg (by omega))⟩

theorem set (h : LinkStep s t) (p v : Nat) (f : Fld) : LinkStep s (t.set (portBase p) f v) :=
  h.setWord (.inr (by rw [portBase]; omega)) _

theorem bump (h : LinkStep s t) (p n : Nat) (f : Fld) : LinkStep s (t.bump (portBase p) f n) := h.set p _ f

theorem setMask (h : LinkStep s t) {p : Nat} (hp : p < 126) (v : Bool) : LinkStep s (t.setMask p v) :=
  h.setWord (.inl (by omega)) _

theorem links (h : LinkStep s t) (m : List (Nat × LinkPort)) : LinkStep s { t with links := m } :=
  h.trans ⟨rfl, fun _ _ _ _ => State.word_congr rfl rfl _⟩

theorem setLink (h : LinkStep s t) (p : Nat) (l : LinkPort) : LinkStep s (t.setLink p l) := h.links _

theorem updLink (h : LinkStep s t) (p : Nat) (f : LinkPort → LinkPort) : LinkStep s (t.updLink p f) := h.setLink p _

theorem drawFree (h : LinkStep s t) : LinkStep s t.drawFree := h.trans ⟨rfl, fun _ _ _ _ => State.word_congr rfl rfl _⟩

theorem blank (h : LinkStep s t) (b : List (Nat × List Nat)) : LinkStep s { t with blank := b } :=
  h.trans ⟨rfl, fun _ _ _ _ => State.word_congr rfl rfl _⟩

/-- What leaves the links as they were and of the global registers changes those of reports alone. -/
theorem of_spindleStep (hst : SpindleStep reportFlds s t) (hback : linkBack t s = s) : LinkStep s t :=
  ⟨hback, fun a _ _ ha => hst.word a fun f hf => by
    have hreports : ∀ f ∈ reportFlds, 0xB00 ≤ f.off ∧ f.off < 0xC00 := by decide
    have := hreports f hf
    omega⟩

theorem countSeverity (h : LinkStep s t) (v n : Nat) : LinkStep s (t.countSeverity v n) := by
  obtain ⟨r, hsev⟩ := State.countSeverity_eq t v n
  exact h.trans (of_spindleStep (countSeverity_step t v n) (by rw [hsev]; rfl))

theorem report (h : LinkStep s t) (c src st d : Nat) : LinkStep s (t.report c src st d) := by
  obtain ⟨r, l, hrep⟩ := State.report_eq t c src st d
  exact h.trans (of_spindleStep (report_step t c src st d) (by rw [hrep]; rfl))

theorem nklEvt (h : LinkStep s t) (p st : Nat) (f : Fld) : LinkStep s (t.nklEvt p f st) := (h.set p 1 f).report ..

theorem nklErr (h : LinkStep s t) (p st : Nat) (f : Fld) : LinkStep s (t.nklErr p f st) := (h.set p 1 f).report ..

theorem passCyc (h : LinkStep s t) (c : Nat) : LinkStep s (t.passCyc c) := by
  obtain ⟨_, _, _, _, _, _, _, _, hpass⟩ := State.passCyc_eq t c
  exact h.trans (by rw [hpass]; exact ⟨rfl, fun _ _ _ _ => State.word_congr rfl rfl _⟩)

theorem passTo (h : LinkStep s t) (d : Nat) : LinkStep s (t.passTo d) := by
  obtain ⟨_, _, _, _, _, _, _, _, hpass⟩ := State.passTo_eq t d
  exact h.trans (by rw [hpass]; exact ⟨rfl, fun _ _ _ _ => State.word_congr rfl rfl _⟩)

theorem build (h : LinkStep s t) : t.build = s.build := (congrArg State.build h.back :)
theorem stopped (h : LinkStep s t) : t.stopped = s.stopped := (congrArg State.stopped h.back :)
theorem pending (h : LinkStep s t) : t.pending = s.pending := (congrArg State.pending h.back :)
theorem accs (h : LinkStep s t) : t.accs = s.accs := (congrArg State.accs h.back :)
theorem ram (h : LinkStep s t) : t.ram = s.ram := (congrArg State.ram h.back :)

/-- A row of a link leaves a still state still. -/
theorem still (h : LinkStep s t) (hs : Still s) : Still t := by
  have h' : Still (linkBack t s) := h.back.symm ▸ hs
  have htrace : t.trace = s.trace := (congrArg State.trace h.back :)
  have hmode : t.get 0 F.MIR_CTL_TRMODE = s.get 0 F.MIR_CTL_TRMODE := by
    rw [State.get, h.word _ (by decide) (by decide) (by decide), State.get]
  exact { h' with stream := by rw [htrace, hmode]; exact hs.stream }

end LinkStep

theorem AccessesEnded.link {t u : State} (h : AccessesEnded t u) (q : Nat) : u.link q = t.link q :=
  (congrArg (fun r : State => r.link q) h.back :)

theorem AccessesEnded.ram {t u : State} (h : AccessesEnded t u) : u.ram = t.ram := (congrArg State.ram h.back :)

theorem AccessesEnded.word {t u : State} (h : AccessesEnded t u) {a : Nat} (ha : 0x1000 ≤ a ∨ a < 0xB00) : u.word a = t.word a := by
  have hw : ∀ r : State, r.get 0 ⟨a, 0, 32⟩ = (r.word a).toNat := fun r => by
    rw [State.get, wordField, bitsOf, Nat.zero_add, pow_zero, Nat.div_one, Nat.mod_eq_of_lt (r.word a).isLt]
  refine BitVec.eq_of_toNat_eq ?_
  rw [← hw, ← hw]
  refine h.get ⟨a, 0, 32⟩ fun f hf => ?_
  have hreports : ∀ f ∈ reportFlds, 0xB00 ≤ f.off ∧ f.off < 0x1000 := by decide
  have := hreports f hf
  simp only [Fld.apart, bne_iff_ne, Bool.or_eq_true]
  exact .inl (.inl (by omega))

theorem AccessesEnded.getPort {t u : State} (h : AccessesEnded t u) (p : Nat) (g : Fld) :
    u.get (portBase p) g = t.get (portBase p) g := by
  rw [State.get, h.word (.inl (by rw [portBase]; omega)), State.get]

theorem AccessesEnded.linkState {t u : State} (h : AccessesEnded t u) (p : Nat) : u.linkState p = t.linkState p := h.getPort p _

/-- After a row of a link in a quiet state nothing goes on but accesses whose way the row has closed. -/
theorem LinkStep.settle {s t : State} (h : LinkStep s t) (hq : Quiet s) (hs : s.stopped = false) :
    s.within t.settle = t.closeDown ∧ AccessesEnded t t.closeDown := by
  have hstill := h.still (.of_quiet hq)
  have hended := closeDown_ended t hstill.rings
  have hp : t.closeDown.pending = s.pending := (congrArg State.pending hended.back :).trans h.pending
  have hb : t.closeDown.build = s.build := (congrArg State.build hended.back :).trans h.build
  rw [hstill.settle (h.stopped.trans hs)]
  exact ⟨within_self s _ hp hb, hended⟩

end Sys2Proof.Safety
end

/-! ### A link that goes down, and one that begins training -/

section
namespace Sys2Proof.Machine.State

/-- Steps that only give back buffers of Blank pools. -/
theorem foldl_blank {α : Type} {f : State → α → State} (hf : ∀ s a, ∃ b, f s a = { s with blank := b }) (l : List α) (s : State) :
    ∃ b, l.foldl f s = { s with blank := b } := by
  induction l generalizing s with
  | nil => exact ⟨s.blank, rfl⟩
  | cons a l ih =>
    obtain ⟨b, hb⟩ := hf s a
    obtain ⟨b', hb'⟩ := ih { s with blank := b }
    exact ⟨b', by rw [List.foldl_cons, hb, hb']⟩

/-- A link that is down, in electrical idle from a notch on: what it holds besides counters, salts and the packets received whole is as at
reset (R360). -/
def downLink (l : LinkPort) (notch : Nat) : LinkPort :=
  { LinkPort.reset with idle := some notch, ctrs := l.ctrs, salts := l.salts, fnum := l.fnum, whole := l.whole }

/-- A port that has gone down for a reason, its buffers given back: DOWN and idle, with its bit of NI_PORT_MASK set (R357, R360). -/
def fallen (s : State) (p why : Nat) : State :=
  let b := portBase p
  (((((s.setLink p (downLink (s.link p) s.tmo)).setLinkState p 0).set b F.NKL_STAT_LANES 0).set b F.NKL_STAT_SPARE_V 0).set b
    F.NKL_STAT_DOWN_WHY why).setMask p true

variable {s : State} {p : Nat}

theorem linkState_fallen (why : Nat) : (s.fallen p why).linkState p = 0 := by
  rw [linkState, fallen, get_setMask, get_set_apart _ _ _ _ _ (by decide), get_set_apart _ _ _ _ _ (by decide),
    get_set_apart _ _ _ _ _ (by decide), setLinkState, get_set_same _ _ _ _ (by decide)]
  rfl

theorem downWhy_fallen {why : Nat} (h : why < 8) : (s.fallen p why).get (portBase p) F.NKL_STAT_DOWN_WHY = why := by
  rw [fallen, get_setMask, get_set_same _ _ _ _ (by decide)]
  exact Nat.mod_eq_of_lt h

theorem spareV_fallen (why : Nat) : (s.fallen p why).get (portBase p) F.NKL_STAT_SPARE_V = 0 := by
  rw [fallen, get_setMask, get_set_apart _ _ _ _ _ (by decide), get_set_same _ _ _ _ (by decide)]
  rfl

/-- Of the port block's registers NKL_STAT alone changes. -/
theorem get_fallen (why : Nat) {g : Fld} (hg : g.off ≠ 0x6004) : (s.fallen p why).get (portBase p) g = s.get (portBase p) g := by
  have happart : ∀ f : Fld, f.off = 0x6004 → f.apart g = true := fun f hf => by
    simp only [Fld.apart, bne_iff_ne, Bool.or_eq_true]
    exact .inl (.inl (by omega))
  rw [fallen, get_setMask, get_set_apart _ _ _ _ _ (happart _ rfl), get_set_apart _ _ _ _ _ (happart _ rfl),
    get_set_apart _ _ _ _ _ (happart _ rfl), setLinkState, get_set_apart _ _ _ _ _ (happart _ rfl)]
  rfl

theorem link_fallen (why q : Nat) : (s.fallen p why).link q = if q = p then downLink (s.link p) s.tmo else s.link q := by
  have hlinks : (s.fallen p why).links = (s.setLink p (downLink (s.link p) s.tmo)).links := by
    rw [fallen, setMask, setWord_links, set_links, set_links, set_links, setLinkState, set_links]
  rw [link, hlinks]
  exact link_setLink ..

theorem rtx_nklEvt (s : State) (p st : Nat) (f : Fld) : (s.nklEvt p f st).rtx = s.rtx := by
  obtain ⟨r, l, h⟩ := s.nklEvt_eq p st f
  rw [h]

/-- The link going down where nothing waits to be sent, no swap is under way and no packet is held for retransmission: buffers are
given back, and from ISOLATED or UP the peer is gone (R357, R360). -/
theorem linkDownBy_of_empty (why : Nat) (hst : s.linkState p ≠ 0) (hB : (s.link p).qB = []) (hG : (s.link p).qG = [])
    (hswap : (s.link p).swapTx = none) (hrtx : s.rtx = []) :
    ∃ b, s.linkDownBy p why = if s.linkState p = 1 then ({ s with blank := b } : State).fallen p why
      else (({ s with blank := b } : State).fallen p why).nklEvt p F.NKL_EVT_PEER_GONE stPEER_GONE := by
  obtain ⟨b1, hrx⟩ := foldl_blank (f := fun (s : State) (x : RxPkt) => s.freePb p x.buf)
    (fun s x => by unfold freePb; split; exacts [⟨_, rfl⟩, ⟨s.blank, rfl⟩]) ((s.link p).rxB.toList ++ (s.link p).rxG.toList) s
  obtain ⟨b2, hbuf⟩ := foldl_blank (f := fun (s : State) b => s.freeBuf (0xF00 + p) b) (fun s b => ⟨_, rfl⟩)
    ((s.link p).bufB ++ (s.link p).bufG) { s with blank := b1 }
  refine ⟨b2, ?_⟩
  have hgone : ∀ {t : State}, t.rtx = [] → ∀ f : RtxEnt → RtxEnt, ({ t with rtx := t.rtx.map f } : State) = t := fun h f => by
    rw [h, List.map_nil, ← h]
  have hnone : ((({ s with blank := b2 } : State).fallen p why).nklEvt p F.NKL_EVT_PEER_GONE stPEER_GONE).rtx = [] := by
    rw [rtx_nklEvt, fallen, setMask, setWord_rtx, set_rtx, set_rtx, set_rtx, setLinkState, set_rtx]
    exact hrtx
  simp only [linkDownBy, beq_iff_eq, if_neg hst, hB, hG, hswap, List.append_nil, dropWaiting, List.foldl_nil, hrx, hbuf]
  split
  · rfl
  · exact hgone hnone _

end Sys2Proof.Machine.State

namespace Sys2Proof.Safety
open Sys2Proof.Machine

/-- From `s` to `t` the link of port `p` has gone down for a reason (R357, R360). -/
structure WentDown (s t : State) (p why : Nat) : Prop where
  tmo : t.tmo = s.tmo
  state : t.linkState p = 0
  reason : t.get (portBase p) F.NKL_STAT_DOWN_WHY = why
  spare : t.get (portBase p) F.NKL_STAT_SPARE_V = 0
  get : ∀ g : Fld, g.off ≠ 0x6004 → g.off ≠ 0x6024 → t.get (portBase p) g = s.get (portBase p) g
  link : ∀ q, t.link q = if q = p then State.downLink (s.link p) s.tmo else s.link q
  mask : bitAt (t.word (0x200 + 4 * (p / 32))).toNat (p % 32) = true

theorem LinkStep.fallen {s t : State} (h : LinkStep s t) {p : Nat} (hp : p < 126) (why : Nat) : LinkStep s (t.fallen p why) :=
  (((((h.setLink p _).set p 0 _).set p 0 _).set p 0 _).set p why _).setMask hp true

theorem wentDown_fallen (s : State) {p why : Nat} (hwhy : why < 8) : WentDown s (s.fallen p why) p why where
  tmo := by
    rw [State.fallen, State.setMask, State.setWord_tmo, State.set_tmo, State.set_tmo, State.set_tmo, State.setLinkState, State.set_tmo]
    rfl
  state := State.linkState_fallen why
  reason := State.downWhy_fallen hwhy
  spare := State.spareV_fallen why
  get := fun _ hg _ => State.get_fallen why hg
  link := State.link_fallen why
  mask := State.maskBit_setMask ..

namespace WentDown
variable {s t : State} {p why : Nat}

/-- An event apart from NKL_STAT leaves the link as it is. -/
theorem nklEvt (h : WentDown s t p why) (hp : p < 126) {f : Fld} (hf : f.off = 0x6024) (st : Nat) :
    WentDown s (t.nklEvt p f st) p why := by
  have hget : ∀ g : Fld, g.off ≠ 0x6024 → (t.nklEvt p f st).get (portBase p) g = t.get (portBase p) g := fun g hg => by
    rw [State.get_nklEvt, State.get_set_apart _ _ _ _ _ (by simp [Fld.apart, hf, Ne.symm hg])]
  obtain ⟨r, l, hevt⟩ := t.nklEvt_eq p st f
  have hword : (t.nklEvt p f st).word (0x200 + 4 * (p / 32)) = t.word (0x200 + 4 * (p / 32)) := by
    rw [State.nklEvt, State.errBit, (report_step _ _ _ _ _).word _ (fun g hg => ?_), State.word_set _ _ _ _ _ (by rw [portBase]; omega)]
    have hreports : ∀ g ∈ reportFlds, 0xB00 ≤ g.off := by decide
    have := hreports g hg
    have := hp
    omega
  exact {
    tmo := by rw [hevt]; exact h.tmo
    state := (hget _ (by decide)).trans h.state
    reason := (hget _ (by decide)).trans h.reason
    spare := (hget _ (by decide)).trans h.spare
    get := fun g hg hg' => (hget g hg').trans (h.get g hg hg')
    link := fun q => by rw [hevt]; exact h.link q
    mask := by rw [hword]; exact h.mask }

/-- Accesses that end leave the link as it is. -/
theorem ended (h : WentDown s t p why) (hp : p < 126) {u : State} (he : AccessesEnded t u) : WentDown s u p why where
  tmo := (congrArg State.tmo he.back :).trans h.tmo
  state := (he.getPort p _).trans h.state
  reason := (he.getPort p _).trans h.reason
  spare := (he.getPort p _).trans h.spare
  get := fun g hg hg' => (he.getPort p g).trans (h.get g hg hg')
  link := fun q => (he.link q).trans (h.link q)
  mask := by rw [he.word (.inr (by have := hp; omega))]; exact h.mask

end WentDown

/-- A link that goes down where nothing waits to be sent, no swap is under way and no packet is held for retransmission (R357, R360). -/
theorem wentDown_linkDownBy {s : State} {p why : Nat} (hp : p < 126) (hwhy : why < 8) (hst : 0 < s.linkState p)
    (hB : (s.link p).qB = []) (hG : (s.link p).qG = []) (hswap : (s.link p).swapTx = none) (hrtx : s.rtx = []) :
    WentDown s (s.linkDownBy p why) p why ∧ LinkStep s (s.linkDownBy p why) ∧
      (2 ≤ s.linkState p → (s.linkDownBy p why).flag (portBase p) F.NKL_EVT_PEER_GONE = true) := by
  obtain ⟨b, hdown⟩ := State.linkDownBy_of_empty why (Nat.ne_of_gt hst) hB hG hswap hrtx
  have hfallen : WentDown s (({ s with blank := b } : State).fallen p why) p why := { wentDown_fallen { s with blank := b } hwhy with }
  have hstep := ((LinkStep.refl s).blank b).fallen hp why
  rw [hdown]
  split
  · exact ⟨hfallen, hstep, fun h => by omega⟩
  · refine ⟨hfallen.nklEvt hp rfl _, hstep.nklEvt .., fun _ => ?_⟩
    rw [State.flag, State.get_nklEvt, State.get_set_same _ _ _ _ (by decide)]
    rfl

end Sys2Proof.Safety
end

/-! ### Writes of NKL_CTL -/

section
namespace Sys2Proof.Machine

/-- A field into which its own value is put stays. -/
theorem putBits_bitsOf (x lo w : Nat) : putBits x lo w (bitsOf x lo w) = x := by
  refine Nat.eq_of_testBit_eq fun i => ?_
  rw [testBit_putBits, testBit_bitsOf]
  split
  · rw [decide_eq_true (by omega), Bool.true_and, Nat.add_sub_cancel' (by omega)]
  · rfl

theorem locate_port {b : Build} {p off : Nat} (hp : p < 128) (hoff : off < 0x10000) :
    locate b (portBase p + off) = if p < b.nports then .port p off else .unmapped := by
  have hdiv : (portBase p + off - 0x1000000) / 0x10000 = p := by rw [portBase]; omega
  have hmod : (portBase p + off - 0x1000000) % 0x10000 = off := by rw [portBase]; omega
  rw [locate, if_neg (by rw [portBase]; omega), if_neg (by rw [portBase]; omega), if_pos (by rw [portBase]; omega)]
  simp only [hdiv, hmod]

namespace State
variable {s : State} {p d : Nat}

/-- A port whose NKL_CTL can be accessed is one of the build's. -/
theorem lt_nports_of_accCheck {off : Nat} (hp : p < 126) (hoff : off < 0x10000) (hok : s.accCheck (portBase p + off) = stOK) :
    p < s.build.nports := by
  by_contra hout
  have hunmapped : s.mapped (portBase p + off) = false := by rw [mapped, locate_port (by omega) hoff, if_neg hout]
  exact ne_ok_of_refusedSt (refusedSt_cases _) ((accCheck_of_refused s _ (.inr hunmapped)).symm.trans hok)

/-- NKL_CTL of a link reads in every build (R370). -/
theorem rowAt_nklCtl (hlink : s.build.isLink p = true) (hloc : locate s.build (portBase p + 0x6000) = .port p 0x6000) (r : RegRow) :
    rowAt s.build (portBase p + 0x6000) ≠ some (r, true) := by
  rw [rowAt, hloc]
  dsimp only
  split
  · nofun
  · simp [hlink]

theorem writeReg_port {a off : Nat} (by' : AccBy) (hloc : locate s.build a = .port p off) (hreads : ∀ r, rowAt s.build a ≠ some (r, true)) :
    s.writeReg by' a d = s.writePort p off d := by
  unfold writeReg
  split
  next r hr => exact absurd hr (hreads r)
  next => rw [hloc]

/-- NKL_CTL of a link whose domain is on is written by its own rule (R350). -/
theorem writeReg_nklCtl (by' : AccBy) (hlink : s.build.isLink p = true) (hp : p < 126) (hok : s.accCheck (portBase p + 0x6000) = stOK) :
    s.writeReg by' (portBase p + 0x6000) d = s.nklCtlWrite p d := by
  have hloc : locate s.build (portBase p + 0x6000) = .port p 0x6000 := by
    rw [locate_port (by omega) (by decide), if_pos (lt_nports_of_accCheck hp (by decide) hok)]
  rw [writeReg_port by' hloc (rowAt_nklCtl hlink hloc), writePort, if_neg (by decide), if_pos (by decide)]

theorem nklCtlWrite_of_d2d (hd2d : s.isD2d p = true) (hd : bitsOf d 1 3 ≠ 0) : s.nklCtlWrite p d = (stBADCMD, s) := by
  have hnew : bitsOf (d % 2 ^ 27) 1 3 ≠ 0 := by rwa [bitsOf_mod _ _ _ _ (by decide)]
  simp only [nklCtlWrite, hd2d, Bool.true_and, bne_iff_ne, if_pos hnew]

theorem flag_en (s : State) (p : Nat) : s.flag (portBase p) F.NKL_CTL_EN = bitAt (s.word (portBase p + 0x6000)).toNat 0 := rfl

theorem set_frame (s : State) (b v : Nat) (f : Fld) : { s.set b f v with regs := s.regs } = s := (rfl)

theorem linkDown_of_ne (s : State) (p : Nat) {why : Nat} (h : why ≠ 4) : s.linkDown p why = s.linkDownBy p why := by
  simp [linkDown, h]

theorem bitAt_zero_mod (d : Nat) : bitAt (d % 2 ^ 27) 0 = bitAt d 0 :=
  congrArg (· == 1) (bitsOf_mod d 27 0 1 (by decide))

/-- EN is written by itself while the link is not DOWN. -/
theorem set_en_eq (s : State) (p v : Nat) : s.set (portBase p) F.NKL_CTL_EN v =
    s.setWord (portBase p + 0x6000) (BitVec.ofNat 32 (putBits (s.word (portBase p + 0x6000)).toNat 0 1 v)) := rfl

section Link
variable (hlink : s.isD2d p = false ∨ bitsOf d 1 3 = 0)
include hlink

/-- No rule of die-to-die ports refuses the write. -/
theorem not_badCtl : (s.isD2d p && bitsOf (d % 2 ^ 27) 1 3 != 0) = false := by
  rw [bitsOf_mod _ _ _ _ (by decide)]
  obtain h | h := hlink <;> simp [h]

/-- While the link is not DOWN a write of other fields than EN is refused (R370). -/
theorem nklCtlWrite_of_other (hst : s.linkState p ≠ 0)
    (hother : bitsOf d 1 26 ≠ bitsOf (s.word (portBase p + 0x6000)).toNat 1 26) (hen : bitAt d 0 = s.flag (portBase p) F.NKL_CTL_EN) :
    s.nklCtlWrite p d = (stDENIED, s.set (portBase p) F.NKL_CTL_EN (bitsOf d 0 1)) := by
  have hne : (bitsOf d 1 26 != bitsOf (s.word (portBase p + 0x6000)).toNat 1 26) = true := bne_iff_ne.2 hother
  simp only [nklCtlWrite, not_badCtl hlink, bitsOf_mod d 27 1 26 (by decide), bitsOf_mod d 27 0 1 (by decide), bitAt_zero_mod,
    beq_false_of_ne hst, hne, hen, ← flag_en, Bool.and_not_self, Bool.not_and_self, Bool.false_and, Bool.not_false, Bool.and_self,
    Bool.false_eq_true, if_false, if_true, set_en_eq]

/-- A write that clears EN alone takes the link down (R350, R360). -/
theorem nklCtlWrite_of_clear (hst : s.linkState p ≠ 0)
    (hsame : bitsOf d 1 26 = bitsOf (s.word (portBase p + 0x6000)).toNat 1 26) (hen : bitAt d 0 = false)
    (hwas : s.flag (portBase p) F.NKL_CTL_EN = true) :
    s.nklCtlWrite p d = (stOK, (s.set (portBase p) F.NKL_CTL_EN (bitsOf d 0 1)).linkDownBy p 5) := by
  simp only [nklCtlWrite, not_badCtl hlink, bitsOf_mod d 27 1 26 (by decide), bitsOf_mod d 27 0 1 (by decide), bitAt_zero_mod,
    beq_false_of_ne hst, hsame, hen, ← flag_en, hwas, bne_self_eq_false, Bool.and_false, Bool.false_and, Bool.not_false, Bool.and_self,
    Bool.false_eq_true, if_false, if_true, set_en_eq, linkDown_of_ne _ p (show 5 ≠ 4 by decide)]

/-- A write that sets EN of a link that is DOWN and not idle begins training (R350). -/
theorem nklCtlWrite_of_set (hst : s.linkState p = 0) (hidle : (s.link p).idle = none) (hen : bitAt d 0 = true)
    (hwas : s.flag (portBase p) F.NKL_CTL_EN = false) :
    s.nklCtlWrite p d = (stOK, (s.setWord (portBase p + 0x6000) (BitVec.ofNat 32 (d % 2 ^ 27))).startTraining p) := by
  simp only [nklCtlWrite, not_badCtl hlink, bitAt_zero_mod, hst, hen, ← flag_en, hwas, link_setWord, hidle, Option.isNone_none, beq_self_eq_true,
    Bool.not_true, Bool.not_false, Bool.and_self, Bool.false_and, Bool.false_eq_true, if_true, if_false]

end Link

/-- EN written as it was leaves every register word as it was. -/
theorem word_set_en (hen : bitAt d 0 = s.flag (portBase p) F.NKL_CTL_EN) (a : Nat) :
    (s.set (portBase p) F.NKL_CTL_EN (bitsOf d 0 1)).word a = s.word a := by
  have hfield : bitsOf d 0 1 = bitsOf (s.word (portBase p + 0x6000)).toNat 0 1 := by
    have hlt : ∀ x, bitsOf x 0 1 < 2 := fun x => Nat.mod_lt _ (by decide)
    have hbits : (bitsOf d 0 1 == 1) = (bitsOf (s.word (portBase p + 0x6000)).toNat 0 1 == 1) := hen
    rw [Bool.eq_iff_iff, beq_iff_eq, beq_iff_eq] at hbits
    have := hlt d
    have := hlt (s.word (portBase p + 0x6000)).toNat
    omega
  have hsame : ∀ w : Word, setWordField w 0 1 (bitsOf w.toNat 0 1) = w := fun w => by
    rw [setWordField, putBits_bitsOf, BitVec.ofNat_toNat, BitVec.setWidth_eq]
  rw [hfield]
  refine (word_setWord ..).trans ?_
  split
  next ha => rw [ha]; exact hsame _
  next => rfl

/-! A port that begins training (R350). -/

/-- It is in training, and its link starts from nothing. -/
theorem startTraining_eq (s : State) (p : Nat) : ∃ l : LinkPort, l.good = 0 ∧ l.idle = none ∧
    s.startTraining p = (((s.setLinkState p 1).setMask p true).setLink p l).drawFree := by
  unfold startTraining
  exact ⟨_, rfl, rfl, rfl⟩

theorem get_setLink (s : State) (p b : Nat) (l : LinkPort) (g : Fld) : (s.setLink p l).get b g = s.get b g := by
  rw [setLink]
  exact get_congr rfl rfl b g

theorem get_drawFree (s : State) (b : Nat) (g : Fld) : s.drawFree.get b g = s.get b g := by
  rw [drawFree]
  exact get_congr rfl rfl b g

theorem link_drawFree (s : State) (q : Nat) : s.drawFree.link q = s.link q := link_congr rfl q

theorem get_startTraining (s : State) (p : Nat) (g : Fld) :
    (s.startTraining p).get (portBase p) g = (s.set (portBase p) F.NKL_STAT_STATE 1).get (portBase p) g := by
  obtain ⟨l, -, -, h⟩ := s.startTraining_eq p
  rw [h, get_drawFree, get_setLink, get_setMask, setLinkState]

theorem linkState_startTraining (s : State) (p : Nat) : (s.startTraining p).linkState p = 1 := by
  rw [linkState, get_startTraining, get_set_same _ _ _ _ (by decide)]
  rfl

theorem link_startTraining (s : State) (p : Nat) : ∃ l : LinkPort, l.good = 0 ∧ l.idle = none ∧
    ∀ q, (s.startTraining p).link q = if q = p then l else s.link q := by
  obtain ⟨l, hgood, hidle, h⟩ := s.startTraining_eq p
  refine ⟨l, hgood, hidle, fun q => ?_⟩
  rw [h, link_drawFree, link_setLink, setMask, link_setWord, setLinkState, set, link_setWord]

end State
end Sys2Proof.Machine

namespace Sys2Proof.Safety
open Sys2Proof.Machine

theorem LinkStep.startTraining {s t : State} (h : LinkStep s t) {p : Nat} (hp : p < 126) : LinkStep s (t.startTraining p) := by
  obtain ⟨l, -, -, htrain⟩ := t.startTraining_eq p
  rw [htrain]
  exact (((h.set p 1 F.NKL_STAT_STATE).setMask hp true).setLink p l).drawFree

section Ctl
variable {s : State} {p : Nat} {d : Word} (hlink : s.build.isLink p = true) (hs : s.stopped = false) (hp : p < 126)
  (hok : s.accCheck (portBase p + 0x6000) = stOK)
include hlink hs hp hok

/-- A write of NKL_CTL has its effect and is recorded where its status is not OK (R9, R428). -/
theorem exec_nklCtlWrite {st : Nat} {u : State} (hw : s.nklCtlWrite p d.toNat = (st, u)) :
    exec (.nklCtlWrite p d) s = .next (s.within (u.recordAcc .cfg true (portBase p + 0x6000) d.toNat st).settle) := by
  have hacc : (s.access .cfg true (portBase p + 0x6000) d.toNat).2.2 = u.recordAcc .cfg true (portBase p + 0x6000) d.toNat st := by
    simp [State.access, hok, State.writeReg_nklCtl .cfg hlink hp hok, hw]
  have hon : (decide (p < 128) && !s.stopped) = true := by rw [hs, decide_eq_true (by omega)]; rfl
  rw [← hacc]
  exact act_of_on (f := fun s => (s.access .cfg true (portBase p + 0x6000) d.toNat).2.2.settle) hon

/-- In a quiet state nothing goes on after a write that ends OK but accesses whose way it has closed. -/
theorem exec_nklCtlWrite_ok {u : State} (hq : Quiet s) (hw : s.nklCtlWrite p d.toNat = (stOK, u)) (hu : LinkStep s u) :
    exec (.nklCtlWrite p d) s = .next u.closeDown ∧ AccessesEnded u u.closeDown := by
  obtain ⟨hsettle, hended⟩ := hu.settle hq hs
  rw [exec_nklCtlWrite hlink hs hp hok hw, State.recordAcc_ok, hsettle]
  exact ⟨rfl, hended⟩

end Ctl

/-- Settles O42: each kind of write is refused, denied, or takes the link down or into training, and nothing that follows from it
reaches the port block, the links or the memories. -/
theorem linkControl : Obligations.LinkControl := by
  unfold Obligations.LinkControl
  refine ⟨fun s p d hlink hs hok hp => ⟨fun hd2d hd => ?badcmd, fun hd2d hst hother hen => ?denied⟩,
    fun s p d hlink hs hq hp hok hB hG hswap hidle hd2d hsame => ⟨fun hen hwas hst => ?clear, fun hen hwas hst => ?set⟩⟩
  case badcmd => exact exec_nklCtlWrite hlink hs hp hok (State.nklCtlWrite_of_d2d hd2d hd)
  case denied =>
    exact ⟨_, exec_nklCtlWrite hlink hs hp hok (State.nklCtlWrite_of_other hd2d hst hother hen), State.word_set_en hen, State.set_frame ..⟩
  case clear =>
    have hget := State.get_set_apart s (portBase p) (bitsOf d.toNat 0 1) F.NKL_CTL_EN F.NKL_STAT_STATE (by decide)
    have hup : 0 < (s.set (portBase p) F.NKL_CTL_EN (bitsOf d.toNat 0 1)).linkState p := hst.trans_eq hget.symm
    obtain ⟨hdown, hstep, -⟩ := wentDown_linkDownBy (why := 5) hp (by decide) hup (by rwa [State.link_set]) (by rwa [State.link_set])
      (by rwa [State.link_set]) ((State.set_rtx ..).trans hq.rtx)
    have hu := ((LinkStep.refl s).set p (bitsOf d.toNat 0 1) F.NKL_CTL_EN).trans hstep
    obtain ⟨hexec, hended⟩ := exec_nklCtlWrite_ok hlink hs hp hok hq
      (State.nklCtlWrite_of_clear (.inl hd2d) (Nat.ne_of_gt hst) hsame hen hwas) hu
    have hlast := hdown.ended hp hended
    refine ⟨_, hexec, hlast.state, hlast.reason, ?_, fun q hqp => ((hlast.link q).trans (if_neg hqp)).trans (State.link_set ..),
      hended.ram.trans hu.ram⟩
    have hclear : (bitsOf d.toNat 0 1 == 1) = false := hen
    rw [State.flag, hlast.get _ (by decide) (by decide), State.get_set_same _ _ _ _ (by decide), ← hclear]
    exact congrArg (· == 1) (Nat.mod_mod _ _)
  case set =>
    have hhigh : portBase p + 0x6000 < 0x210 ∨ 0x1000000 ≤ portBase p + 0x6000 := .inr (by rw [portBase]; omega)
    have hu := ((LinkStep.refl s).setWord hhigh (BitVec.ofNat 32 (d.toNat % 2 ^ 27))).startTraining hp
    obtain ⟨hexec, hended⟩ := exec_nklCtlWrite_ok hlink hs hp hok hq (State.nklCtlWrite_of_set (.inl hd2d) hst hidle hen hwas) hu
    obtain ⟨l, hgood, -, hlinks⟩ := (s.setWord (portBase p + 0x6000) (BitVec.ofNat 32 (d.toNat % 2 ^ 27))).link_startTraining p
    refine ⟨_, hexec, (hended.linkState p).trans (State.linkState_startTraining ..), ?_, ?_, fun q hqp => ?_,
      hended.ram.trans hu.ram⟩
    · have hword : (BitVec.ofNat 32 (d.toNat % 2 ^ 27)).toNat = d.toNat % 2 ^ 27 := by
        rw [BitVec.toNat_ofNat, Nat.mod_eq_of_lt (by omega)]
      rw [State.flag, hended.getPort, State.get_startTraining, State.get_set_apart _ _ _ _ _ (by decide), ← State.flag,
        State.flag_en, State.word_setWord, if_pos rfl, hword, State.bitAt_zero_mod, hen]
    · rw [hended.link, hlinks, if_pos rfl, hgood]
    · rw [hended.link, hlinks, if_neg hqp, State.link_setWord]

end Sys2Proof.Safety
end

/-! ### Rows of a link in a legal build -/

section
namespace Sys2Proof.Safety
open Sys2Proof.Machine

/-- A row of a link that runs is its effect, and what follows from it. -/
theorem onLink_of_on {s : State} {p : Nat} {f : State → State} (hlink : s.build.isLink p = true) (hon : s.linkOn p = true)
    (hs : s.stopped = false) : onLink p s f = .next (s.within (f s).settle) := by
  have hrun : (if s.stopped = true then s else (f s).settle) = (f s).settle := by rw [hs]; rfl
  rw [← hrun]
  exact act_of_on (f := fun s => if s.stopped then s else (f s).settle) (by rw [hlink, hon]; rfl)

/-- In a legal build the state of every domain of a node lies below the registers of reports (R460, R461). -/
theorem nodeDom_lt_of_legal {b : Build} {n : Nat} (hb : b.legal = true) (hn : n < b.nodes) : b.nodeDom n < 960 := by
  simp only [Build.legal, Build.inRange, Bool.and_eq_true, decide_eq_true_eq] at hb
  have hndom : b.ndom ≤ 80 := by tauto
  have hcols : 2 ≤ b.cols ∧ b.cols ≤ 96 := by tauto
  have hmesh : b.domCols * (b.rows / b.domh) ≤ b.ndom := by simp only [Build.ndom, Build.nmesh]; omega
  have hrow : n / b.cols / b.domh ≤ b.rows / b.domh := Nat.div_le_div_right (Nat.div_lt_of_lt_mul hn).le
  have hcol : n % b.cols / b.domw ≤ 96 := (Nat.div_le_self ..).trans ((Nat.mod_lt _ (by omega)).le.trans hcols.2)
  have hmul : n / b.cols / b.domh * b.domCols ≤ b.domCols * (b.rows / b.domh) := by
    rw [Nat.mul_comm]
    exact Nat.mul_le_mul_left _ hrow
  rw [Build.nodeDom, Build.meshDom, Build.row, Build.col]
  omega

theorem portDom_lt_of_legal {b : Build} (hb : b.legal = true) (p : Nat) : b.portDom p < 960 := by
  simp only [Build.legal, Bool.and_eq_true, decide_eq_true_eq] at hb
  have hndom : b.ndom ≤ 80 := by tauto
  have hquad : ∀ c r, b.quadrant c r ≤ 3 := fun c r => by
    unfold Build.quadrant
    split <;> split <;> omega
  rw [Build.portDom]
  split
  · have := hquad ‹Station›.col ‹Station›.row
    rw [Build.ndom] at hndom
    rw [Build.quadDom]
    omega
  · rw [Build.cfgDom]
    omega

/-- In a legal build the ports are numbered below 126 (R461). -/
theorem lt_of_isLink_of_legal {b : Build} {p : Nat} (hb : b.legal = true) (hlink : b.isLink p = true) : p < 126 := by
  simp only [Build.legal, Bool.and_eq_true, decide_eq_true_eq] at hb
  have hports : b.nports ≤ 126 := by tauto
  have hnumbered : b.numbered = true := by tauto
  obtain ⟨x, hx⟩ : ∃ x, b.station p = some x := by
    refine Option.isSome_iff_exists.1 ?_
    cases hx : b.station p
    · simp [Build.isLink, Build.portKind, hx] at hlink
    · rfl
  have hport : x.port = p := beq_iff_eq.1 (List.find?_some (p := fun s : Station => s.port == p) hx)
  have hmem : (x.port, x.kind, x.index) ∈ b.stations.map (fun x => (x.port, x.kind, x.index)) :=
    List.mem_map_of_mem (List.mem_of_find?_eq_some hx)
  rw [Build.numbered, beq_iff_eq] at hnumbered
  rw [Build.nports] at hports
  simp only [hnumbered, List.mem_append, List.mem_map, mem_upFrom, Prod.mk.injEq] at hmem
  omega

/-- In a legal build no register that a row of a link changes is one of those of the power domains. -/
theorem LinkStep.closeDown_of_legal {s t : State} (h : LinkStep s t) (hb : s.build.legal = true) (hq : Quiet s) : t.closeDown = t := by
  have hdom : ∀ d, d < 960 → t.dom d = s.dom d := fun d hd => by
    rw [State.dom, h.word _ (by omega) (by omega) (by omega), State.dom]
  have hdown : t.accsDown = s.accsDown := accsDown_congr h.build h.accs (fun n hn => hdom _ (nodeDom_lt_of_legal hb hn))
    (fun p => hdom _ (portDom_lt_of_legal hb p)) (halfReset_congr (h.word _ (by decide) (by decide) (by decide)))
  rw [State.closeDown, hdown, hq.down]
  rfl

/-- So that in a quiet state such a row is its own effect alone. -/
theorem onLink_of_legal {s : State} {p : Nat} {f : State → State} (hb : s.build.legal = true) (hlink : s.build.isLink p = true)
    (hon : s.linkOn p = true) (hs : s.stopped = false) (hq : Quiet s) (h : LinkStep s (f s)) : onLink p s f = .next (f s) := by
  rw [onLink_of_on hlink hon hs, (h.settle hq hs).1, h.closeDown_of_legal hb hq]

end Sys2Proof.Safety
end

/-! ### Training, calibration and rotation of a link in a legal build -/

section
namespace Sys2Proof.Machine.State
variable {s : State} {p : Nat}

/-- The lanes that have lock among eight. -/
def locked (lanes : Nat) : Nat := ((upFrom 0 8).filter (bitAt lanes)).length

/-- Without lock on enough lanes nothing happens (R350). -/
theorem phyLock_of_few {lanes : Nat} (hd2d : s.isD2d p = false)
    (hfew : locked lanes < if s.flag (portBase p) F.NKL_CTL_SPARE then 7 else 8) : s.phyLock p lanes = s := by
  rw [locked] at hfew
  simp only [phyLock, hd2d, Bool.false_eq_true, if_false, decide_eq_true hfew, Bool.or_true, Bool.true_or, if_true]

/-- The port with lock on its lanes. -/
def gainLock (s : State) (p : Nat) : State := s.updLink p (fun l => { l with lock := true, good := 0, lastGood := s.tmo })

/-- Lock on enough lanes of a port that trains is the first step (R350). -/
theorem phyLock_of_enough {lanes : Nat} (hd2d : s.isD2d p = false) (hst : s.linkState p = 1) (hidle : (s.link p).idle = none)
    (hlock : (s.link p).lock = false) (henough : (if s.flag (portBase p) F.NKL_CTL_SPARE then 7 else 8) ≤ locked lanes) :
    s.phyLock p lanes = (s.gainLock p).noteLanes p lanes := by
  rw [locked] at henough
  simp only [phyLock, hd2d, Bool.false_eq_true, if_false, hst, hidle, hlock, decide_eq_false (Nat.not_lt.2 henough), bne_self_eq_false,
    Option.isSome_none, Bool.or_false]
  rfl

/-- Of eight lanes at least seven of which have lock, the one without it is the first without it. -/
theorem find_unlocked : ∀ lanes < 256, ∀ k < 8, 7 ≤ locked lanes → bitAt lanes k = false →
    (upFrom 0 8).find? (fun k => !bitAt lanes k) = some k := by decide +kernel

theorem link_noteLanes_other (s : State) {p q : Nat} (lanes : Nat) (h : q ≠ p) : (s.noteLanes p lanes).link q = s.link q := by
  unfold noteLanes
  dsimp only
  split
  · rfl
  split
  · rw [link_updLink_other _ _ h, link_set, link_set]
  · rw [link_set]

/-- The lanes that a port uses are noted without a change to its lock and its count of good frames (R350, R351). -/
theorem lock_noteLanes (s : State) (p lanes : Nat) : ((s.noteLanes p lanes).link p).lock = (s.link p).lock ∧
    ((s.noteLanes p lanes).link p).good = (s.link p).good := by
  unfold noteLanes
  dsimp only
  split
  · exact ⟨rfl, rfl⟩
  split
  · rw [link_updLink_same, link_set, link_set]
    exact ⟨rfl, rfl⟩
  · rw [link_set]
    exact ⟨rfl, rfl⟩

/-- Its registers show how many lanes it uses. -/
theorem get_noteLanes {lanes : Nat} (hd2d : s.isD2d p = false) {g : Fld} (hg : F.NKL_STAT_SPARE_LANE.apart g = true) :
    (s.noteLanes p lanes).get (portBase p) g =
      (s.set (portBase p) F.NKL_STAT_LANES (if s.flag (portBase p) F.NKL_CTL_SPARE then 7 else 8)).get (portBase p) g := by
  unfold noteLanes
  rw [hd2d]
  dsimp only
  rw [if_neg Bool.false_ne_true]
  split
  · rw [updLink, get_setLink, get_set_apart _ _ _ _ _ hg]
  · rfl

theorem spareLane_noteLanes {lanes k : Nat} (hd2d : s.isD2d p = false) (hspare : s.flag (portBase p) F.NKL_CTL_SPARE = true) (hk : k < 8)
    (hfind : (upFrom 0 8).find? (fun k => !bitAt lanes k) = some k) :
    (s.noteLanes p lanes).get (portBase p) F.NKL_STAT_SPARE_LANE = k := by
  rw [noteLanes, hd2d, if_neg Bool.false_ne_true, hspare, if_pos rfl, hfind]
  dsimp only
  rw [updLink, get_setLink, get_set_same _ _ _ _ (by decide)]
  exact Nat.mod_eq_of_lt hk

end Sys2Proof.Machine.State

namespace Sys2Proof.Safety
open Sys2Proof.Machine

/-- From `s` to `t` registers and links change alone. -/
def RegsAndLinks (s t : State) : Prop := { t with regs := s.regs, links := s.links } = s

namespace RegsAndLinks
variable {s t u : State}

theorem refl (s : State) : RegsAndLinks s s := rfl

theorem trans (h : RegsAndLinks s t) (h' : RegsAndLinks t u) : RegsAndLinks s u :=
  (congrArg (fun r : State => { r with regs := s.regs, links := s.links }) h' :).trans h

theorem setWord (h : RegsAndLinks s t) (a : Nat) (w : Word) : RegsAndLinks s (t.setWord a w) := by
  refine h.trans ?_
  rw [RegsAndLinks, State.setWord]

theorem set (h : RegsAndLinks s t) (b v : Nat) (f : Fld) : RegsAndLinks s (t.set b f v) := h.setWord ..

theorem setLink (h : RegsAndLinks s t) (p : Nat) (l : LinkPort) : RegsAndLinks s (t.setLink p l) := by
  refine h.trans ?_
  rw [RegsAndLinks, State.setLink]

theorem updLink (h : RegsAndLinks s t) (p : Nat) (f : LinkPort → LinkPort) : RegsAndLinks s (t.updLink p f) := h.setLink p _

theorem noteLanes (h : RegsAndLinks s t) (p lanes : Nat) : RegsAndLinks s (t.noteLanes p lanes) := by
  unfold State.noteLanes
  dsimp only
  split
  · exact h
  split
  · exact ((h.set ..).set ..).updLink ..
  · exact h.set ..

end RegsAndLinks

theorem LinkStep.noteLanes {s t : State} (h : LinkStep s t) (p lanes : Nat) : LinkStep s (t.noteLanes p lanes) := by
  unfold State.noteLanes
  dsimp only
  split
  · exact h
  split
  · exact ((h.set ..).set ..).updLink ..
  · exact h.set ..

section Row
variable {s : State} {p : Nat} (hb : s.build.legal = true) (hlink : s.build.isLink p = true) (hon : s.linkOn p = true)
  (hs : s.stopped = false) (hq : Quiet s)
include hb hlink hon hs hq

/-- PHY_LOCK without lock on enough lanes (R350). -/
theorem exec_phyLock_of_few {lanes : BitVec 8} (hd2d : s.isD2d p = false)
    (hfew : State.locked lanes.toNat < if s.flag (portBase p) F.NKL_CTL_SPARE then 7 else 8) : exec (.phyLock p lanes) s = .next s := by
  have hsame : s.phyLock p lanes.toNat = s := State.phyLock_of_few hd2d hfew
  exact (onLink_of_legal (f := fun s => s.phyLock p lanes.toNat) hb hlink hon hs hq (by rw [hsame]; exact .refl s)).trans (by rw [hsame])

/-- PHY_LOCK with it (R350, R351). -/
theorem exec_phyLock_of_enough {lanes : BitVec 8} (hd2d : s.isD2d p = false) (hst : s.linkState p = 1) (hidle : (s.link p).idle = none)
    (hlock : (s.link p).lock = false)
    (henough : (if s.flag (portBase p) F.NKL_CTL_SPARE then 7 else 8) ≤ State.locked lanes.toNat) :
    ∃ t, exec (.phyLock p lanes) s = .next t ∧ (t.link p).lock = true ∧ (t.link p).good = 0 ∧ t.linkState p = 1 ∧
      t.get (portBase p) F.NKL_STAT_LANES = (if s.flag (portBase p) F.NKL_CTL_SPARE then 7 else 8) ∧
      (∀ k, s.flag (portBase p) F.NKL_CTL_SPARE = true → k < 8 → bitAt lanes.toNat k = false →
        t.get (portBase p) F.NKL_STAT_SPARE_LANE = k) ∧
      (∀ q, q ≠ p → t.link q = s.link q) ∧ { t with regs := s.regs, links := s.links } = s := by
  have hrow := State.phyLock_of_enough hd2d hst hidle hlock henough
  have hstep : LinkStep s (s.phyLock p lanes.toNat) := by
    rw [hrow]
    exact ((LinkStep.refl s).updLink p _).noteLanes ..
  have hget : ∀ g, (s.gainLock p).get (portBase p) g = s.get (portBase p) g := fun g => State.get_setLink ..
  have hkind : (s.gainLock p).isD2d p = false := hd2d
  refine ⟨_, onLink_of_legal (f := fun s => s.phyLock p lanes.toNat) hb hlink hon hs hq hstep, ?_⟩
  rw [hrow]
  obtain ⟨hlocked, hgood⟩ := (s.gainLock p).lock_noteLanes p lanes.toNat
  refine ⟨?_, ?_, ?_, ?_, fun k hspare hk hbit => ?_, fun q hqp => ?_, ((RegsAndLinks.refl s).updLink p _).noteLanes ..⟩
  · rw [hlocked, State.gainLock, State.link_updLink_same]
  · rw [hgood, State.gainLock, State.link_updLink_same]
  · rw [State.linkState, State.get_noteLanes hkind (by decide), State.get_set_apart _ _ _ _ _ (by decide), hget]
    exact hst
  · rw [State.get_noteLanes hkind (by decide), State.get_set_same _ _ _ _ (by decide), State.flag, hget, ← State.flag]
    split <;> rfl
  · rw [hspare] at henough
    exact State.spareLane_noteLanes hkind ((congrArg (· == 1) (hget _)).trans hspare) hk
      (State.find_unlocked _ lanes.isLt k hk henough hbit)
  · rw [State.link_noteLanes_other _ _ hqp, State.gainLock, State.link_updLink_other _ _ hqp]

end Row

end Sys2Proof.Safety
end

section
namespace Sys2Proof.Machine.State
variable {s : State} {p : Nat}

theorem trainingTimeout_of_training (hst : s.linkState p = 1) (hidle : (s.link p).idle = none) :
    s.trainingTimeout p = (s.passTo ((s.link p).began + 2048 * 2048 + 1)).updLink p
      (fun l => { l with idle := some (s.passTo ((s.link p).began + 2048 * 2048 + 1)).tmo, lock := false, good := 0 }) := by
  simp only [trainingTimeout, hst, hidle, bne_self_eq_false, Option.isSome_none, Bool.or_self, Bool.false_eq_true, if_false]

theorem idleEnd_of_idle {n : Nat} (h : (s.link p).idle = some n) :
    s.idleEnd p = if s.flag (portBase p) F.NKL_CTL_EN then (s.passTo (n + 1025)).startTraining p
      else (s.passTo (n + 1025)).updLink p (fun l => { l with idle := none }) := by
  have hen : (s.passTo (n + 1025)).flag (portBase p) F.NKL_CTL_EN = s.flag (portBase p) F.NKL_CTL_EN :=
    congrArg (· == 1) (get_congr (passTo_regs ..) (passTo_build ..) _ _)
  rw [idleEnd, h]
  dsimp only
  rw [hen]

theorem spareCalibrate_of_compared {count : Nat} (hspare : s.hasSpare p = true) (hsyms : 2 ^ 20 ≤ (s.link p).calSyms) :
    s.spareCalibrate p count = ((s.updLink p (fun l => { l with calC := none, calSyms := 0, calDiff := 0 })).set (portBase p)
        F.NKL_SPARE_ERR_COUNT (min (2 ^ 20) ((s.link p).calDiff + count))).set (portBase p) F.NKL_STAT_SPARE_V
      (if min (2 ^ 20) ((s.link p).calDiff + count) ≤ 16 then 1 else s.get (portBase p) F.NKL_STAT_SPARE_V) := by
  have hkeep : ∀ f, (s.updLink p f).get (portBase p) F.NKL_STAT_SPARE_V = s.get (portBase p) F.NKL_STAT_SPARE_V := fun f => get_setLink ..
  simp only [spareCalibrate, hspare, Bool.not_true, Bool.false_or, decide_eq_false (Nat.not_lt.2 hsyms), Bool.false_eq_true, if_false, hkeep]

theorem spareCalibrate_of_few {count : Nat} (hsyms : (s.link p).calSyms < 2 ^ 20) : s.spareCalibrate p count = s := by
  simp only [spareCalibrate, decide_eq_true hsyms, Bool.or_true, if_true]

theorem cyc_passCyc (s : State) (c : Nat) : (s.passCyc c).cyc = max s.cyc c := by
  have hcyc : s.cyc + (c - s.cyc) = max s.cyc c := by omega
  obtain ⟨_, _, _, hsnap⟩ := s.snapEast_eq c
  rw [passCyc, hsnap, ← hcyc]
  dsimp only
  split <;> split <;> rfl

/-- An ADMIT cell is due while training ends and while ISOLATED (R350, R358). -/
theorem admitSend_of_due (h : s.linkState p = 2 ∨ s.linkState p = 1 ∧ (s.link p).lock = true ∧ (s.isD2d p = true ∨ (s.link p).good = 1024)) :
    s.admitSend p = (s.passCyc ((s.link p).admitAt + 1024)).updLink p
      (fun l => { l with admDue := true, admitAt := (s.passCyc ((s.link p).admitAt + 1024)).cyc }) := by
  have hdue : (s.linkState p == 2 || (s.linkState p == 1 && (s.link p).lock && (s.isD2d p || (s.link p).good == 1024))) = true := by
    simpa [and_assoc] using h
  simp only [admitSend, hdue, if_true]

/-- The lane that a rotation takes next (R352). -/
def rotLane (s : State) (p : Nat) : Nat :=
  let sp := s.get (portBase p) F.NKL_STAT_SPARE_LANE
  if (s.link p).rotNext == sp then (sp + 1) % 8 else (s.link p).rotNext

theorem rotLane_ne (s : State) (p : Nat) : s.rotLane p ≠ s.get (portBase p) F.NKL_STAT_SPARE_LANE := by
  have hlt : s.get (portBase p) F.NKL_STAT_SPARE_LANE < 8 := Nat.mod_lt _ (by decide)
  unfold rotLane
  dsimp only
  split
  · omega
  next h => exact fun heq => h (beq_iff_eq.2 heq)

/-- The notch at which the next rotation is due. -/
def rotDue (s : State) (p : Nat) : Nat := (s.link p).rotAt + s.get (portBase p) F.NKL_CTL_ROT * 1024 * 2048

theorem spareRotate_of_on (hrot : s.get (portBase p) F.NKL_CTL_ROT ≠ 0) (hspare : s.hasSpare p = true) (hswap : (s.link p).swapTx = none) :
    s.spareRotate p = ((s.passTo (s.rotDue p)).updLink p (fun l =>
      { l with rotAt := (s.passTo (s.rotDue p)).tmo, rotNext := (s.rotLane p + 1) % 8 })).beginSwap p (s.rotLane p) none := by
  have hget : ∀ n g, (s.passTo n).get (portBase p) g = s.get (portBase p) g := fun n g => get_congr (passTo_regs ..) (passTo_build ..) _ _
  simp only [spareRotate, rotLane, rotDue, beq_false_of_ne hrot, hspare, hswap, Option.isSome_none, Bool.not_true, Bool.or_self,
    Bool.false_eq_true, if_false, hget]

end Sys2Proof.Machine.State

namespace Sys2Proof.Safety
open Sys2Proof.Machine

/-- Time that passes while no snapshot copy is owed changes the clocks alone. -/
theorem clocksOf_passTo {s : State} (h : s.snapDue = none) (d : Nat) : clocksOf (s.passTo d) s = s := by
  obtain ⟨_, _, _, _, hpass⟩ := s.passTo_of_no_snap d (.inr h)
  rw [hpass]
  rfl

theorem clocksOf_passCyc {s : State} (h : s.snapDue = none) (c : Nat) : clocksOf (s.passCyc c) s = s := by
  obtain ⟨_, _, _, _, hpass⟩ := s.passCyc_of_no_snap c h
  rw [hpass]
  rfl

/-- From `s` to `t` links change alone. -/
def OnlyLinks (s t : State) : Prop := { t with links := s.links } = s

namespace OnlyLinks
variable {s t u : State}

theorem refl (s : State) : OnlyLinks s s := rfl

theorem trans (h : OnlyLinks s t) (h' : OnlyLinks t u) : OnlyLinks s u :=
  (congrArg (fun r : State => { r with links := s.links }) h' :).trans h

theorem setLink (h : OnlyLinks s t) (p : Nat) (l : LinkPort) : OnlyLinks s (t.setLink p l) := by
  refine h.trans ?_
  rw [OnlyLinks, State.setLink]

theorem updLink (h : OnlyLinks s t) (p : Nat) (f : LinkPort → LinkPort) : OnlyLinks s (t.updLink p f) := h.setLink p _

theorem beginSwap (h : OnlyLinks s t) (p lane : Nat) (cmd : Option (Nat × Nat)) : OnlyLinks s (t.beginSwap p lane cmd) := by
  unfold State.beginSwap
  exact h.updLink ..

/-- After time has passed the clocks have changed as well. -/
theorem clocks (h : OnlyLinks s t) (hu : clocksOf s u = u) : { clocksOf t u with links := u.links } = u :=
  (congrArg (fun r : State => { clocksOf r u with links := u.links }) h :).trans
    (congrArg (fun r : State => { r with links := u.links }) hu :)

end OnlyLinks

theorem RegsAndLinks.clocks {s t u : State} (h : RegsAndLinks s t) (hu : clocksOf s u = u) :
    { clocksOf t u with regs := u.regs, links := u.links } = u :=
  (congrArg (fun r : State => { clocksOf r u with regs := u.regs, links := u.links }) h :).trans
    (congrArg (fun r : State => { r with regs := u.regs, links := u.links }) hu :)

theorem RegsAndLinks.cyc {s t : State} (h : RegsAndLinks s t) : t.cyc = s.cyc := (congrArg State.cyc h :)

/-- From `s` to `t` registers, links and the count of fresh numbers change alone. -/
def RegsLinksAndFree (s t : State) : Prop := { t with regs := s.regs, links := s.links, free := s.free } = s

namespace RegsLinksAndFree
variable {s t : State}

theorem of_regsAndLinks (h : RegsAndLinks s t) : RegsLinksAndFree s t := (congrArg (fun r : State => { r with free := s.free }) h :)

theorem drawFree (h : RegsAndLinks s t) : RegsLinksAndFree s t.drawFree := (congrArg (fun r : State => { r with free := s.free }) h :)

theorem tmo (h : RegsLinksAndFree s t) : t.tmo = s.tmo := (congrArg State.tmo h :)

/-- After time has passed the clocks have changed as well. -/
theorem clocks {u : State} (h : RegsLinksAndFree s t) (hu : clocksOf s u = u) :
    { clocksOf t u with links := u.links, regs := u.regs, free := u.free } = u := by
  refine (congrArg (fun r : State => { clocksOf r u with links := u.links, regs := u.regs, free := u.free }) h :).trans ?_
  exact (congrArg (fun r : State => { r with links := u.links, regs := u.regs, free := u.free }) hu :)

end RegsLinksAndFree

/-- A port that begins training changes no more. -/
theorem startTraining_frame (s : State) (p : Nat) : RegsLinksAndFree s (s.startTraining p) := by
  obtain ⟨l, -, -, h⟩ := s.startTraining_eq p
  rw [h]
  exact .drawFree ((((RegsAndLinks.refl s).set ..).setWord ..).setLink p l)

theorem LinkStep.spareCalibrate (s : State) (p count : Nat) : LinkStep s (s.spareCalibrate p count) := by
  unfold State.spareCalibrate
  dsimp only
  split
  · exact .refl s
  · exact (((LinkStep.refl s).updLink p _).set p _ F.NKL_SPARE_ERR_COUNT).set p _ F.NKL_STAT_SPARE_V

theorem LinkStep.beginSwap {s t : State} (h : LinkStep s t) (p lane : Nat) (cmd : Option (Nat × Nat)) : LinkStep s (t.beginSwap p lane cmd) := by
  unfold State.beginSwap
  exact h.updLink ..

section Row
variable {s : State} {p : Nat} (hb : s.build.legal = true) (hlink : s.build.isLink p = true) (hon : s.linkOn p = true)
  (hs : s.stopped = false) (hq : Quiet s)
include hb hlink hon hs hq

/-- TRAINING_TIMEOUT (R350). -/
theorem exec_trainingTimeout (hst : s.linkState p = 1) (hidle : (s.link p).idle = none) :
    ∃ t, exec (.trainingTimeout p) s = .next t ∧ (t.link p).idle = some t.tmo ∧ (t.link p).lock = false ∧
      t.tmo = max s.tmo ((s.link p).began + 2048 * 2048 + 1) ∧ (∀ q, q ≠ p → t.link q = s.link q) ∧
      { clocksOf t s with links := s.links } = s := by
  have hrow := State.trainingTimeout_of_training hst hidle
  have hstep : LinkStep s (s.trainingTimeout p) := by
    rw [hrow]
    exact ((LinkStep.refl s).passTo _).updLink ..
  refine ⟨_, onLink_of_legal (f := fun s => s.trainingTimeout p) hb hlink hon hs hq hstep, ?_⟩
  rw [hrow, State.link_updLink_same]
  refine ⟨rfl, rfl, State.passTo_tmo .., fun q hqp => ?_, ((OnlyLinks.refl _).updLink ..).clocks (clocksOf_passTo hq.snap _)⟩
  rw [State.link_updLink_other _ _ hqp, State.link_congr (State.passTo_links ..)]

/-- LINK_IDLE_END (R350, R360). -/
theorem exec_linkIdleEnd {n : Nat} (hidle : (s.link p).idle = some n) :
    ∃ t, exec (.linkIdleEnd p) s = .next t ∧ (t.link p).idle = none ∧ t.tmo = max s.tmo (n + 1025) ∧
      (s.flag (portBase p) F.NKL_CTL_EN = true → t.linkState p = 1) ∧
      (s.flag (portBase p) F.NKL_CTL_EN = false → t.linkState p = s.linkState p) ∧ (∀ q, q ≠ p → t.link q = s.link q) ∧
      { clocksOf t s with links := s.links, regs := s.regs, free := s.free } = s := by
  have hrow := State.idleEnd_of_idle hidle
  have hpassed := (LinkStep.refl s).passTo (n + 1025)
  have hstep : LinkStep s (s.idleEnd p) := by
    rw [hrow]
    split
    · exact hpassed.startTraining (lt_of_isLink_of_legal hb hlink)
    · exact hpassed.updLink ..
  have hclocks := clocksOf_passTo hq.snap (n + 1025)
  have hlinks : ∀ q, (s.passTo (n + 1025)).link q = s.link q := fun q => State.link_congr (State.passTo_links ..) q
  refine ⟨_, onLink_of_legal (f := fun s => s.idleEnd p) hb hlink hon hs hq hstep, ?_⟩
  cases hen : s.flag (portBase p) F.NKL_CTL_EN
  case false =>
    rw [hen, if_neg Bool.false_ne_true] at hrow
    rw [hrow, State.link_updLink_same]
    refine ⟨rfl, State.passTo_tmo .., nofun, fun _ => ?_, fun q hqp => ?_, ?_⟩
    · exact State.get_congr (State.passTo_regs ..) (State.passTo_build ..) _ _
    · rw [State.link_updLink_other _ _ hqp, hlinks]
    · exact (RegsLinksAndFree.of_regsAndLinks ((RegsAndLinks.refl _).updLink p _)).clocks hclocks
  case true =>
    rw [hen, if_pos rfl] at hrow
    rw [hrow]
    obtain ⟨l, -, hlidle, hl⟩ := (s.passTo (n + 1025)).link_startTraining p
    have hframe := startTraining_frame (s.passTo (n + 1025)) p
    refine ⟨by rw [hl, if_pos rfl, hlidle], ?_, fun _ => State.linkState_startTraining .., nofun, fun q hqp => ?_, hframe.clocks hclocks⟩
    · exact hframe.tmo.trans (State.passTo_tmo ..)
    · rw [hl, if_neg hqp, hlinks]

/-- SPARE_CALIBRATE (R351). -/
theorem exec_spareCalibrate_of_few {count : Nat} (hsyms : (s.link p).calSyms < 2 ^ 20) : exec (.spareCalibrate p count) s = .next s := by
  have hsame : s.spareCalibrate p count = s := State.spareCalibrate_of_few hsyms
  exact (onLink_of_legal (f := fun s => s.spareCalibrate p count) hb hlink hon hs hq (by rw [hsame]; exact .refl s)).trans (by rw [hsame])

theorem exec_spareCalibrate_of_compared {count : Nat} (hspare : s.hasSpare p = true) (hsyms : 2 ^ 20 ≤ (s.link p).calSyms) :
    let d := min (2 ^ 20) ((s.link p).calDiff + count)
    ∃ t, exec (.spareCalibrate p count) s = .next t ∧ t.get (portBase p) F.NKL_SPARE_ERR_COUNT = d ∧
      (d ≤ 16 → t.flag (portBase p) F.NKL_STAT_SPARE_V = true) ∧
      (16 < d → t.get (portBase p) F.NKL_STAT_SPARE_V = s.get (portBase p) F.NKL_STAT_SPARE_V) ∧
      t.link p = { s.link p with calC := none, calSyms := 0, calDiff := 0 } ∧ (∀ q, q ≠ p → t.link q = s.link q) ∧
      t.linkState p = s.linkState p ∧ { t with regs := s.regs, links := s.links } = s := by
  intro d
  have hd : d ≤ 2 ^ 20 := Nat.min_le_left ..
  have hrow := State.spareCalibrate_of_compared (count := count) hspare hsyms
  have hvalid : ∀ t : State, (t.set (portBase p) F.NKL_STAT_SPARE_V
      (if d ≤ 16 then 1 else s.get (portBase p) F.NKL_STAT_SPARE_V)).get (portBase p) F.NKL_STAT_SPARE_V =
      if d ≤ 16 then 1 else s.get (portBase p) F.NKL_STAT_SPARE_V := fun t => by
    have hlt : s.get (portBase p) F.NKL_STAT_SPARE_V < 2 := Nat.mod_lt _ (by decide)
    rw [State.get_set_same _ _ _ _ (by decide)]
    split
    · rfl
    · exact Nat.mod_eq_of_lt hlt
  refine ⟨_, onLink_of_legal (f := fun s => s.spareCalibrate p count) hb hlink hon hs hq (LinkStep.spareCalibrate ..), ?_⟩
  rw [hrow]
  refine ⟨?_, fun hle => ?_, fun hlt => ?_, ?_, fun q hqp => ?_, ?_, (((RegsAndLinks.refl s).updLink p _).set ..).set ..⟩
  · rw [State.get_set_apart _ _ _ _ _ (by decide), State.get_set_same _ _ _ _ (by decide)]
    exact Nat.mod_eq_of_lt (by show d < 2 ^ 21; omega)
  · rw [State.flag, hvalid, if_pos hle]
    rfl
  · rw [hvalid, if_neg (by omega)]
  · rw [State.link_set, State.link_set, State.link_updLink_same]
  · rw [State.link_set, State.link_set, State.link_updLink_other _ _ hqp]
  · rw [State.linkState, State.get_set_apart _ _ _ _ _ (by decide), State.get_set_apart _ _ _ _ _ (by decide)]
    exact State.get_setLink ..

/-- ADMIT_SEND (R350, R358). -/
theorem exec_admitSend
    (hdue : s.linkState p = 2 ∨ s.linkState p = 1 ∧ (s.link p).lock = true ∧ (s.isD2d p = true ∨ (s.link p).good = 1024)) :
    ∃ t, exec (.admitSend p) s = .next t ∧ t.link p = { s.link p with admDue := true, admitAt := t.cyc } ∧
      t.cyc = max s.cyc ((s.link p).admitAt + 1024) ∧ { clocksOf t s with links := s.links } = s := by
  have hrow := State.admitSend_of_due hdue
  have hstep : LinkStep s (s.admitSend p) := by
    rw [hrow]
    exact ((LinkStep.refl s).passCyc _).updLink ..
  refine ⟨_, onLink_of_legal (f := fun s => s.admitSend p) hb hlink hon hs hq hstep, ?_⟩
  rw [hrow, State.link_updLink_same, State.link_congr (State.passCyc_links ..)]
  exact ⟨rfl, State.cyc_passCyc .., ((OnlyLinks.refl _).updLink ..).clocks (clocksOf_passCyc hq.snap _)⟩

/-- SPARE_ROTATE (R352). -/
theorem exec_spareRotate (hrot : s.get (portBase p) F.NKL_CTL_ROT ≠ 0) (hspare : s.hasSpare p = true)
    (hswap : (s.link p).swapTx = none) :
    ∃ t w, exec (.spareRotate p) s = .next t ∧ (t.link p).swapTx = some w ∧ w.spare = s.get (portBase p) F.NKL_STAT_SPARE_LANE ∧
      w.frame = ((s.link p).fnum + 64) % 65536 ∧ w.due = true ∧ w.lane ≠ w.spare ∧ { clocksOf t s with links := s.links } = s := by
  have hrow := State.spareRotate_of_on hrot hspare hswap
  have hstep : LinkStep s (s.spareRotate p) := by
    rw [hrow]
    exact (((LinkStep.refl s).passTo _).updLink ..).beginSwap ..
  have hlinks : ∀ q, (s.passTo (s.rotDue p)).link q = s.link q := fun q => State.link_congr (State.passTo_links ..) q
  have hget : ∀ f, ((s.passTo (s.rotDue p)).updLink p f).get (portBase p) F.NKL_STAT_SPARE_LANE = s.get (portBase p) F.NKL_STAT_SPARE_LANE :=
    fun f => (State.get_setLink ..).trans (State.get_congr (State.passTo_regs ..) (State.passTo_build ..) _ _)
  refine ⟨_, ⟨s.rotLane p, s.get (portBase p) F.NKL_STAT_SPARE_LANE, ((s.link p).fnum + 64) % 65536, false, true, none⟩,
    onLink_of_legal (f := fun s => s.spareRotate p) hb hlink hon hs hq hstep, ?_, rfl, rfl, rfl, s.rotLane_ne p, ?_⟩
  · rw [hrow, State.beginSwap, State.link_updLink_same, State.link_updLink_same, hlinks, hget]
  · rw [hrow]
    exact (((OnlyLinks.refl _).updLink ..).beginSwap ..).clocks (clocksOf_passTo hq.snap _)

end Row
end Sys2Proof.Safety
end

/-! ### Links that go down in a legal build, replays and swaps -/

section
namespace Sys2Proof.Machine.State
variable {s : State} {p : Nat}

theorem link_nklEvt (s : State) (p st q : Nat) (f : Fld) : (s.nklEvt p f st).link q = s.link q := by
  obtain ⟨r, l, h⟩ := s.nklEvt_eq p st f
  exact link_congr (congrArg State.links h) q

theorem heldFrom_none (l : LinkPort) : heldFrom l none = l.held.map (·.seq) := by simp [heldFrom]

/-- The time at which the oldest held cell is sent again (R344). -/
def replayDue (s : State) (p : Nat) (h : HeldCell) : Nat := h.at' + s.get (portBase p) F.NKL_LINK_RTMO

/-- The replay timeout as the clock runs on to it, with the limit and the cells that are held then. -/
theorem replayTimeout_of_held {h : HeldCell} {r : List HeldCell} (hheld : (s.link p).held = h :: r) :
    s.replayTimeout p = if s.get (portBase p) F.NKL_LINK_MAXREPLAY ≤ (s.link p).tries then (s.passCyc (s.replayDue p h)).linkDownBy p 3
      else ((s.passCyc (s.replayDue p h)).bump (portBase p) F.NKL_REPLAY_CNT_COUNT 1).updLink p
        (fun l => { l with replay := (s.link p).held.map (·.seq), tries := l.tries + 1 }) := by
  have hlink : ∀ c, (s.passCyc c).link p = s.link p := fun c => link_congr (passCyc_links ..) p
  have hget : ∀ c, (s.passCyc c).get (portBase p) F.NKL_LINK_MAXREPLAY = s.get (portBase p) F.NKL_LINK_MAXREPLAY := fun c =>
    get_congr (passCyc_regs ..) (passCyc_build ..) _ _
  have hsome : ((s.link p).held.map (·.seq)).isEmpty = false := by rw [hheld]; rfl
  unfold replayTimeout
  rw [hheld]
  simp only [startReplay, replayDue, hlink, hget, heldFrom_none, hsome, Bool.false_eq_true, if_false, linkDown_of_ne _ p (show 3 ≠ 4 by decide)]
  rw [hheld]

theorem linkDead_of_up (hst : 2 ≤ s.linkState p) :
    s.linkDead p = (s.passTo ((s.link p).lastGood + s.get (portBase p) F.NKL_LINK_DEAD + 1)).linkDownBy p 2 := by
  rw [linkDead, if_neg (by omega), linkDown_of_ne _ _ (by decide)]

theorem laneFail_of_no_spare {lane : Nat} (hst : 0 < s.linkState p) (hlane : lane < 8) (hd2d : s.isD2d p = false)
    (hlock : (s.link p).lock = true) (hspare : s.hasSpare p = false) : s.laneFail p lane = s.linkDownBy p 1 := by
  simp only [laneFail, beq_false_of_ne (Nat.ne_of_gt hst), hd2d, hlock, hspare, decide_eq_false (Nat.not_le.2 hlane),
    Bool.not_true, Bool.not_false, Bool.or_self, Bool.false_eq_true, if_false, if_true, linkDown_of_ne _ p (show 1 ≠ 4 by decide)]

theorem laneFail_of_spare {lane : Nat} (hst : s.linkState p ≠ 0) (hlane : lane < 8) (hd2d : s.isD2d p = false)
    (hlock : (s.link p).lock = true) (hne : lane ≠ s.get (portBase p) F.NKL_STAT_SPARE_LANE) (hspare : s.hasSpare p = true)
    (hvalid : s.flag (portBase p) F.NKL_STAT_SPARE_V = true) (hswap : (s.link p).swapTx = none) :
    s.laneFail p lane = (s.beginSwap p lane none).nklEvt p F.NKL_EVT_LANE_FAIL (openSt 21) := by
  simp only [laneFail, beq_false_of_ne hst, hd2d, hlock, hspare, decide_eq_false (Nat.not_le.2 hlane), hswap, hvalid, swapEarly, denySwap,
    beq_false_of_ne hne, Option.map_none, Option.getD_none, Option.bind_none, Bool.not_true, Bool.or_self, Bool.and_self, Bool.false_and,
    Bool.false_eq_true, if_false, if_true]

theorem fdiError_of_d2d (hd2d : s.isD2d p = true) : s.fdiError p = (s.updLink p (fun l => { l with lock := false })).linkDownBy p 1 := by
  simp only [fdiError, hd2d, Bool.not_true, Bool.false_eq_true, if_false, linkDown_of_ne _ p (show 1 ≠ 4 by decide)]

end Sys2Proof.Machine.State

namespace Sys2Proof.Safety
open Sys2Proof.Machine

/-- What a link that goes down for a reason leaves (R344, R353, R357, R360). -/
structure LinkLost (s t : State) (p why : Nat) : Prop where
  state : t.linkState p = 0
  reason : t.get (portBase p) F.NKL_STAT_DOWN_WHY = why
  spare : t.get (portBase p) F.NKL_STAT_SPARE_V = 0
  link : t.link p = State.downLink (s.link p) t.tmo
  other : ∀ q, q ≠ p → t.link q = s.link q
  frame : t.ram = s.ram ∧ t.sems = s.sems ∧ t.keys = s.keys ∧ t.out = s.out
  gone : 2 ≤ s.linkState p → t.flag (portBase p) F.NKL_EVT_PEER_GONE = true
  mask : bitAt (t.word (0x200 + 4 * (p / 32))).toNat (p % 32) = true

section Row
variable {s : State} {p : Nat} (hb : s.build.legal = true) (hlink : s.build.isLink p = true) (hon : s.linkOn p = true)
  (hs : s.stopped = false) (hq : Quiet s)
include hb hlink hon hs hq

section Down
variable (hst : 0 < s.linkState p) (hB : (s.link p).qB = []) (hG : (s.link p).qG = []) (hswap : (s.link p).swapTx = none)
include hst hB hG hswap

/-- A row that takes the link down, from a state `u` in which time has passed or the lock is gone. -/
theorem onLink_of_down {f : State → State} {u : State} {why : Nat} (hwhy : why < 8) (hf : f s = u.linkDownBy p why) (hu : LinkStep s u)
    (hrtx : u.rtx = s.rtx) (hstate : u.linkState p = s.linkState p) (hport : ∃ b, u.link p = { s.link p with lock := b })
    (hother : ∀ q, q ≠ p → u.link q = s.link q) : ∃ t, onLink p s f = .next t ∧ LinkLost s t p why := by
  obtain ⟨b, hport⟩ := hport
  obtain ⟨hdown, hstep, hgone⟩ := wentDown_linkDownBy (s := u) (lt_of_isLink_of_legal hb hlink) hwhy (hst.trans_eq hstate.symm)
    (by rw [hport]; exact hB) (by rw [hport]; exact hG) (by rw [hport]; exact hswap) (hrtx.trans hq.rtx)
  have hrow := hu.trans hstep
  refine ⟨u.linkDownBy p why, ?_, hdown.state, hdown.reason, hdown.spare, ?_, fun q hqp => ?_,
    ⟨hrow.ram, (congrArg State.sems hrow.back :), (congrArg State.keys hrow.back :), (congrArg State.out hrow.back :)⟩,
    fun h => hgone (h.trans_eq hstate.symm), hdown.mask⟩
  · rw [← hf]
    exact onLink_of_legal hb hlink hon hs hq (by rw [hf]; exact hrow)
  · rw [hdown.link, if_pos rfl, hdown.tmo, hport]
    rfl
  · rw [hdown.link, if_neg hqp, hother q hqp]

/-- REPLAY_TIMEOUT at the limit (R344). -/
theorem exec_replayTimeout_of_limit (hheld : (s.link p).held ≠ [])
    (hlimit : s.get (portBase p) F.NKL_LINK_MAXREPLAY ≤ (s.link p).tries) : ∃ t, exec (.replayTimeout p) s = .next t ∧ LinkLost s t p 3 := by
  obtain ⟨h, r, hcells⟩ := List.exists_cons_of_ne_nil hheld
  have hlinks : ∀ q, (s.passCyc (s.replayDue p h)).link q = s.link q := fun q => State.link_congr (State.passCyc_links ..) q
  have hrow := State.replayTimeout_of_held hcells
  rw [if_pos hlimit] at hrow
  exact onLink_of_down (f := fun s => s.replayTimeout p) hb hlink hon hs hq hst hB hG hswap (by decide) hrow ((LinkStep.refl s).passCyc _)
    (State.passCyc_rtx ..) (State.get_congr (State.passCyc_regs ..) (State.passCyc_build ..) _ _) ⟨_, hlinks p⟩ fun q _ => hlinks q

/-- LINK_DEAD (R360). -/
theorem exec_linkDead (hup : 2 ≤ s.linkState p) : ∃ t, exec (.linkDead p) s = .next t ∧ LinkLost s t p 2 := by
  have hlinks : ∀ d q, (s.passTo d).link q = s.link q := fun d q => State.link_congr (State.passTo_links ..) q
  exact onLink_of_down (f := fun s => s.linkDead p) hb hlink hon hs hq hst hB hG hswap (by decide) (State.linkDead_of_up hup)
    ((LinkStep.refl s).passTo _) (State.passTo_rtx ..) (State.get_congr (State.passTo_regs ..) (State.passTo_build ..) _ _)
    ⟨_, hlinks _ p⟩ fun q _ => hlinks _ q

/-- LANE_FAIL where no spare is held (R353). -/
theorem exec_laneFail_of_no_spare {lane : Nat} (hlane : lane < 8) (hd2d : s.isD2d p = false) (hlock : (s.link p).lock = true)
    (hspare : s.hasSpare p = false) : ∃ t, exec (.laneFail p lane) s = .next t ∧ LinkLost s t p 1 :=
  onLink_of_down (f := fun s => s.laneFail p lane) hb hlink hon hs hq hst hB hG hswap (by decide)
    (State.laneFail_of_no_spare hst hlane hd2d hlock hspare) (.refl s) rfl rfl ⟨_, rfl⟩ fun _ _ => rfl

/-- FDI_ERROR (R452). -/
theorem exec_fdiError (hd2d : s.isD2d p = true) : ∃ t, exec (.fdiError p) s = .next t ∧ LinkLost s t p 1 :=
  onLink_of_down (f := fun s => s.fdiError p) hb hlink hon hs hq hst hB hG hswap (by decide) (State.fdiError_of_d2d hd2d)
    ((LinkStep.refl s).updLink p _) rfl (State.get_setLink ..) ⟨false, State.link_updLink_same ..⟩ fun _ hqp => State.link_updLink_other _ _ hqp

end Down

/-- REPLAY_TIMEOUT below the limit (R344). -/
theorem exec_replayTimeout_of_below (hheld : (s.link p).held ≠ [])
    (hlimit : (s.link p).tries < s.get (portBase p) F.NKL_LINK_MAXREPLAY) :
    ∃ t, exec (.replayTimeout p) s = .next t ∧ (t.link p).replay = (s.link p).held.map (·.seq) ∧
      (t.link p).tries = (s.link p).tries + 1 ∧ t.linkState p = s.linkState p ∧
      t.cyc = max s.cyc ((((s.link p).held.head?).map (·.at')).getD 0 + s.get (portBase p) F.NKL_LINK_RTMO) ∧
      { clocksOf t s with regs := s.regs, links := s.links } = s := by
  obtain ⟨h, r, hcells⟩ := List.exists_cons_of_ne_nil hheld
  have hlinks : ∀ c q, (s.passCyc c).link q = s.link q := fun c q => State.link_congr (State.passCyc_links ..) q
  have hrow := State.replayTimeout_of_held hcells
  rw [if_neg (Nat.not_le.2 hlimit)] at hrow
  have hstep : LinkStep s (s.replayTimeout p) := by
    rw [hrow]
    exact (((LinkStep.refl s).passCyc _).bump ..).updLink ..
  have hchange : RegsAndLinks (s.passCyc (s.replayDue p h)) (s.replayTimeout p) := by
    rw [hrow]
    exact ((RegsAndLinks.refl _).set ..).updLink p _
  refine ⟨_, onLink_of_legal (f := fun s => s.replayTimeout p) hb hlink hon hs hq hstep, ?_, ?_, ?_, ?_,
    hchange.clocks (clocksOf_passCyc hq.snap _)⟩
  · rw [hrow, State.link_updLink_same]
  · rw [hrow, State.link_updLink_same, State.bump, State.link_set, hlinks]
  · rw [hrow, State.linkState, State.updLink, State.get_setLink, State.get_bump_apart _ _ _ _ _ (by decide)]
    exact State.get_congr (State.passCyc_regs ..) (State.passCyc_build ..) _ _
  · have hhead : (((s.link p).held.head?).map (·.at')).getD 0 = h.at' := by rw [hcells]; rfl
    rw [hhead]
    exact hchange.cyc.trans (State.cyc_passCyc ..)

/-- LANE_FAIL whose spare is calibrated (R353). -/
theorem exec_laneFail_of_spare {lane : Nat} (hlock : (s.link p).lock = true) (hlane : lane < 8)
    (hne : lane ≠ s.get (portBase p) F.NKL_STAT_SPARE_LANE) (hspare : s.hasSpare p = true)
    (hvalid : s.flag (portBase p) F.NKL_STAT_SPARE_V = true) (hswap : (s.link p).swapTx = none) :
    ∃ t w, exec (.laneFail p lane) s = .next t ∧ (t.link p).swapTx = some w ∧ w.lane = lane ∧
      w.spare = s.get (portBase p) F.NKL_STAT_SPARE_LANE ∧ t.flag (portBase p) F.NKL_EVT_LANE_FAIL = true ∧ t.linkState p = s.linkState p := by
  have hheld : s.spared p = true ∧ 2 ≤ s.linkState p := by simpa [State.hasSpare] using hspare
  have hd2d : s.isD2d p = false := by simpa using (Bool.and_eq_true_iff.1 hheld.1).1
  have hrow := State.laneFail_of_spare (by omega) hlane hd2d hlock hne hspare hvalid hswap
  have hstep : LinkStep s (s.laneFail p lane) := by
    rw [hrow]
    exact ((LinkStep.refl s).beginSwap ..).nklEvt ..
  have hget : ∀ g, (s.beginSwap p lane none).get (portBase p) g = s.get (portBase p) g := fun g => State.get_setLink ..
  refine ⟨_, ⟨lane, s.get (portBase p) F.NKL_STAT_SPARE_LANE, ((s.link p).fnum + 64) % 65536, false, true, none⟩,
    onLink_of_legal (f := fun s => s.laneFail p lane) hb hlink hon hs hq hstep, ?_, rfl, rfl, ?_, ?_⟩
  · rw [hrow, State.link_nklEvt, State.beginSwap, State.link_updLink_same]
  · rw [hrow, State.flag, State.get_nklEvt, State.get_set_same _ _ _ _ (by decide)]
    rfl
  · rw [hrow, State.linkState, State.get_nklEvt, State.get_set_apart _ _ _ _ _ (by decide), hget, State.linkState]

end Row
end Sys2Proof.Safety
end

/-! ### Frames of a link, and the order of its cells -/

section
namespace Sys2Proof.Machine.State
variable {s : State} {p : Nat} {lanes : List LaneSyms}

/-- The symbols of the frame that the lanes bring between two markers (R339). -/
def frameSyms (s : State) (p : Nat) (lanes : List LaneSyms) : List Nat :=
  gatherSyms 1088 (s.link p).rxPtr ((s.link p).rxLanes.map fun x => (((lanes[x.2]?).map (·.syms)).getD []).map (·.toNat))

/-- The receiver ready for the frame after it. -/
def frameRead (s : State) (p : Nat) : State := s.updLink p fun l =>
  { l with rxPtr := (l.rxPtr + 1088) % max 1 l.rxLanes.length, rxNum := (l.rxNum + 1) % 65536 }

theorem alignRx_of_ordered (hlanes : (s.link p).rxLanes ≠ [])
    (halign : s.linkState p = 1 → alignLanes lanes (if s.spared p then 7 else 8) (s.link p).rxSpare = none) : s.alignRx p lanes = s := by
  by_cases hst : s.linkState p = 1
  · simp only [alignRx, halign hst, ite_self]
  · simp [alignRx, hlanes, hst]

theorem switchRx_of_no_swap (h : (s.link p).swapRx = none) : s.switchRx p = s := by simp only [switchRx, h]

theorem noteMarks_of_unmarked (h : (s.link p).rxNum % 1024 ≠ 0) : s.noteMarks p lanes = ([], s) := by simp [noteMarks, h]

/-- Without a lane to compare it with the spare is not compared (R351). -/
theorem compareSpare_of_no_lane (hnum : (s.link p).rxNum % 1024 ≠ 0) (hcal : s.spared p = true → (s.link p).calC = none) :
    s.compareSpare p lanes = s := by
  by_cases hspare : s.spared p = true
  · simp [compareSpare, hnum, hcal hspare]
  · simp [compareSpare, hspare]

theorem readFrame_of_unmarked (h : (s.link p).rxNum % 1024 ≠ 0) : s.readFrame p lanes = (s.frameSyms p lanes, s.frameRead p) := by
  simp only [readFrame, beq_false_of_ne h, Bool.false_eq_true, if_false, List.length_map]
  rfl

/-- A frame of a Nuoka Link port that no marker comes before, while no swap and no comparison of the spare is under way (R339, R351,
R352). -/
structure PlainFrame (s : State) (p : Nat) (lanes : List LaneSyms) : Prop where
  up : 1 ≤ s.linkState p
  lock : (s.link p).lock = true
  idle : (s.link p).idle = none
  kind : s.isD2d p = false
  ordered : (s.link p).rxLanes ≠ []
  aligned : s.linkState p = 1 → alignLanes lanes (if s.spared p then 7 else 8) (s.link p).rxSpare = none
  unswapped : (s.link p).swapRx = none
  unmarked : (s.link p).rxNum % 1024 ≠ 0
  uncompared : s.spared p = true → (s.link p).calC = none

theorem not_frameIdle (hst : 1 ≤ s.linkState p) (hlock : (s.link p).lock = true) (hidle : (s.link p).idle = none) :
    ¬ (s.linkState p == 0 || !(s.link p).lock || (s.link p).idle.isSome) = true := by
  rw [hlock, hidle, beq_false_of_ne (by omega : s.linkState p ≠ 0)]
  nofun

/-- It is read from the lanes in turn, and taken. -/
theorem frameReceive_of_plain (h : PlainFrame s p lanes) :
    s.frameReceive p lanes = (s.frameRead p).takeFrame p (s.frameSyms p lanes) := by
  rw [frameReceive, if_neg (not_frameIdle h.up h.lock h.idle), if_neg (ne_true_of_eq_false h.kind), alignRx_of_ordered h.ordered h.aligned]
  refine (if_neg (mt List.isEmpty_iff.1 h.ordered)).trans ?_
  rw [switchRx_of_no_swap h.unswapped, noteMarks_of_unmarked h.unmarked]
  dsimp only
  rw [compareSpare_of_no_lane h.unmarked h.uncompared, readFrame_of_unmarked h.unmarked, List.foldl_nil]

/-- Before the lanes are in order no frame is read. -/
theorem frameReceive_of_unordered (hst : 1 ≤ s.linkState p) (hlock : (s.link p).lock = true) (hidle : (s.link p).idle = none)
    (hkind : s.isD2d p = false) (hlanes : (s.link p).rxLanes = [])
    (halign : alignLanes lanes (if s.spared p then 7 else 8) (s.link p).rxSpare = none) : s.frameReceive p lanes = s := by
  have hsame : s.alignRx p lanes = s := by simp only [alignRx, halign, ite_self]
  rw [frameReceive, if_neg (not_frameIdle hst hlock hidle), if_neg (ne_true_of_eq_false hkind), hsame]
  exact if_pos (List.isEmpty_iff.2 hlanes)

/-- A die-to-die port takes one cell (R368). -/
theorem frameReceive_of_d2d (hst : 1 ≤ s.linkState p) (hlock : (s.link p).lock = true) (hidle : (s.link p).idle = none)
    (hkind : s.isD2d p = true) (x : LaneSyms) (r : List LaneSyms) :
    s.frameReceive p (x :: r) = takeCell p (s.updLink p (fun l => { l with lastGood := s.tmo })) ((x.syms.take 256).map (·.setWidth 8)) := by
  rw [frameReceive, if_neg (not_frameIdle hst hlock hidle), if_pos hkind]
  rfl

/-- A frame that cannot be decoded is counted and reported, and the count of good frames restarts (R344, R350). -/
theorem takeFrame_of_none {sy : List Nat} (h : frameDecode sy = none) :
    s.takeFrame p sy = ((((s.bump (portBase p) F.NKL_UNCOR_CNT_COUNT 1).nklErr p F.NKL_ERR_FEC_UNCOR (openSt 22)).countSeverity 2 1).updLink p
      fun l => { l with good := 0 }).discardCell p := by
  unfold takeFrame
  split
  · rfl
  · next hsome => exact nomatch h.symm.trans hsome

theorem word_updLink (s : State) (p a : Nat) (f : LinkPort → LinkPort) : (s.updLink p f).word a = s.word a := word_congr rfl rfl a

theorem word_discardCell (s : State) (p a : Nat) : (s.discardCell p).word a = s.word a := by
  unfold discardCell
  split
  · exact word_updLink ..
  · rfl

/-- The event counters are global registers. -/
theorem word_countSeverity_node (s : State) (v n : Nat) {a : Nat} (h : 0x1000 ≤ a) : (s.countSeverity v n).word a = s.word a :=
  (Safety.countSeverity_step s v n).word a fun f hf => by
    have hlow : ∀ f ∈ Safety.reportFlds, f.off < 0x1000 := by decide
    have := hlow f hf
    omega

/-- Of the registers of port blocks such a frame changes the port's count and its error bit alone. -/
theorem word_takeFrame_of_none {sy : List Nat} (h : frameDecode sy = none) {a : Nat} (ha : 0x1000 ≤ a) : (s.takeFrame p sy).word a =
    ((s.bump (portBase p) F.NKL_UNCOR_CNT_COUNT 1).set (portBase p) F.NKL_ERR_FEC_UNCOR 1).word a := by
  rw [takeFrame_of_none h, word_discardCell, word_updLink, word_countSeverity_node _ _ _ ha, nklErr, errBit, word_report_node _ _ _ _ _ _ ha]

theorem get_takeFrame_of_none {sy : List Nat} (h : frameDecode sy = none) (g : Fld) : (s.takeFrame p sy).get (portBase p) g =
    ((s.bump (portBase p) F.NKL_UNCOR_CNT_COUNT 1).set (portBase p) F.NKL_ERR_FEC_UNCOR 1).get (portBase p) g := by
  rw [get, word_takeFrame_of_none h (by rw [portBase]; omega), get]

theorem link_nklErr (s : State) (p st q : Nat) (f : Fld) : (s.nklErr p f st).link q = s.link q := by
  obtain ⟨r, l, h⟩ := s.nklErr_eq p st f
  exact link_congr (congrArg State.links h) q

theorem link_countSeverity (s : State) (v n q : Nat) : (s.countSeverity v n).link q = s.link q := by
  obtain ⟨r, h⟩ := s.countSeverity_eq v n
  exact link_congr (congrArg State.links h) q

theorem link_discardCell_other (s : State) {p q : Nat} (h : q ≠ p) : (s.discardCell p).link q = s.link q := by
  unfold discardCell
  split
  · exact link_updLink_other _ _ h
  · rfl

theorem good_discardCell (s : State) (p : Nat) : ((s.discardCell p).link p).good = (s.link p).good := by
  unfold discardCell
  split
  · rw [link_updLink_same]
  · rfl

theorem good_takeFrame_of_none {sy : List Nat} (h : frameDecode sy = none) : ((s.takeFrame p sy).link p).good = 0 := by
  rw [takeFrame_of_none h, good_discardCell, link_updLink_same]

theorem link_takeFrame_of_none {sy : List Nat} (h : frameDecode sy = none) {q : Nat} (hqp : q ≠ p) :
    (s.takeFrame p sy).link q = s.link q := by
  rw [takeFrame_of_none h, link_discardCell_other _ hqp, link_updLink_other _ _ hqp, link_countSeverity, link_nklErr, bump, link_set]

/-- A good frame is counted and noted, and names the frame that follows it (R339, R344, R350). -/
def goodFrame (s : State) (p : Nat) (bytes : List Byte) : State := s.updLink p fun l =>
  { l with good := min 1024 (l.good + 1), lastGood := s.tmo, rxNum := (leNat (bytes.take 2) + 1) % 65536 }

/-- The five cells of a frame, taken while the link is not DOWN (R339). -/
def takeCells (s : State) (p : Nat) (bytes : List Byte) : State :=
  (upFrom 0 5).foldl (fun v k => if v.linkState p == 0 then v else takeCell p v ((bytes.drop (5 + 256 * k)).take 256)) s

/-- Symbols that were corrected are counted (R344). -/
def countCorrected (s : State) (p n : Nat) : State :=
  if n == 0 then s else (s.bump (portBase p) F.NKL_CORR_CNT_COUNT n).countSeverity 1 n

/-- While the port trains a good frame is only counted; its cells are taken once 1,024 have come (R350). -/
theorem takeFrame_of_some {sy : List Nat} {bytes : List Byte} {n : Nat} (h : frameDecode sy = some (bytes, n)) :
    s.takeFrame p sy = if ((s.countCorrected p n).goodFrame p bytes).linkState p == 1 &&
      (((s.countCorrected p n).goodFrame p bytes).link p).good < 1024
      then (s.countCorrected p n).goodFrame p bytes else ((s.countCorrected p n).goodFrame p bytes).takeCells p bytes := by
  unfold takeFrame
  split
  · next hnone => exact nomatch h.symm.trans hnone
  · next b m hsome =>
    obtain ⟨rfl, rfl⟩ : bytes = b ∧ n = m := by simpa using h.symm.trans hsome
    rfl

end Sys2Proof.Machine.State

namespace Sys2Proof.Safety
open Sys2Proof.Machine

theorem LinkStep.discardCell {s t : State} (h : LinkStep s t) (p : Nat) : LinkStep s (t.discardCell p) := by
  unfold State.discardCell
  split
  · exact h.updLink ..
  · exact h

theorem LinkStep.takeFrame_of_none {s t : State} (h : LinkStep s t) {p : Nat} {sy : List Nat} (hsy : frameDecode sy = none) :
    LinkStep s (t.takeFrame p sy) := by
  rw [State.takeFrame_of_none hsy]
  exact ((((h.bump ..).nklErr ..).countSeverity ..).updLink ..).discardCell p


/-- From `s` to `t` registers, links and pending reports change alone. -/
def RegsLinksAndReports (s t : State) : Prop := { t with regs := s.regs, links := s.links, reports := s.reports } = s

namespace RegsLinksAndReports
variable {s t u : State}

theorem of_regsAndLinks (h : RegsAndLinks s t) : RegsLinksAndReports s t := (congrArg (fun r : State => { r with reports := s.reports }) h :)

theorem trans (h : RegsLinksAndReports s t) (h' : RegsLinksAndReports t u) : RegsLinksAndReports s u :=
  (congrArg (fun r : State => { r with regs := s.regs, links := s.links, reports := s.reports }) h' :).trans h

theorem nklErr (s : State) (p st : Nat) (f : Fld) : RegsLinksAndReports s (s.nklErr p f st) := by
  obtain ⟨r, l, h⟩ := s.nklErr_eq p st f
  rw [h]
  exact rfl

end RegsLinksAndReports

namespace RegsAndLinks
variable {s t : State}

theorem countSeverity (h : RegsAndLinks s t) (v n : Nat) : RegsAndLinks s (t.countSeverity v n) := by
  obtain ⟨r, hsev⟩ := t.countSeverity_eq v n
  rw [hsev]
  exact h.trans (u := { t with regs := r }) (by exact rfl)

theorem discardCell (h : RegsAndLinks s t) (p : Nat) : RegsAndLinks s (t.discardCell p) := by
  unfold State.discardCell
  split
  · exact h.updLink ..
  · exact h

end RegsAndLinks

/-- A frame that cannot be decoded changes no more. -/
theorem RegsLinksAndReports.takeFrame_of_none {s t : State} (h : RegsAndLinks s t) {p : Nat} {sy : List Nat} (hsy : frameDecode sy = none) :
    RegsLinksAndReports s (t.takeFrame p sy) := by
  rw [State.takeFrame_of_none hsy]
  exact ((of_regsAndLinks (h.set ..)).trans (.nklErr ..)).trans
    (of_regsAndLinks ((((RegsAndLinks.refl _).countSeverity ..).updLink p _).discardCell p))

end Sys2Proof.Safety
end

section
namespace Sys2Proof.Machine.State

theorem link_countCorrected (s : State) (p n q : Nat) : (s.countCorrected p n).link q = s.link q := by
  unfold countCorrected
  split
  · rfl
  · rw [link_countSeverity, bump, link_set]

theorem tmo_countSeverity (s : State) (v n : Nat) : (s.countSeverity v n).tmo = s.tmo := by
  obtain ⟨r, h⟩ := s.countSeverity_eq v n
  rw [h]

theorem tmo_countCorrected (s : State) (p n : Nat) : (s.countCorrected p n).tmo = s.tmo := by
  unfold countCorrected
  split
  · rfl
  · rw [tmo_countSeverity, bump, set_tmo]

theorem get_countSeverity_port (s : State) (v n p : Nat) (g : Fld) : (s.countSeverity v n).get (portBase p) g = s.get (portBase p) g := by
  rw [get, word_countSeverity_node _ _ _ (by rw [portBase]; omega), get]

theorem get_countCorrected_apart (s : State) (p n : Nat) {g : Fld} (h : F.NKL_CORR_CNT_COUNT.apart g = true) :
    (s.countCorrected p n).get (portBase p) g = s.get (portBase p) g := by
  unfold countCorrected
  split
  · rfl
  · rw [get_countSeverity_port, get_bump_apart _ _ _ _ _ h]

theorem corr_countCorrected (s : State) (p n : Nat) : (s.countCorrected p n).get (portBase p) F.NKL_CORR_CNT_COUNT =
    min (s.get (portBase p) F.NKL_CORR_CNT_COUNT + n) (2 ^ 32 - 1) := by
  unfold countCorrected
  split
  next hn =>
    have hlt : s.get (portBase p) F.NKL_CORR_CNT_COUNT < 2 ^ 32 := Nat.mod_lt _ (by decide)
    rw [beq_iff_eq.1 hn]
    omega
  next => rw [get_countSeverity_port, get_bump_same _ _ _ _ (by decide)]; rfl

end Sys2Proof.Machine.State

namespace Sys2Proof.Safety
open Sys2Proof.Machine

theorem LinkStep.countCorrected {s t : State} (h : LinkStep s t) (p n : Nat) : LinkStep s (t.countCorrected p n) := by
  unfold State.countCorrected
  split
  · exact h
  · exact (h.bump ..).countSeverity ..

theorem RegsAndLinks.countCorrected {s t : State} (h : RegsAndLinks s t) (p n : Nat) : RegsAndLinks s (t.countCorrected p n) := by
  unfold State.countCorrected
  split
  · exact h
  · exact (h.set ..).countSeverity ..

section Row
variable {s : State} {p : Nat} {lanes : List LaneSyms} (hlink : s.build.isLink p = true) (hon : s.linkOn p = true)
  (hs : s.stopped = false)

section Any
include hlink hon hs

/-- FRAME_RECEIVE of a frame that ended training some time ago, with no symbol corrected (R339). -/
theorem exec_frameReceive_of_up (h : State.PlainFrame s p lanes) {bytes : List Byte} (hst : 2 ≤ s.linkState p)
    (hsyms : frameDecode (s.frameSyms p lanes) = some (bytes, 0)) : exec (.frameReceive p lanes) s =
      .next (s.within (((s.frameRead p).goodFrame p bytes).takeCells p bytes).settle) := by
  have hstate : ((s.frameRead p).goodFrame p bytes).linkState p = s.linkState p := (State.get_setLink ..).trans (State.get_setLink ..)
  have hrow : s.frameReceive p lanes = ((s.frameRead p).goodFrame p bytes).takeCells p bytes := by
    have hcount : (s.frameRead p).countCorrected p 0 = s.frameRead p := rfl
    rw [State.frameReceive_of_plain h, State.takeFrame_of_some hsyms, hcount, hstate, beq_false_of_ne (by omega : s.linkState p ≠ 1)]
    exact if_neg Bool.false_ne_true
  exact (onLink_of_on (f := fun s => s.frameReceive p lanes) hlink hon hs).trans (by rw [hrow])

/-- FRAME_RECEIVE of a die-to-die port (R368). -/
theorem exec_frameReceive_of_d2d (hst : 1 ≤ s.linkState p) (hlock : (s.link p).lock = true) (hidle : (s.link p).idle = none)
    (hkind : s.isD2d p = true) (x : LaneSyms) (r : List LaneSyms) : exec (.frameReceive p (x :: r)) s = .next (s.within
      (State.takeCell p (s.updLink p (fun l => { l with lastGood := s.tmo })) ((x.syms.take 256).map (·.setWidth 8))).settle) := by
  exact (onLink_of_on (f := fun s => s.frameReceive p (x :: r)) hlink hon hs).trans (by rw [State.frameReceive_of_d2d hst hlock hidle hkind])

end Any

variable (hb : s.build.legal = true) (hq : Quiet s)
include hlink hon hs hb hq

/-- FRAME_RECEIVE before the lanes are in order (R350). -/
theorem exec_frameReceive_of_unordered (hst : 1 ≤ s.linkState p) (hlock : (s.link p).lock = true) (hidle : (s.link p).idle = none)
    (hkind : s.isD2d p = false) (hlanes : (s.link p).rxLanes = [])
    (halign : State.alignLanes lanes (if s.spared p then 7 else 8) (s.link p).rxSpare = none) : exec (.frameReceive p lanes) s = .next s := by
  have hsame := State.frameReceive_of_unordered hst hlock hidle hkind hlanes halign
  exact (onLink_of_legal (f := fun s => s.frameReceive p lanes) hb hlink hon hs hq (by rw [hsame]; exact .refl s)).trans (by rw [hsame])

/-- FRAME_RECEIVE of a frame that cannot be decoded (R344). -/
theorem exec_frameReceive_of_undecoded (h : State.PlainFrame s p lanes) (hsyms : frameDecode (s.frameSyms p lanes) = none) :
    ∃ t, exec (.frameReceive p lanes) s = .next t ∧
      t.get (portBase p) F.NKL_UNCOR_CNT_COUNT = min (s.get (portBase p) F.NKL_UNCOR_CNT_COUNT + 1) (2 ^ 32 - 1) ∧
      t.flag (portBase p) F.NKL_ERR_FEC_UNCOR = true ∧ (t.link p).good = 0 ∧ (∀ q, q ≠ p → t.link q = s.link q) ∧
      { t with regs := s.regs, links := s.links, reports := s.reports } = s := by
  have hrow := State.frameReceive_of_plain h
  have hstep : LinkStep s (s.frameReceive p lanes) := by
    rw [hrow]
    exact ((LinkStep.refl _).updLink ..).takeFrame_of_none hsyms
  refine ⟨_, onLink_of_legal (f := fun s => s.frameReceive p lanes) hb hlink hon hs hq hstep, ?_⟩
  rw [hrow]
  refine ⟨?_, ?_, State.good_takeFrame_of_none hsyms, fun q hqp => ?_,
    RegsLinksAndReports.takeFrame_of_none ((RegsAndLinks.refl s).updLink p _) hsyms⟩
  · rw [State.get_takeFrame_of_none hsyms, State.get_set_apart _ _ _ _ _ (by decide), State.get_bump_same _ _ _ _ (by decide)]
    exact congrArg (fun n => min (n + 1) _) (State.get_setLink ..)
  · rw [State.flag, State.get_takeFrame_of_none hsyms, State.get_set_same _ _ _ _ (by decide)]
    rfl
  · rw [State.link_takeFrame_of_none hsyms hqp]
    exact State.link_updLink_other _ _ hqp

/-- FRAME_RECEIVE of a good frame while the port trains (R350). -/
theorem exec_frameReceive_of_training (h : State.PlainFrame s p lanes) {bytes : List Byte} {n : Nat}
    (hsyms : frameDecode (s.frameSyms p lanes) = some (bytes, n)) (hst : s.linkState p = 1) (hgood : (s.link p).good < 1023) :
    ∃ t, exec (.frameReceive p lanes) s = .next t ∧ (t.link p).good = (s.link p).good + 1 ∧ (t.link p).lastGood = s.tmo ∧
      (t.link p).rxNum = (leNat (bytes.take 2) + 1) % 65536 ∧ (∀ q, q ≠ p → t.link q = s.link q) ∧
      t.get (portBase p) F.NKL_CORR_CNT_COUNT = min (s.get (portBase p) F.NKL_CORR_CNT_COUNT + n) (2 ^ 32 - 1) ∧
      { t with regs := s.regs, links := s.links } = s := by
  have hread : RegsAndLinks s (s.frameRead p) := (RegsAndLinks.refl s).updLink p _
  have hport : ((s.frameRead p).link p).good = (s.link p).good := by rw [State.frameRead, State.link_updLink_same]
  have hlast : (((s.frameRead p).countCorrected p n).goodFrame p bytes).link p = { (s.frameRead p).link p with
      good := (s.link p).good + 1, lastGood := s.tmo, rxNum := (leNat (bytes.take 2) + 1) % 65536 } := by
    rw [State.goodFrame, State.link_updLink_same, State.link_countCorrected, hport, Nat.min_eq_right (by omega), State.tmo_countCorrected]
    rfl
  have hstate : (((s.frameRead p).countCorrected p n).goodFrame p bytes).linkState p = 1 := by
    rw [State.linkState, State.goodFrame, State.updLink, State.get_setLink, State.get_countCorrected_apart _ _ _ (by decide)]
    exact (State.get_setLink ..).trans hst
  have hrow : s.frameReceive p lanes = ((s.frameRead p).countCorrected p n).goodFrame p bytes := by
    rw [State.frameReceive_of_plain h, State.takeFrame_of_some hsyms, hstate, hlast]
    exact if_pos (Bool.and_eq_true_iff.2 ⟨rfl, decide_eq_true (by show (s.link p).good + 1 < 1024; omega)⟩)
  have hstep : LinkStep s (s.frameReceive p lanes) := by
    rw [hrow]
    exact (((LinkStep.refl s).updLink ..).countCorrected ..).updLink ..
  refine ⟨_, onLink_of_legal (f := fun s => s.frameReceive p lanes) hb hlink hon hs hq hstep, ?_⟩
  rw [hrow, hlast]
  refine ⟨rfl, rfl, rfl, fun q hqp => ?_, ?_, (hread.countCorrected p n).updLink p _⟩
  · rw [State.goodFrame, State.link_updLink_other _ _ hqp, State.link_countCorrected]
    exact State.link_updLink_other _ _ hqp
  · rw [State.goodFrame, State.updLink, State.get_setLink, State.corr_countCorrected]
    exact congrArg (fun m => min (m + n) _) (State.get_setLink ..)

end Row
end Sys2Proof.Safety
end

section
namespace Sys2Proof.Machine.State
variable {s : State} {p : Nat}

/-! What a cell that leaves, and a packet that starts, keep of a link that is to go down. -/

theorem link_out (s : State) (o : List PortOut) (q : Nat) : ({ s with out := o } : State).link q = s.link q := link_congr rfl q

theorem downDue_frameSent (l : LinkPort) : (frameSent l).downDue = l.downDue := rfl

theorem downDue_emitCell (s : State) (p head : Nat) (pay : List Byte) : ((s.emitCell p head pay).link p).downDue = (s.link p).downDue := by
  unfold emitCell
  dsimp only
  split
  · simp only [link_out, link_updLink_same]
  split
  · simp only [link_updLink_same]
  · simp only [driveLanes, link_updLink_same, link_out, downDue_frameSent]

theorem downDue_sendCtrl (s : State) (p : Nat) : ((s.sendCtrl p).link p).downDue = (s.link p).downDue := by
  simp only [sendCtrl, link_updLink_same, downDue_emitCell]

theorem downDue_sendReplay (s : State) (p : Nat) : ((s.sendReplay p).link p).downDue = (s.link p).downDue := by
  unfold sendReplay
  dsimp only
  split
  · rfl
  split
  · simp only [downDue_emitCell, link_updLink_same]
  · simp only [link_updLink_same]

theorem downDue_spendCtr (s : State) (p : Nat) (rx : Bool) (ph : Nat) : ((s.spendCtr p rx ph).link p).downDue = (s.link p).downDue := by
  unfold spendCtr
  dsimp only
  split
  · simp only [link_nklEvt, link_updLink_same]
  · simp only [link_updLink_same]

theorem downDue_linkBytes (s : State) (p : Nat) (pk : Pkt) : ((s.linkBytes p pk).2.link p).downDue = (s.link p).downDue := by
  unfold linkBytes
  dsimp only
  split
  · rfl
  split
  · rfl
  · exact downDue_spendCtr ..

theorem downDue_startPkt (s : State) (p : Nat) (glint : Bool) : ((s.startPkt p glint).link p).downDue = (s.link p).downDue := by
  unfold startPkt
  dsimp only
  split
  · cases glint <;> split_ifs <;> simp only [link_updLink_same, downDue_linkBytes]
  · rfl

/-- A link that is not to go down stays when a cell has left. -/
theorem downAfter_of_not (h : (s.link p).downDue = false) : s.downAfter p = s := by
  simp only [downAfter, h, Bool.false_and, Bool.false_eq_true, if_false]

/-- The state in which the next cell is chosen: where the link is UP the next packets have started where they may (R345, R346). -/
def boundary (s : State) (p : Nat) : State := if s.linkState p = 3 then (s.startPkt p true).startPkt p false else s

theorem downDue_boundary (s : State) (p : Nat) : ((s.boundary p).link p).downDue = (s.link p).downDue := by
  unfold boundary
  split
  · rw [downDue_startPkt, downDue_startPkt]
  · rfl

/-- A port that is not DOWN and not idle, and not to go down, is at the boundary of a cell. -/
structure AtCell (s : State) (p : Nat) : Prop where
  idle : (s.link p).idle = none
  stays : (s.link p).downDue = false
  up : 1 ≤ s.linkState p

/-- The first of the cells that leave at a boundary, in the order of R346. -/
theorem nextCell_of_atCell (h : AtCell s p) :
    let u := s.boundary p
    let l := u.link p
    (l.beacon = true → 2 ≤ s.linkState p → s.nextCell p = (u.updLink p (fun l => { l with beacon := false })).emitCell p 3 u.beaconPay) ∧
    (l.beacon = false ∨ s.linkState p = 1 → l.admDue = true → s.linkState p ≠ 1 ∨ l.pChal = none → s.nextCell p =
      (u.updLink p (fun l => { l with admDue := false, admSent := true })).emitCell p 4 (u.admitPay p)) ∧
    (l.beacon = false ∨ s.linkState p = 1 → l.admDue = false →
      (∀ x, l.swapTx = some x → x.due = true → s.nextCell p = (u.updLink p (fun l =>
        { l with swapTx := l.swapTx.map (fun y => { y with due := false }) })).emitCell p 5 (lanePay x)) ∧
      (∀ x, l.swapTx = none → l.swapRx = some x → x.due = true → s.nextCell p = (u.updLink p (fun l =>
        { l with swapRx := none })).emitCell p 5 (lanePay x)) ∧
      (l.swapTx = none → l.swapRx = none → l.replay ≠ [] → s.nextCell p = u.sendReplay p) ∧
      (l.swapTx = none → l.swapRx = none → l.replay = [] → s.linkState p = 2 → s.nextCell p = u.sendCtrl p) ∧
      (l.swapTx = none → l.swapRx = none → l.replay = [] → s.linkState p = 1 → s.nextCell p = s.emitCell p 0 [])) := by
  intro u l
  have hu : (if (s.linkState p == 3) = true then (s.startPkt p true).startPkt p false else s) = u := by simp only [u, boundary, beq_iff_eq]
  have hruns : (s.linkState p == 0 || (s.link p).idle.isSome) = false := by rw [beq_false_of_ne (by have := h.up; omega), h.idle]; rfl
  have hlater : l.beacon = false ∨ s.linkState p = 1 → (l.beacon && decide (2 ≤ s.linkState p)) = false := fun h => by
    obtain h | h := h <;> simp [h]
  unfold nextCell
  simp only [hruns, Bool.false_eq_true, if_false, hu, bareHead]
  refine ⟨fun hbeacon hst => ?_, fun hbeacon hadm hpeer => ?_, fun hbeacon hadm => ?_⟩
  · have hnow : (l.beacon && decide (2 ≤ s.linkState p)) = true := by rw [hbeacon, decide_eq_true hst]; rfl
    exact if_pos hnow
  · have hout : ¬ (s.linkState p == 1 && l.pChal.isSome) = true := by obtain h | h := hpeer <;> simp [h]
    rw [if_neg (ne_true_of_eq_false (hlater hbeacon)), if_pos hadm, if_neg hout]
  rw [if_neg (ne_true_of_eq_false (hlater hbeacon)), if_neg (ne_true_of_eq_false hadm)]
  refine ⟨fun x htx hdue => ?_, fun x htx hrx hdue => ?_, fun htx hrx hreplay => ?_, fun htx hrx hreplay hst => ?_,
    fun htx hrx hreplay hst => ?_⟩
  · simp only [u, l] at htx ⊢
    simp only [htx, Option.filter_some, hdue, if_true]
  · simp only [u, l] at htx hrx ⊢
    simp only [htx, hrx, Option.filter_none, Option.filter_some, hdue, if_true]
  · simp only [u, l] at htx hrx hreplay ⊢
    simp only [htx, hrx, Option.filter_none, List.isEmpty_eq_false_iff.2 hreplay, Bool.not_false, if_true]
  · have hpast : (s.linkState p == 3) = false := by rw [hst]; rfl
    have hctrl : 2 ≤ s.linkState p := hst.ge
    simp only [u, l] at htx hrx hreplay ⊢
    simp only [htx, hrx, Option.filter_none, hreplay, List.isEmpty_nil, hpast, Bool.not_true, Bool.false_and, Bool.false_eq_true, if_false,
      if_pos hctrl, ite_self]
  · have hpast : (s.linkState p == 3) = false := by rw [hst]; rfl
    have hsame : s.boundary p = s := if_neg (by omega)
    have hctrl : ¬ 2 ≤ s.linkState p := by omega
    simp only [u, l, hsame] at htx hrx hreplay ⊢
    simp only [htx, hrx, Option.filter_none, hreplay, List.isEmpty_nil, hpast, Bool.not_true, Bool.false_and, Bool.false_eq_true, if_false,
      decide_eq_false hctrl, if_neg hctrl]

end Sys2Proof.Machine.State

namespace Sys2Proof.Safety
open Sys2Proof.Machine

/-- CELL_BOUNDARY of a link that is not to go down: the cell that leaves is the first in the order of R346. -/
theorem exec_cellBoundary_of_next {s t : State} {p : Nat} (hlink : s.build.isLink p = true) (hon : s.linkOn p = true)
    (hs : s.stopped = false) (h : s.AtCell p) (hnext : s.nextCell p = t) (ht : (t.link p).downDue = ((s.boundary p).link p).downDue) :
    exec (.cellBoundary p) s = .next (s.within t.settle) := by
  have hrow : s.cellBoundary p = t := by
    rw [State.cellBoundary, hnext, State.downAfter_of_not (by rw [ht, State.downDue_boundary, h.stays])]
  exact (onLink_of_on (f := fun s => s.cellBoundary p) hlink hon hs).trans (by rw [hrow])

/-- That cell by each case of that order. -/
theorem exec_cellBoundary {s : State} {p : Nat} (hlink : s.build.isLink p = true) (hon : s.linkOn p = true)
    (hs : s.stopped = false) (h : s.AtCell p) :
    let u := s.boundary p
    let l := u.link p
    (l.beacon = true → 2 ≤ s.linkState p → exec (.cellBoundary p) s =
      .next (s.within ((u.updLink p (fun l => { l with beacon := false })).emitCell p 3 u.beaconPay).settle)) ∧
    (l.beacon = false ∨ s.linkState p = 1 → l.admDue = true → s.linkState p ≠ 1 ∨ l.pChal = none → exec (.cellBoundary p) s =
      .next (s.within ((u.updLink p (fun l => { l with admDue := false, admSent := true })).emitCell p 4 (u.admitPay p)).settle)) ∧
    (l.beacon = false ∨ s.linkState p = 1 → l.admDue = false →
      (∀ x, l.swapTx = some x → x.due = true → exec (.cellBoundary p) s = .next (s.within ((u.updLink p (fun l =>
        { l with swapTx := l.swapTx.map (fun y => { y with due := false }) })).emitCell p 5 (State.lanePay x)).settle)) ∧
      (∀ x, l.swapTx = none → l.swapRx = some x → x.due = true → exec (.cellBoundary p) s = .next (s.within ((u.updLink p (fun l =>
        { l with swapRx := none })).emitCell p 5 (State.lanePay x)).settle)) ∧
      (l.swapTx = none → l.swapRx = none → l.replay ≠ [] → exec (.cellBoundary p) s = .next (s.within (u.sendReplay p).settle)) ∧
      (l.swapTx = none → l.swapRx = none → l.replay = [] → s.linkState p = 2 →
        exec (.cellBoundary p) s = .next (s.within (u.sendCtrl p).settle)) ∧
      (l.swapTx = none → l.swapRx = none → l.replay = [] → s.linkState p = 1 →
        exec (.cellBoundary p) s = .next (s.within (s.emitCell p 0 []).settle))) := by
  intro u l
  have hsent : ∀ (f : LinkPort → LinkPort) head pay, (∀ l, (f l).downDue = l.downDue) →
      (((u.updLink p f).emitCell p head pay).link p).downDue = (u.link p).downDue := fun f head pay hf => by
    rw [State.downDue_emitCell, State.link_updLink_same, hf]
  obtain ⟨hbeacon, hadmit, hrest⟩ := s.nextCell_of_atCell h
  refine ⟨fun hb hst => ?_, fun hb hadm hpeer => ?_, fun hb hadm => ?_⟩
  · exact exec_cellBoundary_of_next hlink hon hs h (hbeacon hb hst) (hsent _ _ _ fun _ => rfl)
  · exact exec_cellBoundary_of_next hlink hon hs h (hadmit hb hadm hpeer) (hsent _ _ _ fun _ => rfl)
  obtain ⟨hlane, hanswer, hreplay, hctrl, hidle⟩ := hrest hb hadm
  refine ⟨fun x htx hdue => ?_, fun x htx hrx hdue => ?_, fun htx hrx hcells => ?_, fun htx hrx hcells hst => ?_, fun htx hrx hcells hst => ?_⟩
  · exact exec_cellBoundary_of_next hlink hon hs h (hlane x htx hdue) (hsent _ _ _ fun _ => rfl)
  · exact exec_cellBoundary_of_next hlink hon hs h (hanswer x htx hrx hdue) (hsent _ _ _ fun _ => rfl)
  · exact exec_cellBoundary_of_next hlink hon hs h (hreplay htx hrx hcells) (State.downDue_sendReplay ..)
  · exact exec_cellBoundary_of_next hlink hon hs h (hctrl htx hrx hcells hst) (State.downDue_sendCtrl ..)
  · exact exec_cellBoundary_of_next hlink hon hs h (hidle htx hrx hcells hst)
      ((State.downDue_emitCell ..).trans (State.downDue_boundary s p).symm)

end Sys2Proof.Safety
end

/-! ### Links of a build beyond the ranges of R460 -/

section
namespace Sys2Proof.Safety
open Sys2Proof.Machine

/-- A build of one row, longer than R460 allows: the state of the domain of its one port block, a Nuoka Link, has the address of a
register of that port block. -/
def longLinkBuild (off : Nat) : Build :=
  { referenceA false with
    cols := 4 * (portBase 0 + off - 0xA10) - 3, rows := 1, halves := false, domw := 1, domh := 1, nmap := 0, nnkl := 1, nd2d := 0
    stations := [⟨0, 2, 0, 3, 0, 0, false⟩] }

/-- A port of a link that holds a cell for replay, has compared 2^20 symbols of its spare, and has its lanes in order. -/
def longPort : LinkPort :=
  { LinkPort.reset with lock := true, held := [⟨9, 0, [], 0⟩], calSyms := 2 ^ 20, rxLanes := [(0, 0)], rxNum := 1 }

/-- An ISOLATED link in such a block, a half of which is in reset, while an access of the CFG host to a register of the link is under way
and every domain on its way is Lit. -/
def longLink (off : Nat) : State :=
  { State.reset with
    build := longLinkBuild off, boot := 0, accs := [strandedAccess]
    regs := [(0xA08, 512), (0xA10, 3), (portBase 0 + 0x6000, 2), (portBase 0 + 0x6004, 2), (portBase 0 + off, 15)]
    links := [(0, longPort)] }

/-- The registers whose change closes the way of that access: NKL_SPARE_ERR, NKL_UNCOR_CNT and NKL_REPLAY_CNT. -/
def closingRegs : List Nat := [0x602C, 0x6034, 0x6038]

theorem longLink_runs : ∀ off ∈ closingRegs,
    (longLink off).build.isLink 0 = true ∧ (longLink off).linkOn 0 = true ∧ (longLink off).stopped = false := by decide +kernel

theorem longLink_dest : ∀ off ∈ closingRegs, cfgDest (longLink off).build strandedAccess.addr = some (0, 0, 0) := by decide +kernel

theorem longLink_lit : ∀ off ∈ closingRegs, (longLink off).dom ((longLink off).build.meshDom 0 0) = 3 ∧
    (longLink off).dom ((longLink off).build.portDom 0) = 3 := by decide +kernel

theorem longLink_far : ∀ off ∈ closingRegs, (longLink off).halfReset false = true ∧
    (longLink off).build.portDom 0 ≠ (longLink off).addrDom strandedAccess.addr := by decide +kernel

section Closing
variable {off : Nat} (hoff : off ∈ closingRegs)
include hoff

/-- While the domain of the port block is Lit, the access can be answered. -/
theorem longLink_open : (longLink off).accsDown = [] := by
  obtain ⟨hnode, hport⟩ := longLink_lit off hoff
  have hpath : (longLink off).pathDown strandedAccess.addr (0, 0, 0) = false := by
    refine State.pathDown_of_lit (s := longLink off) (d := (0, 0, 0)) (fun n hroute => ?_) hport
    obtain ⟨hcol, hrow⟩ := hroute.elim origin_of_onRoute origin_of_onRoute
    rw [Build.nodeDom, hcol, hrow, hnode]
  rw [State.accsDown_of_one rfl (longLink_dest off hoff), hpath]
  rfl

theorem quiet_longLink : Quiet (longLink off) :=
  ⟨rfl, rfl, rfl, rfl, rfl, rfl, rfl, rfl, rfl, rfl, rfl, rfl, .inl rfl, rfl, rfl, rfl, rfl, longLink_open hoff, rfl⟩

/-- A row after which the domain of the port block no longer reads as Lit ends the access. -/
theorem exec_longLink {c : Instr} {f : State → State} (hc : ∀ s, exec c s = onLink 0 s f) (hstep : LinkStep (longLink off) (f (longLink off)))
    (hdark : (f (longLink off)).dom ((longLink off).build.portDom 0) ≠ 3) : ∃ t, exec c (longLink off) = .next t ∧ t.accs = [] := by
  obtain ⟨hlink, hon, hs⟩ := longLink_runs off hoff
  obtain ⟨hhalf, hfar⟩ := longLink_far off hoff
  obtain ⟨hsettle, -⟩ := hstep.settle (quiet_longLink hoff) hs
  refine ⟨(f (longLink off)).closeDown, by rw [hc, onLink_of_on hlink hon hs, hsettle], ?_⟩
  have haddr : (f (longLink off)).addrDom strandedAccess.addr = (longLink off).addrDom strandedAccess.addr := by
    unfold State.addrDom State.bankDom
    rw [hstep.build]
  have hword : (f (longLink off)).word 0xA08 = (longLink off).word 0xA08 := hstep.word _ (by decide) (by decide) (by decide)
  refine State.accs_closeDown_of_dark_port (d := (0, 0, 0)) (x := strandedAccess) rfl hstep.accs ?_ ((halfReset_congr hword false).trans hhalf)
    (by decide) ?_ ?_
  · rw [hstep.build]
    exact longLink_dest off hoff
  · rw [hstep.build, haddr]
    exact hfar
  · rw [hstep.build]
    exact hdark

/-- So it cannot leave the accesses under way as they were. -/
theorem accs_of_longLink {c : Instr} {f : State → State} (hc : ∀ s, exec c s = onLink 0 s f)
    (hstep : LinkStep (longLink off) (f (longLink off))) (hdark : (f (longLink off)).dom ((longLink off).build.portDom 0) ≠ 3) {t : State}
    (ht : exec c (longLink off) = .next t) : t.accs ≠ (longLink off).accs := by
  obtain ⟨u, hu, haccs⟩ := exec_longLink hoff hc hstep hdark
  obtain rfl : u = t := Host.Outcome.next.inj (hu.symm.trans ht)
  rw [haccs]
  nofun

end Closing

theorem longLink_calibrated : (longLink 0x602C).hasSpare 0 = true ∧ 2 ^ 20 ≤ ((longLink 0x602C).link 0).calSyms ∧
    ((longLink 0x602C).spareCalibrate 0 0).dom ((longLink 0x602C).build.portDom 0) ≠ 3 := by decide +kernel

/-- Refutes O39: its builds are not held to the ranges of R460. Where NKL_SPARE_ERR of a port has the address at which the model keeps the
state of a power domain, SPARE_CALIBRATE ends an access under way to that domain. In a legal build every clause holds: `exec_phyLock_of_few`,
`exec_phyLock_of_enough`, `exec_trainingTimeout`, `exec_linkIdleEnd`, `exec_spareCalibrate_of_few`, `exec_spareCalibrate_of_compared`,
`exec_admitSend` and `exec_spareRotate`. -/
theorem not_linkTrainingRows : ¬ Obligations.LinkTrainingRows := by
  unfold Obligations.LinkTrainingRows
  intro h
  have hoff : 0x602C ∈ closingRegs := by decide
  obtain ⟨hlink, hon, hs⟩ := longLink_runs _ hoff
  obtain ⟨hspare, hsyms, hdark⟩ := longLink_calibrated
  obtain ⟨-, -, -, hcalibrate, -⟩ := h (longLink 0x602C) 0 hlink hon hs (quiet_longLink hoff)
  obtain ⟨t, ht, -, -, -, -, -, -, hframe⟩ := hcalibrate 0 hspare hsyms
  exact accs_of_longLink hoff (f := fun s => s.spareCalibrate 0 0) (fun _ => rfl) (LinkStep.spareCalibrate ..) hdark ht
    (congrArg State.accs hframe :)

theorem longLink_held : (longLink 0x6038).link 0 = longPort ∧
    ((longLink 0x6038).link 0).tries < (longLink 0x6038).get (portBase 0) F.NKL_LINK_MAXREPLAY ∧
    ((longLink 0x6038).replayTimeout 0).dom ((longLink 0x6038).build.portDom 0) ≠ 3 := by decide +kernel

/-- Refutes O40: its builds are not held to the ranges of R460. Where NKL_REPLAY_CNT of a port has the address at which the model keeps the
state of a power domain, REPLAY_TIMEOUT ends an access under way to that domain. In a legal build every clause holds:
`exec_replayTimeout_of_limit`, `exec_linkDead`, `exec_laneFail_of_no_spare`, `exec_fdiError`, `exec_replayTimeout_of_below` and
`exec_laneFail_of_spare`. -/
theorem not_linkDownRows : ¬ Obligations.LinkDownRows := by
  unfold Obligations.LinkDownRows
  rintro ⟨-, hreplay, -⟩
  have hoff : 0x6038 ∈ closingRegs := by decide
  obtain ⟨hlink, hon, hs⟩ := longLink_runs _ hoff
  obtain ⟨hheld, htries, hdark⟩ := longLink_held
  have hcell : ((longLink 0x6038).link 0).held = [⟨9, 0, [], 0⟩] := by rw [hheld]; rfl
  obtain ⟨t, ht, -, -, -, -, hframe⟩ := hreplay (longLink 0x6038) 0 hlink hon hs (quiet_longLink hoff) (by rw [hcell]; nofun) htries
  have hstep : LinkStep (longLink 0x6038) ((longLink 0x6038).replayTimeout 0) := by
    rw [State.replayTimeout_of_held hcell, if_neg (Nat.not_le.2 htries)]
    exact (((LinkStep.refl _).passCyc _).bump ..).updLink ..
  exact accs_of_longLink hoff (f := fun s => s.replayTimeout 0) (fun _ => rfl) hstep hdark ht (congrArg State.accs hframe :)

/-! A frame that cannot be decoded. -/

/-- The coefficients of the polynomial with the first sixteen roots of the code's thirty, high-order first. -/
def sixteenRoots : List Nat := (natFold (fun p j => rgAdd (0 :: p) (p.map fun c => rgMul c (rgPow j))) [1] 16).reverse

/-- A frame whose first codeword ends in them, and is zero before, as is the second. -/
def farFrame : List Nat := (List.replicate 527 0 ++ sixteenRoots).flatMap fun c => [c, 0]

theorem length_sixteenRoots : sixteenRoots.length = 17 := by decide +kernel

/-- The symbols of the first codeword of a frame are every second one. -/
theorem getElem?_interleaved (l : List Nat) (i : Nat) : (l.flatMap fun c => [c, 0])[2 * i + 0]? = l[i]? := by
  induction l generalizing i with
  | nil => rfl
  | cons c l ih =>
    cases i with
    | zero => rfl
    | succ i => exact ih i

theorem map_getElem?_upFrom (l : List Nat) (k : Nat) : (upFrom k l.length).map (fun i => (l[i - k]?).getD 0) = l := by
  induction l generalizing k with
  | nil => rfl
  | cons c l ih =>
    rw [List.length_cons, upFrom, List.map_cons, Nat.sub_self]
    refine congrArg (c :: ·) (Eq.trans (List.map_congr_left fun i hi => ?_) (ih (k + 1)))
    have hlt := (mem_upFrom ..).1 hi
    rw [show i - k = i - (k + 1) + 1 by omega, List.getElem?_cons_succ]

/-- Zeros before a word leave its syndromes as they are. -/
theorem rsSyndromes_zeros (n : Nat) (l : List Nat) : rsSyndromes (List.replicate n 0 ++ l) = rsSyndromes l := by
  refine List.map_congr_left fun j _ => ?_
  have hzero : rgMul 0 (rgPow j) = 0 := by simp [rgMul, natFold, rgX]
  induction n with
  | zero => rfl
  | succ n ih =>
    rw [List.replicate_succ, List.cons_append, List.foldl_cons, hzero]
    exact ih

/-- With so many roots missing the error locator would need more than the fifteen roots that the code allows. -/
theorem locator_sixteenRoots : (rsSyndromes sixteenRoots).all (· == 0) = false ∧
    15 < (natFold (bmStep (rsSyndromes sixteenRoots)) ⟨[1], [1], 0, 1, 1⟩ 30).l := by decide +kernel

theorem rsDecode_of_far (n : Nat) : rsDecode (List.replicate n 0 ++ sixteenRoots) = none := by
  obtain ⟨hsyn, hfar⟩ := locator_sixteenRoots
  simp only [rsDecode, rsSyndromes_zeros, hsyn, decide_eq_true hfar, Bool.true_or, Bool.false_eq_true, if_false, if_true]

theorem frameDecode_of_none {sy w : List Nat} (hword : (upFrom 0 544).map (fun i => (sy[2 * i + 0]?).getD 0) = w)
    (h : rsDecode w = none) : frameDecode sy = none := by
  unfold frameDecode
  simp only [hword, h]

theorem frameDecode_farFrame : frameDecode farFrame = none := by
  have hpick (n : Nat) (l : List Nat) (hlen : l.length = n) :
      (upFrom 0 n).map (fun i => ((l.flatMap fun c => [c, 0])[2 * i + 0]?).getD 0) = l := by
    subst hlen
    simpa only [getElem?_interleaved, Nat.sub_zero] using map_getElem?_upFrom l 0
  have hlen : (List.replicate 527 0 ++ sixteenRoots).length = 544 := by
    rw [List.length_append, List.length_replicate, length_sixteenRoots]
  exact frameDecode_of_none (hpick 544 _ hlen) (rsDecode_of_far 527)

/-- That frame on the first lane. -/
def farLanes : List LaneSyms := [⟨0, none, farFrame.map (BitVec.ofNat 10)⟩]

theorem frameSyms_longLink : (longLink 0x6034).frameSyms 0 farLanes = farFrame := by decide +kernel

/-- In such a block the word that keeps the state of the domain is the count of frames that cannot be decoded. -/
theorem longLink_counted : 0xA10 + 4 * ((longLink 0x6034).build.portDom 0 / 16) = portBase 0 + F.NKL_UNCOR_CNT_COUNT.off ∧
    ((((longLink 0x6034).frameRead 0).bump (portBase 0) F.NKL_UNCOR_CNT_COUNT 1).set (portBase 0) F.NKL_ERR_FEC_UNCOR 1).dom
      ((longLink 0x6034).build.portDom 0) ≠ 3 := by decide +kernel

theorem longLink_plain : (longLink 0x6034).PlainFrame 0 farLanes := by
  obtain ⟨hup, hkind, hstate⟩ : 1 ≤ (longLink 0x6034).linkState 0 ∧ (longLink 0x6034).isD2d 0 = false ∧ (longLink 0x6034).linkState 0 ≠ 1 := by
    decide +kernel
  have hport : (longLink 0x6034).link 0 = longPort := rfl
  exact {
    up := hup
    lock := by rw [hport]; rfl
    idle := by rw [hport]; rfl
    kind := hkind
    ordered := by rw [hport]; nofun
    aligned := (absurd · hstate)
    unswapped := by rw [hport]; rfl
    unmarked := by rw [hport]; decide
    uncompared := fun _ => by rw [hport]; rfl }

/-- Refutes O41: its builds are not held to the ranges of R460. Where NKL_UNCOR_CNT of a port has the address at which the model keeps the
state of a power domain, FRAME_RECEIVE ends an access under way to that domain. In a legal build every clause holds:
`exec_frameReceive_of_undecoded`, `exec_frameReceive_of_training` and `exec_frameReceive_of_unordered`, and in every build those of
`exec_frameReceive_of_up`, `exec_frameReceive_of_d2d` and `exec_cellBoundary`. -/
theorem not_framesAndCells : ¬ Obligations.FramesAndCells := by
  unfold Obligations.FramesAndCells
  intro h
  have hoff : 0x6034 ∈ closingRegs := by decide
  obtain ⟨hlink, hon, hs⟩ := longLink_runs _ hoff
  have hplain := longLink_plain
  have hsyms : frameDecode ((longLink 0x6034).frameSyms 0 farLanes) = none := by rw [frameSyms_longLink, frameDecode_farFrame]
  have hreceive := State.frameReceive_of_plain hplain
  have hstep : LinkStep (longLink 0x6034) ((longLink 0x6034).frameReceive 0 farLanes) := by
    rw [hreceive]
    exact ((LinkStep.refl _).updLink ..).takeFrame_of_none hsyms
  have hdark : ((longLink 0x6034).frameReceive 0 farLanes).dom ((longLink 0x6034).build.portDom 0) ≠ 3 := by
    obtain ⟨hword, hdark⟩ := longLink_counted
    rwa [State.dom, hreceive, State.word_takeFrame_of_none hsyms (by rw [hword]; decide)]
  obtain ⟨hframes, -⟩ := h (longLink 0x6034) 0 hlink hon hs
  obtain ⟨hundecoded, -⟩ := hframes farLanes hplain.up hplain.lock hplain.idle
  obtain ⟨t, ht, -, -, -, -, hframe⟩ := hundecoded
    ⟨hplain.kind, hplain.ordered, hplain.aligned, hplain.unswapped, hplain.unmarked, hplain.uncompared⟩ hsyms (quiet_longLink hoff)
  exact accs_of_longLink hoff (f := fun s => s.frameReceive 0 farLanes) (fun _ => rfl) hstep hdark ht (congrArg State.accs hframe :)

end Sys2Proof.Safety
end
